-- ==== Sys2Proof/Word.lean ====
section
/-! DEFINITION. The word types of the KH-4096 (01 R11, 03 R63). -/

namespace Sys2Proof

/-- A byte of memory. -/
abbrev Byte := BitVec 8

/-- A 16-bit parcel of the instruction stream (03 R63). -/
abbrev Parcel := BitVec 16

/-- A 32-bit instruction word, and a word of an engine command (03 R63). -/
abbrev Word := BitVec 32

/-- The contents of a general register, and an address held in one (01 R11, R28). -/
abbrev Reg := BitVec 64

/-- The contents of a vector register (01 R14). -/
abbrev Vec := BitVec 512

/-- A membership: one bit for each of 256 queries (01 R16). -/
abbrev Members := BitVec 256

end Sys2Proof
end

