-- ==== Sys2Proof/Syntax.lean ====
section
/-! DEFINITION. The instructions and operations of the KH-4096: one constructor for each row of the
spec's opcode table.

The rows with operands stand first, in the table's order, and those without after them.

A constructor of an encoded row holds that row's fields, lowest bits first, under the table's own
field names (03 R68, Table 3.3). The row of an engine command header holds the header's bits 31:7
and the seven words after it (03 R76). A row without bits is an operation of an engine, of the
scheduler, of the memory system, of the fabric or of the host: its operands say which of the
pending items it takes, or what the outside world brings. -/

namespace Sys2Proof

/-- One constructor for each row of spec/opcode_table.json. -/
inductive Instr where
  /-- ADD (R103). Writes the sum of two general registers, modulo 2^64. -/
  | add (d : BitVec 5) (a : BitVec 5) (b : BitVec 5)
  /-- SUB (R103). Writes the difference of two general registers, modulo 2^64. -/
  | sub (d : BitVec 5) (a : BitVec 5) (b : BitVec 5)
  /-- AND (R103). Writes the bitwise AND of two general registers. -/
  | and (d : BitVec 5) (a : BitVec 5) (b : BitVec 5)
  /-- OR (R103). Writes the bitwise OR of two general registers. -/
  | or (d : BitVec 5) (a : BitVec 5) (b : BitVec 5)
  /-- XOR (R103). Writes the bitwise XOR of two general registers. -/
  | xor (d : BitVec 5) (a : BitVec 5) (b : BitVec 5)
  /-- SHL (R103). Shifts left by the low six bits of the second operand, filling with zeros. -/
  | shl (d : BitVec 5) (a : BitVec 5) (b : BitVec 5)
  /-- SHR (R103). Shifts right logically by the low six bits of the second operand. -/
  | shr (d : BitVec 5) (a : BitVec 5) (b : BitVec 5)
  /-- SHA (R103). Shifts right arithmetically by the low six bits of the second operand. -/
  | sha (d : BitVec 5) (a : BitVec 5) (b : BitVec 5)
  /-- MIN (R103). Writes the signed minimum of two registers. -/
  | min (d : BitVec 5) (a : BitVec 5) (b : BitVec 5)
  /-- MAX (R103). Writes the signed maximum of two registers. -/
  | max (d : BitVec 5) (a : BitVec 5) (b : BitVec 5)
  /-- MINU (R103). Writes the unsigned minimum of two registers. -/
  | minu (d : BitVec 5) (a : BitVec 5) (b : BitVec 5)
  /-- MAXU (R103). Writes the unsigned maximum of two registers. -/
  | maxu (d : BitVec 5) (a : BitVec 5) (b : BitVec 5)
  /-- SLT (R103). Writes 1 if the first register is less than the second as signed values, else 0. -/
  | slt (d : BitVec 5) (a : BitVec 5) (b : BitVec 5)
  /-- SLTU (R103). Writes 1 if the first register is less than the second as unsigned values, else 0. -/
  | sltu (d : BitVec 5) (a : BitVec 5) (b : BitVec 5)
  /-- SEL (R103). Selects the first or second operand by whether the destination register is nonzero. -/
  | sel (d : BitVec 5) (a : BitVec 5) (b : BitVec 5)
  /-- HINT (R79). A word in the hint space executes as a no-op. -/
  | hint (d : BitVec 5) (a : BitVec 5) (b : BitVec 5) (h : BitVec 6)
  /-- MUL (R104). Writes the low 64 bits of the product. -/
  | mul (d : BitVec 5) (a : BitVec 5) (b : BitVec 5)
  /-- MULH (R104). Writes the high 64 bits of the signed 128-bit product. -/
  | mulh (d : BitVec 5) (a : BitVec 5) (b : BitVec 5)
  /-- MULHU (R104). Writes the high 64 bits of the unsigned 128-bit product. -/
  | mulhu (d : BitVec 5) (a : BitVec 5) (b : BitVec 5)
  /-- DIV (R104). Writes the signed quotient, with defined results for zero divisor and overflow. -/
  | div (d : BitVec 5) (a : BitVec 5) (b : BitVec 5)
  /-- DIVU (R104). Writes the unsigned quotient, all ones for a zero divisor. -/
  | divu (d : BitVec 5) (a : BitVec 5) (b : BitVec 5)
  /-- REM (R104). Writes the signed remainder with the sign of the dividend. -/
  | rem (d : BitVec 5) (a : BitVec 5) (b : BitVec 5)
  /-- REMU (R104). Writes the unsigned remainder. -/
  | remu (d : BitVec 5) (a : BitVec 5) (b : BitVec 5)
  /-- CLZ (R105). Counts the zero bits above the highest set bit. -/
  | clz (d : BitVec 5) (a : BitVec 5)
  /-- CTZ (R105). Counts the zero bits below the lowest set bit. -/
  | ctz (d : BitVec 5) (a : BitVec 5)
  /-- POPC (R105). Counts the set bits. -/
  | popc (d : BitVec 5) (a : BitVec 5)
  /-- BREV (R105). Reverses the bit order of a register. -/
  | brev (d : BitVec 5) (a : BitVec 5)
  /-- BFX (R106). Extracts a bit field, zero-extended. -/
  | bfx (d : BitVec 5) (a : BitVec 5) (p : BitVec 6) (l : BitVec 6)
  /-- BFXS (R106). Extracts a bit field, sign-extended. -/
  | bfxs (d : BitVec 5) (a : BitVec 5) (p : BitVec 6) (l : BitVec 6)
  /-- BFI (R106). Inserts the low bits of a register into a field of the destination. -/
  | bfi (d : BitVec 5) (a : BitVec 5) (p : BitVec 6) (l : BitVec 6)
  /-- ADDI (R107). Adds a sign-extended 15-bit immediate. -/
  | addi (d : BitVec 5) (a : BitVec 5) (i : BitVec 15)
  /-- ANDI (R107). ANDs with a sign-extended immediate. -/
  | andi (d : BitVec 5) (a : BitVec 5) (i : BitVec 15)
  /-- ORI (R107). ORs with a sign-extended immediate. -/
  | ori (d : BitVec 5) (a : BitVec 5) (i : BitVec 15)
  /-- XORI (R107). XORs with a sign-extended immediate. -/
  | xori (d : BitVec 5) (a : BitVec 5) (i : BitVec 15)
  /-- SLTI (R107). Signed compare with an immediate. -/
  | slti (d : BitVec 5) (a : BitVec 5) (i : BitVec 15)
  /-- SLTUI (R107). Unsigned compare with a sign-extended immediate. -/
  | sltui (d : BitVec 5) (a : BitVec 5) (i : BitVec 15)
  /-- SHLI (R108). Shifts left by an immediate count. -/
  | shli (d : BitVec 5) (a : BitVec 5) (n : BitVec 6)
  /-- SHRI (R108). Shifts right logically by an immediate count. -/
  | shri (d : BitVec 5) (a : BitVec 5) (n : BitVec 6)
  /-- SHAI (R108). Shifts right arithmetically by an immediate count. -/
  | shai (d : BitVec 5) (a : BitVec 5) (n : BitVec 6)
  /-- LEA (R109). Forms base plus scaled index plus small offset without accessing memory. -/
  | lea (d : BitVec 5) (a : BitVec 5) (b : BitVec 5) (k : BitVec 2) (e : BitVec 8)
  /-- LUI (R110). Loads a 20-bit immediate into bits 31:12, sign-extended. -/
  | lui (d : BitVec 5) (i : BitVec 20)
  /-- ADDPC (R111). Adds a shifted immediate to the instruction's base address. -/
  | addpc (d : BitVec 5) (i : BitVec 20)
  /-- FADD (R113). Scalar floating-point addition. -/
  | fadd (d : BitVec 5) (a : BitVec 5) (b : BitVec 5) (f : BitVec 1) (m : BitVec 3)
  /-- FSUB (R113). Scalar floating-point subtraction. -/
  | fsub (d : BitVec 5) (a : BitVec 5) (b : BitVec 5) (f : BitVec 1) (m : BitVec 3)
  /-- FMUL (R113). Scalar floating-point multiplication. -/
  | fmul (d : BitVec 5) (a : BitVec 5) (b : BitVec 5) (f : BitVec 1) (m : BitVec 3)
  /-- FFMA (R113). Fused multiply-add with the destination as addend. -/
  | ffma (d : BitVec 5) (a : BitVec 5) (b : BitVec 5) (f : BitVec 1) (m : BitVec 3)
  /-- FDIV (R113). Scalar floating-point division. -/
  | fdiv (d : BitVec 5) (a : BitVec 5) (b : BitVec 5) (f : BitVec 1) (m : BitVec 3)
  /-- FSQRT (R113). Scalar floating-point square root. -/
  | fsqrt (d : BitVec 5) (a : BitVec 5) (f : BitVec 1) (m : BitVec 3)
  /-- FMIN (R113). Floating-point minimum as R48 orders it. -/
  | fmin (d : BitVec 5) (a : BitVec 5) (b : BitVec 5) (f : BitVec 1)
  /-- FMAX (R113). Floating-point maximum as R48 orders it. -/
  | fmax (d : BitVec 5) (a : BitVec 5) (b : BitVec 5) (f : BitVec 1)
  /-- FCMP (R114). Floating-point compare writing 1 or 0 under a condition. -/
  | fcmp (d : BitVec 5) (a : BitVec 5) (b : BitVec 5) (f : BitVec 1) (c : BitVec 3)
  /-- FCVT (R116). Converts between a floating-point format and another format. -/
  | fcvt (d : BitVec 5) (a : BitVec 5) (t : BitVec 5) (m : BitVec 3) (s : BitVec 5)
  /-- BEQ (R117). Branches if the registers are equal. -/
  | beq (p : BitVec 5) (a : BitVec 5) (b : BitVec 5) (o : BitVec 10)
  /-- BNE (R117). Branches if the registers differ. -/
  | bne (p : BitVec 5) (a : BitVec 5) (b : BitVec 5) (o : BitVec 10)
  /-- BLT (R117). Branches if less, signed. -/
  | blt (p : BitVec 5) (a : BitVec 5) (b : BitVec 5) (o : BitVec 10)
  /-- BGE (R117). Branches if greater or equal, signed. -/
  | bge (p : BitVec 5) (a : BitVec 5) (b : BitVec 5) (o : BitVec 10)
  /-- BLTU (R117). Branches if less, unsigned. -/
  | bltu (p : BitVec 5) (a : BitVec 5) (b : BitVec 5) (o : BitVec 10)
  /-- BGEU (R117). Branches if greater or equal, unsigned. -/
  | bgeu (p : BitVec 5) (a : BitVec 5) (b : BitVec 5) (o : BitVec 10)
  /-- JAL (R119). Jumps pc-relative and writes the link. -/
  | jal (d : BitVec 5) (o : BitVec 20)
  /-- JALR (R119). Jumps to register plus immediate and writes the link. -/
  | jalr (d : BitVec 5) (a : BitVec 5) (i : BitVec 15)
  /-- LOOP (R118). Decrements a counter register and branches while it is nonzero. -/
  | loop (p : BitVec 5) (a : BitVec 5) (o : BitVec 10)
  /-- DICTIONARY_CODE (R66). A 16-bit code expands through the dictionary table and executes the stored word. -/
  | dictionaryCode (s : BitVec 5) (i : BitVec 10)
  /-- LD (R125). Scalar load, possibly hitting the read-only L1. -/
  | ld (d : BitVec 5) (a : BitVec 5) (s : BitVec 3) (i : BitVec 12)
  /-- LDF (R127). Scalar load that bypasses and invalidates the L1. -/
  | ldf (d : BitVec 5) (a : BitVec 5) (s : BitVec 3) (i : BitVec 12)
  /-- ST (R131). Scalar store, into the larder or the store buffer. -/
  | st (j : BitVec 5) (a : BitVec 5) (b : BitVec 5) (s : BitVec 3) (i : BitVec 7)
  /-- PF (R134). Prefetches a line into its home slice or the L1. -/
  | pf (k : BitVec 5) (a : BitVec 5) (i : BitVec 15)
  /-- AMO (R140). Integer atomic read-modify-write at the home, with release and acquire at its scope. -/
  | amo (d : BitVec 5) (a : BitVec 5) (b : BitVec 5) (s : BitVec 3) (w : BitVec 2) (o : BitVec 4)
  /-- CAS (R141). Atomic compare-and-swap at the home. -/
  | cas (d : BitVec 5) (a : BitVec 5) (b : BitVec 5) (s : BitVec 3) (w : BitVec 2)
  /-- AMOF (R142). Floating-point atomic add, min or max at the home. -/
  | amof (d : BitVec 5) (a : BitVec 5) (b : BitVec 5) (s : BitVec 3) (t : BitVec 2) (o : BitVec 4)
  /-- RED_ADD (R148). Sends vector lanes as one contribution to an open reduction epoch. -/
  | redAdd (d : BitVec 5) (a : BitVec 5) (b : BitVec 5) (p : BitVec 3) (t : BitVec 5)
  /-- ACQ (R137). Acquire at a scope, invalidating writable L1 lines at cluster scope or wider. -/
  | acq (s : BitVec 3)
  /-- REL (R136). Release at a scope, holding later accesses until earlier ones complete. -/
  | rel (s : BitVec 3)
  /-- FENCE (R139). Orders the named classes of access of the slot. -/
  | fence (k : BitVec 2)
  /-- BAR_INIT (R152). Sets up a barrier object and resets its waiters. -/
  | barInit (a : BitVec 5) (b : BitVec 5)
  /-- BAR_ARR (R153). Releases, then counts an arrival and may complete the phase. -/
  | barArr (d : BitVec 5) (a : BitVec 5)
  /-- BAR_WAIT (R154). Waits for the barrier phase to pass its token. -/
  | barWait (d : BitVec 5) (a : BitVec 5) (b : BitVec 5)
  /-- BAR_INFO (R156). Reads a barrier object's N, A and G. -/
  | barInfo (d : BitVec 5) (a : BitVec 5)
  /-- BAR_FREE (R156). Resets waiters and frees the barrier object. -/
  | barFree (a : BitVec 5)
  /-- CNT_INIT (R159). Makes a counter live with a value, or retires it. -/
  | cntInit (d : BitVec 5) (a : BitVec 5) (b : BitVec 5)
  /-- CNT_SIG (R161). Releases at package scope, then subtracts 1 from the counter. -/
  | cntSig (a : BitVec 5)
  /-- CNT_WAIT (R161). Waits until the counter fires, then acquires. -/
  | cntWait (d : BitVec 5) (a : BitVec 5)
  /-- CNT_ADD (R161). Adds an amount to the counter and returns its old value. -/
  | cntAdd (d : BitVec 5) (a : BitVec 5) (b : BitVec 5)
  /-- PUBLISH (R162). Writes the function's buffered host lines and advances its version word. -/
  | publish (d : BitVec 5) (a : BitVec 5)
  /-- RED_DECL (R147). Declares, closes or abandons the core's part in a reduction epoch. -/
  | redDecl (d : BitVec 5) (a : BitVec 5) (b : BitVec 5)
  /-- VLD (R168). Masked vector load. -/
  | vld (v : BitVec 5) (a : BitVec 5) (p : BitVec 3) (t : BitVec 5) (i : BitVec 7)
  /-- VST (R168). Masked vector store. -/
  | vst (v : BitVec 5) (a : BitVec 5) (p : BitVec 3) (t : BitVec 5) (i : BitVec 7)
  /-- VLDX (R171). Indexed vector gather load. -/
  | vldx (d : BitVec 5) (a : BitVec 5) (b : BitVec 5) (p : BitVec 3) (t : BitVec 5) (k : BitVec 2)
  /-- VSTX (R171). Indexed vector scatter store. -/
  | vstx (d : BitVec 5) (a : BitVec 5) (b : BitVec 5) (p : BitVec 3) (t : BitVec 5) (k : BitVec 2)
  /-- VADD (R173). Lane-wise addition. -/
  | vadd (d : BitVec 5) (a : BitVec 5) (b : BitVec 5) (p : BitVec 2) (t : BitVec 5) (m : BitVec 3)
  /-- VSUB (R173). Lane-wise subtraction. -/
  | vsub (d : BitVec 5) (a : BitVec 5) (b : BitVec 5) (p : BitVec 2) (t : BitVec 5) (m : BitVec 3)
  /-- VMUL (R173). Lane-wise multiplication. -/
  | vmul (d : BitVec 5) (a : BitVec 5) (b : BitVec 5) (p : BitVec 2) (t : BitVec 5) (m : BitVec 3)
  /-- VFMA (R173). Lane-wise fused multiply-add. -/
  | vfma (d : BitVec 5) (a : BitVec 5) (b : BitVec 5) (p : BitVec 2) (t : BitVec 5) (m : BitVec 3)
  /-- VFMS (R173). Lane-wise fused multiply-subtract. -/
  | vfms (d : BitVec 5) (a : BitVec 5) (b : BitVec 5) (p : BitVec 2) (t : BitVec 5) (m : BitVec 3)
  /-- VRCP (R174). Lane-wise reciprocal. -/
  | vrcp (d : BitVec 5) (a : BitVec 5) (p : BitVec 2) (t : BitVec 5) (m : BitVec 3)
  /-- VRSQ (R174). Lane-wise reciprocal square root. -/
  | vrsq (d : BitVec 5) (a : BitVec 5) (p : BitVec 2) (t : BitVec 5) (m : BitVec 3)
  /-- VEXP2 (R174). Lane-wise base-2 exponential. -/
  | vexp2 (d : BitVec 5) (a : BitVec 5) (p : BitVec 2) (t : BitVec 5) (m : BitVec 3)
  /-- VLOG2 (R174). Lane-wise base-2 logarithm. -/
  | vlog2 (d : BitVec 5) (a : BitVec 5) (p : BitVec 2) (t : BitVec 5) (m : BitVec 3)
  /-- VABS (R174). Lane-wise absolute value. -/
  | vabs (d : BitVec 5) (a : BitVec 5) (p : BitVec 2) (t : BitVec 5) (m : BitVec 3)
  /-- VNEG (R174). Lane-wise negation. -/
  | vneg (d : BitVec 5) (a : BitVec 5) (p : BitVec 2) (t : BitVec 5) (m : BitVec 3)
  /-- VCVT (R179). Converts vector elements between types. -/
  | vcvt (d : BitVec 5) (a : BitVec 5) (t : BitVec 5) (p : BitVec 2) (s : BitVec 5) (m : BitVec 3)
  /-- VRED (R183). Reduces the lanes by a fixed tree into lane 0. -/
  | vred (d : BitVec 5) (a : BitVec 5) (o : BitVec 4) (p : BitVec 2) (t : BitVec 5) (m : BitVec 3)
  /-- VSCAN (R183). Inclusive scan of the lanes in fixed order. -/
  | vscan (d : BitVec 5) (a : BitVec 5) (o : BitVec 4) (p : BitVec 2) (t : BitVec 5) (m : BitVec 3)
  /-- VDOT (R182). Dot products of narrow elements accumulated into 32-bit lanes. -/
  | vdot (d : BitVec 5) (a : BitVec 5) (b : BitVec 5) (p : BitVec 2) (t : BitVec 5) (m : BitVec 3)
  /-- VMIN (R175). Lane-wise minimum. -/
  | vmin (d : BitVec 5) (a : BitVec 5) (b : BitVec 5) (p : BitVec 3) (t : BitVec 5)
  /-- VMAX (R175). Lane-wise maximum. -/
  | vmax (d : BitVec 5) (a : BitVec 5) (b : BitVec 5) (p : BitVec 3) (t : BitVec 5)
  /-- VAND (R175). Lane-wise AND. -/
  | vand (d : BitVec 5) (a : BitVec 5) (b : BitVec 5) (p : BitVec 3) (t : BitVec 5)
  /-- VOR (R175). Lane-wise OR. -/
  | vor (d : BitVec 5) (a : BitVec 5) (b : BitVec 5) (p : BitVec 3) (t : BitVec 5)
  /-- VXOR (R175). Lane-wise XOR. -/
  | vxor (d : BitVec 5) (a : BitVec 5) (b : BitVec 5) (p : BitVec 3) (t : BitVec 5)
  /-- VSHL (R175). Lane-wise left shift. -/
  | vshl (d : BitVec 5) (a : BitVec 5) (b : BitVec 5) (p : BitVec 3) (t : BitVec 5)
  /-- VSHR (R175). Lane-wise logical right shift. -/
  | vshr (d : BitVec 5) (a : BitVec 5) (b : BitVec 5) (p : BitVec 3) (t : BitVec 5)
  /-- VSHA (R175). Lane-wise arithmetic right shift. -/
  | vsha (d : BitVec 5) (a : BitVec 5) (b : BitVec 5) (p : BitVec 3) (t : BitVec 5)
  /-- VCMP (R176). Lane-wise compare into a mask register. -/
  | vcmp (q : BitVec 3) (e : BitVec 2) (a : BitVec 5) (b : BitVec 5) (p : BitVec 3) (t : BitVec 5) (c : BitVec 2)
  /-- VSEL (R177). Selects lanes from two registers by a mask. -/
  | vsel (d : BitVec 5) (a : BitVec 5) (b : BitVec 5) (p : BitVec 3) (t : BitVec 5)
  /-- VPERM (R177). Permutes lanes by an index vector. -/
  | vperm (d : BitVec 5) (a : BitVec 5) (b : BitVec 5) (p : BitVec 3) (t : BitVec 5)
  /-- VPACK (R178). Packs two registers into narrow elements by truncation. -/
  | vpack (d : BitVec 5) (a : BitVec 5) (b : BitVec 5) (t : BitVec 5)
  /-- VUNPK (R178). Unpacks one half of narrow elements into wider lanes. -/
  | vunpk (d : BitVec 5) (a : BitVec 5) (h : BitVec 5) (t : BitVec 5)
  /-- VBCAST (R180). Broadcasts a general register into lanes. -/
  | vbcast (d : BitVec 5) (a : BitVec 5) (p : BitVec 3) (t : BitVec 5)
  /-- VMOVG (R180). Moves one lane into a general register. -/
  | vmovg (d : BitVec 5) (a : BitVec 5) (b : BitVec 5) (t : BitVec 5)
  /-- VLUT (R181). Decodes 4-bit codes through the LUT to INT8 lanes. -/
  | vlut (d : BitVec 5) (a : BitVec 5) (h : BitVec 5)
  /-- VLUTSET (R181). Writes the core's LUT from a vector register. -/
  | vlutset (a : BitVec 5)
  /-- PAND (R184). ANDs two mask registers. -/
  | pand (d : BitVec 5) (a : BitVec 5) (b : BitVec 5)
  /-- POR (R184). ORs two mask registers. -/
  | por (d : BitVec 5) (a : BitVec 5) (b : BitVec 5)
  /-- PXOR (R184). XORs two mask registers. -/
  | pxor (d : BitVec 5) (a : BitVec 5) (b : BitVec 5)
  /-- PNOT (R184). Inverts a mask register. -/
  | pnot (d : BitVec 5) (a : BitVec 5)
  /-- PPOP (R184). Counts the set bits of a mask register. -/
  | ppop (d : BitVec 5) (a : BitVec 5)
  /-- EWAIT (R200). Waits for the slot's queued engine commands and returns their status. -/
  | ewait (d : BitVec 5) (a : BitVec 5)
  /-- QCFG (R189). Opens a ring handle from a descriptor or closes it. -/
  | qcfg (d : BitVec 5) (a : BitVec 5) (q : BitVec 4)
  /-- QPUT (R190). Releases, then marks ring slots filled at the tail. -/
  | qput (d : BitVec 5) (b : BitVec 5) (q : BitVec 4)
  /-- QPOP (R190). Frees ring slots at the head. -/
  | qpop (d : BitVec 5) (b : BitVec 5) (q : BitVec 4)
  /-- QWAIT (R191). Waits for filled or free ring slots and returns the slot address. -/
  | qwait (d : BitVec 5) (b : BitVec 5) (q : BitVec 4)
  /-- QSTAT (R192). Reads a ring handle's state. -/
  | qstat (d : BitVec 5) (q : BitVec 4)
  /-- SKRD (R212). Reads a word of the skip map. -/
  | skrd (d : BitVec 5) (a : BitVec 5)
  /-- SKWR (R212). Writes a word of the skip map. -/
  | skwr (a : BitVec 5) (b : BitVec 5)
  /-- SRW (R216). Reads and optionally writes a stride register. -/
  | srw (d : BitVec 5) (a : BitVec 5) (s : BitVec 3)
  /-- ENGINE_QUEUE_ENTRY (R78). An engine command header is checked and the command enters its engine queue, capturing state. -/
  | engineQueueEntry (h : BitVec 25) (w1 w2 w3 w4 w5 w6 w7 : BitVec 32)
  /-- MMA (R203). Accumulates n tile products into an accumulator tile. -/
  | mma (core : BitVec 12)
  /-- BFLY (R204). Applies one butterfly stage to groups of tiles. -/
  | bfly (core : BitVec 12)
  /-- BFLYC (R205). Applies a chain of butterfly stages in FP32, rounding once. -/
  | bflyc (core : BitVec 12)
  /-- SCAN (R207). Runs scan chains over tiles with carries in an accumulator or neighbours. -/
  | scan (core : BitVec 12)
  /-- TSIG (R209). Writes strip signatures of tiles into a slot. -/
  | tsig (core : BitVec 12)
  /-- TSKIP (R210). Compares signatures with references and sets or clears skip bits. -/
  | tskip (core : BitVec 12)
  /-- TLD (R213). Moves tiles from memory into a ring or an accumulator. -/
  | tld (core : BitVec 12)
  /-- TST (R213). Moves tiles from a ring or an accumulator into memory. -/
  | tst (core : BitVec 12)
  /-- TZERO (R215). Sets an accumulator tile to +0. -/
  | tzero (core : BitVec 12)
  /-- TCVT (R215). Converts tiles between formats. -/
  | tcvt (core : BitVec 12)
  /-- ECFG_CLR (R211). Clears skip bits and zeroes references over a range. -/
  | ecfgClr (core : BitVec 12)
  /-- ECFG_SET (R211). Sets skip bits over a range. -/
  | ecfgSet (core : BitVec 12)
  /-- ECFG_LD (R211). Loads references from a ring slot. -/
  | ecfgLd (core : BitVec 12)
  /-- ECFG_ST (R211). Stores references into a ring slot. -/
  | ecfgSt (core : BitVec 12)
  /-- CPY (R222). Copies rows of bytes between memory and ring slots. -/
  | cpy (core : BitVec 12)
  /-- GTH (R223). Gathers indexed elements by active messages to their owners. -/
  | gth (core : BitVec 12)
  /-- SCT (R223). Scatters or combines indexed elements at their owners. -/
  | sct (core : BitVec 12)
  /-- COLL (R224). Joins member cores in a broadcast, reduction or gather. -/
  | coll (core : BitVec 12)
  /-- ENGINE_STALL_TIMEOUT (R199). A command waiting at the head of its queue beyond the region budget fails with reason 5. -/
  | engineStallTimeout (core : BitVec 12) (data : Bool)
  /-- MSG (R228). Stages and sends a message with payload to a target core. -/
  | msg (d : BitVec 5) (a : BitVec 5) (b : BitVec 5) (c : BitVec 2)
  /-- MSGH (R228). Stages and sends a message carrying handler code and payload. -/
  | msgh (d : BitVec 5) (a : BitVec 5) (b : BitVec 5) (c : BitVec 2)
  /-- MESSAGE_DELIVERY (R229). At the target, the payload is written, any handler runs and the counter is updated. -/
  | messageDelivery (core : BitVec 12)
  /-- CNT_BIND (R234). Binds a task record to a live counter or readies it at once. -/
  | cntBind (d : BitVec 5) (a : BitVec 5) (b : BitVec 5)
  /-- BOUND_TASK_READY (R234). After a bound counter fires, the binding core reads and checks the record and queues the task. -/
  | boundTaskReady (k : Nat)
  /-- SPAWN (R233). Releases and pushes a copy of a task record onto the core's deque. -/
  | spawn (d : BitVec 5) (a : BitVec 5)
  /-- TSELF (R237). Reads the running task's identity. -/
  | tself (d : BitVec 5)
  /-- NPUT (R239). Sends a vector copy to a neighbour's mailbox. -/
  | nput (v : BitVec 5) (e : BitVec 2)
  /-- MAILBOX_ENTRY_ARRIVAL (R239). A neighbour entry arrives in a mailbox and wakes a parked NGET or SCAN carry-in. -/
  | mailboxEntryArrival (k : Nat)
  /-- NGET (R240). Takes the oldest entry of a mailbox, parking while it is empty. -/
  | nget (v : BitVec 5) (e : BitVec 2)
  /-- NPEEK (R241). Reads mailbox state without changing it. -/
  | npeek (d : BitVec 5) (e : BitVec 2)
  /-- NCFG (R238). Reads and optionally sets the core's neighbour setting. -/
  | ncfg (d : BitVec 5) (a : BitVec 5)
  /-- CONV_OPEN (R242). Takes a convoy port and sends an opening flit. -/
  | convOpen (d : BitVec 5) (b : BitVec 5)
  /-- CONV_PUT (R243). Sends 64 bytes down a convoy port. -/
  | convPut (a : BitVec 5) (v : BitVec 5)
  /-- CONV_CLOSE (R244). Sends the closing marker and waits for its acknowledgement. -/
  | convClose (d : BitVec 5) (a : BitVec 5)
  /-- CONVOY_FLIT_ARRIVAL (R243). The receiver writes an arriving convoy flit into its ring and pushes full slots. -/
  | convoyFlitArrival (k : Nat)
  /-- MEET (R249). Moves the caravan to a node and announces it at the waystation. -/
  | meet (d : BitVec 5) (a : BitVec 5)
  /-- DEPART (R250). Leaves the waystation entry as leader or merged. -/
  | depart (d : BitVec 5)
  /-- SPLIT (R257). Divides the membership and pushes a child caravan. -/
  | split (d : BitVec 5) (a : BitVec 5) (b : BitVec 5)
  /-- GATE (R253). Arrives and waits at the gated group's step gate. -/
  | gate (d : BitVec 5)
  /-- MBLD (R258). Loads the membership register from memory. -/
  | mbld (a : BitVec 5)
  /-- MBST (R258). Stores the membership register to memory. -/
  | mbst (a : BitVec 5)
  /-- MBPOP (R258). Counts the members. -/
  | mbpop (d : BitVec 5)
  /-- MBFST (R258). Finds the lowest member index. -/
  | mbfst (d : BitVec 5)
  /-- MBNXT (R258). Finds the next member index above a start. -/
  | mbnxt (d : BitVec 5) (a : BitVec 5)
  /-- MTSET (R258). Sets a piece of the test register from a mask and mb. -/
  | mtset (a : BitVec 5) (h : BitVec 5) (k : BitVec 3)
  /-- MFLD (R260). Loads a manifest field of each member into vector lanes. -/
  | mfld (v : BitVec 5) (a : BitVec 5) (b : BitVec 5) (k : BitVec 3)
  /-- MFST (R260). Stores vector lanes to each member's manifest field. -/
  | mfst (v : BitVec 5) (a : BitVec 5) (b : BitVec 5) (k : BitVec 3)
  /-- MFADD (R260). Adds vector lanes into each member's manifest field, non-atomically. -/
  | mfadd (v : BitVec 5) (a : BitVec 5) (b : BitVec 5) (k : BitVec 3)
  /-- LKREQ (R270). Requests a lock mode, wounding younger conflicting holders and waiting. -/
  | lkreq (d : BitVec 5) (a : BitVec 5) (m : BitVec 3)
  /-- LKTRY (R270). Requests a lock mode only if grantable at once. -/
  | lktry (d : BitVec 5) (a : BitVec 5) (m : BitVec 3)
  /-- LKUP (R271). Upgrades a held lock mode, waiting and wounding as LKREQ does. -/
  | lkup (d : BitVec 5) (a : BitVec 5) (m : BitVec 3)
  /-- LKDN (R271). Releases, then downgrades a held lock mode. -/
  | lkdn (d : BitVec 5) (a : BitVec 5) (m : BitVec 3)
  /-- LKREL (R272). Releases, then drops one lock or all of the task's locks. -/
  | lkrel (d : BitVec 5) (a : BitVec 5)
  /-- LKQ (R273). Reads the state of a lock name. -/
  | lkq (d : BitVec 5) (a : BitVec 5)
  /-- LKTAB (R274). Reads and writes the function's compatibility matrix. -/
  | lktab (d : BitVec 5) (a : BitVec 5)
  /-- LOCK_REVOCATION (R267). 2,048 cycles after a wound falls due, the victim's blocking locks are all revoked. -/
  | lockRevocation (k : Nat)
  /-- LOCK_DROP_AT_END (R272). An ended task's locks are dropped once its last write is acknowledged. -/
  | lockDropAtEnd (k : Nat)
  /-- DICT (R292). Loads or invalidates dictionary entries. -/
  | dict (a : BitVec 5) (b : BitVec 5)
  /-- TLBI (R295). Releases, then drops translations within a scope. -/
  | tlbi (a : BitVec 5) (b : BitVec 5)
  /-- L1INV (R293). Invalidates L1 data or instruction lines of the core. -/
  | l1inv (a : BitVec 5) (b : BitVec 5)
  /-- WBR (R296). Writes back dirty L2 copies over a range. -/
  | wbr (a : BitVec 5) (b : BitVec 5)
  /-- INVR (R296). Writes back and invalidates cached copies over a range. -/
  | invr (a : BitVec 5) (b : BitVec 5)
  /-- DOMSET (R309). Switches an interleave domain's hash mask under live traffic. -/
  | domset (d : BitVec 5) (a : BitVec 5) (b : BitVec 5)
  /-- ATTSET (R312). Converts a slice's ways to or from attic. -/
  | attset (d : BitVec 5) (a : BitVec 5) (b : BitVec 5)
  /-- WAYMASK (R314). Changes a tenant's L2 allocation mask at every slice. -/
  | waymask (d : BitVec 5) (a : BitVec 5) (b : BitVec 5)
  /-- SNAP (R298). Fires the common snapshot trigger and returns the trigger count. -/
  | snap (d : BitVec 5)
  /-- CAPRD (R299). Reads an entry of the capability list. -/
  | caprd (d : BitVec 5) (a : BitVec 5)
  /-- SMC (R290). Calls secure code at SMCBASE from the non-secure world. -/
  | smc (a : BitVec 5)
  /-- KEYDEL (R322). Destroys a key context's key and drops its lines. -/
  | keydel (d : BitVec 5) (a : BitVec 5)
  /-- BUDGET_READ (R291). Reads the BUDGET register. -/
  | budgetRead (d : BitVec 5)
  /-- YIELD (R291). Releases, queues a copy of a record at its timestamp and ends the task. -/
  | yield (a : BitVec 5)
  /-- SYSRD (R286). Reads a system register. -/
  | sysrd (d : BitVec 5) (n : BitVec 12)
  /-- SYSWR (R286). Writes a system register under the field rules. -/
  | syswr (a : BitVec 5) (n : BitVec 12)
  /-- TRAP (R288). Takes a synchronous trap with a 12-bit code. -/
  | trap (n : BitVec 12)
  /-- BUDGET_TRAP (R282). BUDGET reaching 0 makes a budget trap fall due, taken at an instruction boundary. -/
  | budgetTrap (core : BitVec 12) (slot : BitVec 3)
  /-- WOUND_TRAP (R267). A wound is delivered as a precise trap at the victim's next boundary. -/
  | woundTrap (core : BitVec 12) (slot : BitVec 3)
  /-- KILL (R283). 4,096 cycles after BUDGET reaches 0 the task is killed and reported. -/
  | kill (core : BitVec 12) (slot : BitVec 3)
  /-- STORE_BUFFER_DRAIN (R132). A buffered store leaves the store buffer and is performed at its home. -/
  | storeBufferDrain (core : BitVec 12) (k : Nat)
  /-- CLAIM_RECORD (R307). A waiting engine claim is recorded in the slice claim table and acknowledged. -/
  | claimRecord (k : Nat)
  /-- L2_FILL (R308). A fill from HBM completes and answers the merged reads as one multicast. -/
  | l2Fill (k : Nat)
  /-- PAGE_WALK (R373). A die walker completes a walk and installs or refuses the translation. -/
  | pageWalk (die : BitVec 2) (k : Nat)
  /-- TASK_DISPATCH (R335). A free slot receives the first eligible entry from the ready queue or deque. -/
  | taskDispatch (core : BitVec 12) (slot : BitVec 3)
  /-- STEAL (R334). An idle core takes the oldest stealable entry from a neighbour's deque. The direction is that of
  the neighbour: 0 north, 1 east, 2 south, 3 west. -/
  | steal (core : BitVec 12) (dir : BitVec 2)
  /-- HOST_MEM_ACCESS (R351). A host CXL.mem access is performed at the line's home. -/
  | hostMemAccess (write keep : Bool) (lg : BitVec 2) (pa : BitVec 56) (data : BitVec 64)
  /-- PUBLICATION_ADVANCE (R353). A full publication share is written to host memory and the version word advances. -/
  | publicationAdvance (vf : BitVec 9)
  /-- LSQTAIL (R352). The doorbell write makes the device read new submission entries. -/
  | lsqtail (vf : BitVec 9) (tail : BitVec 16)
  /-- LAUNCH (R326). A launch descriptor is checked whole and the root tree is placed or refused. -/
  | launch (vf : BitVec 9)
  /-- LAUNCH_COMPLETE (R341). A launch with no work left is completed, frees its root and is reported. -/
  | launchComplete (root : Nat)
  /-- PREEMPT (R337). A pre-emption request stops dispatch in a root's tree. -/
  | preempt (vf : BitVec 9)
  /-- PREEMPT_SAVE (R338). After tasks end and queues drain, the region image is written and the root freed. -/
  | preemptSave (root : Nat)
  /-- RESTORE (R340). A region image is placed on a free rectangle and its queues rebuilt. -/
  | restore (vf : BitVec 9)
  /-- NOP (R352). A NOP submission entry is answered with a completion. -/
  | nop (vf : BitVec 9)
  /-- NGSEL (R390). A write selects the Ngamon version, effective only with the submission ring empty. -/
  | ngsel (vf : BitVec 9) (v : BitVec 16)
  /-- RETADD (R320). A write adds a page to the stack's retired list. -/
  | retadd (stack : BitVec 3) (page : BitVec 25)
  /-- REGISTER_WRITE (R344). A write to a package register without behaviour of its own. -/
  | registerWrite (sec : Bool) (off : BitVec 32) (v : BitVec 64)
  /-- PARTITION_SWITCH (R347). New crossbar partition settings take effect at the next round of slot 0. -/
  | partitionSwitch (die : BitVec 2)
  /-- CRC_REPLAY (R354). A flit failing its CRC is replayed with every later flit. -/
  | crcReplay (port : BitVec 4)
  /-- RETRAIN_START (R356). A wavelength whose corrected bits pass BERTHR is removed by a lane-change marker for retraining. -/
  | retrainStart (port : BitVec 4) (tx : Bool) (w : BitVec 3) (count : BitVec 32)
  /-- RETRAIN_END (R356). Retraining ends and a marker readmits the wavelength, or it is retired. -/
  | retrainEnd (port : BitVec 4) (tx : Bool) (w : BitVec 3) (ok : Bool)
  /-- PORT_TRAINING (R357). A port with a partner trains and negotiates its Cimar version. -/
  | portTraining (port : BitVec 4) (lanes : BitVec 8) (lo hi : BitVec 16)
  /-- ARRIVAL_TOKEN (R360). The master counts a member's arrival token and releases all members when complete. -/
  | arrivalToken (e : BitVec 6) (member : BitVec 12)
  /-- RELEASE_TOKEN (R360). A member advances G and releases its waiters on a release token. -/
  | releaseToken (e : BitVec 6)
  /-- PROXY_ABSENCE_TOKEN (R361). A pre-empted member's absence keeps the barrier open and suspends the timeout. -/
  | proxyAbsenceToken (e : BitVec 6) (member : BitVec 12)
  /-- PRESENCE_TOKEN (R361). A restored member's presence resumes the barrier timeout. -/
  | presenceToken (e : BitVec 6) (member : BitVec 12)
  /-- BARRIER_TIMEOUT (R361). An expired timeout resets every member's waiters and unlinks the entries. -/
  | barrierTimeout (e : BitVec 6)
  /-- THROTTLE (R386). An island moves one level down on heat or package power. -/
  | throttle (island : BitVec 10)
  /-- RECOVERY (R386). An island moves one level up after 1 ms within limits. -/
  | recovery (island : BitVec 10)
  /-- FETCH_FAULT (R64). An instruction whose fetch faults, or whose last byte is not below CODEHI, takes a fetch fault. -/
  | fetchFault (cause : BitVec 8) (xval : BitVec 64)
  /-- ILLEGAL_INSTRUCTION (R80). A fetched word that is not an instruction, such as major 0x00, 0x3D or 0x3E or an unlisted selector, takes an illegal-instruction trap. -/
  | illegalInstruction (word : BitVec 32) (idx : BitVec 3)
  /-- REMOTE_ACCESS_ARRIVAL (R358). A load, store, atomic or data-engine element from another package arrives over an optical link and is performed at its home in this package. The operation of an atomic or element is in bits 3:0 of `sub` and the type of its value above; the value is in bits 63:0 of `data`, and the expected one of a CAS above. -/
  | remoteAccessArrival (op : BitVec 3) (sub : BitVec 9) (lg : BitVec 2) (sec : Bool) (pa : BitVec 56) (data : BitVec 128)
  /-- TEND (R236). Ends the running task. -/
  | tend
  /-- MBAND (R258). mb := mb and mt. -/
  | mband
  /-- MBOR (R258). mb := mb or mt. -/
  | mbor
  /-- MBANDN (R258). mb := mb and not mt. -/
  | mbandn
  /-- XRET (R288). Leaves the handler and resumes at XPC. -/
  | xret
  /-- HALT (R289). Ends the task, reports cause 0x12 and frees the slot. -/
  | halt
  /-- KEY_INSTALL (R379). A swap of 1 into CMD makes the base dies install the mailbox key. -/
  | keyInstall
  /-- TRIP (R386). A sensor at 110 °C stops every island at once. -/
  | trip
  /-- POWER_ON (R389). Powering the slot runs the bring-up sequence. -/
  | powerOn
  /-- SNAPSHOT_LATCH (R383). Every block latches its snapshot records in one cycle, 64 cycles after SNAP. -/
  | snapshotLatch
  /-- SNAPSHOT_COPY (R384). The boot controller copies latched records into the snapshot buffers and writes the count. -/
  | snapshotCopy
  /-- LOSS_OF_POWER (R320). The host removes power from the slot, so all state is lost except the retired-page lists. -/
  | lossOfPower
deriving DecidableEq, Repr

end Sys2Proof
end

