-- ==== Sys2Proof/Machine/Legal.lean ====
section
/-! DEFINITION. Which encodings are instructions (03 R70 to R80): the values a field may take, for
each row of the table. A word that matches a row and fails the check here takes an
illegal-instruction trap; no other word decodes to that row. -/

namespace Sys2Proof.Machine

/-- Type codes of integer formats, .i8 to .n64 (02 Table 2.1). -/
def isInt (t : BitVec 5) : Bool := t ≤ 7

/-- Type codes of floating formats, .f16 to .e5m2 (02 Table 2.1). -/
def isFloat (t : BitVec 5) : Bool := 8 ≤ t && t ≤ 13

/-- Signed integer types: .i8, .i16, .i32, .i64 and .i4 (02 Table 2.1). -/
def isSigned (t : BitVec 5) : Bool := (t ≤ 7 && t &&& 1 == 0) || t == 16

/-- Element width in bits (02 Table 2.1). Reserved codes have none. -/
def typeWidth (t : BitVec 5) : Nat :=
  match t.toNat with
  | 0 | 1 | 12 | 13 => 8
  | 2 | 3 | 8 | 9 => 16
  | 4 | 5 | 10 => 32
  | 6 | 7 | 11 => 64
  | 14 | 15 | 16 | 17 => 4
  | _ => 0

/-- Types of 32 or 64 bits: .i32, .n32, .i64, .n64, .f32, .f64 (06 R148, 07 Table 7.1). -/
def isWide (t : BitVec 5) : Bool := (4 ≤ t && t ≤ 7) || t == 10 || t == 11

/-- The rounding field of a VFP instruction: a rounding code for a floating type, 0 or 1 for an
integer type (03 R74). -/
def okRound (t : BitVec 5) (m : BitVec 3) : Bool := if isFloat t then m ≤ 5 else m ≤ 1

/-- The type and rounding fields of the lane arithmetic (07 Table 7.1, R173). -/
def okArith (t : BitVec 5) (m : BitVec 3) : Bool := t ≤ 11 && okRound t m

/-- The unary functions take .f16, .bf16 and .f32 (07 Table 7.1, R174). -/
def okUnary (t : BitVec 5) (m : BitVec 3) : Bool := 8 ≤ t && t ≤ 10 && m ≤ 5

/-- VABS and VNEG: signed integers with rm 0 or 1, floating types with rm 0 (07 R174). -/
def okAbsNeg (t : BitVec 5) (m : BitVec 3) : Bool :=
  (t ≤ 7 && isSigned t && m ≤ 1) || (8 ≤ t && t ≤ 11 && m == 0)

/-- VRED and VSCAN: operator, type and rounding field (07 R183, Table 7.1). -/
def okReduce (o : BitVec 4) (t : BitVec 5) (m : BitVec 3) : Bool :=
  if o ≤ 2 then t ≤ 11 && (if isFloat t then m ≤ 5 else if o == 0 then m ≤ 1 else m == 0)
  else o ≤ 5 && t ≤ 7 && m == 0

/-- VPACK and VUNPK types (07 Table 7.1). -/
def okPack (t : BitVec 5) : Bool := t ≤ 5 || t == 16 || t == 17

/-- VDOT types and rounding field (07 Table 7.1, R182). -/
def okDot (t : BitVec 5) (m : BitVec 3) : Bool :=
  ((t ≤ 1 || t == 15 || t == 16 || t == 17) && m ≤ 1) || ((t == 12 || t == 13) && m ≤ 5)

/-- The condition of VCMP, c = the sub field and vd[4:3] together; .un and .ord need a floating
type (07 R176). -/
def okVcmp (t : BitVec 5) (c e : BitVec 2) : Bool :=
  let k := c.toNat * 4 + e.toNat
  t ≤ 11 && (k ≤ 5 || (k ≤ 7 && isFloat t))

/-- The system registers that have a number (03 R75, 11 Table 11.6). -/
def okSysreg (n : BitVec 12) : Bool := n ≤ 0x11 || (0x100 ≤ n && n ≤ 0x103)

/-! ### Engine commands -/

/-- Mixing-engine source formats (08 R186). -/
def isEngSrc (t : BitVec 5) : Bool := (8 ≤ t && t ≤ 10) || (12 ≤ t && t ≤ 15)

/-- Mixing-engine destination formats (08 R186). -/
def isEngDst (t : BitVec 5) : Bool := (8 ≤ t && t ≤ 10) || (12 ≤ t && t ≤ 14)

/-- Bits lo to hi of a command word. -/
def bits (w : Word) (hi lo : Nat) : Nat := (w.toNat >>> lo) % 2 ^ (hi + 1 - lo)

/-- The header word of a command from its bits 31:7 (03 R76). -/
def cmdHeader (h : BitVec 25) : Word := h ++ (0x7E : BitVec 7)

/-- For each command word in turn, whether that word is legal, given the whole command
(03 R76 to R78, 08 Tables 8.6 and 8.7, 09 Tables 9.1 and 9.2). DESIGN CHOICE (log 40): word 4 of a GTH or an SCT without a
mask may hold any offset, and an unused base-register field of a CPY must be zero. -/
def cmdChecks (h w1 w2 w3 w4 w5 w6 w7 : Word) : List Bool :=
  let sg := bits h 31 31
  let acc := bits h 25 23
  let qd := bits h 22 19
  let qb := bits h 18 15
  let qa := bits h 14 11
  let ta : BitVec 5 := .ofNat 5 (bits w1 4 0)
  let tb : BitVec 5 := .ofNat 5 (bits w1 9 5)
  let td : BitVec 5 := .ofNat 5 (bits w1 14 10)
  let rm := bits w1 17 15
  let opt := bits w1 31 18
  let tslot := if sg = 1 then w3.toNat < 4096 else w3 == 0
  let z := [w4, w5, w6, w7].map (· == 0)
  let n := 2 ^ (bits w2 3 0 + 5)
  let g := max 1 (n / 1024)
  match bits h 10 7 with
  | 0 => [qd == 0, isEngSrc ta && isEngSrc tb && td == 0 && rm == 0 && opt < 4,
      w2.toNat < 256, tslot] ++ z
  | 1 | 2 => [acc == 0, isEngSrc ta && isEngSrc tb && isEngDst td && rm ≤ 5 && opt < 2,
      bits w2 3 0 ≤ 9 && bits w2 7 7 == 0 && bits w2 31 16 == 0 && (bits w2 15 8 + 1) * g ≤ 256,
      tslot] ++ z
  | 3 =>
    let aff := bits w2 1 0 = 2
    let nb := 4 ≤ bits w3 2 0 || 4 ≤ bits w3 6 4
    let v := bits w2 23 16 + 1
    [sg == 0 && (aff || qb == 0),
      isEngSrc ta && (if aff then isEngSrc tb else tb == 0) && isEngDst td && rm ≤ 5 && opt == 0,
      bits w2 1 0 ≤ 2 && bits w2 7 3 == 0 && bits w2 31 24 == 0 &&
        (bits w2 15 8 + 1) * v ≤ 256 && (!nb || v ≤ 64),
      (bits w3 2 0 ≤ 1 || 4 ≤ bits w3 2 0) && bits w3 3 3 == 0 &&
        (bits w3 6 4 == 0 || 4 ≤ bits w3 6 4) && bits w3 31 7 == 0] ++ z
  | 4 => [sg == 0 && acc == 0 && qb == 0, isEngSrc ta && tb == 0 && td == 0 && rm == 0 && opt < 2,
      w2.toNat < 64, w3 == 0] ++ z
  | 5 => [sg == 0 && acc == 0 && qb == 0 && qd == 0, w1.toNat % 2 ^ 18 == 0 && opt < 2,
      w2.toNat < 64, w3.toNat < 4096] ++ z
  | 6 | 7 =>
    let a := opt % 2 = 1
    let ring := if bits h 10 7 = 6 then qd else qa
    let other := if bits h 10 7 = 6 then qa else qd
    [sg == 0 && qb == 0 && other == 0 && (if a then ring == 0 else acc == 0),
      (if a then ta == 10 else isEngSrc ta) && tb == 0 && td == 0 && rm == 0 && opt < 2,
      w2.toNat < 32, true, true, true, (if a then w6 == 0 else w6.toNat < 256), (w7 == 0 || ta == 14)]
  | 8 => [sg == 0 && qa == 0 && qb == 0 && qd == 0, w1 == 0, w2 == 0, w3 == 0] ++ z
  | 9 =>
    let a := bits w1 19 19 = 1
    [qb == 0 && (if a then qa == 0 else acc == 0),
      (if a then ta == 10 else isEngSrc ta) && tb == 0 && isEngDst td && rm ≤ 5 && opt < 4,
      (if a then w2 == 0 else w2.toNat < 256), tslot] ++ z
  | 10 =>
    let k := bits w2 1 0
    [sg == 0 && acc == 0 && qb == 0 && (k == 2 || qa == 0) && (k == 3 || qd == 0), w1 == 0,
      w2.toNat < 4, w3.toNat < 4096, w4.toNat < 8192, w5 == 0, w6 == 0, w7 == 0]
  | 11 =>
    let sring := bits w1 18 18 = 1
    let dring := bits w1 19 19 = 1
    [sg == 0 && acc == 0 && qb == 0 && (sring || qa == 0) && (dring || qd == 0),
      w1.toNat % 2 ^ 18 == 0 && opt < 4,
      bits w2 7 5 == 0 && bits w2 31 13 == 0 && (!sring || bits w2 4 0 == 0) &&
        (!dring || bits w2 12 8 == 0), true, true, true, true, true]
  | 12 => [sg == 0 && acc == 0 && qb == 0,
      (ta == 3 || ta == 5) && tb == 0 && td ≤ 11 && rm == 0 && opt == 0,
      bits w2 7 5 == 0 && bits w2 31 13 == 0, true, true, w5.toNat < 8192, true, w7 == 0]
  | 13 => [sg == 0 && acc == 0 && qd == 0,
      (ta == 3 || ta == 5) && tb ≤ 11 && td == 0 && rm == 0 && opt < 4,
      bits w2 7 5 == 0 && bits w2 31 13 == 0, true, true, w5.toNat < 8192, true, w7 == 0]
  | 14 =>
    let kind := bits w5 18 16
    [sg == 0 && acc == 0 && qb == 0,
      ta == 0 && tb == 0 && rm == 0 && opt == 0 &&
        (if 1 ≤ kind && kind ≤ 3 then isWide td else td ≤ 11),
      w2.toNat < 32, true, w4.toNat < 256, bits w5 15 13 == 0 && bits w5 31 19 == 0 && kind ≤ 4,
      w6.toNat < 65536, w7 == 0]
  | _ => [false]

/-- The index of the first illegal word of a command, if any (03 R67, R78 step 1). -/
def cmdIllegal (h w1 w2 w3 w4 w5 w6 w7 : Word) : Option Nat :=
  (cmdChecks h w1 w2 w3 w4 w5 w6 w7).findIdx? (· == false)

/-! ### The rows -/

/-- Whether an instruction's fields hold values that its entry accepts. Rows with no check take
every value. -/
def legal : Instr → Bool
  | .bfx _ _ p l | .bfxs _ _ p l | .bfi _ _ p l => p.toNat + l.toNat + 1 ≤ 64
  | .fadd _ _ _ _ m | .fsub _ _ _ _ m | .fmul _ _ _ _ m | .ffma _ _ _ _ m | .fdiv _ _ _ _ m => m ≤ 5
  | .fsqrt _ _ _ m => m ≤ 5
  | .fcmp _ _ _ _ c => c ≤ 3
  | .fcvt _ _ t m s => s ≤ 13 && t ≤ 13 && (8 ≤ s || 8 ≤ t) && m ≤ 5
  | .ld _ _ s _ | .ldf _ _ s _ => s ≤ 6
  | .st _ _ _ s _ => s ≤ 3
  | .amo _ _ _ s w o => o ≤ 8 && w ≤ 1 && s ≤ 4
  | .cas _ _ _ s w => w ≤ 1 && s ≤ 4
  | .amof _ _ _ s t o => o ≤ 2 && t ≤ 1 && s ≤ 4
  | .redAdd _ _ _ _ t => isWide t
  | .acq s | .rel s => s ≤ 4
  | .vld _ _ _ t _ | .vst _ _ _ t _ => t ≤ 13
  | .vldx _ _ _ _ t _ | .vstx _ _ _ _ t _ => isWide t
  | .vadd _ _ _ _ t m | .vsub _ _ _ _ t m | .vmul _ _ _ _ t m | .vfma _ _ _ _ t m
  | .vfms _ _ _ _ t m => okArith t m
  | .vrcp _ _ _ t m | .vrsq _ _ _ t m | .vexp2 _ _ _ t m | .vlog2 _ _ _ t m => okUnary t m
  | .vabs _ _ _ t m | .vneg _ _ _ t m => okAbsNeg t m
  | .vcvt _ _ t _ s m => s ≤ 13 && t ≤ 13 && (if isInt s && isInt t then m ≤ 1 else m ≤ 5)
  | .vred _ _ o _ t m | .vscan _ _ o _ t m => okReduce o t m
  | .vdot _ _ _ _ t m => okDot t m
  | .vmin _ _ _ _ t | .vmax _ _ _ _ t => t ≤ 11
  | .vand _ _ _ _ t | .vor _ _ _ _ t | .vxor _ _ _ _ t => t ≤ 13
  | .vshl _ _ _ _ t | .vshr _ _ _ _ t | .vsha _ _ _ _ t => t ≤ 7
  | .vcmp _ e _ _ _ t c => okVcmp t c e
  | .vsel _ _ _ _ t | .vperm _ _ _ _ t | .vbcast _ _ _ t | .vmovg _ _ _ t => t ≤ 13
  | .vpack _ _ _ t => okPack t
  | .vunpk _ _ h t => okPack t && h ≤ 1
  | .vlut _ _ h => h ≤ 1
  | .pand d a b | .por d a b | .pxor d a b => d < 8 && a < 8 && b < 8
  | .pnot d a => d < 8 && a < 8
  | .ppop _ a => a < 8
  | .engineQueueEntry h w1 w2 w3 w4 w5 w6 w7 =>
    (cmdIllegal (cmdHeader h) w1 w2 w3 w4 w5 w6 w7).isNone
  | .mtset a h _ => a < 8 && h ≤ 2
  | .lkreq _ _ m | .lktry _ _ m | .lkup _ _ m | .lkdn _ _ m => m ≤ 5
  | .yield a => a != 0
  | .sysrd _ n => okSysreg n
  | .syswr _ n => okSysreg n
  | _ => true

end Sys2Proof.Machine
end

