-- ==== Sys2Proof/Machine/Float.lean ====
section
/-! DEFINITION. Number formats, rounding and conversions (file 02). An encoding is a natural number; its
value is exact: a sign, a magnitude m·2^e, an infinity or a NaN. Every operation computes on values
exactly and rounds once at the end. -/

namespace Sys2Proof.Machine

/-! ### Flags and the rounding source -/

/-- The five flags of FSTAT (02 Table 2.6). -/
def flagNX : BitVec 5 := 1
def flagUF : BitVec 5 := 2
def flagOF : BitVec 5 := 4
def flagDZ : BitVec 5 := 8
def flagNV : BitVec 5 := 16

/-- One step of the Galois register (02 R52). -/
def lfsrStep (l : Word) : Word := if l.getLsbD 0 then (l >>> 1) ^^^ 0x80200003#32 else l >>> 1

/-- `n` steps. -/
def lfsrSteps : Nat → Word → Word
  | 0, l => l
  | n + 1, l => lfsrSteps n (lfsrStep l)

/-- The flags raised so far and the rounding source: what an operation on numbers carries along. -/
structure Fp where
  flags : BitVec 5
  lfsr : Word
  deriving DecidableEq, Repr

/-- A flag raised. -/
def Fp.raise (s : Fp) (f : BitVec 5) : Fp := { s with flags := s.flags ||| f }

/-- A flag raised if a condition holds. -/
def Fp.raiseIf (s : Fp) (c : Bool) (f : BitVec 5) : Fp := if c then s.raise f else s

/-! ### Values -/

/-- An exact value (02 R55, val). A NaN holds its sign, its fraction aligned to 52 bits, and whether it
is signalling; a bare NaN carries no payload (02 R47). -/
inductive Num where
  | nan (neg : Bool) (payload : Nat) (signalling bare : Bool)
  | inf (neg : Bool)
  | fin (neg : Bool) (m : Nat) (e : Int)
  deriving DecidableEq, Repr

/-- Exponent and fraction widths of a floating type (02 Table 2.1, R40 to R42). -/
def expBits (t : BitVec 5) : Nat :=
  match t.toNat with
  | 8 => 5 | 9 => 8 | 10 => 8 | 11 => 11 | 12 => 4 | _ => 5

def fracBits (t : BitVec 5) : Nat :=
  match t.toNat with
  | 8 => 10 | 9 => 7 | 10 => 23 | 11 => 52 | 12 => 3 | _ => 2

/-- The exponent bias. -/
def biasOf (t : BitVec 5) : Nat := 2 ^ (expBits t - 1) - 1

/-- The code of the largest finite magnitude (02 R41, R42). -/
def maxCode (t : BitVec 5) : Nat :=
  if t = 12 then 0x7E else (2 ^ expBits t - 1) * 2 ^ fracBits t - 1

/-- The sign bit of a format. -/
def signBit (t : BitVec 5) : Nat := 2 ^ (expBits t + fracBits t)

/-- The canonical NaN (02 Table 2.3). -/
def canonNan (t : BitVec 5) : Nat :=
  if t = 12 then 0x7F
  else (2 ^ expBits t - 1) * 2 ^ fracBits t + 2 ^ (fracBits t - 1)

/-- A value's encoding as an infinity. -/
def infCode (t : BitVec 5) (neg : Bool) : Nat :=
  (if neg then signBit t else 0) + (2 ^ expBits t - 1) * 2 ^ fracBits t

/-- The value of a floating encoding (02 R40 to R42). -/
def floatVal (t : BitVec 5) (x : Nat) : Num :=
  let fb := fracBits t
  let neg := x.testBit (expBits t + fb)
  let f := x % 2 ^ fb
  let e := (x >>> fb) % 2 ^ expBits t
  let top := 2 ^ expBits t - 1
  if e = 0 then .fin neg f (1 - (biasOf t : Int) - fb)
  else if e = top && (t != 12 || f = 7) then
    if t = 12 then .nan neg 0 false true
    else if f = 0 then .inf neg
    else if t = 13 then .nan neg 0 false true
    else .nan neg (f <<< (52 - fb)) (!f.testBit (fb - 1)) false
  else .fin neg (2 ^ fb + f) ((e : Int) - biasOf t - fb)

/-- An integer read from the low w bits, signed or not (02 R39). -/
def intOf (signed : Bool) (w x : Nat) : Int :=
  let y := x % 2 ^ w
  if signed && y.testBit (w - 1) then (y : Int) - 2 ^ w else y

/-- An integer as a value. -/
def ofInt (i : Int) : Num := .fin (decide (i < 0)) i.natAbs 0

/-- val(x, f) for the types 0 to 13, .i4 and .n4 (02 R55). -/
def val (t : BitVec 5) (x : Nat) : Num :=
  if isFloat t then floatVal t x else ofInt (intOf (isSigned t) (typeWidth t) x)

def Num.isNan : Num → Bool
  | .nan .. => true
  | _ => false

def Num.isSignalling : Num → Bool
  | .nan _ _ s _ => s
  | _ => false

def Num.neg? : Num → Bool
  | .nan n .. => n
  | .inf n => n
  | .fin n .. => n

/-- The value with its sign inverted. -/
def Num.negate : Num → Num
  | .nan n p s b => .nan (!n) p s b
  | .inf n => .inf (!n)
  | .fin n m e => .fin (!n) m e

/-- The magnitude of a value. -/
def Num.abs : Num → Num
  | .nan _ p s b => .nan false p s b
  | .inf _ => .inf false
  | .fin _ m e => .fin false m e

/-- The canonical NaN as a value. -/
def Num.invalid : Num := .nan false 0 false true

/-- The NaN an operation returns for a NaN operand (02 R47): quieted, its payload kept; without payload
the canonical NaN under its sign; canonical in E4M3 and E5M2. -/
def nanTo (t : BitVec 5) : Num → Nat
  | .nan neg p _ bare =>
    if t = 12 || t = 13 then canonNan t
    else (if neg then signBit t else 0) +
      (if bare then canonNan t
       else (2 ^ expBits t - 1) * 2 ^ fracBits t + (p >>> (52 - fracBits t)) % 2 ^ (fracBits t - 1)
        + 2 ^ (fracBits t - 1))
  | _ => canonNan t

/-! ### Rounding -/

/-- mag / 2^shift under a rounding mode, with the 16 drawn bits for RSR, and whether it is inexact
(02 Table 2.4, R51). -/
def roundShift (mode : BitVec 3) (neg : Bool) (mag shift drawn : Nat) : Nat × Bool :=
  let q := mag >>> shift
  let r := mag % 2 ^ shift
  if r = 0 then (q, false)
  else
    let up := match mode.toNat with
      | 0 => decide (2 ^ shift < 2 * r) || (2 * r == 2 ^ shift && q % 2 == 1)
      | 1 => false
      | 2 => neg
      | 3 => !neg
      | 4 => decide (2 ^ shift ≤ 2 * r)
      | _ => decide (2 ^ 16 ≤ ((r <<< 16) >>> shift) + drawn)
    (if up then q + 1 else q, true)

/-- m·2^e as a multiple of 2^q, rounded. -/
def roundAt (mode : BitVec 3) (neg : Bool) (m : Nat) (e q : Int) (drawn : Nat) : Nat × Bool :=
  if q ≤ e then (m <<< (e - q).toNat, false) else roundShift mode neg m (q - e).toNat drawn

/-- The result of a magnitude beyond the largest finite one (02 Table 2.5). -/
def overflowCode (t : BitVec 5) (mode : BitVec 3) (neg : Bool) : Nat :=
  let s := if neg then signBit t else 0
  let toMax := t = 12 || t = 13 || mode = 1 || (mode = 2 && !neg) || (mode = 3 && neg)
  if toMax then s + maxCode t else infCode t neg

/-- round(v, f, rm) of a finite value (02 R50, R51): the encoding, with OF, UF and NX, and the LFSR
stepped once when the mode is RSR and the value is not representable, by its fraction or by its range. -/
def roundFin (t : BitVec 5) (mode : BitVec 3) (neg : Bool) (m : Nat) (e : Int) (s : Fp) : Nat × Fp :=
  let sign := if neg then signBit t else 0
  if m = 0 then (sign, s)
  else
    let fb := fracBits t
    let emin : Int := 1 - (biasOf t : Int)
    let qmin := emin - fb
    let ex := (Nat.log2 m : Int) + e
    let q := max (ex - fb) qmin
    let l := lfsrStep s.lfsr
    let drawn := l.toNat % 2 ^ 16
    let (sig, inexact) := roundAt mode neg m e q drawn
    let code := (q - qmin).toNat * 2 ^ fb + sig
    let s := if mode = 5 && (inexact || maxCode t < code) then { s with lfsr := l } else s
    if maxCode t < code then (overflowCode t mode neg, s.raise (flagOF ||| flagNX))
    else
      let (sigU, _) := roundAt mode neg m e (ex - fb) drawn
      let tiny := decide (ex < emin) && !(ex + 1 == emin && sigU == 2 ^ (fb + 1))
      (sign + code, (s.raiseIf inexact flagNX).raiseIf (inexact && tiny) flagUF)

/-- round(v, f, rm) (02 R47, R50, R55). An infinity is not representable in E4M3: its rounding is inexact. -/
def round (t : BitVec 5) (mode : BitVec 3) (v : Num) (s : Fp) : Nat × Fp :=
  match v with
  | .nan .. => (nanTo t v, s.raiseIf v.isSignalling flagNV)
  | .inf neg =>
    if t = 12 then
      ((if neg then signBit t else 0) + maxCode t,
       ({ s with lfsr := if mode = 5 then lfsrStep s.lfsr else s.lfsr } : Fp).raise (flagOF ||| flagNX))
    else (infCode t neg, s)
  | .fin neg m e => roundFin t mode neg m e s

/-! ### Exact operations on values -/

/-- Two magnitudes as integers over one power of two. -/
def align (n1 : Bool) (m1 : Nat) (e1 : Int) (n2 : Bool) (m2 : Nat) (e2 : Int) : Int × Int × Int :=
  let e := min e1 e2
  let a : Int := m1 <<< (e1 - e).toNat
  let b : Int := m2 <<< (e2 - e).toNat
  (if n1 then -a else a, if n2 then -b else b, e)

/-- a + b exactly, none when invalid (∞ − ∞); the sign of a zero sum by R48. No operand is a NaN. -/
def addNum (mode : BitVec 3) (a b : Num) : Option Num :=
  match a, b with
  | .inf x, .inf y => if x = y then some (.inf x) else none
  | .inf x, _ => some (.inf x)
  | _, .inf y => some (.inf y)
  | .fin n1 m1 e1, .fin n2 m2 e2 =>
    let (x, y, e) := align n1 m1 e1 n2 m2 e2
    let z := x + y
    if z = 0 then some (.fin (if n1 = n2 then n1 else mode = 2) 0 0)
    else some (.fin (decide (z < 0)) z.natAbs e)
  | _, _ => none

/-- a × b exactly, none when invalid (0 × ∞). No operand is a NaN. -/
def mulNum (a b : Num) : Option Num :=
  match a, b with
  | .inf x, .inf y => some (.inf (x != y))
  | .inf x, .fin y m _ => if m = 0 then none else some (.inf (x != y))
  | .fin x m _, .inf y => if m = 0 then none else some (.inf (x != y))
  | .fin x m1 e1, .fin y m2 e2 => some (.fin (x != y) (m1 * m2) (e1 + e2))
  | _, _ => none

/-- Bits carried past the point of a quotient, root or power before the sticky bit; more than any format
and the 16 bits of RSR need. -/
def extraBits : Nat := 160

/-- a ÷ b, with a last bit that is set when the quotient is inexact (02 R51 looks at the leading bits
only). The divisor is not zero. -/
def divFin (x : Bool) (m1 : Nat) (e1 : Int) (y : Bool) (m2 : Nat) (e2 : Int) : Num :=
  let sh := extraBits + Nat.log2 m2
  let n := m1 <<< sh
  .fin (x != y) (2 * (n / m2) + (if n % m2 = 0 then 0 else 1)) (e1 - e2 - sh - 1)

/-- The integer square root, one bit at a time. -/
def isqrt (n : Nat) : Nat :=
  (List.range (Nat.log2 n / 2 + 1)).reverse.foldl
    (fun r i => let c := r + 2 ^ i; if c * c ≤ n then c else r) 0

/-- An even exponent for a root. -/
def evenExp (m : Nat) (e : Int) : Nat × Int := if e % 2 = 0 then (m, e) else (2 * m, e - 1)

/-- √(m·2^e), with a sticky last bit. -/
def sqrtFin (m : Nat) (e : Int) : Num :=
  let (m, e) := evenExp m e
  let n := m <<< (2 * extraBits)
  let r := isqrt n
  .fin false (2 * r + (if r * r = n then 0 else 1)) (e / 2 - extraBits - 1)

/-- 1/√(m·2^e), with a sticky last bit; m is not zero. -/
def rsqrtFin (m : Nat) (e : Int) : Num :=
  let (m, e) := evenExp m e
  let k := extraBits + Nat.log2 m
  let r := isqrt (2 ^ (2 * k) / m)
  .fin false (2 * r + (if r * r * m = 2 ^ (2 * k) then 0 else 1)) (-(e / 2) - k - 1)

/-- Bits of the fixed-point fractions of the power and the logarithm (log 12). -/
def fixBits : Nat := 512

/-- 2^f·2^fixBits for the fraction f = 0.b1 b2 … given by its bits, highest first; `c` is the factor of
the next bit. -/
def powBits : List Bool → Nat → Nat → Nat
  | [], _, acc => acc
  | b :: bs, c, acc =>
    powBits bs (isqrt (c <<< fixBits)) (if b then (acc * c) >>> fixBits else acc)

/-- 2^a for a finite a, with a sticky last bit unless a is an integer (07 R174). Beyond ±2^15 the result
is taken at that exponent: past every format's range, and rounded as overflow or underflow. -/
def exp2Fin (neg : Bool) (m : Nat) (e : Int) : Num :=
  if m = 0 then .fin false 1 0
  else if 15 < (Nat.log2 m : Int) + e then
    if neg then .fin false 1 (-32768) else .fin false 1 32768
  else if 0 ≤ e then
    let k : Int := m <<< e.toNat
    .fin false 1 (if neg then -k else k)
  else
    let d := (-e).toNat
    let a : Int := if neg then -(m : Int) else m
    let n := a / 2 ^ d
    let f := (a % 2 ^ d).toNat
    if f = 0 then .fin false 1 n
    else
      let bs := (List.range d).map (fun i => f.testBit (d - 1 - i))
      let r := powBits bs (isqrt (2 <<< (2 * fixBits))) (2 ^ fixBits)
      .fin false (2 * r + 1) (n - fixBits - 1)

/-- The first bits of log2 of y in [1, 2), y scaled by 2^fixBits. -/
def logBits : Nat → Nat → Nat → Nat
  | 0, _, acc => acc
  | n + 1, y, acc =>
    let z := (y * y) >>> fixBits
    if 2 ^ (fixBits + 1) ≤ z then logBits n (z >>> 1) (2 * acc + 1) else logBits n z (2 * acc)

/-- log2 of m·2^e, m not zero, with a sticky last bit unless m is a power of two (07 R174). -/
def log2Fin (m : Nat) (e : Int) : Num :=
  let l := Nat.log2 m
  let ex : Int := l + e
  if m = 2 ^ l then ofInt ex
  else
    let f := logBits 256 ((m <<< fixBits) >>> l) 0
    let z : Int := 2 * (ex * 2 ^ 256 + f) + 1
    .fin (decide (z < 0)) z.natAbs (-257)

/-- How two values that are not NaNs stand: −0 and +0 are equal. -/
def cmpNum (a b : Num) : Ordering :=
  match a, b with
  | .inf x, .inf y => if x = y then .eq else if x then .lt else .gt
  | .inf x, _ => if x then .lt else .gt
  | _, .inf y => if y then .gt else .lt
  | .fin n1 m1 e1, .fin n2 m2 e2 =>
    let (x, y, _) := align n1 m1 e1 n2 m2 e2
    if x < y then .lt else if x = y then .eq else .gt
  | _, _ => .eq

/-- a is below b in the order that puts −0 below +0 (02 R48). -/
def belowNum (a b : Num) : Bool :=
  match cmpNum a b with
  | .lt => true
  | .gt => false
  | .eq => a.neg? && !b.neg?

/-! ### Helpers of Table 2.7 -/

/-- Ends an operation: a NaN operand gives the first NaN, quieted; an invalid operation the canonical NaN;
otherwise the exact result is rounded once. A signalling operand or an invalid product raises NV. -/
def fend (t : BitVec 5) (mode : BitVec 3) (ops : List Num) (bad : Bool) (r : Option Num) (s : Fp) :
    Nat × Fp :=
  let s := s.raiseIf (ops.any Num.isSignalling || bad) flagNV
  match ops.find? Num.isNan with
  | some n => (nanTo t n, s)
  | none =>
    match r with
    | none => (canonNan t, s.raise flagNV)
    | some v => round t mode v s

/-- fadd, fsub, fmul, fdiv, fsqrt, ffma (02 Table 2.7, 05 R113). -/
def fadd (t : BitVec 5) (m : BitVec 3) (a b : Nat) (s : Fp) : Nat × Fp :=
  let x := val t a
  let y := val t b
  fend t m [x, y] false (addNum m x y) s

def fsub (t : BitVec 5) (m : BitVec 3) (a b : Nat) (s : Fp) : Nat × Fp :=
  let x := val t a
  let y := val t b
  fend t m [x, y] false (addNum m x y.negate) s

def fmul (t : BitVec 5) (m : BitVec 3) (a b : Nat) (s : Fp) : Nat × Fp :=
  let x := val t a
  let y := val t b
  fend t m [x, y] false (mulNum x y) s

/-- The product of a and b was 0 × ∞. -/
def badProduct (x y : Num) : Bool := !x.isNan && !y.isNan && (mulNum x y).isNone

/-- a·b + c with one rounding; `sub` takes c away and keeps a NaN c's sign (05 R113, 07 R173). -/
def ffma (t : BitVec 5) (m : BitVec 3) (sub : Bool) (a b c : Nat) (s : Fp) : Nat × Fp :=
  let x := val t a
  let y := val t b
  let z := val t c
  let z' := if sub then z.negate else z
  fend t m [x, y, z] (badProduct x y) ((mulNum x y).bind (fun p => addNum m p z')) s

def fdiv (t : BitVec 5) (m : BitVec 3) (a b : Nat) (s : Fp) : Nat × Fp :=
  let x := val t a
  let y := val t b
  match x, y with
  | .fin n m1 e1, .fin k m2 e2 =>
    if m2 = 0 then
      if m1 = 0 then (canonNan t, s.raise flagNV) else (infCode t (n != k), s.raise flagDZ)
    else round t m (divFin n m1 e1 k m2 e2) s
  | .inf n, .fin k _ _ => (infCode t (n != k), s)
  | .fin n _ _, .inf k => round t m (.fin (n != k) 0 0) s
  | _, _ => fend t m [x, y] false none s

def fsqrt (t : BitVec 5) (m : BitVec 3) (a : Nat) (s : Fp) : Nat × Fp :=
  match val t a with
  | .fin n k e =>
    if k = 0 then round t m (.fin n 0 0) s
    else if n then (canonNan t, s.raise flagNV)
    else round t m (sqrtFin k e) s
  | .inf false => (infCode t false, s)
  | x => fend t m [x] false none s

/-- A result of the engines and of reductions at memory: a NaN is the canonical one (02 R47). -/
def canonic (t : BitVec 5) (r : Nat × Fp) : Nat × Fp := if (val t r.1).isNan then (canonNan t, r.2) else r

/-- fmin_num and fmax_num (02 R48). -/
def fminmax (t : BitVec 5) (isMax : Bool) (a b : Nat) (s : Fp) : Nat × Fp :=
  let x := val t a
  let y := val t b
  let s := s.raiseIf (x.isSignalling || y.isSignalling) flagNV
  if x.isNan && y.isNan then (canonNan t, s)
  else if x.isNan then (b, s)
  else if y.isNan then (a, s)
  else if belowNum x y then (if isMax then b else a, s)
  else (if isMax then a else b, s)

/-- The unary functions of R174: 0 VRCP, 1 VRSQ, 2 VEXP2, 3 VLOG2, with the cases of Table 7.3. -/
def funary (op : Nat) (t : BitVec 5) (m : BitVec 3) (a : Nat) (s : Fp) : Nat × Fp :=
  let x := val t a
  match x with
  | .nan .. => fend t m [x] false none s
  | .inf n =>
    match op with
    | 0 => round t m (.fin n 0 0) s
    | 1 => if n then (canonNan t, s.raise flagNV) else round t m (.fin false 0 0) s
    | 2 => if n then round t m (.fin false 0 0) s else (infCode t false, s)
    | _ => if n then (canonNan t, s.raise flagNV) else (infCode t false, s)
  | .fin n k e =>
    match op with
    | 0 => if k = 0 then (infCode t n, s.raise flagDZ) else round t m (divFin false 1 0 n k e) s
    | 1 =>
      if k = 0 then (infCode t n, s.raise flagDZ)
      else if n then (canonNan t, s.raise flagNV)
      else round t m (rsqrtFin k e) s
    | 2 => round t m (exp2Fin n k e) s
    | _ =>
      if k = 0 then (infCode t true, s.raise flagDZ)
      else if n then (canonNan t, s.raise flagNV)
      else round t m (log2Fin k e) s

/-- The four conditions of FCMP and the floating ones of VCMP: 0 eq, 1 ne, 2 lt, 3 le, 4 gt, 5 ge, 6 un,
7 ord (03 Table 3.6, 05 R114, 07 R176): whether it holds and whether NV is raised. -/
def fcond (cond : Nat) (x y : Num) : Bool × Bool :=
  let nan := x.isNan || y.isNan
  let sig := x.isSignalling || y.isSignalling
  let o := cmpNum x y
  match cond with
  | 0 => (!nan && o == .eq, sig)
  | 1 => (nan || o != .eq, sig)
  | 2 => (!nan && o == .lt, nan)
  | 3 => (!nan && o != .gt, nan)
  | 4 => (!nan && o == .gt, nan)
  | 5 => (!nan && o != .lt, nan)
  | 6 => (nan, sig)
  | _ => (!nan, sig)

/-! ### Integers -/

/-- The range of a w-bit integer format (02 R39). -/
def intMin (signed : Bool) (w : Nat) : Int := if signed then -2 ^ (w - 1) else 0
def intMax (signed : Bool) (w : Nat) : Int := if signed then 2 ^ (w - 1) - 1 else 2 ^ w - 1

/-- The low w bits of an integer. -/
def wrapInt (w : Nat) (x : Int) : Nat := (x % 2 ^ w).toNat

/-- sat_i and sat_n (02 Table 2.7), as the low w bits. -/
def satInt (signed : Bool) (w : Nat) (x : Int) : Nat :=
  wrapInt w (max (intMin signed w) (min (intMax signed w) x))

/-- An exact integer wrapped or saturated to a type (02 R39). -/
def fitInt (sat : Bool) (t : BitVec 5) (x : Int) : Nat :=
  if sat then satInt (isSigned t) (typeWidth t) x else wrapInt (typeWidth t) x

/-- A value converted to an integer type (02 R54): rounded under the mode, clamped with NV. DEDUCED (log 85):
under RSR the LFSR steps when a fraction was discarded, whether or not the rounded value is then clamped, and
not for an infinity. -/
def toInt (t : BitVec 5) (mode : BitVec 3) (v : Num) (s : Fp) : Nat × Fp :=
  let w := typeWidth t
  let sg := isSigned t
  match v with
  | .nan .. => (0, s.raise flagNV)
  | .inf n => (wrapInt w (if n then intMin sg w else intMax sg w), s.raise flagNV)
  | .fin n m e =>
    let l := lfsrStep s.lfsr
    let (k, inexact) := roundAt mode n m e 0 (l.toNat % 2 ^ 16)
    let s := if mode = 5 && inexact then { s with lfsr := l } else s
    let i : Int := if n then -(k : Int) else k
    if i < intMin sg w then (wrapInt w (intMin sg w), s.raise flagNV)
    else if intMax sg w < i then (wrapInt w (intMax sg w), s.raise flagNV)
    else (wrapInt w i, s.raiseIf inexact flagNX)

/-- cvt(x, f, g, rm) between the types 0 to 13 (02 R47, R54, 05 R116, 07 R179). Between two integer
types the mode is 0 for wrapping, 1 for saturation. A format converted to itself is unchanged, but a
signalling NaN is quieted. -/
def cvt (src dst : BitVec 5) (mode : BitVec 3) (x : Nat) (s : Fp) : Nat × Fp :=
  let v := val src x
  if isInt src && isInt dst then
    (fitInt (mode = 1) dst (intOf (isSigned src) (typeWidth src) x), s)
  else if isInt dst then toInt dst mode v s
  else if src = dst then
    if v.isSignalling then (nanTo dst v, s.raise flagNV) else (x % 2 ^ typeWidth src, s)
  else round dst mode v s

/-- A conversion by FCVT, or of an element by VCVT: to E4M3 or E5M2, from the format itself too, a NaN is the canonical one
(02 R47, 05 R116, 07 R179). -/
def cvtElem (src dst : BitVec 5) (mode : BitVec 3) (x : Nat) (s : Fp) : Nat × Fp :=
  let r := cvt src dst mode x s
  if dst = 12 || dst = 13 then canonic dst r else r

/-! ### E2M1 blocks -/

/-- Twice the magnitude of an E2M1 code (02 Table 2.2). -/
def e2m1Twice (code : Nat) : Nat :=
  match code % 8 with
  | 0 => 0 | 1 => 1 | 2 => 2 | 3 => 3 | 4 => 4 | 5 => 6 | 6 => 8 | _ => 12

/-- The value of an E2M1 element (02 R44). A NaN scale gives the NaN without sign. -/
def e2m1Val (code scale special : Nat) : Num :=
  if scale = 0xFF then .invalid
  else if code = 8 then
    match val 12 special with
    | .fin n m e => .fin n m (e + scale - 127)
    | v => v
  else .fin (code.testBit 3) (e2m1Twice code) ((scale : Int) - 128)

/-- An E2M1 element is a NaN by its scale or its special value: NV once for the operation (02 R62). -/
def e2m1Nv (code scale special : Nat) : Bool :=
  scale = 0xFF || (code = 8 && special % 128 = 127)

/-- Twice the E2M1 magnitude nearest to m·2^e under a mode, at most 12, and whether it is inexact: one
fraction bit, smallest exponent 0 (02 R45). -/
def e2m1Round (mode : BitVec 3) (neg : Bool) (m : Nat) (e : Int) (drawn : Nat) : Nat × Bool :=
  if m = 0 then (0, false)
  else
    let ex := (Nat.log2 m : Int) + e
    let q := max (ex - 1) (-1)
    let (sig, inexact) := roundAt mode neg m e q drawn
    let twice := sig <<< (q + 1).toNat
    if 12 < twice then (12, true) else (twice, inexact)

/-- The code of twice a magnitude. -/
def e2m1Code (twice : Nat) : Nat :=
  match twice with
  | 0 => 0 | 1 => 1 | 2 => 2 | 3 => 3 | 4 => 4 | 6 => 5 | 8 => 6 | _ => 7

/-- Is a magnitude below another? -/
def magBelow (a b : Num) : Bool := cmpNum a.abs b.abs == .lt

/-- The index of the first element of largest magnitude. -/
def maxIndex : List Num → Nat → Nat → Num → Nat
  | [], _, best, _ => best
  | v :: vs, i, best, bv => if magBelow bv v then maxIndex vs (i + 1) i v else maxIndex vs (i + 1) best bv

/-- The codes of the elements of a block, divided by the scale and rounded; the element at `out` becomes
0b1000 (02 R45). The LFSR steps once for every element, in ascending order (02 R52). -/
def e2m1Elems (mode : BitVec 3) (scale : Nat) (out : Option Nat) : List Num → Nat → Fp → List Nat × Fp
  | [], _, s => ([], s)
  | v :: vs, i, s =>
    let l := lfsrStep s.lfsr
    let drawn := l.toNat % 2 ^ 16
    let s := { s with lfsr := l }
    let (c, s) :=
      if out = some i then (8, s)
      else match v with
        | .fin n m e =>
          let (tw, ix) := e2m1Round mode n m (e + 127 - scale) drawn
          ((if n && tw != 0 then 8 else 0) + e2m1Code tw, s.raiseIf ix flagNX)
        | _ => (0, s)
    let (cs, s) := e2m1Elems mode scale out vs (i + 1) s
    (c :: cs, s)

/-- A conversion that writes an E2M1 block (02 R45): the 32 codes, the scale and the special byte. DEDUCED
(log 86): of the flags an inexact element or special value raises NX alone, as R45 lists, and no UF. -/
def e2m1Block (mode : BitVec 3) (outlier : Bool) (xs : List Num) (s : Fp) : List Nat × Nat × Nat × Fp :=
  if xs.any (fun v => match v with | .fin .. => false | _ => true) then
    (List.replicate 32 0, 0xFF, 0, { s.raise flagNV with lfsr := lfsrSteps 32 s.lfsr })
  else
    let k := maxIndex xs 0 0 (.fin false 0 0)
    let top := (xs.getD k (.fin false 0 0)).abs
    match top with
    | .fin _ m e =>
      let scale : Nat :=
        if m = 0 then 127 else (max 0 (min 254 ((Nat.log2 m : Int) + e - 2 + 127))).toNat
      let out := if outlier then some k else none
      let special :=
        if outlier then
          match xs.getD k (.fin false 0 0) with
          | .fin n mm ee =>
            let r := round 12 mode (.fin n mm (ee + 127 - scale))
              { flags := 0, lfsr := lfsrSteps k s.lfsr }
            (r.1, r.2.flags &&& flagNX != 0)
          | _ => (0, false)
        else (0, false)
      let (cs, s) := e2m1Elems mode scale out xs 0 s
      (cs, scale, special.1, s.raiseIf special.2 flagNX)
    | _ => (List.replicate 32 0, 127, 0, s)

/-- A decoded byte or element as FP16, as the decoding windows show it (01 R35): round to nearest even, no
flag. -/
def aliasF16 (v : Num) : Nat := (round 8 0 v { flags := 0, lfsr := 1 }).1

end Sys2Proof.Machine
end

