-- ==== Sys2Proof/WellFormed.lean ====
section
/-! DEFINITION. Well-formed instructions: those whose fields hold values the spec accepts (03 R70,
R80). The checks themselves stand in Machine/Legal.lean. -/

namespace Sys2Proof

/-- An instruction is well formed when its entry accepts the value of each of its fields. -/
abbrev Instr.WellFormed (i : Instr) : Prop := Machine.legal i = true

end Sys2Proof
end

