-- ==== Sys2Proof/Decode.lean ====
section
/-! DEFINITION. From bytes to instructions and back (03 R63 to R73). The decoder holds one row for
each encoded row of the opcode table: a word is the first row's whose fixed bits it has. A word
that no row matches is rejected by name; a field value its entry does not accept is the business
of Machine/Legal.lean. The encoder writes the words of an instruction from the same tables. -/

namespace Sys2Proof

/-- Why bytes are not an instruction (03 Table 3.8). -/
inductive Reject where
  /-- Fewer bytes than the first parcel's length (03 R63). -/
  | tooShort
  /-- Major opcode 0x00, 0x3D or 0x3E (03 R71). -/
  | reservedMajor (w : Word)
  /-- A selector, or a bit that must be zero, that no entry has (03 R70, R72). -/
  | unlisted (w : Word)
  deriving DecidableEq, Repr

/-- One encoded row: the bits it fixes, their values, and the instruction its fields make. -/
structure DecodeRow where
  mask : Word
  pat : Word
  make : Word → Instr

/-- Rows 1 to 24 of the encoded rows, in the table's order. -/
def decodeRows1 : List DecodeRow :=
  [ ⟨0xFFC0007F#32, 0x00000002#32, fun w => .add (w.extractLsb' 7 5) (w.extractLsb' 12 5) (w.extractLsb' 17 5)⟩,
    ⟨0xFFC0007F#32, 0x04000002#32, fun w => .sub (w.extractLsb' 7 5) (w.extractLsb' 12 5) (w.extractLsb' 17 5)⟩,
    ⟨0xFFC0007F#32, 0x08000002#32, fun w => .and (w.extractLsb' 7 5) (w.extractLsb' 12 5) (w.extractLsb' 17 5)⟩,
    ⟨0xFFC0007F#32, 0x0C000002#32, fun w => .or (w.extractLsb' 7 5) (w.extractLsb' 12 5) (w.extractLsb' 17 5)⟩,
    ⟨0xFFC0007F#32, 0x10000002#32, fun w => .xor (w.extractLsb' 7 5) (w.extractLsb' 12 5) (w.extractLsb' 17 5)⟩,
    ⟨0xFFC0007F#32, 0x14000002#32, fun w => .shl (w.extractLsb' 7 5) (w.extractLsb' 12 5) (w.extractLsb' 17 5)⟩,
    ⟨0xFFC0007F#32, 0x18000002#32, fun w => .shr (w.extractLsb' 7 5) (w.extractLsb' 12 5) (w.extractLsb' 17 5)⟩,
    ⟨0xFFC0007F#32, 0x1C000002#32, fun w => .sha (w.extractLsb' 7 5) (w.extractLsb' 12 5) (w.extractLsb' 17 5)⟩,
    ⟨0xFFC0007F#32, 0x20000002#32, fun w => .min (w.extractLsb' 7 5) (w.extractLsb' 12 5) (w.extractLsb' 17 5)⟩,
    ⟨0xFFC0007F#32, 0x24000002#32, fun w => .max (w.extractLsb' 7 5) (w.extractLsb' 12 5) (w.extractLsb' 17 5)⟩,
    ⟨0xFFC0007F#32, 0x28000002#32, fun w => .minu (w.extractLsb' 7 5) (w.extractLsb' 12 5) (w.extractLsb' 17 5)⟩,
    ⟨0xFFC0007F#32, 0x2C000002#32, fun w => .maxu (w.extractLsb' 7 5) (w.extractLsb' 12 5) (w.extractLsb' 17 5)⟩,
    ⟨0xFFC0007F#32, 0x30000002#32, fun w => .slt (w.extractLsb' 7 5) (w.extractLsb' 12 5) (w.extractLsb' 17 5)⟩,
    ⟨0xFFC0007F#32, 0x34000002#32, fun w => .sltu (w.extractLsb' 7 5) (w.extractLsb' 12 5) (w.extractLsb' 17 5)⟩,
    ⟨0xFFC0007F#32, 0x38000002#32, fun w => .sel (w.extractLsb' 7 5) (w.extractLsb' 12 5) (w.extractLsb' 17 5)⟩,
    ⟨0xF000007F#32, 0xF0000002#32, fun w => .hint (w.extractLsb' 7 5) (w.extractLsb' 12 5) (w.extractLsb' 17 5) (w.extractLsb' 22 6)⟩,
    ⟨0xFFC0007F#32, 0x00000004#32, fun w => .mul (w.extractLsb' 7 5) (w.extractLsb' 12 5) (w.extractLsb' 17 5)⟩,
    ⟨0xFFC0007F#32, 0x04000004#32, fun w => .mulh (w.extractLsb' 7 5) (w.extractLsb' 12 5) (w.extractLsb' 17 5)⟩,
    ⟨0xFFC0007F#32, 0x08000004#32, fun w => .mulhu (w.extractLsb' 7 5) (w.extractLsb' 12 5) (w.extractLsb' 17 5)⟩,
    ⟨0xFFC0007F#32, 0x0C000004#32, fun w => .div (w.extractLsb' 7 5) (w.extractLsb' 12 5) (w.extractLsb' 17 5)⟩,
    ⟨0xFFC0007F#32, 0x10000004#32, fun w => .divu (w.extractLsb' 7 5) (w.extractLsb' 12 5) (w.extractLsb' 17 5)⟩,
    ⟨0xFFC0007F#32, 0x14000004#32, fun w => .rem (w.extractLsb' 7 5) (w.extractLsb' 12 5) (w.extractLsb' 17 5)⟩,
    ⟨0xFFC0007F#32, 0x18000004#32, fun w => .remu (w.extractLsb' 7 5) (w.extractLsb' 12 5) (w.extractLsb' 17 5)⟩,
    ⟨0xFFFE007F#32, 0x00000006#32, fun w => .clz (w.extractLsb' 7 5) (w.extractLsb' 12 5)⟩ ]

/-- Rows 25 to 48 of the encoded rows, in the table's order. -/
def decodeRows2 : List DecodeRow :=
  [ ⟨0xFFFE007F#32, 0x04000006#32, fun w => .ctz (w.extractLsb' 7 5) (w.extractLsb' 12 5)⟩,
    ⟨0xFFFE007F#32, 0x08000006#32, fun w => .popc (w.extractLsb' 7 5) (w.extractLsb' 12 5)⟩,
    ⟨0xFFFE007F#32, 0x0C000006#32, fun w => .brev (w.extractLsb' 7 5) (w.extractLsb' 12 5)⟩,
    ⟨0xE000007F#32, 0x00000008#32, fun w => .bfx (w.extractLsb' 7 5) (w.extractLsb' 12 5) (w.extractLsb' 17 6) (w.extractLsb' 23 6)⟩,
    ⟨0xE000007F#32, 0x40000008#32, fun w => .bfxs (w.extractLsb' 7 5) (w.extractLsb' 12 5) (w.extractLsb' 17 6) (w.extractLsb' 23 6)⟩,
    ⟨0xE000007F#32, 0x20000008#32, fun w => .bfi (w.extractLsb' 7 5) (w.extractLsb' 12 5) (w.extractLsb' 17 6) (w.extractLsb' 23 6)⟩,
    ⟨0x0000007F#32, 0x0000000A#32, fun w => .addi (w.extractLsb' 7 5) (w.extractLsb' 12 5) (w.extractLsb' 17 15)⟩,
    ⟨0x0000007F#32, 0x0000000C#32, fun w => .andi (w.extractLsb' 7 5) (w.extractLsb' 12 5) (w.extractLsb' 17 15)⟩,
    ⟨0x0000007F#32, 0x0000000E#32, fun w => .ori (w.extractLsb' 7 5) (w.extractLsb' 12 5) (w.extractLsb' 17 15)⟩,
    ⟨0x0000007F#32, 0x00000010#32, fun w => .xori (w.extractLsb' 7 5) (w.extractLsb' 12 5) (w.extractLsb' 17 15)⟩,
    ⟨0x0000007F#32, 0x00000012#32, fun w => .slti (w.extractLsb' 7 5) (w.extractLsb' 12 5) (w.extractLsb' 17 15)⟩,
    ⟨0x0000007F#32, 0x00000014#32, fun w => .sltui (w.extractLsb' 7 5) (w.extractLsb' 12 5) (w.extractLsb' 17 15)⟩,
    ⟨0xFF80007F#32, 0x00000016#32, fun w => .shli (w.extractLsb' 7 5) (w.extractLsb' 12 5) (w.extractLsb' 17 6)⟩,
    ⟨0xFF80007F#32, 0x00800016#32, fun w => .shri (w.extractLsb' 7 5) (w.extractLsb' 12 5) (w.extractLsb' 17 6)⟩,
    ⟨0xFF80007F#32, 0x01000016#32, fun w => .shai (w.extractLsb' 7 5) (w.extractLsb' 12 5) (w.extractLsb' 17 6)⟩,
    ⟨0x0000007F#32, 0x00000018#32, fun w => .lea (w.extractLsb' 7 5) (w.extractLsb' 12 5) (w.extractLsb' 17 5) (w.extractLsb' 22 2) (w.extractLsb' 24 8)⟩,
    ⟨0x0000007F#32, 0x0000001A#32, fun w => .lui (w.extractLsb' 7 5) (w.extractLsb' 12 20)⟩,
    ⟨0x0000007F#32, 0x0000001C#32, fun w => .addpc (w.extractLsb' 7 5) (w.extractLsb' 12 20)⟩,
    ⟨0xF840007F#32, 0x0000001E#32, fun w => .fadd (w.extractLsb' 7 5) (w.extractLsb' 12 5) (w.extractLsb' 17 5) (w.extractLsb' 23 1) (w.extractLsb' 24 3)⟩,
    ⟨0xF840007F#32, 0x0800001E#32, fun w => .fsub (w.extractLsb' 7 5) (w.extractLsb' 12 5) (w.extractLsb' 17 5) (w.extractLsb' 23 1) (w.extractLsb' 24 3)⟩,
    ⟨0xF840007F#32, 0x1000001E#32, fun w => .fmul (w.extractLsb' 7 5) (w.extractLsb' 12 5) (w.extractLsb' 17 5) (w.extractLsb' 23 1) (w.extractLsb' 24 3)⟩,
    ⟨0xF840007F#32, 0x1800001E#32, fun w => .ffma (w.extractLsb' 7 5) (w.extractLsb' 12 5) (w.extractLsb' 17 5) (w.extractLsb' 23 1) (w.extractLsb' 24 3)⟩,
    ⟨0xF840007F#32, 0x2000001E#32, fun w => .fdiv (w.extractLsb' 7 5) (w.extractLsb' 12 5) (w.extractLsb' 17 5) (w.extractLsb' 23 1) (w.extractLsb' 24 3)⟩,
    ⟨0xF87E007F#32, 0x2800001E#32, fun w => .fsqrt (w.extractLsb' 7 5) (w.extractLsb' 12 5) (w.extractLsb' 23 1) (w.extractLsb' 24 3)⟩ ]

/-- Rows 49 to 72 of the encoded rows, in the table's order. -/
def decodeRows3 : List DecodeRow :=
  [ ⟨0xFF40007F#32, 0x3000001E#32, fun w => .fmin (w.extractLsb' 7 5) (w.extractLsb' 12 5) (w.extractLsb' 17 5) (w.extractLsb' 23 1)⟩,
    ⟨0xFF40007F#32, 0x3800001E#32, fun w => .fmax (w.extractLsb' 7 5) (w.extractLsb' 12 5) (w.extractLsb' 17 5) (w.extractLsb' 23 1)⟩,
    ⟨0xF840007F#32, 0x4000001E#32, fun w => .fcmp (w.extractLsb' 7 5) (w.extractLsb' 12 5) (w.extractLsb' 17 5) (w.extractLsb' 23 1) (w.extractLsb' 24 3)⟩,
    ⟨0x00C0007F#32, 0x00000020#32, fun w => .fcvt (w.extractLsb' 7 5) (w.extractLsb' 12 5) (w.extractLsb' 17 5) (w.extractLsb' 24 3) (w.extractLsb' 27 5)⟩,
    ⟨0x0000007F#32, 0x00000022#32, fun w => .beq (w.extractLsb' 7 5) (w.extractLsb' 12 5) (w.extractLsb' 17 5) (w.extractLsb' 22 10)⟩,
    ⟨0x0000007F#32, 0x00000024#32, fun w => .bne (w.extractLsb' 7 5) (w.extractLsb' 12 5) (w.extractLsb' 17 5) (w.extractLsb' 22 10)⟩,
    ⟨0x0000007F#32, 0x00000026#32, fun w => .blt (w.extractLsb' 7 5) (w.extractLsb' 12 5) (w.extractLsb' 17 5) (w.extractLsb' 22 10)⟩,
    ⟨0x0000007F#32, 0x00000028#32, fun w => .bge (w.extractLsb' 7 5) (w.extractLsb' 12 5) (w.extractLsb' 17 5) (w.extractLsb' 22 10)⟩,
    ⟨0x0000007F#32, 0x0000002A#32, fun w => .bltu (w.extractLsb' 7 5) (w.extractLsb' 12 5) (w.extractLsb' 17 5) (w.extractLsb' 22 10)⟩,
    ⟨0x0000007F#32, 0x0000002C#32, fun w => .bgeu (w.extractLsb' 7 5) (w.extractLsb' 12 5) (w.extractLsb' 17 5) (w.extractLsb' 22 10)⟩,
    ⟨0x0000007F#32, 0x0000002E#32, fun w => .jal (w.extractLsb' 7 5) (w.extractLsb' 12 20)⟩,
    ⟨0x0000007F#32, 0x00000030#32, fun w => .jalr (w.extractLsb' 7 5) (w.extractLsb' 12 5) (w.extractLsb' 17 15)⟩,
    ⟨0x003E007F#32, 0x00000032#32, fun w => .loop (w.extractLsb' 7 5) (w.extractLsb' 12 5) (w.extractLsb' 22 10)⟩,
    ⟨0x0000007F#32, 0x00000034#32, fun w => .ld (w.extractLsb' 7 5) (w.extractLsb' 12 5) (w.extractLsb' 17 3) (w.extractLsb' 20 12)⟩,
    ⟨0x0000007F#32, 0x00000036#32, fun w => .ldf (w.extractLsb' 7 5) (w.extractLsb' 12 5) (w.extractLsb' 17 3) (w.extractLsb' 20 12)⟩,
    ⟨0x0000007F#32, 0x00000038#32, fun w => .st (w.extractLsb' 7 5) (w.extractLsb' 12 5) (w.extractLsb' 17 5) (w.extractLsb' 22 3) (w.extractLsb' 25 7)⟩,
    ⟨0x0000007F#32, 0x0000003A#32, fun w => .pf (w.extractLsb' 7 5) (w.extractLsb' 12 5) (w.extractLsb' 17 15)⟩,
    ⟨0x0040007F#32, 0x0000003C#32, fun w => .amo (w.extractLsb' 7 5) (w.extractLsb' 12 5) (w.extractLsb' 17 5) (w.extractLsb' 23 3) (w.extractLsb' 26 2) (w.extractLsb' 28 4)⟩,
    ⟨0xF040007F#32, 0x0000003E#32, fun w => .cas (w.extractLsb' 7 5) (w.extractLsb' 12 5) (w.extractLsb' 17 5) (w.extractLsb' 23 3) (w.extractLsb' 26 2)⟩,
    ⟨0x0040007F#32, 0x00000040#32, fun w => .amof (w.extractLsb' 7 5) (w.extractLsb' 12 5) (w.extractLsb' 17 5) (w.extractLsb' 23 3) (w.extractLsb' 26 2) (w.extractLsb' 28 4)⟩,
    ⟨0xC000007F#32, 0x00000042#32, fun w => .redAdd (w.extractLsb' 7 5) (w.extractLsb' 12 5) (w.extractLsb' 17 5) (w.extractLsb' 22 3) (w.extractLsb' 25 5)⟩,
    ⟨0xFE3FFFFF#32, 0x00000044#32, fun w => .acq (w.extractLsb' 22 3)⟩,
    ⟨0xFE3FFFFF#32, 0x04000044#32, fun w => .rel (w.extractLsb' 22 3)⟩,
    ⟨0xFF3FFFFF#32, 0x08000044#32, fun w => .fence (w.extractLsb' 22 2)⟩ ]

/-- Rows 73 to 96 of the encoded rows, in the table's order. -/
def decodeRows4 : List DecodeRow :=
  [ ⟨0xFFC00FFF#32, 0x0C000044#32, fun w => .barInit (w.extractLsb' 12 5) (w.extractLsb' 17 5)⟩,
    ⟨0xFFFE007F#32, 0x10000044#32, fun w => .barArr (w.extractLsb' 7 5) (w.extractLsb' 12 5)⟩,
    ⟨0xFFC0007F#32, 0x14000044#32, fun w => .barWait (w.extractLsb' 7 5) (w.extractLsb' 12 5) (w.extractLsb' 17 5)⟩,
    ⟨0xFFFE007F#32, 0x18000044#32, fun w => .barInfo (w.extractLsb' 7 5) (w.extractLsb' 12 5)⟩,
    ⟨0xFFFE0FFF#32, 0x1C000044#32, fun w => .barFree (w.extractLsb' 12 5)⟩,
    ⟨0xFFC0007F#32, 0x20000044#32, fun w => .cntInit (w.extractLsb' 7 5) (w.extractLsb' 12 5) (w.extractLsb' 17 5)⟩,
    ⟨0xFFFE0FFF#32, 0x24000044#32, fun w => .cntSig (w.extractLsb' 12 5)⟩,
    ⟨0xFFFE007F#32, 0x28000044#32, fun w => .cntWait (w.extractLsb' 7 5) (w.extractLsb' 12 5)⟩,
    ⟨0xFFC0007F#32, 0x2C000044#32, fun w => .cntAdd (w.extractLsb' 7 5) (w.extractLsb' 12 5) (w.extractLsb' 17 5)⟩,
    ⟨0xFFFE007F#32, 0x30000044#32, fun w => .publish (w.extractLsb' 7 5) (w.extractLsb' 12 5)⟩,
    ⟨0xFFC0007F#32, 0x34000044#32, fun w => .redDecl (w.extractLsb' 7 5) (w.extractLsb' 12 5) (w.extractLsb' 17 5)⟩,
    ⟨0x0000007F#32, 0x00000046#32, fun w => .vld (w.extractLsb' 7 5) (w.extractLsb' 12 5) (w.extractLsb' 17 3) (w.extractLsb' 20 5) (w.extractLsb' 25 7)⟩,
    ⟨0x0000007F#32, 0x00000048#32, fun w => .vst (w.extractLsb' 7 5) (w.extractLsb' 12 5) (w.extractLsb' 17 3) (w.extractLsb' 20 5) (w.extractLsb' 25 7)⟩,
    ⟨0x0000007F#32, 0x0000004A#32, fun w => .vldx (w.extractLsb' 7 5) (w.extractLsb' 12 5) (w.extractLsb' 17 5) (w.extractLsb' 22 3) (w.extractLsb' 25 5) (w.extractLsb' 30 2)⟩,
    ⟨0x0000007F#32, 0x0000004C#32, fun w => .vstx (w.extractLsb' 7 5) (w.extractLsb' 12 5) (w.extractLsb' 17 5) (w.extractLsb' 22 3) (w.extractLsb' 25 5) (w.extractLsb' 30 2)⟩,
    ⟨0x0000007F#32, 0x0000004E#32, fun w => .vadd (w.extractLsb' 7 5) (w.extractLsb' 12 5) (w.extractLsb' 17 5) (w.extractLsb' 22 2) (w.extractLsb' 24 5) (w.extractLsb' 29 3)⟩,
    ⟨0x0000007F#32, 0x00000050#32, fun w => .vsub (w.extractLsb' 7 5) (w.extractLsb' 12 5) (w.extractLsb' 17 5) (w.extractLsb' 22 2) (w.extractLsb' 24 5) (w.extractLsb' 29 3)⟩,
    ⟨0x0000007F#32, 0x00000052#32, fun w => .vmul (w.extractLsb' 7 5) (w.extractLsb' 12 5) (w.extractLsb' 17 5) (w.extractLsb' 22 2) (w.extractLsb' 24 5) (w.extractLsb' 29 3)⟩,
    ⟨0x0000007F#32, 0x00000054#32, fun w => .vfma (w.extractLsb' 7 5) (w.extractLsb' 12 5) (w.extractLsb' 17 5) (w.extractLsb' 22 2) (w.extractLsb' 24 5) (w.extractLsb' 29 3)⟩,
    ⟨0x0000007F#32, 0x00000056#32, fun w => .vfms (w.extractLsb' 7 5) (w.extractLsb' 12 5) (w.extractLsb' 17 5) (w.extractLsb' 22 2) (w.extractLsb' 24 5) (w.extractLsb' 29 3)⟩,
    ⟨0x003E007F#32, 0x00000058#32, fun w => .vrcp (w.extractLsb' 7 5) (w.extractLsb' 12 5) (w.extractLsb' 22 2) (w.extractLsb' 24 5) (w.extractLsb' 29 3)⟩,
    ⟨0x003E007F#32, 0x00020058#32, fun w => .vrsq (w.extractLsb' 7 5) (w.extractLsb' 12 5) (w.extractLsb' 22 2) (w.extractLsb' 24 5) (w.extractLsb' 29 3)⟩,
    ⟨0x003E007F#32, 0x00040058#32, fun w => .vexp2 (w.extractLsb' 7 5) (w.extractLsb' 12 5) (w.extractLsb' 22 2) (w.extractLsb' 24 5) (w.extractLsb' 29 3)⟩,
    ⟨0x003E007F#32, 0x00060058#32, fun w => .vlog2 (w.extractLsb' 7 5) (w.extractLsb' 12 5) (w.extractLsb' 22 2) (w.extractLsb' 24 5) (w.extractLsb' 29 3)⟩ ]

/-- Rows 97 to 120 of the encoded rows, in the table's order. -/
def decodeRows5 : List DecodeRow :=
  [ ⟨0x003E007F#32, 0x00080058#32, fun w => .vabs (w.extractLsb' 7 5) (w.extractLsb' 12 5) (w.extractLsb' 22 2) (w.extractLsb' 24 5) (w.extractLsb' 29 3)⟩,
    ⟨0x003E007F#32, 0x000A0058#32, fun w => .vneg (w.extractLsb' 7 5) (w.extractLsb' 12 5) (w.extractLsb' 22 2) (w.extractLsb' 24 5) (w.extractLsb' 29 3)⟩,
    ⟨0x0000007F#32, 0x0000005A#32, fun w => .vcvt (w.extractLsb' 7 5) (w.extractLsb' 12 5) (w.extractLsb' 17 5) (w.extractLsb' 22 2) (w.extractLsb' 24 5) (w.extractLsb' 29 3)⟩,
    ⟨0x0020007F#32, 0x0000005C#32, fun w => .vred (w.extractLsb' 7 5) (w.extractLsb' 12 5) (w.extractLsb' 17 4) (w.extractLsb' 22 2) (w.extractLsb' 24 5) (w.extractLsb' 29 3)⟩,
    ⟨0x0020007F#32, 0x0020005C#32, fun w => .vscan (w.extractLsb' 7 5) (w.extractLsb' 12 5) (w.extractLsb' 17 4) (w.extractLsb' 22 2) (w.extractLsb' 24 5) (w.extractLsb' 29 3)⟩,
    ⟨0x0000007F#32, 0x0000005E#32, fun w => .vdot (w.extractLsb' 7 5) (w.extractLsb' 12 5) (w.extractLsb' 17 5) (w.extractLsb' 22 2) (w.extractLsb' 24 5) (w.extractLsb' 29 3)⟩,
    ⟨0xC000007F#32, 0x00000060#32, fun w => .vmin (w.extractLsb' 7 5) (w.extractLsb' 12 5) (w.extractLsb' 17 5) (w.extractLsb' 22 3) (w.extractLsb' 25 5)⟩,
    ⟨0xC000007F#32, 0x40000060#32, fun w => .vmax (w.extractLsb' 7 5) (w.extractLsb' 12 5) (w.extractLsb' 17 5) (w.extractLsb' 22 3) (w.extractLsb' 25 5)⟩,
    ⟨0xC000007F#32, 0x00000062#32, fun w => .vand (w.extractLsb' 7 5) (w.extractLsb' 12 5) (w.extractLsb' 17 5) (w.extractLsb' 22 3) (w.extractLsb' 25 5)⟩,
    ⟨0xC000007F#32, 0x40000062#32, fun w => .vor (w.extractLsb' 7 5) (w.extractLsb' 12 5) (w.extractLsb' 17 5) (w.extractLsb' 22 3) (w.extractLsb' 25 5)⟩,
    ⟨0xC000007F#32, 0x80000062#32, fun w => .vxor (w.extractLsb' 7 5) (w.extractLsb' 12 5) (w.extractLsb' 17 5) (w.extractLsb' 22 3) (w.extractLsb' 25 5)⟩,
    ⟨0xC000007F#32, 0x00000064#32, fun w => .vshl (w.extractLsb' 7 5) (w.extractLsb' 12 5) (w.extractLsb' 17 5) (w.extractLsb' 22 3) (w.extractLsb' 25 5)⟩,
    ⟨0xC000007F#32, 0x40000064#32, fun w => .vshr (w.extractLsb' 7 5) (w.extractLsb' 12 5) (w.extractLsb' 17 5) (w.extractLsb' 22 3) (w.extractLsb' 25 5)⟩,
    ⟨0xC000007F#32, 0x80000064#32, fun w => .vsha (w.extractLsb' 7 5) (w.extractLsb' 12 5) (w.extractLsb' 17 5) (w.extractLsb' 22 3) (w.extractLsb' 25 5)⟩,
    ⟨0x0000007F#32, 0x00000066#32, fun w => .vcmp (w.extractLsb' 7 3) (w.extractLsb' 10 2) (w.extractLsb' 12 5) (w.extractLsb' 17 5) (w.extractLsb' 22 3) (w.extractLsb' 25 5) (w.extractLsb' 30 2)⟩,
    ⟨0xC000007F#32, 0x00000068#32, fun w => .vsel (w.extractLsb' 7 5) (w.extractLsb' 12 5) (w.extractLsb' 17 5) (w.extractLsb' 22 3) (w.extractLsb' 25 5)⟩,
    ⟨0xC000007F#32, 0x40000068#32, fun w => .vperm (w.extractLsb' 7 5) (w.extractLsb' 12 5) (w.extractLsb' 17 5) (w.extractLsb' 22 3) (w.extractLsb' 25 5)⟩,
    ⟨0xC1C0007F#32, 0x80000068#32, fun w => .vpack (w.extractLsb' 7 5) (w.extractLsb' 12 5) (w.extractLsb' 17 5) (w.extractLsb' 25 5)⟩,
    ⟨0xC1C0007F#32, 0xC0000068#32, fun w => .vunpk (w.extractLsb' 7 5) (w.extractLsb' 12 5) (w.extractLsb' 17 5) (w.extractLsb' 25 5)⟩,
    ⟨0xC03E007F#32, 0x0000006A#32, fun w => .vbcast (w.extractLsb' 7 5) (w.extractLsb' 12 5) (w.extractLsb' 22 3) (w.extractLsb' 25 5)⟩,
    ⟨0xC1C0007F#32, 0x4000006A#32, fun w => .vmovg (w.extractLsb' 7 5) (w.extractLsb' 12 5) (w.extractLsb' 17 5) (w.extractLsb' 25 5)⟩,
    ⟨0xFFC0007F#32, 0x9E00006A#32, fun w => .vlut (w.extractLsb' 7 5) (w.extractLsb' 12 5) (w.extractLsb' 17 5)⟩,
    ⟨0xFFFE0FFF#32, 0xC000006A#32, fun w => .vlutset (w.extractLsb' 12 5)⟩,
    ⟨0xFFC0007F#32, 0x0000006C#32, fun w => .pand (w.extractLsb' 7 5) (w.extractLsb' 12 5) (w.extractLsb' 17 5)⟩ ]

/-- Rows 121 to 144 of the encoded rows, in the table's order. -/
def decodeRows6 : List DecodeRow :=
  [ ⟨0xFFC0007F#32, 0x0400006C#32, fun w => .por (w.extractLsb' 7 5) (w.extractLsb' 12 5) (w.extractLsb' 17 5)⟩,
    ⟨0xFFC0007F#32, 0x0800006C#32, fun w => .pxor (w.extractLsb' 7 5) (w.extractLsb' 12 5) (w.extractLsb' 17 5)⟩,
    ⟨0xFFFE007F#32, 0x0C00006C#32, fun w => .pnot (w.extractLsb' 7 5) (w.extractLsb' 12 5)⟩,
    ⟨0xFFFE007F#32, 0x1000006C#32, fun w => .ppop (w.extractLsb' 7 5) (w.extractLsb' 12 5)⟩,
    ⟨0xFFFE007F#32, 0x0000006E#32, fun w => .ewait (w.extractLsb' 7 5) (w.extractLsb' 12 5)⟩,
    ⟨0xFC3E007F#32, 0x0400006E#32, fun w => .qcfg (w.extractLsb' 7 5) (w.extractLsb' 12 5) (w.extractLsb' 22 4)⟩,
    ⟨0xFC01F07F#32, 0x0800006E#32, fun w => .qput (w.extractLsb' 7 5) (w.extractLsb' 17 5) (w.extractLsb' 22 4)⟩,
    ⟨0xFC01F07F#32, 0x0C00006E#32, fun w => .qpop (w.extractLsb' 7 5) (w.extractLsb' 17 5) (w.extractLsb' 22 4)⟩,
    ⟨0xFC01F07F#32, 0x1000006E#32, fun w => .qwait (w.extractLsb' 7 5) (w.extractLsb' 17 5) (w.extractLsb' 22 4)⟩,
    ⟨0xFC3FF07F#32, 0x1400006E#32, fun w => .qstat (w.extractLsb' 7 5) (w.extractLsb' 22 4)⟩,
    ⟨0xFFFE007F#32, 0x1800006E#32, fun w => .skrd (w.extractLsb' 7 5) (w.extractLsb' 12 5)⟩,
    ⟨0xFFC00FFF#32, 0x1C00006E#32, fun w => .skwr (w.extractLsb' 12 5) (w.extractLsb' 17 5)⟩,
    ⟨0xFE3E007F#32, 0x2000006E#32, fun w => .srw (w.extractLsb' 7 5) (w.extractLsb' 12 5) (w.extractLsb' 22 3)⟩,
    ⟨0xFF00007F#32, 0x00000070#32, fun w => .msg (w.extractLsb' 7 5) (w.extractLsb' 12 5) (w.extractLsb' 17 5) (w.extractLsb' 22 2)⟩,
    ⟨0xFF00007F#32, 0x04000070#32, fun w => .msgh (w.extractLsb' 7 5) (w.extractLsb' 12 5) (w.extractLsb' 17 5) (w.extractLsb' 22 2)⟩,
    ⟨0xFFC0007F#32, 0x08000070#32, fun w => .cntBind (w.extractLsb' 7 5) (w.extractLsb' 12 5) (w.extractLsb' 17 5)⟩,
    ⟨0xFFFE007F#32, 0x0C000070#32, fun w => .spawn (w.extractLsb' 7 5) (w.extractLsb' 12 5)⟩,
    ⟨0xFFFFFFFF#32, 0x10000070#32, fun _ => .tend⟩,
    ⟨0xFFFFF07F#32, 0x14000070#32, fun w => .tself (w.extractLsb' 7 5)⟩,
    ⟨0xFF3E0FFF#32, 0x18000070#32, fun w => .nput (w.extractLsb' 12 5) (w.extractLsb' 22 2)⟩,
    ⟨0xFF3FF07F#32, 0x1C000070#32, fun w => .nget (w.extractLsb' 7 5) (w.extractLsb' 22 2)⟩,
    ⟨0xFF3FF07F#32, 0x20000070#32, fun w => .npeek (w.extractLsb' 7 5) (w.extractLsb' 22 2)⟩,
    ⟨0xFFFE007F#32, 0x24000070#32, fun w => .ncfg (w.extractLsb' 7 5) (w.extractLsb' 12 5)⟩,
    ⟨0xFFC1F07F#32, 0x28000070#32, fun w => .convOpen (w.extractLsb' 7 5) (w.extractLsb' 17 5)⟩ ]

/-- Rows 145 to 168 of the encoded rows, in the table's order. -/
def decodeRows7 : List DecodeRow :=
  [ ⟨0xFFC00FFF#32, 0x2C000070#32, fun w => .convPut (w.extractLsb' 12 5) (w.extractLsb' 17 5)⟩,
    ⟨0xFFFE007F#32, 0x30000070#32, fun w => .convClose (w.extractLsb' 7 5) (w.extractLsb' 12 5)⟩,
    ⟨0xFFFE007F#32, 0x00000072#32, fun w => .meet (w.extractLsb' 7 5) (w.extractLsb' 12 5)⟩,
    ⟨0xFFFFF07F#32, 0x04000072#32, fun w => .depart (w.extractLsb' 7 5)⟩,
    ⟨0xFFC0007F#32, 0x08000072#32, fun w => .split (w.extractLsb' 7 5) (w.extractLsb' 12 5) (w.extractLsb' 17 5)⟩,
    ⟨0xFFFFF07F#32, 0x0C000072#32, fun w => .gate (w.extractLsb' 7 5)⟩,
    ⟨0xFFFE0FFF#32, 0x10000072#32, fun w => .mbld (w.extractLsb' 12 5)⟩,
    ⟨0xFFFE0FFF#32, 0x14000072#32, fun w => .mbst (w.extractLsb' 12 5)⟩,
    ⟨0xFFFFFFFF#32, 0x18000072#32, fun _ => .mband⟩,
    ⟨0xFFFFFFFF#32, 0x1C000072#32, fun _ => .mbor⟩,
    ⟨0xFFFFFFFF#32, 0x20000072#32, fun _ => .mbandn⟩,
    ⟨0xFFFFF07F#32, 0x24000072#32, fun w => .mbpop (w.extractLsb' 7 5)⟩,
    ⟨0xFFFFF07F#32, 0x28000072#32, fun w => .mbfst (w.extractLsb' 7 5)⟩,
    ⟨0xFFFE007F#32, 0x2C000072#32, fun w => .mbnxt (w.extractLsb' 7 5) (w.extractLsb' 12 5)⟩,
    ⟨0xFE000FFF#32, 0x30000072#32, fun w => .mtset (w.extractLsb' 12 5) (w.extractLsb' 17 5) (w.extractLsb' 22 3)⟩,
    ⟨0xFE00007F#32, 0x34000072#32, fun w => .mfld (w.extractLsb' 7 5) (w.extractLsb' 12 5) (w.extractLsb' 17 5) (w.extractLsb' 22 3)⟩,
    ⟨0xFE00007F#32, 0x38000072#32, fun w => .mfst (w.extractLsb' 7 5) (w.extractLsb' 12 5) (w.extractLsb' 17 5) (w.extractLsb' 22 3)⟩,
    ⟨0xFE00007F#32, 0x3C000072#32, fun w => .mfadd (w.extractLsb' 7 5) (w.extractLsb' 12 5) (w.extractLsb' 17 5) (w.extractLsb' 22 3)⟩,
    ⟨0xFE3E007F#32, 0x00000074#32, fun w => .lkreq (w.extractLsb' 7 5) (w.extractLsb' 12 5) (w.extractLsb' 22 3)⟩,
    ⟨0xFE3E007F#32, 0x04000074#32, fun w => .lktry (w.extractLsb' 7 5) (w.extractLsb' 12 5) (w.extractLsb' 22 3)⟩,
    ⟨0xFE3E007F#32, 0x08000074#32, fun w => .lkup (w.extractLsb' 7 5) (w.extractLsb' 12 5) (w.extractLsb' 22 3)⟩,
    ⟨0xFE3E007F#32, 0x0C000074#32, fun w => .lkdn (w.extractLsb' 7 5) (w.extractLsb' 12 5) (w.extractLsb' 22 3)⟩,
    ⟨0xFFFE007F#32, 0x10000074#32, fun w => .lkrel (w.extractLsb' 7 5) (w.extractLsb' 12 5)⟩,
    ⟨0xFFFE007F#32, 0x14000074#32, fun w => .lkq (w.extractLsb' 7 5) (w.extractLsb' 12 5)⟩ ]

/-- Rows 169 to 188 of the encoded rows, in the table's order. -/
def decodeRows8 : List DecodeRow :=
  [ ⟨0xFFFE007F#32, 0x18000074#32, fun w => .lktab (w.extractLsb' 7 5) (w.extractLsb' 12 5)⟩,
    ⟨0xFFFFFFFF#32, 0x00000076#32, fun _ => .xret⟩,
    ⟨0xFFFFFFFF#32, 0x04000076#32, fun _ => .halt⟩,
    ⟨0xFFC00FFF#32, 0x08000076#32, fun w => .dict (w.extractLsb' 12 5) (w.extractLsb' 17 5)⟩,
    ⟨0xFFC00FFF#32, 0x0C000076#32, fun w => .tlbi (w.extractLsb' 12 5) (w.extractLsb' 17 5)⟩,
    ⟨0xFFC00FFF#32, 0x10000076#32, fun w => .l1inv (w.extractLsb' 12 5) (w.extractLsb' 17 5)⟩,
    ⟨0xFFC00FFF#32, 0x14000076#32, fun w => .wbr (w.extractLsb' 12 5) (w.extractLsb' 17 5)⟩,
    ⟨0xFFC00FFF#32, 0x18000076#32, fun w => .invr (w.extractLsb' 12 5) (w.extractLsb' 17 5)⟩,
    ⟨0xFFC0007F#32, 0x1C000076#32, fun w => .domset (w.extractLsb' 7 5) (w.extractLsb' 12 5) (w.extractLsb' 17 5)⟩,
    ⟨0xFFC0007F#32, 0x20000076#32, fun w => .attset (w.extractLsb' 7 5) (w.extractLsb' 12 5) (w.extractLsb' 17 5)⟩,
    ⟨0xFFC0007F#32, 0x24000076#32, fun w => .waymask (w.extractLsb' 7 5) (w.extractLsb' 12 5) (w.extractLsb' 17 5)⟩,
    ⟨0xFFFFF07F#32, 0x28000076#32, fun w => .snap (w.extractLsb' 7 5)⟩,
    ⟨0xFFFE007F#32, 0x2C000076#32, fun w => .caprd (w.extractLsb' 7 5) (w.extractLsb' 12 5)⟩,
    ⟨0xFFFE0FFF#32, 0x30000076#32, fun w => .smc (w.extractLsb' 12 5)⟩,
    ⟨0xFFFE007F#32, 0x34000076#32, fun w => .keydel (w.extractLsb' 7 5) (w.extractLsb' 12 5)⟩,
    ⟨0xFFFFF07F#32, 0x38000076#32, fun w => .budgetRead (w.extractLsb' 7 5)⟩,
    ⟨0xFFFE0FFF#32, 0x38000076#32, fun w => .yield (w.extractLsb' 12 5)⟩,
    ⟨0xE001F07F#32, 0x00000078#32, fun w => .sysrd (w.extractLsb' 7 5) (w.extractLsb' 17 12)⟩,
    ⟨0xE0000FFF#32, 0x20000078#32, fun w => .syswr (w.extractLsb' 12 5) (w.extractLsb' 17 12)⟩,
    ⟨0xE001FFFF#32, 0x40000078#32, fun w => .trap (w.extractLsb' 17 12)⟩ ]

/-- The encoded rows of 32 bits. -/
def decodeRows : List DecodeRow :=
  decodeRows1 ++ decodeRows2 ++ decodeRows3 ++ decodeRows4 ++ decodeRows5 ++ decodeRows6 ++ decodeRows7 ++ decodeRows8

/-- A 32-bit word as an instruction (03 R68). The first row that matches gives it; BUDGET with
rs1 = 0 stands before the yield (11 R291). -/
def decodeWord (w : Word) : Except Reject Instr :=
  match decodeRows.find? (fun r => w &&& r.mask == r.pat) with
  | some r => .ok (r.make w)
  | none =>
    let major := w.extractLsb' 1 6
    if major == 0x00 || major == 0x3D || major == 0x3E then .error (.reservedMajor w)
    else .error (.unlisted w)

/-- Two bytes as a parcel, low byte first (00 R8). -/
def parcelOf (b0 b1 : Byte) : Parcel := b1 ++ b0

/-- Four bytes as a word: the first parcel in bits 15:0 (03 R63). -/
def wordOf (b0 b1 b2 b3 : Byte) : Word := b3 ++ b2 ++ b1 ++ b0

/-- The words that a list of bytes holds, in order. -/
def wordsOf : List Byte → List Word
  | b0 :: b1 :: b2 :: b3 :: rest => wordOf b0 b1 b2 b3 :: wordsOf rest
  | _ => []

/-- The length in bytes of the instruction that begins with a parcel (03 R63). -/
def lengthOf (p : Parcel) : Nat :=
  if p.getLsbD 0 then 2 else if p.extractLsb' 1 6 == 0x3F then 32 else 4

/-- The instruction at the head of a list of bytes, with its length (03 R63). -/
def decode (bs : List Byte) : Except Reject (Instr × Nat) :=
  match bs with
  | b0 :: b1 :: rest =>
    let p := parcelOf b0 b1
    match lengthOf p with
    | 2 => .ok (.dictionaryCode (p.extractLsb' 1 5) (p.extractLsb' 6 10), 2)
    | 32 =>
      match wordsOf bs with
      | h :: w1 :: w2 :: w3 :: w4 :: w5 :: w6 :: w7 :: _ =>
        .ok (.engineQueueEntry (h.extractLsb' 7 25) w1 w2 w3 w4 w5 w6 w7, 32)
      | _ => .error .tooShort
    | _ =>
      match rest with
      | b2 :: b3 :: _ =>
        match decodeWord (wordOf b0 b1 b2 b3) with
        | .ok i => .ok (i, 4)
        | .error e => .error e
      | _ => .error .tooShort
  | _ => .error .tooShort

/-- A field's value at its place in a word. -/
def place {n : Nat} (x : BitVec n) (lo : Nat) : Word := x.setWidth 32 <<< lo

/-- The 32-bit word of an encoded row (03 Tables 3.3 to 3.6). Dictionary codes, engine commands and
rows without bits have none. -/
def encodeWord : Instr → Option Word
  | .add d a b => some (0x00000002#32 ||| place d 7 ||| place a 12 ||| place b 17)
  | .sub d a b => some (0x04000002#32 ||| place d 7 ||| place a 12 ||| place b 17)
  | .and d a b => some (0x08000002#32 ||| place d 7 ||| place a 12 ||| place b 17)
  | .or d a b => some (0x0C000002#32 ||| place d 7 ||| place a 12 ||| place b 17)
  | .xor d a b => some (0x10000002#32 ||| place d 7 ||| place a 12 ||| place b 17)
  | .shl d a b => some (0x14000002#32 ||| place d 7 ||| place a 12 ||| place b 17)
  | .shr d a b => some (0x18000002#32 ||| place d 7 ||| place a 12 ||| place b 17)
  | .sha d a b => some (0x1C000002#32 ||| place d 7 ||| place a 12 ||| place b 17)
  | .min d a b => some (0x20000002#32 ||| place d 7 ||| place a 12 ||| place b 17)
  | .max d a b => some (0x24000002#32 ||| place d 7 ||| place a 12 ||| place b 17)
  | .minu d a b => some (0x28000002#32 ||| place d 7 ||| place a 12 ||| place b 17)
  | .maxu d a b => some (0x2C000002#32 ||| place d 7 ||| place a 12 ||| place b 17)
  | .slt d a b => some (0x30000002#32 ||| place d 7 ||| place a 12 ||| place b 17)
  | .sltu d a b => some (0x34000002#32 ||| place d 7 ||| place a 12 ||| place b 17)
  | .sel d a b => some (0x38000002#32 ||| place d 7 ||| place a 12 ||| place b 17)
  | .hint d a b h => some (0xF0000002#32 ||| place d 7 ||| place a 12 ||| place b 17 ||| place h 22)
  | .mul d a b => some (0x00000004#32 ||| place d 7 ||| place a 12 ||| place b 17)
  | .mulh d a b => some (0x04000004#32 ||| place d 7 ||| place a 12 ||| place b 17)
  | .mulhu d a b => some (0x08000004#32 ||| place d 7 ||| place a 12 ||| place b 17)
  | .div d a b => some (0x0C000004#32 ||| place d 7 ||| place a 12 ||| place b 17)
  | .divu d a b => some (0x10000004#32 ||| place d 7 ||| place a 12 ||| place b 17)
  | .rem d a b => some (0x14000004#32 ||| place d 7 ||| place a 12 ||| place b 17)
  | .remu d a b => some (0x18000004#32 ||| place d 7 ||| place a 12 ||| place b 17)
  | .clz d a => some (0x00000006#32 ||| place d 7 ||| place a 12)
  | .ctz d a => some (0x04000006#32 ||| place d 7 ||| place a 12)
  | .popc d a => some (0x08000006#32 ||| place d 7 ||| place a 12)
  | .brev d a => some (0x0C000006#32 ||| place d 7 ||| place a 12)
  | .bfx d a p l => some (0x00000008#32 ||| place d 7 ||| place a 12 ||| place p 17 ||| place l 23)
  | .bfxs d a p l => some (0x40000008#32 ||| place d 7 ||| place a 12 ||| place p 17 ||| place l 23)
  | .bfi d a p l => some (0x20000008#32 ||| place d 7 ||| place a 12 ||| place p 17 ||| place l 23)
  | .addi d a i => some (0x0000000A#32 ||| place d 7 ||| place a 12 ||| place i 17)
  | .andi d a i => some (0x0000000C#32 ||| place d 7 ||| place a 12 ||| place i 17)
  | .ori d a i => some (0x0000000E#32 ||| place d 7 ||| place a 12 ||| place i 17)
  | .xori d a i => some (0x00000010#32 ||| place d 7 ||| place a 12 ||| place i 17)
  | .slti d a i => some (0x00000012#32 ||| place d 7 ||| place a 12 ||| place i 17)
  | .sltui d a i => some (0x00000014#32 ||| place d 7 ||| place a 12 ||| place i 17)
  | .shli d a n => some (0x00000016#32 ||| place d 7 ||| place a 12 ||| place n 17)
  | .shri d a n => some (0x00800016#32 ||| place d 7 ||| place a 12 ||| place n 17)
  | .shai d a n => some (0x01000016#32 ||| place d 7 ||| place a 12 ||| place n 17)
  | .lea d a b k e => some (0x00000018#32 ||| place d 7 ||| place a 12 ||| place b 17 ||| place k 22 ||| place e 24)
  | .lui d i => some (0x0000001A#32 ||| place d 7 ||| place i 12)
  | .addpc d i => some (0x0000001C#32 ||| place d 7 ||| place i 12)
  | .fadd d a b f m => some (0x0000001E#32 ||| place d 7 ||| place a 12 ||| place b 17 ||| place f 23 ||| place m 24)
  | .fsub d a b f m => some (0x0800001E#32 ||| place d 7 ||| place a 12 ||| place b 17 ||| place f 23 ||| place m 24)
  | .fmul d a b f m => some (0x1000001E#32 ||| place d 7 ||| place a 12 ||| place b 17 ||| place f 23 ||| place m 24)
  | .ffma d a b f m => some (0x1800001E#32 ||| place d 7 ||| place a 12 ||| place b 17 ||| place f 23 ||| place m 24)
  | .fdiv d a b f m => some (0x2000001E#32 ||| place d 7 ||| place a 12 ||| place b 17 ||| place f 23 ||| place m 24)
  | .fsqrt d a f m => some (0x2800001E#32 ||| place d 7 ||| place a 12 ||| place f 23 ||| place m 24)
  | .fmin d a b f => some (0x3000001E#32 ||| place d 7 ||| place a 12 ||| place b 17 ||| place f 23)
  | .fmax d a b f => some (0x3800001E#32 ||| place d 7 ||| place a 12 ||| place b 17 ||| place f 23)
  | .fcmp d a b f c => some (0x4000001E#32 ||| place d 7 ||| place a 12 ||| place b 17 ||| place f 23 ||| place c 24)
  | .fcvt d a t m s => some (0x00000020#32 ||| place d 7 ||| place a 12 ||| place t 17 ||| place m 24 ||| place s 27)
  | .beq p a b o => some (0x00000022#32 ||| place p 7 ||| place a 12 ||| place b 17 ||| place o 22)
  | .bne p a b o => some (0x00000024#32 ||| place p 7 ||| place a 12 ||| place b 17 ||| place o 22)
  | .blt p a b o => some (0x00000026#32 ||| place p 7 ||| place a 12 ||| place b 17 ||| place o 22)
  | .bge p a b o => some (0x00000028#32 ||| place p 7 ||| place a 12 ||| place b 17 ||| place o 22)
  | .bltu p a b o => some (0x0000002A#32 ||| place p 7 ||| place a 12 ||| place b 17 ||| place o 22)
  | .bgeu p a b o => some (0x0000002C#32 ||| place p 7 ||| place a 12 ||| place b 17 ||| place o 22)
  | .jal d o => some (0x0000002E#32 ||| place d 7 ||| place o 12)
  | .jalr d a i => some (0x00000030#32 ||| place d 7 ||| place a 12 ||| place i 17)
  | .loop p a o => some (0x00000032#32 ||| place p 7 ||| place a 12 ||| place o 22)
  | .ld d a s i => some (0x00000034#32 ||| place d 7 ||| place a 12 ||| place s 17 ||| place i 20)
  | .ldf d a s i => some (0x00000036#32 ||| place d 7 ||| place a 12 ||| place s 17 ||| place i 20)
  | .st j a b s i => some (0x00000038#32 ||| place j 7 ||| place a 12 ||| place b 17 ||| place s 22 ||| place i 25)
  | .pf k a i => some (0x0000003A#32 ||| place k 7 ||| place a 12 ||| place i 17)
  | .amo d a b s w o => some (0x0000003C#32 ||| place d 7 ||| place a 12 ||| place b 17 ||| place s 23 ||| place w 26 ||| place o 28)
  | .cas d a b s w => some (0x0000003E#32 ||| place d 7 ||| place a 12 ||| place b 17 ||| place s 23 ||| place w 26)
  | .amof d a b s t o => some (0x00000040#32 ||| place d 7 ||| place a 12 ||| place b 17 ||| place s 23 ||| place t 26 ||| place o 28)
  | .redAdd d a b p t => some (0x00000042#32 ||| place d 7 ||| place a 12 ||| place b 17 ||| place p 22 ||| place t 25)
  | .acq s => some (0x00000044#32 ||| place s 22)
  | .rel s => some (0x04000044#32 ||| place s 22)
  | .fence k => some (0x08000044#32 ||| place k 22)
  | .barInit a b => some (0x0C000044#32 ||| place a 12 ||| place b 17)
  | .barArr d a => some (0x10000044#32 ||| place d 7 ||| place a 12)
  | .barWait d a b => some (0x14000044#32 ||| place d 7 ||| place a 12 ||| place b 17)
  | .barInfo d a => some (0x18000044#32 ||| place d 7 ||| place a 12)
  | .barFree a => some (0x1C000044#32 ||| place a 12)
  | .cntInit d a b => some (0x20000044#32 ||| place d 7 ||| place a 12 ||| place b 17)
  | .cntSig a => some (0x24000044#32 ||| place a 12)
  | .cntWait d a => some (0x28000044#32 ||| place d 7 ||| place a 12)
  | .cntAdd d a b => some (0x2C000044#32 ||| place d 7 ||| place a 12 ||| place b 17)
  | .publish d a => some (0x30000044#32 ||| place d 7 ||| place a 12)
  | .redDecl d a b => some (0x34000044#32 ||| place d 7 ||| place a 12 ||| place b 17)
  | .vld v a p t i => some (0x00000046#32 ||| place v 7 ||| place a 12 ||| place p 17 ||| place t 20 ||| place i 25)
  | .vst v a p t i => some (0x00000048#32 ||| place v 7 ||| place a 12 ||| place p 17 ||| place t 20 ||| place i 25)
  | .vldx d a b p t k => some (0x0000004A#32 ||| place d 7 ||| place a 12 ||| place b 17 ||| place p 22 ||| place t 25 ||| place k 30)
  | .vstx d a b p t k => some (0x0000004C#32 ||| place d 7 ||| place a 12 ||| place b 17 ||| place p 22 ||| place t 25 ||| place k 30)
  | .vadd d a b p t m => some (0x0000004E#32 ||| place d 7 ||| place a 12 ||| place b 17 ||| place p 22 ||| place t 24 ||| place m 29)
  | .vsub d a b p t m => some (0x00000050#32 ||| place d 7 ||| place a 12 ||| place b 17 ||| place p 22 ||| place t 24 ||| place m 29)
  | .vmul d a b p t m => some (0x00000052#32 ||| place d 7 ||| place a 12 ||| place b 17 ||| place p 22 ||| place t 24 ||| place m 29)
  | .vfma d a b p t m => some (0x00000054#32 ||| place d 7 ||| place a 12 ||| place b 17 ||| place p 22 ||| place t 24 ||| place m 29)
  | .vfms d a b p t m => some (0x00000056#32 ||| place d 7 ||| place a 12 ||| place b 17 ||| place p 22 ||| place t 24 ||| place m 29)
  | .vrcp d a p t m => some (0x00000058#32 ||| place d 7 ||| place a 12 ||| place p 22 ||| place t 24 ||| place m 29)
  | .vrsq d a p t m => some (0x00020058#32 ||| place d 7 ||| place a 12 ||| place p 22 ||| place t 24 ||| place m 29)
  | .vexp2 d a p t m => some (0x00040058#32 ||| place d 7 ||| place a 12 ||| place p 22 ||| place t 24 ||| place m 29)
  | .vlog2 d a p t m => some (0x00060058#32 ||| place d 7 ||| place a 12 ||| place p 22 ||| place t 24 ||| place m 29)
  | .vabs d a p t m => some (0x00080058#32 ||| place d 7 ||| place a 12 ||| place p 22 ||| place t 24 ||| place m 29)
  | .vneg d a p t m => some (0x000A0058#32 ||| place d 7 ||| place a 12 ||| place p 22 ||| place t 24 ||| place m 29)
  | .vcvt d a t p s m => some (0x0000005A#32 ||| place d 7 ||| place a 12 ||| place t 17 ||| place p 22 ||| place s 24 ||| place m 29)
  | .vred d a o p t m => some (0x0000005C#32 ||| place d 7 ||| place a 12 ||| place o 17 ||| place p 22 ||| place t 24 ||| place m 29)
  | .vscan d a o p t m => some (0x0020005C#32 ||| place d 7 ||| place a 12 ||| place o 17 ||| place p 22 ||| place t 24 ||| place m 29)
  | .vdot d a b p t m => some (0x0000005E#32 ||| place d 7 ||| place a 12 ||| place b 17 ||| place p 22 ||| place t 24 ||| place m 29)
  | .vmin d a b p t => some (0x00000060#32 ||| place d 7 ||| place a 12 ||| place b 17 ||| place p 22 ||| place t 25)
  | .vmax d a b p t => some (0x40000060#32 ||| place d 7 ||| place a 12 ||| place b 17 ||| place p 22 ||| place t 25)
  | .vand d a b p t => some (0x00000062#32 ||| place d 7 ||| place a 12 ||| place b 17 ||| place p 22 ||| place t 25)
  | .vor d a b p t => some (0x40000062#32 ||| place d 7 ||| place a 12 ||| place b 17 ||| place p 22 ||| place t 25)
  | .vxor d a b p t => some (0x80000062#32 ||| place d 7 ||| place a 12 ||| place b 17 ||| place p 22 ||| place t 25)
  | .vshl d a b p t => some (0x00000064#32 ||| place d 7 ||| place a 12 ||| place b 17 ||| place p 22 ||| place t 25)
  | .vshr d a b p t => some (0x40000064#32 ||| place d 7 ||| place a 12 ||| place b 17 ||| place p 22 ||| place t 25)
  | .vsha d a b p t => some (0x80000064#32 ||| place d 7 ||| place a 12 ||| place b 17 ||| place p 22 ||| place t 25)
  | .vcmp q e a b p t c => some (0x00000066#32 ||| place q 7 ||| place e 10 ||| place a 12 ||| place b 17 ||| place p 22 ||| place t 25 ||| place c 30)
  | .vsel d a b p t => some (0x00000068#32 ||| place d 7 ||| place a 12 ||| place b 17 ||| place p 22 ||| place t 25)
  | .vperm d a b p t => some (0x40000068#32 ||| place d 7 ||| place a 12 ||| place b 17 ||| place p 22 ||| place t 25)
  | .vpack d a b t => some (0x80000068#32 ||| place d 7 ||| place a 12 ||| place b 17 ||| place t 25)
  | .vunpk d a h t => some (0xC0000068#32 ||| place d 7 ||| place a 12 ||| place h 17 ||| place t 25)
  | .vbcast d a p t => some (0x0000006A#32 ||| place d 7 ||| place a 12 ||| place p 22 ||| place t 25)
  | .vmovg d a b t => some (0x4000006A#32 ||| place d 7 ||| place a 12 ||| place b 17 ||| place t 25)
  | .vlut d a h => some (0x9E00006A#32 ||| place d 7 ||| place a 12 ||| place h 17)
  | .vlutset a => some (0xC000006A#32 ||| place a 12)
  | .pand d a b => some (0x0000006C#32 ||| place d 7 ||| place a 12 ||| place b 17)
  | .por d a b => some (0x0400006C#32 ||| place d 7 ||| place a 12 ||| place b 17)
  | .pxor d a b => some (0x0800006C#32 ||| place d 7 ||| place a 12 ||| place b 17)
  | .pnot d a => some (0x0C00006C#32 ||| place d 7 ||| place a 12)
  | .ppop d a => some (0x1000006C#32 ||| place d 7 ||| place a 12)
  | .ewait d a => some (0x0000006E#32 ||| place d 7 ||| place a 12)
  | .qcfg d a q => some (0x0400006E#32 ||| place d 7 ||| place a 12 ||| place q 22)
  | .qput d b q => some (0x0800006E#32 ||| place d 7 ||| place b 17 ||| place q 22)
  | .qpop d b q => some (0x0C00006E#32 ||| place d 7 ||| place b 17 ||| place q 22)
  | .qwait d b q => some (0x1000006E#32 ||| place d 7 ||| place b 17 ||| place q 22)
  | .qstat d q => some (0x1400006E#32 ||| place d 7 ||| place q 22)
  | .skrd d a => some (0x1800006E#32 ||| place d 7 ||| place a 12)
  | .skwr a b => some (0x1C00006E#32 ||| place a 12 ||| place b 17)
  | .srw d a s => some (0x2000006E#32 ||| place d 7 ||| place a 12 ||| place s 22)
  | .msg d a b c => some (0x00000070#32 ||| place d 7 ||| place a 12 ||| place b 17 ||| place c 22)
  | .msgh d a b c => some (0x04000070#32 ||| place d 7 ||| place a 12 ||| place b 17 ||| place c 22)
  | .cntBind d a b => some (0x08000070#32 ||| place d 7 ||| place a 12 ||| place b 17)
  | .spawn d a => some (0x0C000070#32 ||| place d 7 ||| place a 12)
  | .tend => some (0x10000070#32)
  | .tself d => some (0x14000070#32 ||| place d 7)
  | .nput v e => some (0x18000070#32 ||| place v 12 ||| place e 22)
  | .nget v e => some (0x1C000070#32 ||| place v 7 ||| place e 22)
  | .npeek d e => some (0x20000070#32 ||| place d 7 ||| place e 22)
  | .ncfg d a => some (0x24000070#32 ||| place d 7 ||| place a 12)
  | .convOpen d b => some (0x28000070#32 ||| place d 7 ||| place b 17)
  | .convPut a v => some (0x2C000070#32 ||| place a 12 ||| place v 17)
  | .convClose d a => some (0x30000070#32 ||| place d 7 ||| place a 12)
  | .meet d a => some (0x00000072#32 ||| place d 7 ||| place a 12)
  | .depart d => some (0x04000072#32 ||| place d 7)
  | .split d a b => some (0x08000072#32 ||| place d 7 ||| place a 12 ||| place b 17)
  | .gate d => some (0x0C000072#32 ||| place d 7)
  | .mbld a => some (0x10000072#32 ||| place a 12)
  | .mbst a => some (0x14000072#32 ||| place a 12)
  | .mband => some (0x18000072#32)
  | .mbor => some (0x1C000072#32)
  | .mbandn => some (0x20000072#32)
  | .mbpop d => some (0x24000072#32 ||| place d 7)
  | .mbfst d => some (0x28000072#32 ||| place d 7)
  | .mbnxt d a => some (0x2C000072#32 ||| place d 7 ||| place a 12)
  | .mtset a h k => some (0x30000072#32 ||| place a 12 ||| place h 17 ||| place k 22)
  | .mfld v a b k => some (0x34000072#32 ||| place v 7 ||| place a 12 ||| place b 17 ||| place k 22)
  | .mfst v a b k => some (0x38000072#32 ||| place v 7 ||| place a 12 ||| place b 17 ||| place k 22)
  | .mfadd v a b k => some (0x3C000072#32 ||| place v 7 ||| place a 12 ||| place b 17 ||| place k 22)
  | .lkreq d a m => some (0x00000074#32 ||| place d 7 ||| place a 12 ||| place m 22)
  | .lktry d a m => some (0x04000074#32 ||| place d 7 ||| place a 12 ||| place m 22)
  | .lkup d a m => some (0x08000074#32 ||| place d 7 ||| place a 12 ||| place m 22)
  | .lkdn d a m => some (0x0C000074#32 ||| place d 7 ||| place a 12 ||| place m 22)
  | .lkrel d a => some (0x10000074#32 ||| place d 7 ||| place a 12)
  | .lkq d a => some (0x14000074#32 ||| place d 7 ||| place a 12)
  | .lktab d a => some (0x18000074#32 ||| place d 7 ||| place a 12)
  | .xret => some (0x00000076#32)
  | .halt => some (0x04000076#32)
  | .dict a b => some (0x08000076#32 ||| place a 12 ||| place b 17)
  | .tlbi a b => some (0x0C000076#32 ||| place a 12 ||| place b 17)
  | .l1inv a b => some (0x10000076#32 ||| place a 12 ||| place b 17)
  | .wbr a b => some (0x14000076#32 ||| place a 12 ||| place b 17)
  | .invr a b => some (0x18000076#32 ||| place a 12 ||| place b 17)
  | .domset d a b => some (0x1C000076#32 ||| place d 7 ||| place a 12 ||| place b 17)
  | .attset d a b => some (0x20000076#32 ||| place d 7 ||| place a 12 ||| place b 17)
  | .waymask d a b => some (0x24000076#32 ||| place d 7 ||| place a 12 ||| place b 17)
  | .snap d => some (0x28000076#32 ||| place d 7)
  | .caprd d a => some (0x2C000076#32 ||| place d 7 ||| place a 12)
  | .smc a => some (0x30000076#32 ||| place a 12)
  | .keydel d a => some (0x34000076#32 ||| place d 7 ||| place a 12)
  | .budgetRead d => some (0x38000076#32 ||| place d 7)
  | .yield a => some (0x38000076#32 ||| place a 12)
  | .sysrd d n => some (0x00000078#32 ||| place d 7 ||| place n 17)
  | .syswr a n => some (0x20000078#32 ||| place a 12 ||| place n 17)
  | .trap n => some (0x40000078#32 ||| place n 17)
  | _ => none

/-- The four bytes of a word, low byte first (00 R8). -/
def bytesOfWord (w : Word) : List Byte :=
  [w.extractLsb' 0 8, w.extractLsb' 8 8, w.extractLsb' 16 8, w.extractLsb' 24 8]

/-- The bytes of an instruction that has an encoding; none for the operations without bits. -/
def encode (i : Instr) : Option (List Byte) :=
  match i with
  | .dictionaryCode s n =>
    let p : Parcel := n ++ s ++ (1 : BitVec 1)
    some [p.extractLsb' 0 8, p.extractLsb' 8 8]
  | .engineQueueEntry h w1 w2 w3 w4 w5 w6 w7 =>
    some ([Machine.cmdHeader h, w1, w2, w3, w4, w5, w6, w7].flatMap bytesOfWord)
  | _ => (encodeWord i).map bytesOfWord

/-- The first `n` bytes of a number, lowest first. -/
def bytesOfNat : Nat → Nat → List Byte
  | 0, _ => []
  | n + 1, w => BitVec.ofNat 8 w :: bytesOfNat n (w / 256)

/-- The instruction the decoder reads from an instruction whose bits are `w`, as the table numbers
them: bit 0 is the lowest bit of the first parcel. The bits above `nbits`, up to the longest
instruction, are zero. -/
def decodeTableWord (nbits w : Nat) : Option Instr :=
  match decode (bytesOfNat 32 (w % 2 ^ (8 * ((nbits + 7) / 8)))) with
  | .ok (i, _) => some i
  | .error _ => none

end Sys2Proof
end

