-- ==== Sys2Proof/Config.lean ====
section
/-! DEFINITION. Constants of the package, and the values the spec leaves open: constants without a
body, of which nothing can be proved but what holds of every value. -/

namespace Sys2Proof.Config

/-- Clusters, cores and slots (00 Table 0.1). -/
def cores : Nat := 4096

/-- Sizes of a larder, a cellar and the attic of a die, in bytes (01 Table 1.5). -/
def larderSize : Nat := 0x10000
def cellarSize : Nat := 0x100000
def atticSize : Nat := 0x4000000

/-- The larder's spill area begins here (01 R30). -/
def spillBase : Nat := 0xF000

/-- Places in the deque, the ready queue (hardware and spilled), a command queue, a mailbox, an inbox
and the store buffer (01 Table 1.2, 12 Table 12.3, 13 R332). -/
def dequeSize : Nat := 64
def readyInHardware : Nat := 32
def readySize : Nat := 80
def queueSize : Nat := 16
def mailboxSize : Nat := 4
def inboxSize : Nat := 4
def storeBufferSize : Nat := 32

/-- Cycles from BUDGET = 0 to the kill (11 R282), and from a wound to the revocation (10 R267). -/
def killGrace : Nat := 4096
def revokeAfter : Nat := 2048

/-- Limits of a lock unit and of a task's locks (10 R262). -/
def lockNames : Nat := 256
def lockRequests : Nat := 1024
def locksPerTask : Nat := 64

/-- Entries of a waystation unit (10 R248), of a claim table (12 R307), of a slice's miss registers
(12 R308), of a die's walk queue (15 R373), live counters of a cluster (06 R157). -/
def waystationSize : Nat := 32
def claimTableSize : Nat := 128
def missRegisters : Nat := 48
def walkQueueSize : Nat := 128
def liveCounters : Nat := 512

/-- Lines of the publication buffer, in all and for one virtual function (14 R353). -/
def pubLines : Nat := 8192
def pubLinesPerVf : Nat := 1024

/-- Free values: the line of 128 bytes that AES-256 in XTS mode makes of a line under a key, and back; the tweak is
the line's physical address (12 R321; log 14). -/
opaque xtsEncrypt : (key : BitVec 256) → (tweak : Nat) → BitVec 1024 → BitVec 1024
opaque xtsDecrypt : (key : BitVec 256) → (tweak : Nat) → BitVec 1024 → BitVec 1024

/-- Free value: the set of a slice that a line falls in (12 R304 gives 64 sets, not the index). -/
opaque l2Set : (line : Nat) → Nat

/-- Free values: the set of an L1 cache that a line falls in (12 R304 gives 32 sets), and the sets of an L1 and of an
L2 TLB that a page falls in (15 R371, R372 give 48 sets, and 4,096 entries in 16 ways). -/
opaque l1Set : (line : Nat) → Nat
opaque tlbSet : (lg vpage : Nat) → Nat
opaque l2TlbSet : (lg vpage : Nat) → Nat

/-- Free value: a number drawn for a choice the spec leaves open, from the count of draws so far: the
way that an allocation takes among the allowed ones (12 R305), the sectors that a block compresses
to (12 R317), the rectangle that the driver chooses (13 R327). -/
opaque draw : Nat → Nat

/-- Free value: the sectors of a stack's pool that its translation table and its reserve take (12 R317,
R318 give no sizes). -/
opaque poolOverhead : (stack : Nat) → Nat

/-- Free value: how a report of an SRAM error names the level of the SRAM beside bit 0 of its DATA (15 Table
15.9 gives no layout). The argument is the kind of storage. -/
opaque sramLevel : Nat → BitVec 63

/-- Free value: the byte that an engine takes from a poisoned word of a ring slot (08 R198 gives reason 4 and
no value). -/
opaque poisonByte : (place : Nat) → Byte

/-- Free value: how many flits of a convoy may be in flight beyond the first (09 R243 gives no credit). -/
opaque convoyCredit : Nat

end Sys2Proof.Config
end

