-- ==== Sys2Proof/Machine/Tab.lean ====
section
/-! DEFINITION. Finite tables by number: sorted lists of keys and values. A register file, a queue of
handles, memory: each is such a list, and a key that is not listed has the table's default. -/

namespace Sys2Proof

/-- A table: pairs of a key and a value, keys rising. -/
abbrev Tab (α : Type) := List (Nat × α)

/-- The value at a key, if one is listed. -/
def Tab.find {α : Type} : Tab α → Nat → Option α
  | [], _ => none
  | (k, v) :: t, n => if n = k then some v else Tab.find t n

/-- The value at a key, or the default. -/
def Tab.get {α : Type} (d : α) (t : Tab α) (n : Nat) : α := (Tab.find t n).getD d

/-- The table with a value listed at a key. -/
def Tab.put {α : Type} : Tab α → Nat → α → Tab α
  | [], n, v => [(n, v)]
  | (k, w) :: t, n, v =>
    if n < k then (n, v) :: (k, w) :: t
    else if n = k then (n, v) :: t
    else (k, w) :: Tab.put t n v

/-- The table with a key not listed. -/
def Tab.erase {α : Type} : Tab α → Nat → Tab α
  | [], _ => []
  | (k, w) :: t, n => if n = k then Tab.erase t n else (k, w) :: Tab.erase t n

/-- The table with a value at a key, in the form that lists no default. -/
def Tab.set {α : Type} [DecidableEq α] (d : α) (t : Tab α) (n : Nat) (v : α) : Tab α :=
  if v = d then Tab.erase t n else Tab.put t n v

/-- The form that lists keys in rising order. -/
def Tab.sorted {α : Type} : Tab α → Bool
  | [] => true
  | [_] => true
  | (k, _) :: (j, w) :: t => k < j && Tab.sorted ((j, w) :: t)

/-- The canonical form: keys rising, and no default listed. -/
def Tab.wf {α : Type} [DecidableEq α] (d : α) (t : Tab α) : Bool :=
  Tab.sorted t && t.all (fun e => e.2 ≠ d)

end Sys2Proof
end

