-- ==== Sys2Proof/Machine/State.lean ====
section
/-! DEFINITION. The state of a KH-4096 package, as plain data: everything the spec gives the machine
(INVENTORY.md, State). A table lists what differs from its default; a core, a slot, a virtual
function or a port that is not listed is at reset. -/

namespace Sys2Proof.Machine

/-! ### Memory -/

/-- Memory: one list of places and bytes. A place is a physical address (12 Table 12.1), or lies above
2^56 for the larders, the cellars and the attics, which have no physical address (Machine/Memory.lean). -/
abbrev Memory := List Host.Cell

/-- What a place that is not listed reads as. SRAM is cleared at bring-up (16 R389); main memory,
host memory and other packages read zero until written (DESIGN CHOICE, log 1, unsafe). -/
def Memory.blank : Byte := 0

/-- The canonical form: places rising, no blank byte listed. -/
abbrev Memory.wf (m : Memory) : Bool := Tab.wf Memory.blank m

/-! ### Rings and engine commands -/

/-- What a ring handle is opened with (08 Table 8.2). -/
structure RingDesc where
  win : BitVec 2
  offset : BitVec 26
  slotsz : BitVec 6
  slots : BitVec 8
  deriving DecidableEq, Repr

/-- An open ring handle (08 R187). -/
structure Ring where
  desc : RingDesc
  head : Nat
  tail : Nat
  filled : Nat
  deriving DecidableEq, Repr

/-- How far the command at the head of a queue has come: the rows or elements that are done, for a gather or a
scatter which of them took effect, the flags and the first reason so far, whether an error has been told to the
fault domain, and whether only staged writes are left (08 R197, 09 R223, 12 R307). -/
structure Progress where
  pos : Nat
  mask : List Bool
  flags : BitVec 5
  reason : Nat
  /-- The lines, or words, whose errors the fault domain has been told. -/
  told : List Nat
  /-- Of a TLD, the rows that it has read: the bytes of the codes, and of the side entry. -/
  rows : List (List Byte × List Byte)
  ended : Bool
  deriving DecidableEq, Repr

/-- A write of an engine to one line that is to be performed at the line's home (12 R307). -/
structure Staged where
  line : Nat
  bytes : Tab Byte
  ms : Bool
  sec : Bool
  key : BitVec 12
  tenant : BitVec 10
  vf : BitVec 9
  /-- The virtual address of the run that it belongs to, in the same page (15 R375). -/
  va : Reg
  deriving DecidableEq, Repr

/-- An engine command in its queue, with all it captured at entry (01 R20, 08 R193, R197). -/
structure Cmd where
  header : Word
  w1 : Word
  w2 : Word
  w3 : Word
  w4 : Word
  w5 : Word
  w6 : Word
  w7 : Word
  seq : BitVec 16
  ctr : Option Reg
  ringA : Option RingDesc
  ringB : Option RingDesc
  ringD : Option RingDesc
  strides : List (BitVec 16)
  skthr : Word
  lut : BitVec 128
  lfsr : Word
  base1 : Reg
  base2 : Reg
  slot : Nat
  uid : Nat
  root : Nat
  rid : BitVec 16
  secure : Bool
  limit : Nat
  waited : Nat
  /-- For a SCAN, when it began to wait for neighbour entries, among all parkings; and those it has taken (08 R208). -/
  since : Option Nat
  carry : List Vec
  /-- None while the command has not begun. -/
  prog : Option Progress
  /-- What the command has on its way is lost: the element it resolves next, or its contribution (09 R220). -/
  lost : Bool
  deriving DecidableEq, Repr

/-- A contribution to a collective that has come from a member in another package (09 R224, R225). -/
structure CollShare where
  pkg : Nat
  x : Nat
  y : Nat
  tag : Nat
  kind : Nat
  n : Nat
  td : BitVec 5
  members : Nat
  bytes : List Byte
  deriving DecidableEq, Repr

/-- The sticky engine status a slot keeps for an engine (08 R200). -/
structure Sticky where
  flags : BitVec 5
  err : Bool
  reason : BitVec 4
  deriving DecidableEq, Repr

/-! ### Tasks -/

/-- A task record (01 Table 1.4): its fields and the six doublewords from offset 0x10. -/
structure Record where
  entry : BitVec 32
  flags : BitVec 16
  group : BitVec 16
  ts : BitVec 48
  rid : BitVec 16
  args : List Reg
  deriving DecidableEq, Repr

/-- The acquire with which a task of an entry begins (09 R235, 13 R328, R340). -/
inductive Origin where
  | package
  | system
  deriving DecidableEq, Repr

/-- A task waiting to run (13 R331): its record, the record's address, its tree and its arrival. -/
structure Entry where
  record : Record
  addr : Reg
  root : Nat
  arrival : Nat
  origin : Origin
  deriving DecidableEq, Repr

/-- The task that a slot runs. The uid names this run of a task among all runs. -/
structure Task where
  root : Nat
  rid : BitVec 16
  ts : BitVec 48
  flags : BitVec 16
  addr : Reg
  uid : Nat
  deriving DecidableEq, Repr

/-- What a parked slot waits for (06 R154, R161, 08 R191, R200, 09 R240, 10 R253, R270, 12 R308).
A slot that has been woken holds the status its instruction is to write. -/
inductive Wait where
  | none
  | barrier (obj : Nat)
  | counter (place : Nat)
  | ring (q : BitVec 4) (k : Nat) (free : Bool)
  /-- The ring holds what the slot waited for: the address, and the scope of the acquire that ends the wait. -/
  | ringWoken (v : Reg) (scope : Nat)
  | mailbox (dir : BitVec 2)
  /-- The slot has been given an entry of the mailbox (09 R240). -/
  | entry (v : Vec)
  /-- The slot's commands of the mixing engine, or of the data engine. -/
  | engine (data : Bool)
  | lock (name : Reg)
  | fill (slice line : Nat)
  | woken (v : Reg)
  | ringGone
  /-- Not parked: a SPLIT has written its record and goes on with its release (10 R257). -/
  | split
  /-- Not parked: a DOMSET waits for the recorded claims of a domain to be released (12 R309). -/
  | domset (dom : Nat)
  /-- Not parked: an ATTSET, whose ways that enter have entered, waits for the commands that use the ways that leave; with
the ways as they were before (11 R301, 12 R312). -/
  | attset (old : BitVec 16)
  /-- Not parked: a PUBLISH waits until the buffered lines of its function are written (06 R162, 14 R353). -/
  | publishing
  deriving DecidableEq, Repr

/-- An instruction that has been decoded and has not completed: the slot stalls at it, or is parked (01 R21,
03 R64). A later write to its bytes, or to the entry of its dictionary code, does not change it. -/
structure Latched where
  instr : Instr
  len : Nat
  code : Option (BitVec 16)
  deriving DecidableEq, Repr

/-- A register of a slot, as an instruction waits for it (06 R129). -/
inductive RegName where
  | g (n : BitVec 5)
  | v (n : BitVec 5)
  | p (n : BitVec 3)
  | mb
  | mt
  deriving DecidableEq, Repr

/-- What has been executed of a slot since something of it was done ahead: the registers still to be filled by
instructions that had not answered then, and whether a load was among them (06 R129, R130). -/
structure Since where
  regs : List RegName
  loads : Bool
  deriving DecidableEq, Repr

/-- Bytes that a slot's next load of them has read already (06 R129, 22 R407). Those of a decoding window have a place
of their own, at `windowPlace`. -/
structure Early where
  core : Nat
  slot : Nat
  place : Nat
  secure : Bool
  bytes : List Byte
  /-- Read for an LDF. -/
  ldf : Bool
  /-- Taken from a line of the core's L1, and whether that line's page is read-only. -/
  l1 : Bool
  ro : Bool
  since : Since
  /-- Not a load but an L1INV, which the slot has carried out ahead of the loads before it (11 R293): its operands. -/
  inv : Option (Reg × Reg)
  /-- For a place of another package, the ports by which it was reached when the load issued, and whether it was lost on
its way: a port has gone down (14 R358). -/
  route : BitVec 16
  lost : Bool
  deriving DecidableEq, Repr

/-- A wound that has fallen due and is not yet taken (10 R267): the victim's lock that blocks. -/
structure Wound where
  name : Reg
  deriving DecidableEq, Repr

/-- The waystation key a caravan recorded at its last MEET (10 R245, R249). -/
structure Triple where
  vf : BitVec 9
  secure : Bool
  group : BitVec 16
  node : BitVec 52
  step : BitVec 32
  deriving DecidableEq, Repr

/-- A thread slot (01 Table 1.1, 08 R200, 10 R245, 11 R276 to R282). The handler context of a core
is held as one too, with its own registers (09 R231). -/
structure Slot where
  g : Tab Reg
  v : Tab Vec
  p : Tab Reg
  mb : Members
  mt : Members
  /-- The 52-bit pc; bits 63:52 hold those of a non-canonical target until its fetch faults (05 R120). -/
  pc : Reg
  cvgroup : BitVec 16
  cvstep : BitVec 32
  cvnode : BitVec 52
  fstat : BitVec 5
  xcause : Reg
  xval : Reg
  xpc : Reg
  xstat : Reg
  budget : BitVec 32
  budgetDue : Bool
  /-- Cycles since BUDGET reached zero (11 R282). -/
  overrun : Nat
  wound : Option Wound
  revoked : Bool
  atws : Bool
  met : Bool
  arrv : Bool
  gtok : BitVec 32
  triple : Triple
  /-- The step gate of the last MEET's step has completed for the caravan (10 R250). -/
  passed : Bool
  /-- The slice of the waystation entry at which the caravan holds a place. -/
  wslice : Nat
  mqseq : BitVec 16
  dqseq : BitVec 16
  msticky : Sticky
  dsticky : Sticky
  task : Option Task
  /-- The trap taken last, while the fetch of its handler's first instruction waits (11 R280). -/
  entering : Option (BitVec 8)
  /-- The slot is in the secure world by an SMC (11 R290). -/
  smc : Bool
  wait : Wait
  latched : Option Latched
  /-- The copy of its record that an instruction took at issue, while its release is not complete (09 R233, 13 R331). -/
  copied : Option Record
  /-- When the slot parked, among all parkings: parked slots are served in that order (09 R240). -/
  parkedAt : Nat
  /-- What a finished walk answered for the slot's access: the page and the trap (15 R368, R378). -/
  walkFault : Option (Nat × BitVec 8)
  /-- Registers that are to be written by replies on their way (06 R161, 11 R301). -/
  owed : List (BitVec 5)
  deriving DecidableEq, Repr

/-! ### Core state -/

/-- A translation held by a TLB (15 Table 15.4, R371, R372). -/
structure Tlb where
  vf : BitVec 9
  secure : Bool
  /-- log2 of the page size: 12, 16, 21 or 30. -/
  lg : Nat
  vpage : Nat
  pa : Nat
  ro : Bool
  ms : Bool
  sec : Bool
  cmp : Bool
  key : BitVec 12
  deriving DecidableEq, Repr

/-- A set of an L1 TLB: its base pair, and its entries, each with one translation or with two that share the pair
(15 R371). -/
structure TlbSet where
  vbase : Nat
  pbase : Nat
  ways : List (Tlb × Option Tlb)
  deriving DecidableEq, Repr

/-- A line of the L1 data or instruction cache: the line's number, and its bytes as they were read
(06 R126, 11 R294). -/
structure L1Line where
  line : Nat
  bytes : List Byte
  ro : Bool
  secure : Bool
  deriving DecidableEq, Repr

/-- An entry of the store buffer: an aligned 64-byte block of one slot, and the bytes it writes
(06 R132, 12 Table 12.3). -/
structure SbEntry where
  slot : Nat
  uid : Nat
  fence : Nat
  block : Nat
  bytes : Tab Byte
  ms : Bool
  key : BitVec 12
  va : Reg
  root : Nat
  rid : BitVec 16
  vf : BitVec 9
  tenant : BitVec 10
  secure : Bool
  /-- For a place of another package, the ports by which it was reached when the store issued (14 R358). -/
  route : BitVec 16
  deriving DecidableEq, Repr

/-- A message staged or in flight (09 R227, R228). The destination is the target core; the counter
is its offset in the target's cellar. -/
structure Message where
  src : Nat
  slot : Nat
  uid : Nat
  fence : Nat
  chan : BitVec 2
  dst : Nat
  code : Option (List Byte)
  payload : List Byte
  dwin : Bool
  doff : Nat
  ctr : Option Nat
  header : Reg
  root : Nat
  rid : BitVec 16
  tenant : BitVec 10
  secure : Bool
  /-- The package that a message from another package comes from (09 R231). -/
  pkg : Option (BitVec 12)
  /-- For a message to another package, the route entry as it was when the message issued (14 R358). -/
  route : BitVec 16
  deriving DecidableEq, Repr

/-- A neighbour entry in flight (09 R239): the mailbox it enters and its data. -/
structure NEntry where
  src : Nat
  dst : Nat
  dir : BitVec 2
  slot : Nat
  uid : Nat
  fence : Nat
  data : Vec
  deriving DecidableEq, Repr

/-- What a convoy flit carries (09 R242 to R244). -/
inductive Flit where
  | opening
  | data (v : Vec)
  | closing
  | abort
  deriving DecidableEq, Repr

/-- A convoy flit in flight, with what its opening flit said of the target's ring and counter. -/
structure ConvFlit where
  src : Nat
  slot : Nat
  uid : Nat
  port : Nat
  serial : Nat
  dst : Nat
  qh : BitVec 4
  ctr : Option Nat
  flit : Flit
  fence : Nat
  secure : Bool
  deriving DecidableEq, Repr

/-- An outbound convoy port in use (09 R242): its owner, its target, and whether the receiver has
acknowledged the closing marker, and with which status. -/
structure ConvPort where
  slot : Nat
  uid : Nat
  serial : Nat
  dst : Nat
  qh : BitVec 4
  ctr : Option Nat
  closing : Bool
  answer : Option Bool
  deriving DecidableEq, Repr

/-- A convoy stream at its receiver: bytes already in the tail slot, and whether it was aborted. -/
structure ConvStream where
  src : Nat
  port : Nat
  serial : Nat
  qh : BitVec 4
  ctr : Option Nat
  pos : Nat
  aborted : Bool
  deriving DecidableEq, Repr

/-- How far the delivery of the oldest message of an inbox has come (09 R229): its payload is written and its
handler runs, or the handler has ended, with a fault or without, and its writes are to be acknowledged. -/
inductive Delivery where
  | idle
  | running
  | ended (fault : Bool)
  deriving DecidableEq, Repr

/-- A core (01 Table 1.2, 09 R238, R242, 11 Tables 11.4 and 11.6, 12 Table 12.3). The larder is in
memory. Slot 8 of `slots` is the handler context. -/
structure Core where
  slots : Tab Slot
  q : Tab Ring
  /-- Accumulator elements, at 1,024·tile + 32·row + column. -/
  acc : Tab Word
  s : Tab (BitVec 16)
  skip : BitVec 4096
  /-- Tile references, at 16·tile slot + strip. -/
  refs : Tab Word
  skthr : Word
  lut : BitVec 128
  lfsr : Word
  alside : BitVec 20
  /-- The valid entries (03 R66). -/
  dict : Tab Word
  mixq : List Cmd
  dataq : List Cmd
  /-- Writes that the command at the head of each queue has still to perform, in their order. -/
  mixw : List Staged
  dataw : List Staged
  /-- Tags of collectives that have failed at the members they have reached; the core's own is to fail too (09 R224). -/
  collFailed : List Nat
  mseq : BitVec 16
  mrseq : BitVec 16
  dseq : BitVec 16
  drseq : BitVec 16
  /-- Oldest first. -/
  deque : List Entry
  /-- In key order; entries from the 33rd lie in the spill area (13 R332). -/
  ready : List Entry
  /-- Entries that found the ready queue full, of a yield, a firing or a steal: they enter as entries free (13 R332). -/
  waiting : List Entry
  /-- An entry stolen from a neighbour, on its way here; and the direction from which the next request goes round
  (13 R334). -/
  stolen : Option Entry
  askNext : BitVec 2
  mail : Tab (List Vec)
  inbox : List Message
  delivery : Delivery
  xbase : Reg
  codelo : Reg
  codehi : Reg
  smcbase : Reg
  ncfg : BitVec 8
  ports : Tab ConvPort
  streams : List ConvStream
  l1 : List L1Line
  l1i : List L1Line
  sb : List SbEntry
  tlb : Tab TlbSet
  cycle : Nat
  /-- The slot that last won a tie of the issue stage (13 R336). -/
  lastTie : Nat
  /-- How many FENCE.net each slot has issued (06 Table 6.4). -/
  fences : Tab Nat
  /-- Bytes of source slots that the command at the head of each queue has read ahead of its work, by place: of the mixing
engine, and of the data engine (08 R193, 22 R407). -/
  mixt : Tab Byte
  datat : Tab Byte
  deriving DecidableEq, Repr

/-! ### Clusters, dies, slices, stacks -/

/-- A barrier object (06 R151). Its waiters are the slots that wait on it. -/
structure Barrier where
  n : BitVec 16
  a : BitVec 16
  gen : BitVec 32
  deriving DecidableEq, Repr

/-- What is kept beside a live counter's 16 bytes: the task context that bound it (09 R234). -/
structure Counter where
  core : Nat
  root : Nat
  rid : BitVec 16
  secure : Bool
  deriving DecidableEq, Repr

/-- A line held by an L2 slice: the bytes that are valid, whether it is dirty, and its attributes
(12 R305, R313, R321; 15 R376). -/
structure L2Line where
  slice : Nat
  line : Nat
  way : Nat
  bytes : Tab Byte
  dirty : Bool
  /-- Its poisoned words, 0 to 15 (12 R306). -/
  bad : List Nat
  tenant : BitVec 10
  /-- The tenants that have written it (12 R314). -/
  wrote : List (BitVec 10)
  key : BitVec 12
  secure : Bool
  deriving DecidableEq, Repr

/-- A line to be filled from memory: the first 48 of a slice hold its miss registers, later ones wait in arrival
order (12 R308). The cores whose L1 takes the line then, each with whether its page is read-only (06 R134). -/
structure Miss where
  slice : Nat
  line : Nat
  tenant : BitVec 10
  key : BitVec 12
  secure : Bool
  keep : List (Nat × Bool)
  deriving DecidableEq, Repr

/-- An engine's claim on a line; it is in force once recorded (12 R307). -/
structure Claim where
  line : Nat
  unit : Nat
  core : Nat
  data : Bool
  seq : BitVec 16
  slot : Nat
  recorded : Bool
  deriving DecidableEq, Repr

/-- A waystation entry (10 R248). -/
structure Waystation where
  slice : Nat
  triple : Triple
  members : Members
  low : Reg
  opener : Nat
  held : Nat
  closed : Bool
  deriving DecidableEq, Repr

/-- A task's age (10 R265) with the slot that runs it. -/
structure Age where
  t : Reg
  htid : BitVec 15
  deriving DecidableEq, Repr

/-- A holder or a waiter of a lock (10 R266). A waiter that already holds the name waits to upgrade. -/
structure LockUser where
  uid : Nat
  age : Age
  mode : BitVec 3
  deriving DecidableEq, Repr

/-- A lock with holders or waiters; waiters oldest first (10 R262, R266). -/
structure Lock where
  vf : BitVec 9
  secure : Bool
  name : Reg
  holders : List LockUser
  waiters : List LockUser
  deriving DecidableEq, Repr

/-- A running revocation clock (10 R267): victim, wounder, the lock that blocks, cycles since the
wound fell due. -/
structure Revoke where
  victim : Nat
  wounder : Nat
  vf : BitVec 9
  secure : Bool
  name : Reg
  age : Nat
  deriving DecidableEq, Repr

/-- The locks of an ended task, to be dropped once its last write is acknowledged (10 R272). -/
structure LockDrop where
  uid : Nat
  core : Nat
  slot : Nat
  root : Nat
  rid : BitVec 16
  deriving DecidableEq, Repr

/-- One contribution to an epoch: the core and the value for each target element (06 R148, 02 R61). -/
structure Contribution where
  core : Nat
  parts : List (Nat × Reg)
  deriving DecidableEq, Repr

/-- A write that is held at the interface of its core (06 R139; 14 R347, R349): a contribution to the epoch at a base, a
signal to a counter, or a CNT.ADD or CNT.INIT of one, with the register that its reply fills. -/
inductive PostedOp where
  | add (base : Nat) (q : Contribution)
  | sig
  | cntAdd (rd : BitVec 5) (n : Reg)
  | cntInit (rd : BitVec 5) (x : Reg) (who : Counter)
  deriving DecidableEq, Repr
structure Posted where
  src : Nat
  slot : Nat
  uid : Nat
  fence : Nat
  place : Nat
  op : PostedOp
  /-- The virtual address that named the place, and the function whose it is (15 R375). -/
  va : Reg
  vf : BitVec 9
  deriving DecidableEq, Repr

/-- An open reduction epoch (06 R146, R147). -/
structure Epoch where
  base : Nat
  type : BitVec 5
  n : Nat
  p : Nat
  declared : List Nat
  closed : List Nat
  contributions : List Contribution
  root : Nat
  ms : Bool
  key : BitVec 12
  secure : Bool
  deriving DecidableEq, Repr

/-- A request waiting for a page walk (15 R373). -/
structure WalkReq where
  core : Nat
  slot : Nat
  vf : BitVec 9
  secure : Bool
  page : Nat
  fetch : Bool
  deriving DecidableEq, Repr

/-- A base die's registers and lists, for one stack (12 Tables 12.6 and 12.7, R317, R320). -/
structure Stack where
  head : Nat
  tail : Nat
  ovf : Bool
  faq : Tab Reg
  /-- Retired 4 KiB pages; the list survives loss of power. -/
  retired : List Nat
  pool : Reg
  logsz : Reg
  lowwm : Reg
  /-- Sectors that each compressed block holds. -/
  sectors : Tab Nat
  noticed : Bool
  deriving DecidableEq, Repr

/-- Crossbar partition registers of a die, as written and as in force (14 R347). -/
structure Crossbar where
  strict : Bool
  ptab : Reg
  clpart : List Reg
  strictNow : Bool
  ptabNow : Reg
  clpartNow : List Reg
  deriving DecidableEq, Repr

/-! ### Regions, host, fabric -/

/-- A region of the region table, with inheritance resolved and its rectangle absolute (13 R329, R330). -/
structure Region where
  rid : BitVec 16
  parent : Nat
  x : Nat
  y : Nat
  w : Nat
  h : Nat
  prio : BitVec 4
  slots : BitVec 4
  tasks : BitVec 16
  cycles : BitVec 32
  cellar : BitVec 11
  ways : BitVec 16
  tenant : BitVec 10
  vf : BitVec 9
  secure : Bool
  fdom : BitVec 16
  tsbase : Reg
  barcnt : BitVec 11
  barbase : BitVec 10
  deriving DecidableEq, Repr

/-- A request for pre-emption (13 R337): the image's address, the virtual function and world under which it is
written, and the tag of the host's request; none where the secure world asked. -/
structure Preempt where
  image : Reg
  vf : BitVec 9
  secure : Bool
  tag : Option Word
  deriving DecidableEq, Repr

/-- A placed root (13 R325 to R341): its regions, the virtual function and tag of its launch (none where the secure
world launched it), the
values of CODELO and CODEHI it was placed with, and its pre-emption. -/
structure Root where
  regions : List Region
  vf : BitVec 9
  tag : Option Word
  clo : Reg
  chi : Reg
  preempt : Option Preempt
  deriving DecidableEq, Repr

/-- A binding that has fired and whose record has not been read (09 R234). -/
structure Fired where
  record : Reg
  who : Counter
  deriving DecidableEq, Repr

/-- The Ngamon block of a virtual function (14 Table 14.3), with the count of completions written. -/
structure Ngamon where
  sel : BitVec 16
  lsqbase : Reg
  lsqsz : BitVec 16
  tail : BitVec 16
  head : BitVec 16
  lcqbase : Reg
  lcqsz : BitVec 16
  lcqhead : BitVec 16
  done : Nat
  pubbase : Reg
  pubver : Reg
  /-- The interface writes the function's buffered lines on its own, to advance its version word (14 R353). -/
  advancing : Bool
  /-- The compatibility matrix of the virtual function's locks (10 R274). -/
  matrix : BitVec 36
  deriving DecidableEq, Repr

/-- A line in the publication buffer: the bytes stored to it, and whether an advance of the version word is to
write it (14 R353). -/
structure PubLine where
  vf : BitVec 9
  line : Nat
  bytes : Tab Byte
  due : Bool
  deriving DecidableEq, Repr

/-- An optical port (14 Table 14.6, R356). -/
structure Port where
  up : Bool
  txact : BitVec 8
  rxact : BitVec 8
  retired : BitVec 8
  ver : BitVec 16
  bercnt : Tab Word
  berthr : Tab Word
  replays : Word
  retrains : Word
  /-- Wavelengths in training, transmit and receive. -/
  txTraining : Option (BitVec 3)
  rxTraining : Option (BitVec 3)
  /-- Wavelengths that have passed their threshold and wait to be retrained, with whether they transmit. -/
  due : List (Bool × BitVec 3)
  /-- Failed trainings in a row, at 16·receive + wavelength. -/
  fails : Tab Nat
  deriving DecidableEq, Repr

/-- The pre-empted region of a linked object: its virtual function, its id and its image, and the object's cluster by
its place among the clusters of the region (14 R361, log 51). -/
structure SavedLink where
  vf : BitVec 9
  rid : BitVec 16
  image : Reg
  cluster : Nat
  deriving DecidableEq, Repr

/-- An entry of the barrier link table, with what the master counts for it (14 Table 14.8, R360, R361). -/
structure Link where
  raw : BitVec 128
  arrived : List Nat
  /-- The members that have sent a token in any phase (14 R362, log 56). -/
  known : List Nat
  absent : List Nat
  /-- Cycles waited since the first arrival of the phase. -/
  waited : Nat
  /-- While the object's region is pre-empted (14 R361). -/
  saved : Option SavedLink
  /-- The releases that have come meanwhile (log 51). -/
  due : Nat
  deriving DecidableEq, Repr

/-- A clock and voltage island of four cores (16 R385, R388). -/
structure Island where
  level : BitVec 3
  downs : Word
  deriving DecidableEq, Repr

/-- Whether the slot of the package has power, and whether it has tripped (16 R386, R389). -/
inductive Power where
  | on
  | off
  | tripped
  deriving DecidableEq, Repr

/-- A report, as Table 15.8 lays it out. -/
structure Report where
  /-- The virtual function of the region, or 512. -/
  ring : Nat
  secure : Bool
  region : BitVec 16
  fdom : BitVec 16
  cause : BitVec 8
  event : BitVec 8
  where' : Reg
  addr : Reg
  data : Reg
  detail : BitVec 256
  deriving DecidableEq, Repr

/-! ### Whose move it is -/

/-- One move of the package. The order of moves is not the spec's: it is given in the state, so what is
proved of every state holds for every order (log 4). -/
inductive Turn where
  /-- The issue stage of a core chooses a slot (13 R336), which runs its next instruction. -/
  | issue (core : Nat)
  /-- The named slot goes on with what is no issue: the instruction at which it stalled or was woken, the fetch of
  its next one, a trap that is due. -/
  | slot (core slot : Nat)
  /-- Cycles pass on a core's clock (16 R387). -/
  | clock (core cycles : Nat)
  /-- Cycles pass on the uncore clock (16 R387). -/
  | uncore (cycles : Nat)
  /-- An operation of the table that is not an instruction of a slot. -/
  | event (i : Instr)
  /-- The message at a place of the network enters its target's inbox (09 R230). -/
  | arrive (k : Nat)
  /-- A parity error in a line of an L1 cache, of data or of instructions: the line is dropped and read again (12 R306). -/
  | parity (core : Nat) (instr : Bool) (k : Nat)
  /-- A line leaves an L1 cache, or a translation a TLB (06 R126, 15 R371). -/
  | dropL1 (core k : Nat)
  | dropL1i (core k : Nat)
  | dropTlb (core k : Nat)
  | dropL2Tlb (cluster k : Nat)
  /-- A slot's load of n bytes, an LD or an LDF, is performed ahead of the loads before it (06 R129). -/
  | readAhead (core slot : Nat) (va : Reg) (n : Nat) (ldf : Bool)
  /-- A slot's L1INV takes effect ahead of the loads before it (11 R293), and its fetch of an address after it. -/
  | invAhead (core slot : Nat) (addr ctl : Reg)
  | fetchAhead (core slot : Nat) (va : Reg)
  /-- The command at the head of a core's queue reads bytes of a source slot ahead of its work (22 R407): the ring, its
k-th filled slot, and where in it. -/
  | slotAhead (core : Nat) (data : Bool) (q k off n : Nat)
  /-- The k-th write held at an interface is performed (06 R139). -/
  | post (k : Nat)
  /-- The k-th record that waits for its report ring is written (15 R381). -/
  | reportDue (k : Nat)
  /-- The k-th staged write of an engine is performed (12 R307). -/
  | engineWrite (core : Nat) (data : Bool) (k : Nat)
  /-- An uncorrectable error in a packet loses what the data engine of a core has on its way (09 R220). -/
  | packetLost (core : Nat)
  /-- A member's contribution comes from another package (09 R224). -/
  | collArrive (x : CollShare)
  /-- An uncorrectable error strikes a word of storage, or that word in the slice that holds its line (12 R306). -/
  | poison (word : Nat) (slice : Bool)
  /-- A single-bit error of a word is corrected when it is read, at the slice or at its storage (12 R306). -/
  | corrected (word : Nat) (slice : Bool)
  /-- The k-th line of the publication buffer is written to host memory (14 R353). -/
  | pubLine (k : Nat)
  /-- A message comes from another package (09 R229, R231). -/
  | packageMessage (m : Message)
  /-- The host writes its own memory, takes an interrupt, or reads its window (14 R344, R352). -/
  | hostWrite (pa : Nat) (bytes : List Byte)
  | hostIrq (fn : Nat)
  | registerRead (fn : Option (BitVec 9)) (sec : Bool) (off size : Nat)
  /-- A virtual function's host writes 8 bytes of its Ngamon block (14 R344). -/
  | registerWriteVf (vf : BitVec 9) (off : Nat) (v : Reg)
  /-- The secure world launches a secure root from a descriptor (13 Table 13.2, 16 R389), or asks for the pre-emption of a
root (13 R337). -/
  | secureLaunch (vf : BitVec 9) (desc : Nat)
  | securePreempt (root : Nat) (image : Reg)
  /-- The secure firmware of bring-up ends: it has set the package number and built the tables of the system area (16
R389). -/
  | firmware (pkg : BitVec 12) (area : Memory)
  deriving DecidableEq, Repr

/-- Whose instruction a step runs: the core, the slot (8 is the handler context), its length, and the
dictionary code it came from (03 R65 to R67). -/
structure Cursor where
  core : Nat
  slot : Nat
  len : Nat
  code : Option (BitVec 16)
  deriving DecidableEq, Repr

/-- The latched snapshot (15 R383): its count and the bytes of its records that are not zero, for the
secure and for the non-secure buffer. -/
structure Snapshot where
  count : Word
  secure : Tab Byte
  open' : Tab Byte
  deriving DecidableEq, Repr

/-! ### The package -/

/-- The state of the package. -/
structure State where
  cur : Cursor
  agenda : List Turn
  /-- Draws of free values so far, and the number of the next task run, parking, arrival or convoy. -/
  free : Nat
  stamp : Nat
  power : Power
  mem : Memory
  /-- The context table, the world table and the attic world word as the walkers have them: as the last TLBI
  of every translation of the package found them (15 R365, R377). -/
  tables : Memory
  /-- Words of 8 bytes that are poisoned (12 R306). -/
  poisoned : List Nat
  /-- The key of each context that holds one (12 R321, 15 R379). -/
  keys : Tab (BitVec 256)
  /-- The key under which each line of main memory was last written; none for context 0. -/
  writtenUnder : Tab (Option (BitVec 256))
  cores : Tab Core
  bars : Tab Barrier
  counters : Tab Counter
  l2tlb : Tab (List Tlb)
  domains : Tab Reg
  walks : Tab (List WalkReq)
  attic : Tab (BitVec 16)
  tenantWays : Tab (BitVec 16)
  l2 : List L2Line
  misses : List Miss
  claims : List Claim
  waystations : List Waystation
  locks : List Lock
  revokes : List Revoke
  lockDrops : List LockDrop
  epochs : List Epoch
  posted : List Posted
  early : List Early
  /-- Records that wait at the homes of their report rings (06 R150, 12 R307). -/
  reports : List Report
  baseDies : Tab Stack
  crossbars : Tab Crossbar
  snoop : List Nat
  roots : Tab Root
  nextRoot : Nat
  /-- Contributions that have come from other packages. -/
  collIn : List CollShare
  net : List Message
  nnet : List NEntry
  cnet : List ConvFlit
  remote : List Message
  fired : List Fired
  vfs : Tab Ngamon
  pub : List PubLine
  ports : Tab Port
  routes : Tab (BitVec 16)
  links : Tab Link
  islands : Tab Island
  triggers : Word
  /-- A trigger has fired that the blocks have not latched yet (15 R383). -/
  latchDue : Bool
  snapshot : Option Snapshot
  package : BitVec 12
  /-- The secure firmware of bring-up has ended, and bring-up is complete (16 R389). -/
  booted : Bool
  /-- Functions whose interrupt the host has not taken; 512 is the physical function (14 R352, 15 R381, 16 R386). -/
  irq : List Nat
  /-- What the register window, or the host's last read of memory, answered (14 R344, R351). -/
  answer : Reg
  /-- A stack failed its training, and bring-up reports failure (16 R389). -/
  broken : Bool
  deriving DecidableEq, Repr

/-! ### Reset -/

/-- Nothing reported. -/
def Sticky.reset : Sticky := { flags := 0, err := false, reason := 0 }

/-- A slot at reset. The registers of Table 1.1 have no reset value in the spec: zero (log 2). -/
def Slot.reset : Slot :=
  { g := [], v := [], p := [], mb := 0, mt := 0, pc := 0, cvgroup := 0, cvstep := 0, cvnode := 0,
    fstat := 0, xcause := 0, xval := 0, xpc := 0, xstat := 0, budget := 0, budgetDue := false,
    overrun := 0, wound := none, revoked := false, atws := false, met := false, arrv := false,
    gtok := 0, triple := { vf := 0, secure := false, group := 0, node := 0, step := 0 }, passed := false, wslice := 0, mqseq := 0, dqseq := 0,
    msticky := .reset, dsticky := .reset, task := none, entering := none, smc := false, wait := .none, latched := none, copied := none, parkedAt := 0,
    walkFault := none, owed := [] }

/-- A core at reset (01 Table 1.2). The last tie counts as won by slot 7 (log 22). -/
def Core.reset : Core :=
  { slots := [], q := [], acc := [], s := [], skip := 0, refs := [], skthr := 0, lut := 0, lfsr := 1,
    alside := 0, dict := [], mixq := [], dataq := [], mixw := [], dataw := [], collFailed := [], mseq := 0, mrseq := 0, dseq := 0, drseq := 0,
    deque := [], ready := [], waiting := [], stolen := none, askNext := 0, mail := [], inbox := [], delivery := .idle, xbase := 0, codelo := 0, codehi := 0,
    smcbase := 0, ncfg := 0, ports := [], streams := [], l1 := [], l1i := [], sb := [], tlb := [],
    cycle := 0, lastTie := 7, fences := [], mixt := [], datat := [] }

/-- A free barrier object (06 R151, R156). -/
def Barrier.reset : Barrier := { n := 0, a := 0, gen := 0 }

/-- A base die at its first power-up (12 Table 12.7). -/
def Stack.reset : Stack :=
  { head := 0, tail := 0, ovf := false, faq := [], retired := [], pool := 0, logsz := 0, lowwm := 0,
    sectors := [], noticed := false }

/-- Crossbar registers at reset (14 Table 14.2). -/
def Crossbar.reset : Crossbar :=
  { strict := false, ptab := 0, clpart := [0, 0, 0, 0], strictNow := false, ptabNow := 0,
    clpartNow := [0, 0, 0, 0] }

/-- An Ngamon block at reset (14 Table 14.3), with the default matrix (10 R274). -/
def Ngamon.reset : Ngamon :=
  { sel := 0x0100, lsqbase := 0, lsqsz := 0, tail := 0, head := 0, lcqbase := 0, lcqsz := 0,
    lcqhead := 0, done := 0, pubbase := 0, pubver := 0, advancing := false, matrix := 0x122475CF }

/-- An optical port at reset (14 Table 14.6). -/
def Port.reset : Port :=
  { up := false, txact := 0, rxact := 0, retired := 0, ver := 0, bercnt := [], berthr := [],
    replays := 0, retrains := 0, txTraining := none, rxTraining := none, due := [], fails := [] }

/-- A link entry at reset (14 Table 14.8). -/
def Link.reset : Link := { raw := 0, arrived := [], known := [], absent := [], waited := 0, saved := none, due := 0 }

/-- An island at reset (16 R385). -/
def Island.reset : Island := { level := 0, downs := 0 }

/-- Every interleave domain's mask at reset (12 R303). -/
def domainReset : Reg := 0x0000000000FF9200

/-- The region of a slot whose tree is not in the region table: a root's defaults (13 Table 13.3). -/
def Region.default : Region :=
  { rid := 0, parent := 0, x := 0, y := 0, w := 1, h := 1, prio := 8, slots := 8, tasks := 0,
    cycles := 0x00FFFFFF, cellar := 1024, ways := 0xFFFF, tenant := 0, vf := 0, secure := false,
    fdom := 0, tsbase := 0, barcnt := 1024, barbase := 0 }

/-- The package right after reset: powered, its hardware as steps 1 to 4, 6 and 7 of bring-up leave it
(16 R389), no context valid, no port trained, nothing running. The secure firmware of step 5 is not
given by the spec: what it builds comes from outside (log 3, log 21). -/
def State.reset : State :=
  { cur := { core := 0, slot := 0, len := 4, code := none }, agenda := [], free := 0, stamp := 1,
    power := .on, mem := [], tables := [], poisoned := [], keys := [], writtenUnder := [],
    cores := [], bars := [], counters := [], l2tlb := [], domains := [], walks := [], attic := [],
    tenantWays := [], l2 := [], misses := [], claims := [], waystations := [], locks := [],
    revokes := [], lockDrops := [], epochs := [], posted := [], early := [], reports := [], baseDies := [], crossbars := [], snoop := [],
    roots := [], nextRoot := 1, collIn := [], net := [], nnet := [], cnet := [], remote := [], fired := [],
    vfs := [], pub := [], ports := [], routes := [], links := [], islands := [], triggers := 0,
    latchDue := false, snapshot := none, package := 0, booted := false, irq := [], answer := 0, broken := false }

/-! ### Why a step stops -/

/-- A step that cannot go on. -/
inductive Fault where
  /-- Raised by `step` when it is asked to move a package that has no power or has tripped (16 R386,
  R389), except by powering it on. Safe: no agent of the package acts then. -/
  | unpowered
  deriving DecidableEq, Repr

/-- A step without a meaning. -/
inductive Refusal where
  /-- Raised by an arm of `exec` for an instruction without a meaning yet. Safe. -/
  | notModelled (mnemonic : String)
  deriving DecidableEq, Repr

end Sys2Proof.Machine
end

