-- ==== Sys2Proof/Machine/Memory.lean ====
section
/-! DEFINITION. Where every word of the package lies and how its home is read and written: places,
geometry, the slices, the base dies with their keys, retired pages and compression, and the report
rings (files 00, 12, 15). -/

namespace Sys2Proof.Machine

/-! ### Geometry (00 R2 to R6) -/

/-- The die, and the cluster of the package, of a core. -/
def dieOf (core : Nat) : Nat := core / 1024
def clusterOf (core : Nat) : Nat := core / 16

/-- Grid position of a core. -/
def xOf (core : Nat) : Nat := 32 * (core / 1024 % 2) + 4 * (core / 16 % 8) + core % 4
def yOf (core : Nat) : Nat := 32 * (core / 2048) + 4 * (core / 128 % 8) + core / 4 % 4

/-- The core at a grid position. -/
def coreAt (x y : Nat) : Nat :=
  1024 * (x / 32) + 2048 * (y / 32) + 128 * (y % 32 / 4) + 16 * (x % 32 / 4) + 4 * (y % 4) + x % 4

/-- The core at a signed position, if that lies on the grid. -/
def coreAt? (x y : Int) : Option Nat :=
  if 0 ≤ x ∧ x < 64 ∧ 0 ≤ y ∧ y < 64 then some (coreAt x.toNat y.toNat) else none

/-- The cluster at a signed position of the 16×16 cluster grid (01 R33). -/
def clusterAt? (cx cy : Int) : Option Nat :=
  (coreAt? (4 * cx) (4 * cy)).map clusterOf

/-! ### Places -/

/-- The place of a byte of a larder, a cellar or an attic. Physical addresses are below 2^56. -/
def larderAt (core off : Nat) : Nat := 2 ^ 56 + core * 2 ^ 16 + off
def cellarAt (cluster off : Nat) : Nat := 2 ^ 57 + cluster * 2 ^ 20 + off
def atticAt (die off : Nat) : Nat := 2 ^ 58 + die * 2 ^ 26 + off

/-- What kind of storage a place is in. -/
inductive Store where
  | larder
  | cellar
  | attic
  /-- Plain or compressed memory of this package, kinds 0x0 and 0x3. -/
  | hbm
  | host
  /-- Memory of another package. -/
  | remote
  | nowhere
  deriving DecidableEq, Repr

/-- The storage of a place (12 Table 12.1). -/
def storeOf (p : Nat) : Store :=
  if 2 ^ 58 ≤ p then .attic else if 2 ^ 57 ≤ p then .cellar else if 2 ^ 56 ≤ p then .larder
  else
    let low := p % 2 ^ 52
    match p / 2 ^ 52 with
    | 0 => if low < 2 ^ 40 then .hbm else .nowhere
    | 1 => if low < 2 ^ 48 then .host else .nowhere
    | 3 => if low < 2 ^ 41 then .hbm else .nowhere
    | 8 => .remote
    | _ => .nowhere

/-- The cluster of a cellar place, and the die of an attic place. -/
def cellarCluster (p : Nat) : Nat := p % 2 ^ 57 / 2 ^ 20
def atticDie (p : Nat) : Nat := p % 2 ^ 58 / 2 ^ 26

/-- Whether a physical address is in compressed space, its stack, and its offset there (12 R302). -/
def isCmp (pa : Nat) : Bool := pa / 2 ^ 52 = 3
def stackOf (pa : Nat) : Nat := if isCmp pa then pa / 2 ^ 38 % 8 else pa / 2 ^ 37 % 8
def stackOffset (pa : Nat) : Nat := if isCmp pa then pa % 2 ^ 38 else pa % 2 ^ 37

/-- What an address names, and the attributes of the page it was reached through (15 Table 15.4). -/
structure Loc where
  place : Nat
  ms : Bool
  ro : Bool
  sec : Bool
  key : BitVec 12
  deriving DecidableEq, Repr

/-- A place that no page maps: local windows and device accesses. -/
def Loc.plain (p : Nat) : Loc := { place := p, ms := false, ro := false, sec := false, key := 0 }

/-- The location some bytes further. -/
def Loc.shift (l : Loc) (k : Nat) : Loc := { l with place := l.place + k }

/-- The part of a run of bytes in each line of memory: its location and its bytes. -/
def Loc.lines (l : Loc) (n : Nat) : List (Loc × Nat) :=
  if storeOf l.place = .hbm then
    (List.range (n / 128 + 2)).filterMap (fun i =>
      let line := (l.place / 128 + i) * 128
      let first := Nat.max l.place line
      let last := Nat.min (l.place + n) (line + 128)
      if first < last then some ({ l with place := first }, last - first) else none)
  else []

/-- The narrowest scope that contains a home, seen from a core: 0 core to 4 system (06 Table 6.2). -/
def homeScope (core : Nat) (p : Nat) : Nat :=
  match storeOf p with
  | .larder => 0
  | .cellar =>
    if cellarCluster p = clusterOf core then 1
    else if cellarCluster p / 64 = dieOf core then 2 else 3
  | .attic => if atticDie p = dieOf core then 2 else 3
  | .hbm => if stackOf p / 2 = dieOf core then 2 else 3
  | _ => 4

/-! ### Bytes -/

/-- The number that bytes hold, lowest first (00 R8). -/
def leNat : List Byte → Nat
  | [] => 0
  | b :: t => b.toNat + 256 * leNat t

/-- One byte, as memory holds it. -/
def State.byte (s : State) (p : Nat) : Byte := Tab.get Memory.blank s.mem p

/-- Memory with bytes from a place on. -/
def pokeMem (m : Memory) (p : Nat) : List Byte → Memory
  | [] => m
  | b :: t => pokeMem (Tab.set Memory.blank m p b) (p + 1) t

/-- Words of 8 bytes that a run of bytes covers whole are no longer poisoned (log 29). -/
def unpoison (ws : List Nat) (p n : Nat) : List Nat :=
  ws.filter (fun w => !(p ≤ 8 * w && 8 * w + 8 ≤ p + n))

/-- Bytes written to storage with nothing in front of it: a larder, a cellar, an attic. -/
def State.poke (s : State) (p : Nat) (bs : List Byte) : State :=
  { s with mem := pokeMem s.mem p bs, poisoned := unpoison s.poisoned p bs.length }

/-- Bytes read from such storage. -/
def State.peek (s : State) (p n : Nat) : List Byte := (List.range n).map (fun i => s.byte (p + i))

/-- Whether a byte is poisoned: with its word in a larder or a cellar, else with its line (06 R145, 12 R306). -/
def State.bad (s : State) (p : Nat) : Bool :=
  match storeOf p with
  | .larder | .cellar => s.poisoned.contains (p / 8)
  | _ => s.poisoned.any (fun w => w / 16 = p / 128)

/-- A number stored as bytes. -/
def State.pokeNat (s : State) (p n v : Nat) : State := s.poke p (bytesOfNat n v)

/-! ### Home slices (12 R303) -/

/-- The bits of PA[39:7] that a mask selects, in ascending order. -/
def selBits (mask : Reg) (pa : Nat) : List Bool :=
  ((List.range 33).filter (fun k => mask.getLsbD (15 + k))).map (fun k => pa.testBit (7 + k))

/-- The selected bits folded into an index of `log` bits: bit j is xored into bit j mod log. -/
def foldBits (log : Nat) : Nat → List Bool → Nat → Nat
  | _, [], acc => acc
  | j, b :: t, acc => foldBits log (j + 1) t (if b then acc ^^^ 2 ^ (j % log) else acc)

/-- The interleave domain of a physical address, counted over the package: 64·die + domain. -/
def domainOf (pa : Nat) : Nat := stackOf pa / 2 * 64 + pa / 2 ^ 32 % 64

/-- The hash mask in force for a domain. -/
def State.domainMask (s : State) (d : Nat) : Reg := Tab.get domainReset s.domains d

/-- The home slice of an address of this package's memory, counted over the package: 512·die + slice. -/
def State.homeSlice (s : State) (pa : Nat) : Nat :=
  let mask := s.domainMask (domainOf pa)
  let log := mask.toNat / 2 ^ 9 % 16
  let at' := if isCmp pa then pa % 2 ^ 40 else pa
  let idx := if log = 0 then 0 else foldBits log 0 (selBits mask at') 0
  stackOf pa / 2 * 512 + (mask.toNat % 512 + idx) % 512

/-- The copy of a line that its home slice holds, whatever its world. -/
def State.l2At (s : State) (line : Nat) : Option L2Line :=
  s.l2.find? (fun l => l.slice = s.homeSlice (line * 128) && l.line = line)

/-- The copy that an access of a world hits (15 R376). -/
def State.l2Hit (s : State) (line : Nat) (sec : Bool) : Option L2Line :=
  (s.l2At line).filter (fun l => l.secure == sec)

/-- A copy just used goes to the front (12 R305). -/
def State.touch (s : State) (l : L2Line) : State := { s with l2 := l :: s.l2.filter (fun c => c ≠ l) }

/-- The copy of a line, if its home holds one, has been used. -/
def State.touchLine (s : State) (line : Nat) : State := ((s.l2At line).map s.touch).getD s

/-! ### The device's own accesses: report rings, images, completions -/

/-- A byte of a line's home as the device sees it. -/
def State.devByte (s : State) (p : Nat) : Byte :=
  if storeOf p = .hbm then
    match s.l2At (p / 128) with
    | some l => (Tab.find l.bytes (p % 128)).getD (s.byte p)
    | none => s.byte p
  else s.byte p

/-- The host gives up a line that the device writes or claims (14 R351). -/
def State.backInvalidate (s : State) (line : Nat) : State := { s with snoop := s.snoop.filter (fun x => x ≠ line) }

/-- Bytes put into a copy of a line. -/
def putBytes (t : Tab Byte) (off : Nat) : List Byte → Tab Byte
  | [] => t
  | b :: r => putBytes (Tab.put t off b) (off + 1) r

/-- The slices' copies with one byte written where a copy of its line is held at its home. -/
def State.devPut (s : State) (p : Nat) (b : Byte) : State :=
  match (if storeOf p = .hbm then s.l2At (p / 128) else none) with
  | some l => { s with l2 := s.l2.map (fun c =>
      if c.slice = l.slice ∧ c.line = l.line
      then { c with bytes := Tab.put c.bytes (p % 128) b, dirty := true } else c) }
  | none => s.poke p [b]

/-- Bytes written by the device at their homes. -/
def State.devWrite (s : State) (p : Nat) : List Byte → State
  | [] => s
  | b :: t => State.devWrite (((s.backInvalidate (p / 128)).touchLine (p / 128)).devPut p b) (p + 1) t

/-- A number read, and written, by the device. -/
def State.devNat (s : State) (p n : Nat) : Nat :=
  leNat ((List.range n).map (fun i => s.devByte (p + i)))
def State.devPutNat (s : State) (p n v : Nat) : State := s.devWrite p (bytesOfNat n v)

/-! ### Waiting at a home (06 R128, R150) -/

/-- Whether an access to a line waits at its home: an engine's claim stands, or an epoch is open over
it (06 R128, R150). The range of an epoch is whole elements. -/
def Epoch.bytes (e : Epoch) : Nat := e.n * (typeWidth e.type / 8)
def State.claimed (s : State) (line : Nat) : Bool := s.claims.any (fun q => q.recorded && q.line = line)
def State.inEpoch (s : State) (p n : Nat) : Bool :=
  s.epochs.any (fun e => e.base < p + n && p < e.base + e.bytes)
def State.waits (s : State) (l : Loc) (n : Nat) : Bool :=
  storeOf l.place = .hbm &&
    (s.claimed (l.place / 128) || s.claimed ((l.place + n - 1) / 128) || s.inEpoch l.place n)

/-! ### Base dies (12 R317 to R322) -/

def State.stack (s : State) (k : Nat) : Stack := Tab.get Stack.reset s.baseDies k
def State.setStack (s : State) (k : Nat) (x : Stack) : State :=
  { s with baseDies := Tab.set Stack.reset s.baseDies k x }

/-- An error recorded in a stack's fault-address queue (12 R319, Table 12.6). -/
def State.faqAdd (s : State) (kind pa : Nat) : State :=
  let k := stackOf pa
  let d := s.stack k
  let addr := (if isCmp pa then 2 ^ 40 else 0) + stackOffset pa / 128 * 128
  let full := (Tab.get 0 d.faq d.tail).getLsbD 63
  if full then
    match (List.range 256).find? (fun i =>
        let e := Tab.get 0 d.faq i
        e.getLsbD 63 && e.toNat % 2 ^ 41 = addr) with
    | some i =>
      let e := Tab.get 0 d.faq i
      let n := Nat.min 255 (e.toNat / 2 ^ 48 % 256 + 1)
      s.setStack k { d with faq := Tab.set 0 d.faq i (BitVec.ofNat 64
        (e.toNat - e.toNat / 2 ^ 48 % 256 * 2 ^ 48 + n * 2 ^ 48)) }
    | none => s.setStack k { d with ovf := true }
  else s.setStack k { d with
    faq := Tab.set 0 d.faq d.tail (BitVec.ofNat 64 (2 ^ 63 + kind * 2 ^ 60 + addr))
    tail := (d.tail + 1) % 256 }

/-- A page on the retired list (12 R320). -/
def State.retiredPage (s : State) (pa : Nat) : Bool :=
  !isCmp pa && (s.stack (stackOf pa)).retired.contains (stackOffset pa / 4096)

/-- An address the base die answers with an uncorrectable error: a plain address inside a pool, or
compressed space at or above LOGSZ (12 R317). -/
def State.poolError (s : State) (pa : Nat) : Bool :=
  let d := s.stack (stackOf pa)
  if isCmp pa then d.logsz.toNat * 2 ^ 30 ≤ stackOffset pa
  else 2 ^ 37 ≤ stackOffset pa + d.pool.toNat * 2 ^ 30

/-- Whether reading a byte behind the slices meets an uncorrectable error. -/
def State.backBad (s : State) (pa : Nat) : Bool := s.bad pa || s.retiredPage pa || s.poolError pa

/-- Whether a byte that the device reads meets an uncorrectable error: in the copy of its line, or in memory. -/
def State.devBad (s : State) (p : Nat) : Bool :=
  match s.l2At (p / 128) with
  | some c => !c.bad.isEmpty || ((Tab.find c.bytes (p % 128)).isNone && s.backBad p)
  | none => s.backBad p

/-! ### Reports (15 R381, R382) -/

/-- The 64 bytes of a record. -/
def Report.bytes (r : Report) : List Byte :=
  bytesOfNat 8 (r.region.toNat * 2 ^ 32 + r.fdom.toNat * 2 ^ 16 + r.cause.toNat * 2 ^ 8 + r.event.toNat)
    ++ bytesOfNat 8 r.where'.toNat ++ bytesOfNat 8 r.addr.toNat ++ bytesOfNat 8 r.data.toNat
    ++ bytesOfNat 32 r.detail.toNat

/-- The interrupt of a function is raised. -/
def State.raise (s : State) (fn : Nat) : State := if s.irq.contains fn then s else { s with irq := s.irq ++ [fn] }

/-- The head of a report ring, and where its records stand (15 R381). -/
def Report.head (r : Report) : Nat := (if r.secure then 0x0100000 else 0x2000000) + 64 * r.ring
def Report.base (r : Report) : Nat := (if r.secure then 0x1100000 else 0x2100000) + 0x4000 * r.ring

/-- A record written to its ring, or counted as lost when the ring is full. The interrupt that the ring asks for
is raised when PROD moves from CONS. DESIGN CHOICE (log 113): where the ring's head cannot be read, the record is dropped
and the error is entered in the fault-address queue. -/
def State.writeReport (s : State) (r : Report) : State :=
  let prod := s.devNat r.head 4
  let cons := s.devNat (r.head + 8) 4
  if (List.range 32).any (fun i => s.devBad (r.head + i)) then s.faqAdd (if s.retiredPage r.head then 3 else 1) r.head
  else if (prod + 2 ^ 32 - cons) % 2 ^ 32 < 256 then
    let s := (s.devWrite (r.base + 64 * (prod % 256)) r.bytes).devPutNat r.head 4 ((prod + 1) % 2 ^ 32)
    if prod = cons && (s.devByte (r.head + 24)).getLsbD 0 then s.raise r.ring else s
  else s.devPutNat (r.head + 16) 4 (Nat.min (s.devNat (r.head + 16) 4 + 1) (2 ^ 32 - 1))

/-- Whether a record waits at the home of its ring's head or of its place there (06 R150, 12 R307). -/
def State.reportWaits (s : State) (r : Report) : Bool :=
  s.waits (.plain r.head) 32 || s.waits (.plain (r.base + 64 * (s.devNat r.head 4 % 256))) 64

/-- A record for its ring: written at once, or behind those for the ring that wait. -/
def State.report (s : State) (r : Report) : State :=
  if s.reportWaits r || s.reports.any (fun x => x.head = r.head) then { s with reports := s.reports ++ [r] }
  else s.writeReport r

/-- The k-th record that waits is written, once it is the first for its ring and nothing holds it back. -/
def State.reportDue (s : State) (k : Nat) : State :=
  match s.reports[k]? with
  | none => s
  | some r =>
    if s.reportWaits r || (s.reports.take k).any (fun x => x.head = r.head) then s
    else { s with reports := s.reports.eraseIdx k }.writeReport r

/-- An event that concerns no region: ring 512 of the non-secure world (15 R381). -/
def packageReport (s : State) (event cause : BitVec 8) (block : Nat) (addr data : Reg) : Report :=
  { ring := 512, secure := false, region := 0, fdom := 0xFFFF, cause := cause, event := event,
    where' := BitVec.ofNat 64 (s.package.toNat * 2 ^ 16 + block % 2 ^ 15), addr := addr, data := data,
    detail := 0 }

/-! ### Keys and compression (12 R317, R318, R321, R322) -/

/-- The key under which a context's lines are encrypted; none for context 0 (12 R321). -/
def State.keyOf (s : State) (key : BitVec 12) : Option (BitVec 256) :=
  if key = 0 then none else Tab.find s.keys key.toNat

/-- Whether a key context lacks the key its pages need (12 R322). -/
def State.keyGone (s : State) (key : BitVec 12) : Bool := key ≠ 0 && (s.keyOf key).isNone

/-- The line that stands in memory for a plain line written under one key, as it reads under another (12 R321,
R322; log 14). -/
def recrypt (written read : Option (BitVec 256)) (tweak : Nat) (plain : BitVec 1024) : BitVec 1024 :=
  let stored := match written with
    | none => plain
    | some k => Config.xtsEncrypt k tweak plain
  match read with
  | none => stored
  | some k => Config.xtsDecrypt k tweak stored

/-- A byte of memory behind the slices, read under a key. Memory holds what was written as plain text. -/
def State.backByte (s : State) (key : BitVec 12) (pa : Nat) : Byte :=
  let t := Tab.get none s.writtenUnder (pa / 128)
  if t = s.keyOf key then s.byte pa
  else (recrypt t (s.keyOf key) (pa / 128 * 128) (BitVec.ofNat 1024 (leNat (s.peek (pa / 128 * 128) 128)))).extractLsb' (8 * (pa % 128)) 8

/-- The words of a line that some bytes cover whole. -/
def wholeWords (bytes : Tab Byte) : List Nat :=
  (List.range 16).filter (fun w => (List.range 8).all (fun i => (Tab.find bytes (8 * w + i)).isSome))

/-- The bytes of one line written behind the slices, where nothing refuses them, some words poisoned. A line
written under another key before is first read under this one. -/
def State.backPut (s : State) (key : BitVec 12) (line : Nat) (bytes : Tab Byte) (bad : List Nat) : State :=
  let k := s.keyOf key
  let all : Tab Byte := if Tab.get none s.writtenUnder line = k then bytes
    else (List.range 128).map (fun i =>
      (i, (Tab.find bytes i).getD (s.backByte key (line * 128 + i))))
  { s with
    writtenUnder := Tab.set none s.writtenUnder line k
    mem := all.foldl (fun m e => Tab.set Memory.blank m (line * 128 + e.1) e.2) s.mem
    poisoned := s.poisoned.filter (fun w => !(w / 16 = line && ((wholeWords bytes).contains (w % 16) || bad.contains (w % 16))))
      ++ bad.map (fun w => 16 * line + w) }

/-- A number in the tables of the system area, as the walkers have them (15 R365). -/
def State.tableNat (s : State) (p n : Nat) : Nat :=
  leNat ((List.range n).map (fun i => Tab.get Memory.blank s.tables (p + i)))

/-- The world bit of a granule of plain memory, as the world table holds it; the system area's halves are fixed
(15 R364, R377). -/
def State.granuleBit (s : State) (pa : Nat) : Bool :=
  if pa < 0x2000000 then true else if pa < 0x4000000 then false
  else (s.tableNat (0x10000 + pa / 2 ^ 21 / 8) 1).testBit (pa / 2 ^ 21 % 8)

/-- Where a stack's pool begins (12 R317), and the number of its granules that hold sectors: those of the world of
its first one (15 R377). -/
def State.poolBase (s : State) (k : Nat) : Nat := k * 2 ^ 37 + 2 ^ 37 - (s.stack k).pool.toNat * 2 ^ 30
def State.poolGranules (s : State) (k : Nat) : Nat :=
  ((List.range ((s.stack k).pool.toNat * 512)).filter (fun i =>
    s.granuleBit (s.poolBase k + i * 2 ^ 21) == s.granuleBit (s.poolBase k))).length

/-- Sectors of a stack's pool that hold no block; how many the translation table and the reserve take
is not given (log 19). -/
def State.freeSectors (s : State) (k : Nat) : Nat :=
  s.poolGranules k * 2 ^ 14 - Config.poolOverhead k - ((s.stack k).sectors.map (·.2)).foldl (· + ·) 0

/-- The low-space notice, raised when the free sectors of a stack fall below LOWWM (12 R318). DESIGN CHOICE (log 114): of
block 0, as Table 15.9 names none. -/
def State.lowSpace (s : State) (k : Nat) : State :=
  let low := decide (s.freeSectors k < (s.stack k).lowwm.toNat)
  let raise := low && !(s.stack k).noticed
  let s := s.setStack k { s.stack k with noticed := low }
  if raise then s.report (packageReport s 0x0E 0 0 0 (BitVec.ofNat 64 k)) else s

/-- A block of compressed space after a write to it, when its contents need so many sectors and the reserve has
room or not: the sectors it takes, the notice, or the loss of the write; and whether the write stands (12 R317,
R318). -/
def State.compressTo (s : State) (line : Nat) (old : State) (need : Nat) (reserve : Bool) : State × Bool :=
  let pa := line * 128
  let k := stackOf pa
  let blk := stackOffset pa / 1024
  let base := pa / 1024 * 1024
  let had := Tab.get 0 (s.stack k).sectors blk
  let fits := decide (need ≤ s.freeSectors k + had)
  if !fits && !reserve then
    ({ s with mem := old.mem, writtenUnder := old.writtenUnder
              poisoned := s.poisoned ++ (List.range 128).map (fun i => base / 8 + i) }.faqAdd 4 pa, false)
  else
    ((s.setStack k { s.stack k with
      sectors := Tab.set 0 (s.stack k).sectors blk (if fits then need else 0) }).lowSpace k, true)

/-- The same for contents as they are: the sectors that a block compresses to, and whether the reserve has room,
are not given (log 19). -/
def State.compress (s : State) (line : Nat) (old : State) : State × Bool :=
  let base := line * 128 / 1024 * 1024
  let zero := (List.range 1024).all (fun i => s.byte (base + i) == 0)
  let t := { s with free := s.free + 2 }
  t.compressTo line old (if zero then 0 else Config.draw s.free % 8 + 1) (decide (Config.draw (s.free + 1) % 2 = 0))

/-- The bytes of one line written at the base die, some words poisoned; and whether the write stands. -/
def State.backTry (s : State) (key : BitVec 12) (line : Nat) (bytes : Tab Byte) (bad : List Nat) : State × Bool :=
  let pa := line * 128
  if s.retiredPage pa then (s.faqAdd 3 pa, false)
  else if s.poolError pa then (s.faqAdd 1 pa, false)
  else if isCmp pa then (s.backPut key line bytes bad).compress line s
  else (s.backPut key line bytes bad, true)
def State.backWrite (s : State) (key : BitVec 12) (line : Nat) (bytes : Tab Byte) : State :=
  (s.backTry key line bytes []).1

/-! ### Slices (12 R305, R313, R315) -/

/-- A copy of a line written back. Poison in it travels to memory and is recorded (12 R306, Table 12.6). -/
def State.writeBack (s : State) (l : L2Line) : State :=
  if l.dirty then
    let r := s.backTry l.key l.line l.bytes l.bad
    if r.2 && !l.bad.isEmpty then r.1.faqAdd 2 (l.line * 128) else r.1
  else s

/-- Whether a copy is that of a slice and a line. -/
def L2Line.same (a b : L2Line) : Bool := a.slice = b.slice && a.line = b.line

/-- The copy of a slice and a line, as it is now. -/
def State.copyOf (s : State) (l : L2Line) : L2Line := (s.l2.find? (fun c => c.same l)).getD l

/-- The copies without one of them. -/
def State.dropCopy (s : State) (l : L2Line) : State := { s with l2 := s.l2.filter (fun c => !c.same l) }

/-- A copy of a line leaves its slice. -/
def State.evict (s : State) (l : L2Line) : State := (s.writeBack (s.copyOf l)).dropCopy l

/-- A copy of a line is written back and stays, clean. -/
def State.cleanCopy (s : State) (l : L2Line) : State :=
  let s := s.writeBack (s.copyOf l)
  { s with l2 := s.l2.map (fun c => if c.same l then { c with dirty := false } else c) }

/-- Every copy of a line leaves the slices, written back if dirty. -/
def State.flushLine (s : State) (line : Nat) : State :=
  (s.l2.filter (fun l => l.line = line)).foldl State.evict s

/-- The package as an access to a location finds it: a memory-side line leaves the slices first (12 R315). -/
def State.atBase (s : State) (l : Loc) : State :=
  if l.ms && decide (storeOf l.place = .hbm) then s.flushLine (l.place / 128) else s

/-- The ways in which a tenant may allocate at a slice: its mask without the attic ways (12 R313). -/
def State.openWays (s : State) (tenant : BitVec 10) (slice : Nat) : List Nat :=
  let mask := Tab.get (0xFFFF : BitVec 16) s.tenantWays tenant.toNat
  let att := Tab.get (0 : BitVec 16) s.attic slice
  (List.range 16).filter (fun w => mask.getLsbD w && !att.getLsbD w)

/-- Copies that share a slice and a set with a line. The set of a line is open (log 13). -/
def State.setMates (s : State) (slice line : Nat) : List L2Line :=
  s.l2.filter (fun l => l.slice = slice && Config.l2Set l.line % 64 = Config.l2Set line % 64)

/-- A line allocated at its home: in a free way if there is one, else in the place of the least recently
used copy, which is last in the list. A copy of the other world leaves first; one at an earlier home stays (12
R309). -/
def State.allocate (s : State) (l : Loc) (tenant : BitVec 10) (bytes : Tab Byte) (dirty : Bool) (bad : List Nat)
    (ways : List Nat) : State :=
  let line := l.place / 128
  let slice := s.homeSlice l.place
  let s := ((s.l2At line).map s.evict).getD s
  let mates := s.setMates slice line
  let empty := ways.filter (fun w => !(mates.any (fun m => m.way = w)))
  let victim := (mates.filter (fun m => ways.contains m.way)).getLast?
  let way := if empty = [] then (victim.map (·.way)).getD 0
    else (empty[Config.draw s.free % empty.length]?).getD 0
  let s := { s with free := s.free + 1 }
  let s := if empty = [] then (victim.map s.evict).getD s else s
  { s with l2 := { slice := slice, line := line, way := way, bytes := bytes, dirty := dirty, bad := bad,
                   tenant := tenant, wrote := if dirty then [tenant] else [], key := l.key, secure := l.sec } :: s.l2 }

/-- The copy that an access to a location finds: at the base die none, at a slice that of its world. -/
def State.copyFor (s : State) (l : Loc) : Option L2Line :=
  if l.ms then none else s.l2Hit (l.place / 128) l.sec

/-- A read at a home: a memory-side line leaves the slices (12 R315), another's copy has been used (12 R305). -/
def State.useHome (s : State) (l : Loc) : State :=
  if storeOf l.place ≠ .hbm then s
  else if l.ms then s.atBase l
  else ((s.l2Hit (l.place / 128) l.sec).map s.touch).getD s

/-! ### Reading and writing at the home (06 R123) -/

/-- One byte of a location at its home. -/
def State.homeByte (s : State) (l : Loc) : Byte :=
  match storeOf l.place with
  | .hbm =>
    match s.copyFor l with
    | some c => (Tab.find c.bytes (l.place % 128)).getD (s.backByte l.key l.place)
    | none => (s.atBase l).backByte l.key l.place
  | _ => s.byte l.place

/-- Bytes at the home. -/
def State.homeBytes (s : State) (l : Loc) (n : Nat) : List Byte :=
  (List.range n).map (fun i => s.homeByte (l.shift i))

/-- Whether a byte at the home is one that memory must answer: no copy holds it. -/
def State.behind (s : State) (l : Loc) : Bool :=
  storeOf l.place = .hbm &&
    match s.copyFor l with
    | some c => (Tab.find c.bytes (l.place % 128)).isNone
    | none => true

/-- Whether reading a byte at its home meets an uncorrectable error: a poisoned copy, or memory's answer for a byte
that no copy holds (06 R145, 12 R306, R315, R317). -/
def State.byteBad (s : State) (m : Loc) : Bool :=
  let s := s.atBase m
  if storeOf m.place = .hbm then
    s.poolError m.place || (match s.copyFor m with
      | some c => !c.bad.isEmpty
      | none => false) || (s.behind m && s.backBad m.place)
  else s.bad m.place
def State.homeBad (s : State) (l : Loc) (n : Nat) : Bool := (List.range n).any (fun i => s.byteBad (l.shift i))

/-- Whether bytes written to a line go to memory at once: a memory-side line, or one in which the tenant may allocate
nothing (12 R313, R315). -/
def State.writesThrough (s : State) (l : Loc) (tenant : BitVec 10) : Bool :=
  l.ms || ((s.l2Hit (l.place / 128) l.sec).isNone && (s.openWays tenant (s.homeSlice l.place)).isEmpty)

/-- The bytes of one line written at the line's home. -/
def State.writeLine (s : State) (l : Loc) (tenant : BitVec 10) (bytes : Tab Byte) : State :=
  let line := l.place / 128
  if l.ms then (s.flushLine line).backWrite l.key line bytes
  else match s.l2Hit line l.sec with
    | some c =>
      let c' := { c with bytes := bytes.foldl (fun t e => Tab.put t e.1 e.2) c.bytes, dirty := true
                         bad := c.bad.filter (fun w => !(wholeWords bytes).contains w)
                         wrote := if c.wrote.contains tenant then c.wrote else tenant :: c.wrote }
      { s with l2 := c' :: s.l2.filter (fun x => x ≠ c) }
    | none =>
      match s.openWays tenant (s.homeSlice l.place) with
      | [] => s.backWrite l.key line bytes
      | ways => s.allocate l tenant bytes true [] ways

/-- Bytes from a location on, gathered by line: each line with the offsets written in it. -/
def byLine (p : Nat) : List Byte → List (Nat × Tab Byte)
  | [] => []
  | b :: t =>
    match byLine (p + 1) t with
    | (ln, tb) :: r => if ln = p / 128 then (ln, (p % 128, b) :: tb) :: r
                       else (p / 128, [(p % 128, b)]) :: (ln, tb) :: r
    | [] => [(p / 128, [(p % 128, b)])]

/-- Bytes written at their home. What the base die answers with an error is recorded and dropped (12 R317). -/
def State.homeWrite (s : State) (l : Loc) (tenant : BitVec 10) (bs : List Byte) : State :=
  match storeOf l.place with
  | .hbm => (byLine l.place bs).foldl (fun s e =>
      if s.poolError (e.1 * 128) then s.faqAdd 1 (e.1 * 128)
      else (s.backInvalidate e.1).writeLine { l with place := e.1 * 128 } tenant e.2) s
  | _ => s.poke l.place bs

end Sys2Proof.Machine
end

