-- ==== Sys2Proof/Machine/Regs.lean ====
section
/-! DEFINITION. Reading and writing the registers of cores and slots, and what a slot belongs to: its
region, its world, its virtual function, its age (01 R11 to R17, 10 R265, 13 R329, 15 R376). -/

namespace Sys2Proof.Machine

/-! ### Cores and slots -/

def State.core (s : State) (c : Nat) : Core := Tab.get Core.reset s.cores c
def State.setCore (s : State) (c : Nat) (x : Core) : State :=
  { s with cores := Tab.set Core.reset s.cores c x }

def Core.slot (c : Core) (k : Nat) : Slot := Tab.get Slot.reset c.slots k
def Core.setSlot (c : Core) (k : Nat) (x : Slot) : Core :=
  { c with slots := Tab.set Slot.reset c.slots k x }

def State.slotAt (s : State) (c k : Nat) : Slot := (s.core c).slot k
def State.setSlotAt (s : State) (c k : Nat) (x : Slot) : State := s.setCore c ((s.core c).setSlot k x)

/-- The core and the slot whose instruction runs. -/
def State.here (s : State) : Core := s.core s.cur.core
def State.setHere (s : State) (x : Core) : State := s.setCore s.cur.core x
def State.me (s : State) : Slot := s.slotAt s.cur.core s.cur.slot
def State.setMe (s : State) (x : Slot) : State := s.setSlotAt s.cur.core s.cur.slot x

/-- Every slot of the package changed by one function. -/
def State.mapSlots (s : State) (f : Nat → Nat → Slot → Slot) : State :=
  { s with cores := s.cores.map (fun e =>
      (e.1, { e.2 with slots := e.2.slots.map (fun x => (x.1, f e.1 x.1 x.2)) })) }

/-- The slots of the package that are not at reset, with their cores and numbers. -/
def State.allSlots (s : State) : List (Nat × Nat × Slot) :=
  s.cores.flatMap (fun e => e.2.slots.map (fun x => (e.1, x.1, x.2)))

/-! ### Registers of the running slot (01 R12) -/

/-- A general register; g0 reads zero. -/
def Slot.gReg (x : Slot) (r : BitVec 5) : Reg := if r = 0 then 0 else Tab.get 0 x.g r.toNat
/-- A write of a general register; one of g0 is discarded. -/
def Slot.setG (x : Slot) (r : BitVec 5) (v : Reg) : Slot :=
  if r = 0 then x else { x with g := Tab.set 0 x.g r.toNat v }

def Slot.vReg (x : Slot) (r : BitVec 5) : Vec := Tab.get 0 x.v r.toNat
def Slot.setV (x : Slot) (r : BitVec 5) (v : Vec) : Slot := { x with v := Tab.set 0 x.v r.toNat v }

/-- A mask register; p0 reads all ones. -/
def Slot.pReg (x : Slot) (r : Nat) : Reg := if r = 0 then BitVec.allOnes 64 else Tab.get 0 x.p r
/-- A write of a mask register; one of p0 is discarded. -/
def Slot.setP (x : Slot) (r : Nat) (v : Reg) : Slot :=
  if r = 0 then x else { x with p := Tab.set 0 x.p r v }

def State.g (s : State) (r : BitVec 5) : Reg := s.me.gReg r
def State.setG (s : State) (r : BitVec 5) (v : Reg) : State := s.setMe (s.me.setG r v)
def State.v (s : State) (r : BitVec 5) : Vec := s.me.vReg r
def State.setV (s : State) (r : BitVec 5) (v : Vec) : State := s.setMe (s.me.setV r v)
def State.p (s : State) (r : Nat) : Reg := s.me.pReg r
def State.setP (s : State) (r : Nat) (v : Reg) : State := s.setMe (s.me.setP r v)

/-- The instruction's own address (03 R65), and the address after it. -/
def State.base (s : State) : Reg := s.me.pc
def State.after (s : State) : Reg := s.me.pc + BitVec.ofNat 64 s.cur.len

/-- The slot goes on at an address. -/
def State.goto (s : State) (pc : Reg) : State := s.setMe { s.me with pc := pc }

/-- The slot goes on at its next instruction (03 R65). -/
def State.adv (s : State) : State := s.goto s.after

/-! ### What a slot belongs to -/

/-- The region of a placed tree with an id, with a root's defaults where the tree or the id is unknown. -/
def State.regionBy (s : State) (root : Nat) (rid : BitVec 16) : Region :=
  match Tab.find s.roots root with
  | some r => (r.regions.find? (fun x => x.rid = rid)).getD Region.default
  | none => Region.default

/-- The region of the task a slot runs. -/
def State.regionOf (s : State) (c k : Nat) : Region :=
  match (s.slotAt c k).task with
  | some t => s.regionBy t.root t.rid
  | none => Region.default

/-- The region of the running slot. -/
def State.region (s : State) : Region := s.regionOf s.cur.core s.cur.slot

/-- Whether a slot runs in the secure world: by its region, or by an SMC (11 R290, 15 R376). -/
def State.secureAt (s : State) (c k : Nat) : Bool := (s.regionOf c k).secure || (s.slotAt c k).smc
def State.secure (s : State) : Bool := s.secureAt s.cur.core s.cur.slot

/-- Whether a core lies in a region's rectangle. -/
def Region.holds (r : Region) (c : Nat) : Bool :=
  r.x ≤ xOf c && xOf c < r.x + r.w && r.y ≤ yOf c && yOf c < r.y + r.h

/-- The cores of a region's rectangle, row by row. -/
def Region.cores (r : Region) : List Nat :=
  (List.range r.h).flatMap (fun j => (List.range r.w).map (fun i => coreAt (r.x + i) (r.y + j)))

/-- The placed root that a core belongs to: its handle and its first region. -/
def State.rootAt (s : State) (c : Nat) : Option (Nat × Root) :=
  s.roots.find? (fun e => match e.2.regions with
    | r :: _ => r.holds c
    | [] => false)

/-- The root's own region. -/
def Root.top (r : Root) : Region := r.regions.headD Region.default

/-- The clusters that a rectangle touches. -/
def Region.clusters (r : Region) : List Nat := ((r.cores).map clusterOf).eraseDups

/-- The address of a task's age (10 R265): T, the sum of its region's base and its timestamp. -/
def ageT (r : Region) (ts : BitVec 48) : Reg := r.tsbase + ts.setWidth 64

/-- A slot's hardware thread id (00 R6). -/
def htid (c k : Nat) : BitVec 15 := BitVec.ofNat 15 (8 * c + k)

/-- The block that a report gives for what a slot of a core did: its HTID. DESIGN CHOICE (log 114): for the handler context,
which has none, the core, as the report of a handler fault gives it. -/
def whereOf (c k : Nat) : Nat := if k < 8 then 8 * c + k else c

/-- The age of the task a slot runs. -/
def State.ageOf (s : State) (c k : Nat) : Age :=
  match (s.slotAt c k).task with
  | some t => { t := ageT (s.regionOf c k) t.ts, htid := htid c k }
  | none => { t := 0, htid := htid c k }

/-- An age is older than another (10 R265). -/
def Age.older (a b : Age) : Bool := a.t < b.t || (a.t == b.t && a.htid < b.htid)

/-- The number of a slot's run of its task, 0 if it runs none. -/
def Slot.runId (x : Slot) : Nat := match x.task with
  | some t => t.uid
  | none => 0
def State.uid (s : State) : Nat := s.me.runId

/-- Whether the running task is a caravan (01 R17, R25). -/
def Slot.caravan (x : Slot) : Bool := match x.task with
  | some t => t.flags.getLsbD 0
  | none => false

/-- A report about a region, to the ring of its virtual function and world (15 R381). An event whose
tree is no longer placed concerns no region. -/
def regionReport (s : State) (root : Nat) (rid : BitVec 16) (event cause : BitVec 8) (block : Nat)
    (addr data : Reg) (detail : BitVec 256) : Report :=
  match Tab.find s.roots root with
  | none => packageReport s event cause block addr data
  | some _ =>
    let r := s.regionBy root rid
    { ring := r.vf.toNat, secure := r.secure, region := rid, fdom := r.fdom, cause := cause,
      event := event,
      where' := BitVec.ofNat 64 (root * 2 ^ 32 + s.package.toNat * 2 ^ 16 + block % 2 ^ 15),
      addr := addr, data := data, detail := detail }

/-- A report about the region of a slot's task. -/
def slotReport (s : State) (c k : Nat) (event cause : BitVec 8) (addr data : Reg)
    (detail : BitVec 256) : Report :=
  match (s.slotAt c k).task with
  | some t => regionReport s t.root t.rid event cause (whereOf c k) addr data detail
  | none => packageReport s event cause (whereOf c k) addr data

/-- The root on a cluster, and the world that the cluster takes from it (15 Table 15.6). -/
def State.rootOn (s : State) (cl : Nat) : Option (Nat × Root) := s.roots.find? (fun e => e.2.top.clusters.contains cl)
def State.clusterWorld (s : State) (cl : Nat) : Option Bool := (s.rootOn cl).map (fun e => e.2.top.secure)

/-- A report of an error in an SRAM: for a larder or a cellar, to the fault domain of the root that it serves; the
block is the core, the cluster, the die of an attic, or the slice (12 R306, 15 Table 15.9). -/
def State.sramReport (s : State) (l : Loc) (uncorrectable : Bool) : State :=
  let data : Reg := Config.sramLevel (l.place / 2 ^ 56) ++ BitVec.ofBool uncorrectable
  let of (r : Option (Nat × Root)) (block off : Nat) : Report := match r with
    | some e => regionReport s e.1 e.2.top.rid 0x0C 0 block (BitVec.ofNat 64 off) data 0
    | none => packageReport s 0x0C 0 block (BitVec.ofNat 64 off) data
  s.report (match storeOf l.place with
    | .larder => let c := l.place % 2 ^ 56 / 2 ^ 16
                 of (s.rootAt c) c (l.place % 2 ^ 16)
    | .cellar => of (s.rootOn (cellarCluster l.place)) (cellarCluster l.place) (l.place % 2 ^ 20)
    | .attic => of none (atticDie l.place) (l.place % 2 ^ 26)
    | _ => of none (s.homeSlice l.place) l.place)

/-- The same for a line of a core's L1 caches, an error that was corrected. -/
def State.cacheReport (s : State) (c : Nat) (instr : Bool) (pa : Nat) : State :=
  let data : Reg := Config.sramLevel (if instr then 9 else 8) ++ (0 : BitVec 1)
  let addr : Reg := BitVec.ofNat 64 (pa % 2 ^ 56)
  s.report (match s.rootAt c with
    | some e => regionReport s e.1 e.2.top.rid 0x0C 0 c addr data 0
    | none => packageReport s 0x0C 0 c addr data)

/-- An error that a read met, as it is recorded beside the trap or report it ends in: in the fault-address
queue for memory, in a report for an SRAM (12 R306, R315, R319, 15 R382). -/
def State.noteError (s : State) (l : Loc) : State :=
  let s := s.atBase l
  let copy := match s.copyFor l with
    | some c => !c.bad.isEmpty
    | none => false
  if storeOf l.place = .hbm && (!copy || s.poolError l.place) then
    s.faqAdd (if s.retiredPage l.place then 3 else 1) l.place
  else s.sramReport l true

/-- The same where a page's key may have gone as well (12 R322). -/
def State.noteAt (s : State) (l : Loc) : State :=
  if storeOf l.place = .hbm && s.keyGone l.key then s.faqAdd 5 l.place else s.noteError l

/-- An uncorrectable error strikes a word: in the slice that holds its line, or where it is stored. -/
def State.poison (s : State) (w : Nat) (slice : Bool) : State :=
  if slice then
    match s.l2At (w / 16) with
    | some c => { s with l2 := s.l2.map (fun x => if x = c then { c with bad := c.bad.filter (· ≠ w % 16) ++ [w % 16] } else x) }
    | none => s
  else if s.poisoned.contains w then s
  else { s with poisoned := s.poisoned ++ [w] }

/-- A single-bit error of a word is corrected, and recorded (12 R306). -/
def State.corrected (s : State) (w : Nat) (slice : Bool) : State :=
  let l := Loc.plain (8 * w)
  match storeOf l.place with
  | .hbm => if slice then (if (s.l2At (w / 16)).isSome then s.sramReport l false else s) else s.faqAdd 0 l.place
  | .larder | .cellar | .attic => s.sramReport l false
  | _ => s

/-! ### Parking and waking -/

/-- Slots whose wait meets a test are woken with a status. -/
def State.wake (s : State) (f : Nat → Nat → Wait → Bool) (v : Reg) : State :=
  s.mapSlots (fun c k x => if f c k x.wait then { x with wait := .woken v } else x)

/-- The running slot parks; its instruction stays to be completed when it is woken. -/
def State.park (s : State) (w : Wait) : State :=
  { s.setMe { s.me with wait := w, parkedAt := s.stamp } with stamp := s.stamp + 1 }

/-- The running slot is no longer parked. -/
def State.unpark (s : State) : State := s.setMe { s.me with wait := .none }

/-- A choice the spec leaves open, below n. -/
def State.choose (s : State) (n : Nat) : Nat × State :=
  (Config.draw s.free % n, { s with free := s.free + 1 })

/-- The next number of the package's own count: a task run, an arrival, a convoy (log 6). -/
def State.tick (s : State) : Nat × State := (s.stamp, { s with stamp := s.stamp + 1 })

end Sys2Proof.Machine
end

