-- ==== Sys2Proof/Machine/Translate.lean ====
section
/-! DEFINITION. From a virtual address to a place: page walks, TLBs, local windows, the decoding windows, and
the checks of Table 6.1 (01 R28 to R36, 06 R122, 15 R363 to R378). -/

namespace Sys2Proof.Machine

/-- The first address of the local windows (01 R29). -/
def windowBase : Nat := 0xFFF0000000000

/-! ### Trap causes (11 Table 11.2) -/

abbrev Cause := BitVec 8

def Cause.illegal : Cause := 0x01
def Cause.dictMiss : Cause := 0x02
def Cause.fetch : Cause := 0x03
def Cause.fetchWide : Cause := 0x04
def Cause.codeEnd : Cause := 0x05
def Cause.data : Cause := 0x06
def Cause.wide : Cause := 0x07
def Cause.memory : Cause := 0x08
def Cause.key : Cause := 0x09
def Cause.budget : Cause := 0x0A
def Cause.wound : Cause := 0x0B
def Cause.barrier : Cause := 0x0C
def Cause.link : Cause := 0x0D
def Cause.secure : Cause := 0x0E
def Cause.double : Cause := 0x0F
def Cause.trapInsn : Cause := 0x10
def Cause.smc : Cause := 0x11
def Cause.halt : Cause := 0x12
def Cause.kill : Cause := 0x13

/-! ### Page walks (15 R363 to R369, R378) -/

/-- The world bit of the granule of an address: of compressed space, that of its pool's first granule (15 R377). A
place outside this package's memory is non-secure. -/
def State.worldBit (s : State) (pa : Nat) : Bool :=
  if storeOf pa ≠ .hbm then false
  else s.granuleBit (if isCmp pa then s.poolBase (stackOf pa) else pa)

/-- A table entry as it is read: at its home, in the world of its granule, without a key; and whether the read meets an
error (15 R369). -/
def State.tableLoc (s : State) (p : Nat) : Loc := { Loc.plain p with sec := s.worldBit p }
def State.entryAt (s : State) (p : Nat) : Reg := BitVec.ofNat 64 (leNat (s.homeBytes (s.tableLoc p) 8))
def State.entryBad (s : State) (p : Nat) : Bool := s.homeBad (s.tableLoc p) 8

/-- The entry of the context table for a virtual function and world, and where it stands (15 R365). -/
def contextAt (vf : BitVec 9) (sec : Bool) : Nat := ((if sec then 512 else 0) + vf.toNat) * 16
def State.context (s : State) (vf : BitVec 9) (sec : Bool) : Reg := BitVec.ofNat 64 (s.tableNat (contextAt vf sec) 8)

/-- Address bits 55:12 of an entry, as an address. -/
def pteAddr (e : Reg) : Nat := e.toNat / 2 ^ 12 % 2 ^ 44 * 2 ^ 12

/-- A non-secure context sees nothing of the system area (15 R364). -/
def systemOk (sec : Bool) (p : Nat) : Bool := sec || 0x4000000 ≤ p

/-- The SEC bit of a page equals the world bit of the granule of an output; another package checks its own
memory (15 R376, R378). -/
def State.granuleOk (s : State) (sec : Bool) (p : Nat) : Bool := storeOf p = .remote || sec == s.worldBit p

/-- The checks of R368 on a leaf found at a level of page size 2^lg, for an address. -/
def leafOk (sec : Bool) (lg va : Nat) (e : Reg) : Bool :=
  let pa := pteAddr e
  let kind := pa / 2 ^ 52
  !e.getLsbD 6 && (lg = 12 || !e.getLsbD 7) && pa % 2 ^ lg = 0
    && (e.getLsbD 5 == decide (kind = 3)) && decide (storeOf pa ≠ .nowhere)
    && (!e.getLsbD 3 || kind = 0 || kind = 3)
    && systemOk sec (pa + va % 2 ^ lg)

/-- The translation that a leaf forms, for the page of 64 KiB when C64 is set (15 R368). -/
def leafTlb (vf : BitVec 9) (sec : Bool) (lg : Nat) (va : Nat) (e : Reg) : Tlb :=
  let big := if lg = 12 && e.getLsbD 7 then 16 else lg
  { vf := vf, secure := sec, lg := big, vpage := va / 2 ^ big, pa := pteAddr e / 2 ^ big * 2 ^ big,
    ro := e.getLsbD 2, ms := e.getLsbD 3, sec := e.getLsbD 4, cmp := e.getLsbD 5,
    key := e.extractLsb' 56 8 ++ e.extractLsb' 8 4 }

/-- A descent through the levels still to read: each with the shift of its index, the width of the index
and whether it may hold a leaf. `clean` says that every table so far lay in an allowed world; `world` says
whether the world check is made (15 R378). -/
def walkFrom (s : State) (vf : BitVec 9) (sec : Bool) (va : Nat) (world : Bool) :
    List (Nat × Nat × Bool) → Nat → Bool → Except Cause Tlb
  | [], _, _ => .error .data
  | (sh, wd, leaf) :: rest, table, clean =>
    let p := table + va / 2 ^ sh % 2 ^ wd * 8
    if storeOf table ≠ .hbm then .error .data
    else if s.entryBad p then .error .memory
    else
      let e := s.entryAt p
      let clean := clean && (sec || !s.worldBit table)
      if !e.getLsbD 0 then .error .data
      else if e.getLsbD 1 then
        if !leaf || !leafOk sec sh va e then .error .data
        else
          let t := leafTlb vf sec sh va e
          if world && (!clean || (t.sec && !sec) || !s.granuleOk t.sec (t.pa + va % 2 ^ t.lg))
          then .error .secure else .ok t
      else if rest = [] || e.toNat % 2 ^ 12 ≠ 1 || e.toNat / 2 ^ 56 ≠ 0 then .error .data
      else walkFrom s vf sec va world rest (pteAddr e) clean

/-- A walk, with or without the world check. -/
def State.walkWith (s : State) (vf : BitVec 9) (sec : Bool) (va : Nat) (world : Bool) : Except Cause Tlb :=
  let c := s.context vf sec
  if s.entryBad (contextAt vf sec) then .error .memory
  else if !c.getLsbD 63 then .error .data
  else walkFrom s vf sec va world
    [(48, 4, false), (39, 9, false), (30, 9, true), (21, 9, true), (12, 9, true)]
    (c.toNat / 2 ^ 7 % 2 ^ 49 * 2 ^ 7) true

/-- A walk: the translation of the page that holds an address, or the trap it ends in. -/
def State.walk (s : State) (vf : BitVec 9) (sec : Bool) (va : Nat) : Except Cause Tlb := s.walkWith vf sec va true

/-- The entries that a walk reads. -/
def State.walkPath (s : State) (va : Nat) : List (Nat × Nat × Bool) → Nat → List Nat
  | [], _ => []
  | (sh, wd, _) :: rest, table =>
    let p := table + va / 2 ^ sh % 2 ^ wd * 8
    let e := s.entryAt p
    p :: (if e.getLsbD 0 && !e.getLsbD 1 then s.walkPath va rest (pteAddr e) else [])

/-- The places of the entries that a walk of an address reads, root first. -/
def State.walkReads (s : State) (vf : BitVec 9) (sec : Bool) (va : Nat) : List Nat :=
  s.walkPath va [(48, 4, false), (39, 9, false), (30, 9, true), (21, 9, true), (12, 9, true)]
    ((s.context vf sec).toNat / 2 ^ 7 % 2 ^ 49 * 2 ^ 7)

/-- The table entry whose error stops a walk, if that is what stops it (15 R369). -/
def State.walkError (s : State) (vf : BitVec 9) (sec : Bool) (va : Nat) : Option Loc :=
  match s.walk vf sec va with
  | .error e =>
    if e = Cause.memory then ((contextAt vf sec :: s.walkReads vf sec va).find? s.entryBad).map s.tableLoc else none
  | .ok _ => none

/-! ### Lines asked for from memory (12 R308) -/

/-- Whether a read of n bytes must first have its line filled from memory: some byte is in no copy, and the tenant
may allocate at the slice (12 R308, R313). -/
def State.mustFill (s : State) (tenant : BitVec 10) (l : Loc) (n : Nat) : Bool :=
  storeOf l.place = .hbm && !l.ms && (List.range n).any (fun i => s.behind (l.shift i))
    && !(s.openWays tenant (s.homeSlice l.place)).isEmpty

/-- A line asked for from memory: it joins the misses of its slice (12 R308). -/
def State.askLine (s : State) (tenant : BitVec 10) (l : Loc) : State :=
  let line := l.place / 128
  let slice := s.homeSlice l.place
  if s.misses.any (fun m => m.slice = slice && m.line = line) then s
  else { s with misses := s.misses ++
    [{ slice := slice, line := line, tenant := tenant, key := l.key, secure := l.sec, keep := [] }] }

/-- A line asked for, that the L1 of some cores is to have. -/
def State.askFor (s : State) (tenant : BitVec 10) (l : Loc) (keep : List (Nat × Bool)) : State :=
  let t := s.askLine tenant l
  { t with misses := t.misses.map (fun m =>
      if m.slice = s.homeSlice l.place && m.line = l.place / 128 then { m with keep := m.keep ++ keep } else m) }

/-- A line as it comes from memory: the bytes that no copy holds. One in which the read meets an error gives no copy, so that
those that wait for it meet the error in memory (12 R306; 15 R382). -/
def State.fillLine (s : State) (m : Miss) : State :=
  let l : Loc := { place := m.line * 128, ms := false, ro := false, sec := m.secure, key := m.key }
  let all := (List.range 128).map (fun i => (i, s.backByte m.key (m.line * 128 + i)))
  if s.keyGone m.key || s.backBad l.place then s
  else match s.l2Hit m.line m.secure with
    | some x =>
      let y := { x with bytes := x.bytes.foldl (fun t b => Tab.put t b.1 b.2) all }
      { s with l2 := s.l2.map (fun z => if z = x then y else z) }
    | none =>
      match s.openWays m.tenant m.slice with
      | [] => s
      | ways => if m.slice = s.homeSlice l.place then s.allocate l m.tenant all false [] ways else s

/-- Whether a run of bytes that the device or another agent without a queue of its own reads waits for a line: one that
another read has asked for, or one for which its slice has no miss register (12 R308). -/
def State.fillWaits (s : State) (tenant : BitVec 10) (l : Loc) (n : Nat) : Bool :=
  (l.lines n).any (fun x => s.mustFill tenant x.1 x.2 &&
    (let mine := s.misses.filter (fun m => m.slice = s.homeSlice x.1.place)
     mine.any (fun m => m.line = x.1.place / 128) || decide (Config.missRegisters ≤ mine.length)))

/-- Such a read at its home: the lines that it needs come from memory, a memory-side one leaves the slices, another's copy
has been used (12 R305, R308, R315). -/
def State.useRun (s : State) (tenant : BitVec 10) (l : Loc) (n : Nat) : State :=
  (l.lines n).foldl (fun s x =>
    if s.mustFill tenant x.1 x.2 && !s.homeBad x.1 x.2 then
      s.fillLine { slice := s.homeSlice x.1.place, line := x.1.place / 128, tenant := tenant, key := x.1.key,
                   secure := x.1.sec, keep := [] }
    else s.useHome x.1) s

/-- Whether nothing leaves a core's cluster by the crossbar of its die: under STRICT its partition owns no slot of the
round (14 R347). -/
def State.silent (s : State) (c : Nat) : Bool :=
  let x := Tab.get Crossbar.reset s.crossbars (dieOf c)
  let cl := clusterOf c % 64
  let part := ((x.clpartNow[cl / 16]?).getD 0).toNat / 16 ^ (cl % 16) % 16
  x.strictNow && (List.range 16).all (fun k => x.ptabNow.toNat / 16 ^ k % 16 ≠ part)

/-- Whether an access of a core to a place waits for that: global and attic traffic leaves by the crossbar (14 R348). -/
def State.mute (s : State) (c p : Nat) : Bool :=
  (match storeOf p with
    | .larder | .cellar | .nowhere => false
    | _ => true) && s.silent c

/-- The L1 line that an access hits. -/
def l1Find (ls : List L1Line) (line : Nat) (sec : Bool) : Option L1Line :=
  ls.find? (fun x => x.line = line && x.secure == sec)

/-- Whether a walk waits at a claimed line or an open epoch (15 R369). -/
def State.walkWaits (s : State) (vf : BitVec 9) (sec : Bool) (va : Nat) : Bool :=
  (s.walkReads vf sec va).any (fun p => s.waits (.plain p) 8)

/-! ### TLBs (15 R371, R372, R374) -/

/-- A translation that covers an address. -/
def Tlb.covers (t : Tlb) (vf : BitVec 9) (sec : Bool) (va : Nat) : Bool :=
  t.vf == vf && t.secure == sec && va / 2 ^ t.lg == t.vpage

def findTlb (ts : List Tlb) (vf : BitVec 9) (sec : Bool) (va : Nat) : Option Tlb :=
  ts.find? (fun t => t.covers vf sec va)

/-- The translations of a set, and of the L1 TLB of a core. -/
def TlbSet.all (x : TlbSet) : List Tlb := x.ways.flatMap (fun w => w.1 :: w.2.toList)
def Core.tlbs (c : Core) : List Tlb := c.tlb.flatMap (fun e => e.2.all)

/-- A set, and an L1 TLB, without the translations that a test names. -/
def TlbSet.drop (f : Tlb → Bool) (x : TlbSet) : TlbSet :=
  { x with ways := x.ways.filterMap (fun w => match f w.1, w.2.filter (fun t => !f t) with
      | false, o => some (w.1, o)
      | true, some t => some (t, none)
      | true, none => none) }
def Core.dropTlb (c : Core) (f : Tlb → Bool) : Core := { c with tlb := c.tlb.map (fun e => (e.1, e.2.drop f)) }

/-- Whether two translations may share an entry of a set: pages of 4 KiB, or of 64 KiB, that are adjacent, of equal
attributes, under the set's base pair VA[51:28] and PA[55:32] (15 R371). -/
def TlbSet.pairs (x : TlbSet) (a b : Tlb) : Bool :=
  let base (t : Tlb) : Bool := t.vpage * 2 ^ t.lg / 2 ^ 28 = x.vbase && t.pa / 2 ^ 32 = x.pbase
  (a.lg = 12 || a.lg = 16) && base a && base b && (a.vpage + 1 = b.vpage || b.vpage + 1 = a.vpage)
    && { a with vpage := b.vpage, pa := b.pa } == b

/-- A set that takes a translation: beside one with which it pairs, in a free entry, or in the place of the entry that
a choice names. The base pair follows the translations while no entry holds two (log 17). -/
def TlbSet.put (x : TlbSet) (t : Tlb) (choice : Nat) : TlbSet :=
  let x := x.drop (fun y => y.covers t.vf t.secure (t.vpage * 2 ^ t.lg) || t.covers y.vf y.secure (y.vpage * 2 ^ y.lg))
  let x := if x.ways.any (fun w => w.2.isSome) then x
    else { x with vbase := t.vpage * 2 ^ t.lg / 2 ^ 28, pbase := t.pa / 2 ^ 32 }
  match x.ways.findIdx? (fun w => w.2.isNone && x.pairs w.1 t) with
  | some i => { x with ways := x.ways.modify i (fun w => (w.1, some t)) }
  | none => if x.ways.length < 4 then { x with ways := (t, none) :: x.ways }
    else { x with ways := x.ways.set (choice % 4) (t, none) }

/-- A translation enters the L1 TLB of a core (15 R371), and the L2 TLB of a cluster, where a set holds 16 (15 R372). -/
def State.putTlb (s : State) (c : Nat) (t : Tlb) : State :=
  let k := Config.tlbSet t.lg t.vpage % 48
  let x := Tab.get { vbase := 0, pbase := 0, ways := [] } (s.core c).tlb k
  let d := s.choose 4
  d.2.setCore c { d.2.core c with tlb := Tab.put (d.2.core c).tlb k (x.put t d.1) }
def State.putL2Tlb (s : State) (cl : Nat) (t : Tlb) : State :=
  let set (x : Tlb) : Nat := Config.l2TlbSet x.lg x.vpage % 256
  let ts := (Tab.get [] s.l2tlb cl).filter (fun x => x ≠ t)
  let mates := ts.filter (fun x => set x = set t)
  let d := s.choose 16
  let ts := if mates.length < 16 then ts else ts.filter (fun x => some x ≠ mates[d.1]?)
  { d.2 with l2tlb := Tab.set [] s.l2tlb cl (t :: ts) }

/-- The translation that the TLBs of a core hold. -/
def State.tlbFor (s : State) (c : Nat) (vf : BitVec 9) (sec : Bool) (va : Nat) : Option Tlb :=
  (findTlb (s.core c).tlbs vf sec va).or
    (findTlb (Tab.get [] s.l2tlb (clusterOf c)) vf sec va)

/-- The translation of an address by the TLBs, or else by a walk at once: for engines, handlers and the
device, and for the first fetch of a trap handler (log 20). -/
def State.translate (s : State) (c : Nat) (vf : BitVec 9) (sec : Bool) (va : Nat) : Except Cause Tlb :=
  match s.tlbFor c vf sec va with
  | some t => .ok t
  | none => s.walk vf sec va

/-- The entries that a walk reads, as locations of their world. -/
def State.walkLocs (s : State) (vf : BitVec 9) (sec : Bool) (va : Nat) : List Loc :=
  (s.walkReads vf sec va).map s.tableLoc

/-- The first entry of a walk whose line must come from memory (12 R308). -/
def State.walkMiss (s : State) (vf : BitVec 9) (sec : Bool) (tenant : BitVec 10) (va : Nat) : Option Loc :=
  (s.walkLocs vf sec va).find? (fun l => s.mustFill tenant l 8)

/-- Whether a walk of the device waits, for its lines too; and its reads, as they leave the slices. -/
def State.walkStays (s : State) (vf : BitVec 9) (sec : Bool) (tenant : BitVec 10) (va : Nat) : Bool :=
  s.walkWaits vf sec va || (s.walkLocs vf sec va).any (fun l => s.fillWaits tenant l 8)
def State.useWalk (s : State) (vf : BitVec 9) (sec : Bool) (tenant : BitVec 10) (va : Nat) : State :=
  (s.walkLocs vf sec va).foldl (fun s l => s.useRun tenant l 8) s

/-- Whether an address of an engine, a handler or the device needs a walk. -/
def State.walkNeeded (s : State) (c : Nat) (vf : BitVec 9) (sec : Bool) (va : Nat) : Bool :=
  va < windowBase && (s.tlbFor c vf sec va).isNone

/-- Whether the walk that it needs waits (15 R369). -/
def State.walkHeld (s : State) (c : Nat) (vf : BitVec 9) (sec : Bool) (va : Nat) : Bool :=
  s.walkNeeded c vf sec va && s.walkWaits vf sec va

/-- The table line that it needs from memory. -/
def State.needMiss (s : State) (c : Nat) (vf : BitVec 9) (sec : Bool) (tenant : BitVec 10) (va : Nat) : Option Loc :=
  if s.walkNeeded c vf sec va then s.walkMiss vf sec tenant va else none

/-- What an address names under a translation. -/
def Tlb.loc (t : Tlb) (va : Nat) : Loc :=
  { place := t.pa + va % 2 ^ t.lg, ms := t.ms, ro := t.ro, sec := t.sec, key := t.key }

/-! ### Local windows (01 R29 to R33) -/

/-- What an access is for. -/
inductive Use where
  | load
  | store
  | atomic
  /-- The source of a CPY, which may be a decoding window. -/
  | copy
  /-- Another read, or a write, by an engine. -/
  | engineRead
  | engineWrite
  deriving DecidableEq, Repr

/-- Writes to the place that an access names. -/
def Use.writes : Use → Bool
  | .store | .atomic | .engineWrite => true
  | _ => false

/-- What an address names: bytes at a location, or bytes decoded from the own cellar (window 2 to 5,
offset in the window). -/
inductive Target where
  | at' (l : Loc)
  | decoded (win off : Nat)
  deriving DecidableEq, Repr

/-- Whether an attic offset lies in a converted way (12 R310). -/
def State.atticHas (s : State) (die off : Nat) : Bool :=
  off < Config.atticSize &&
    (Tab.get (0 : BitVec 16) s.attic (die * 512 + off / 128 % 512)).getLsbD (15 - off / 2 ^ 22)

/-- Offsets of a run of n bytes of the attic, one in each of its lines: a line lies in one slice and way. -/
def atticPoints (off n : Nat) : List Nat := (List.range (n / 128 + 2)).map (fun i => Nat.min (off + 128 * i) (off + n - 1))

/-- The world of a die's attic (15 R377). -/
def State.atticSecure (s : State) (die : Nat) : Bool := (s.tableNat 0x20080 1).testBit die

/-- A signed field of five bits. -/
def signed5 (n : Nat) : Int := if n % 32 < 16 then (n % 32 : Int) else (n % 32 : Int) - 32

/-- The bytes of the side entry that an E2M1 element at a cellar offset needs lie in the cellar. -/
def sideFits (alside : BitVec 20) (block : Nat) : Bool := alside.toNat + 2 * block + 2 ≤ Config.cellarSize

/-- An access of n bytes to a local window, or the trap of row 3 or 5 (01 Table 1.5, R30 to R33). -/
def State.window (s : State) (c : Nat) (sec : Bool) (use : Use) (va n : Nat) : Except Cause Target :=
  let off := va % 2 ^ 32
  let last := off + n
  match (va - windowBase) / 2 ^ 32 with
  | 0 =>
    if last ≤ Config.larderSize && !(Config.spillBase < last)
    then .ok (.at' (.plain (larderAt c off))) else .error .data
  | 1 =>
    if last ≤ Config.cellarSize then .ok (.at' (.plain (cellarAt (clusterOf c) off))) else .error .data
  | 2 =>
    if last ≤ 4 * Config.cellarSize && (use = .load || use = .copy)
      && (use = .copy || (n % 2 = 0 && off % 2 = 0))
      && (List.range n).all (fun i => sideFits (s.core c).alside ((off + i) / 2 / 32))
    then .ok (.decoded 2 off) else .error .data
  | 3 =>
    if last ≤ 2 * Config.cellarSize && (use = .load || use = .copy)
      && (use = .copy || (n % 2 = 0 && off % 2 = 0))
    then .ok (.decoded 3 off) else .error .data
  | 4 =>
    if last ≤ 2 * Config.cellarSize && (use = .load || use = .copy)
      && (use = .copy || (n % 2 = 0 && off % 2 = 0))
    then .ok (.decoded 4 off) else .error .data
  | 5 =>
    if last ≤ 2 * Config.cellarSize && (use = .load || use = .copy)
    then .ok (.decoded 5 off) else .error .data
  | 8 =>
    if !(atticPoints off n).all (s.atticHas (dieOf c)) then .error .data
    else if s.atticSecure (dieOf c) != sec then .error .secure
    else .ok (.at' { Loc.plain (atticAt (dieOf c) off) with sec := sec })
  | 0x10 =>
    if off < 2 ^ 30 && off % 2 ^ 20 + n ≤ Config.cellarSize then
      match clusterAt? (xOf c / 4 + signed5 (off / 2 ^ 20)) (yOf c / 4 + signed5 (off / 2 ^ 25)) with
      | some cl =>
        if cl ≠ clusterOf c && s.clusterWorld cl = some (!sec) then .error .secure
        else .ok (.at' (.plain (cellarAt cl (off % 2 ^ 20))))
      | none => .error .data
    else .error .data
  | _ => .error .data

/-! ### Alias decoding (01 R35, R36) -/

/-- A slot's own buffered bytes over what memory holds (06 R124, R132). -/
def forward (sb : List SbEntry) (k p : Nat) : List Byte → List Byte
  | [] => []
  | b :: t =>
    let mine := sb.filter (fun e => e.slot = k && e.block = p / 64)
    (mine.foldl (fun b e => (Tab.find e.bytes (p % 64)).getD b) b) :: forward sb k (p + 1) t

/-- A byte of the own cellar as a slot sees it, or as an engine does. -/
def State.cellarByte (s : State) (c : Nat) (k : Option Nat) (x : Nat) : Byte :=
  let p := cellarAt (clusterOf c) x
  match k with
  | some k => (forward (s.core c).sb k p [s.byte p]).headD 0
  | none => s.byte p

/-- A code nibble of the own cellar: the low nibble of its byte for even elements. -/
def State.nibble (s : State) (c : Nat) (k : Option Nat) (e : Nat) : Nat :=
  (s.cellarByte c k (e / 2)).toNat / (if e % 2 = 0 then 1 else 16) % 16

/-- The value of a 4-bit code under a LUT: byte k of it holds the INT8 value of code k (01 R18). -/
def lutByte (lut : BitVec 128) (code : Nat) : Byte := lut.extractLsb' (8 * code) 8

/-- The byte that a decoding window shows at an offset (01 Table 1.6). The LUT is the core's, or the one that an
engine command has captured (01 R20); a slot's own buffered stores come first (06 R124). -/
def State.aliasByte (s : State) (c : Nat) (k : Option Nat) (lut : BitVec 128) (win off : Nat) : Byte :=
  let raw (x : Nat) : Nat := (s.cellarByte c k x).toNat
  let half (f : Nat) : Byte := BitVec.ofNat 8 (f / (if off % 2 = 0 then 1 else 256))
  let e := off / 2
  match win with
  | 2 =>
    let side := (s.core c).alside.toNat + 2 * (e / 32)
    half (aliasF16 (e2m1Val (s.nibble c k e) (raw side) (raw (side + 1))))
  | 3 => half (aliasF16 (val 12 (raw e)))
  | 4 => half (aliasF16 (val 13 (raw e)))
  | _ => lutByte lut (s.nibble c k off)

/-- The places of the cellar bytes that a decoded byte is read from. -/
def State.aliasPlaces (s : State) (c win off : Nat) : List Nat :=
  let e := off / 2
  let xs := match win with
    | 2 =>
      let side := (s.core c).alside.toNat + 2 * (e / 32)
      [e / 2, side, side + 1]
    | 3 | 4 => [e]
    | _ => [off / 2]
  xs.map (cellarAt (clusterOf c))

/-- Whether one of them is poisoned. -/
def State.aliasBad (s : State) (c win off : Nat) : Bool := (s.aliasPlaces c win off).any s.bad

/-! ### The checks of Table 6.1 -/

/-- Who makes an access: its core, virtual function and world, the LUT under which it reads a decoding window, and
for an engine which one it is. -/
structure Who where
  core : Nat
  vf : BitVec 9
  sec : Bool
  tenant : BitVec 10
  lut : BitVec 128
  data : Bool
  deriving DecidableEq, Repr

/-- A slot as the maker of its accesses. -/
def State.who (s : State) (c k : Nat) : Who :=
  { core := c, vf := (s.regionOf c k).vf, sec := s.secureAt c k, tenant := (s.regionOf c k).tenant,
    lut := (s.core c).lut, data := false }

/-- The publication windows of a virtual function: bases and sizes (14 R353). They lie at PUBBASE in
host memory. DESIGN CHOICE (log 121): PUBBASE 0, its reset value, names no windows. -/
def State.pubWindows (s : State) (vf : BitVec 9) : List (Nat × Nat) :=
  let base := (Tab.get Ngamon.reset s.vfs vf.toNat).pubbase.toNat
  if base = 0 then [] else
    (List.range 16).map (fun i =>
      (s.devNat (2 ^ 52 + base % 2 ^ 48 + 16 * i) 8, s.devNat (2 ^ 52 + base % 2 ^ 48 + 16 * i + 8) 8))

/-- Whether n bytes of host memory lie in one of them. -/
def State.inPub (s : State) (vf : BitVec 9) (p n : Nat) : Bool :=
  (s.pubWindows vf).any (fun w => w.1 ≤ p % 2 ^ 52 && p % 2 ^ 52 + n ≤ w.1 + w.2)

/-- A function's own bytes in the publication buffer over what host memory holds (14 R353). -/
def State.overPub (s : State) (vf : BitVec 9) (p : Nat) : List Byte → List Byte
  | [] => []
  | b :: t =>
    let mine := s.pub.find? (fun e => e.vf == vf && e.line = p / 128)
    ((mine.bind (fun e => Tab.find e.bytes (p % 128))).getD b) :: s.overPub vf (p + 1) t

/-- The counters live in a cellar whose bytes a range of places touches (06 R157, R158). -/
def State.coversCounter (s : State) (p n : Nat) : Bool :=
  s.counters.any (fun e => e.1 < p + n && p < e.1 + 16)

/-- Rows 3 to 6 for an address under a translation: read-only pages, publication windows, and for each output of
the page the system area and the world of its granule; keys. -/
def State.pageOk (s : State) (w : Who) (use : Use) (t : Tlb) (va n : Nat) : Except Cause Target :=
  let l := t.loc va
  if use.writes && t.ro then .error .data
  else if use.writes && storeOf l.place = .host && !s.inPub w.vf l.place n then .error .data
  else if !systemOk w.sec l.place then .error .data
  else if !s.granuleOk t.sec l.place then .error .secure
  else if storeOf l.place = .hbm && s.keyGone t.key then .error .key
  else .ok (.at' l)

/-- Whether an access whose walk fails the world check meets row 3 or 4 of Table 6.1 as well, which go first. -/
def State.row4 (s : State) (w : Who) (use : Use) (va n : Nat) : Bool :=
  match s.walkWith w.vf w.sec va false with
  | .ok t => match s.pageOk w use t va n with
    | .error c => c = .data
    | .ok _ => false
  | .error _ => false

/-- Rows 1 to 6 of Table 6.1 for an access of n bytes with alignment al, given what translates it.
`none` from the translation means that it is not known yet. -/
def State.check (s : State) (w : Who) (find : Nat → Option (Except Cause Tlb)) (use : Use)
    (va : Reg) (n al : Nat) : Option (Except Cause Target) :=
  let a := va.toNat
  if 2 ^ 52 ≤ a then some (.error .wide)
  else if a % al ≠ 0 then some (.error .data)
  else if windowBase ≤ a then
    match s.window w.core w.sec use a n with
    | .ok (.at' l) =>
      if (use = .store || use = .atomic) && s.coversCounter l.place n then some (.error .data)
      else some (.ok (.at' l))
    | r => some r
  else
    match find a with
    | none => none
    | some (.error c) => some (.error (if c = .secure && s.row4 w use a n then .data else c))
    | some (.ok t) => some (s.pageOk w use t a n)

/-- The same for an engine, a handler or the device, whose translations are found at once. -/
def State.checkNow (s : State) (w : Who) (use : Use) (va : Reg) (n al : Nat) : Except Cause Target :=
  match s.check w (fun a => some (s.translate w.core w.vf w.sec a)) use va n al with
  | some r => r
  | none => .error .data

/-- Whether some port of a mask is up, and of that by which a destination package is reached now (14 R358). -/
def State.routeUp (s : State) (mask : BitVec 16) : Bool :=
  (List.range 16).any (fun k => mask.getLsbD k && (Tab.get Port.reset s.ports k).up)
def State.routeTo (s : State) (pkg : Nat) : BitVec 16 := Tab.get 0 s.routes pkg
def State.linkUp (s : State) (pkg : Nat) : Bool := s.routeUp (s.routeTo pkg)

/-- The package that holds a remote place. -/
def remotePackage (p : Nat) : Nat := p / 2 ^ 40 % 2 ^ 12

/-- Rows 7 and 8 for reading n bytes of a target (06 R145, 14 R358). -/
def State.readable (s : State) (c : Nat) (t : Target) (n : Nat) : Except Cause Unit :=
  match t with
  | .decoded win off =>
    if (List.range n).any (fun i => s.aliasBad c win (off + i)) then .error .memory else .ok ()
  | .at' l =>
    if s.homeBad l n then .error .memory
    else if storeOf l.place = .remote && !s.linkUp (remotePackage l.place) then .error .link
    else .ok ()

end Sys2Proof.Machine
end

