-- ==== Sys2Proof/Machine/Objects.lean ====
section
/-! DEFINITION. The shared objects that instructions, engines and events update, each by one step:
barriers, counters, rings, queues of entries, locks, waystations. -/

namespace Sys2Proof.Machine

/-! ### Barriers (06 R151 to R156, 14 R360) -/

def State.bar (s : State) (b : Nat) : Barrier := Tab.get Barrier.reset s.bars b
def State.setBar (s : State) (b : Nat) (x : Barrier) : State :=
  { s with bars := Tab.set Barrier.reset s.bars b x }

/-- Object k of a cluster. -/
def barKey (cluster k : Nat) : Nat := 1024 * cluster + k

/-- Every waiter of an object is woken with a status: 0 completed, 1 reset. -/
def State.barRelease (s : State) (b : Nat) (v : Reg) : State :=
  s.wake (fun _ _ w => w == .barrier b) v

/-- Fields of a link entry (14 Table 14.8). -/
def Link.valid (l : Link) : Bool := l.raw.getLsbD 63
def Link.master (l : Link) : Nat := l.raw.toNat / 2 ^ 84 % 2 ^ 12
def Link.members (l : Link) : Nat := l.raw.toNat / 2 ^ 72 % 2 ^ 12 + 1
def Link.timeout (l : Link) : Nat := l.raw.toNat / 2 ^ 96 % 2 ^ 32
def Link.object (l : Link) : Nat :=
  barKey (l.raw.toNat / 2 ^ 10 % 2 ^ 8) (l.raw.toNat % 2 ^ 10)

def State.link (s : State) (e : Nat) : Link := Tab.get Link.reset s.links e
def State.setLink (s : State) (e : Nat) (x : Link) : State :=
  { s with links := Tab.set Link.reset s.links e x }

/-- The link entry of an object, if it is linked. -/
def State.linkOf (s : State) (b : Nat) : Option Nat :=
  (List.range 64).find? (fun e => (s.link e).valid && (s.link e).saved.isNone && (s.link e).object = b)

/-- The generation advances and every waiter completes. -/
def State.barAdvance (s : State) (b : Nat) : State :=
  let x := s.bar b
  (s.setBar b { x with gen := x.gen + 1 }).barRelease b 0

/-- A phase ends. -/
def State.barComplete (s : State) (b : Nat) : State := (s.setBar b { s.bar b with a := 0 }).barAdvance b

/-- A release token reaches a member: its object advances, or will once its region is restored. Arrivals of the next
phase stay counted (14 R360). -/
def State.linkRelease (s : State) (e : Nat) : State :=
  let l := s.link e
  if l.saved.isSome then s.setLink e { l with due := l.due + 1 } else s.barAdvance l.object

/-- The master counts a member's arrival token, and with the last one releases its own waiters; the
release tokens to the other packages leave the package (14 R360). DESIGN CHOICE (log 122): a second token of a member before
the release is dropped. -/
def State.masterArrive (s : State) (e member : Nat) : State :=
  let l := s.link e
  let l := if l.known.contains member then l else { l with known := l.known ++ [member] }
  if l.arrived.contains member then s
  else if l.arrived.length + 1 = l.members then
    (s.setLink e { l with arrived := [], waited := 0 }).linkRelease e
  else s.setLink e { l with arrived := l.arrived ++ [member] }

/-- The end of a local phase, when A has reached N. On a linked object A is cleared and an arrival
token goes to the master. -/
def State.barPhase (s : State) (b : Nat) : State :=
  match s.linkOf b with
  | none => s.barComplete b
  | some e =>
    let s := s.setBar b { s.bar b with a := 0 }
    if (s.link e).master = s.package.toNat then s.masterArrive e s.package.toNat else s

/-- One arrival (06 R153). -/
def State.barArrive (s : State) (b : Nat) : State :=
  let x := s.bar b
  let s := s.setBar b { x with a := x.a + 1 }
  if x.a + 1 = x.n then s.barPhase b else s

/-! ### Records and entries (01 R24, R25; 09 R233; 13 R331, R332) -/

/-- A number of bytes at an offset. -/
def natAt (bs : List Byte) (off n : Nat) : Nat := leNat ((bs.drop off).take n)

/-- The fields of a record of 64 bytes. -/
def recordOf (bs : List Byte) : Record :=
  { entry := BitVec.ofNat 32 (natAt bs 0 4), flags := BitVec.ofNat 16 (natAt bs 4 2),
    group := BitVec.ofNat 16 (natAt bs 6 2), ts := BitVec.ofNat 48 (natAt bs 8 6),
    rid := BitVec.ofNat 16 (natAt bs 14 2),
    args := (List.range 6).map (fun i => BitVec.ofNat 64 (natAt bs (16 + 8 * i) 8)) }

/-- The 64 bytes of a record. -/
def Record.bytes (r : Record) : List Byte :=
  bytesOfNat 4 r.entry.toNat ++ bytesOfNat 2 r.flags.toNat ++ bytesOfNat 2 r.group.toNat
    ++ bytesOfNat 6 r.ts.toNat ++ bytesOfNat 2 r.rid.toNat
    ++ r.args.flatMap (fun a => bytesOfNat 8 a.toNat)

def Record.caravan (r : Record) : Bool := r.flags.getLsbD 0
def Record.noSteal (r : Record) : Bool := r.flags.getLsbD 1
def Record.arg (r : Record) (i : Nat) : Reg := r.args.getD i 0

/-- Whether a record has no reserved bit set (01 Table 1.4, R25). -/
def Record.clean (r : Record) : Bool :=
  r.flags.toNat < 4 &&
    (if r.caravan then (r.arg 0).toNat < 2 ^ 52
     else r.group == 0 && r.arg 4 == 0 && r.arg 5 == 0)

/-- Whether an ancestor chain of regions leads from one region up to another; depth bounds the climb. -/
def climbs (rs : List Region) (goal : Nat) : Nat → Nat → Bool
  | 0, i => i = goal
  | d + 1, i =>
    i = goal || match rs[i]? with
      | some r => if r.parent = i then false else climbs rs goal d r.parent
      | none => false

/-- Whether a region id names a region of the tree at or below another (09 R233). -/
def State.below (s : State) (root : Nat) (top rid : BitVec 16) : Bool :=
  match Tab.find s.roots root with
  | none => false
  | some r =>
    match r.regions.findIdx? (fun x => x.rid = rid), r.regions.findIdx? (fun x => x.rid = top) with
    | some i, some j => climbs r.regions j r.regions.length i
    | _, _ => false

/-- An entry comes before another in key order (13 R332). DESIGN CHOICE (log 119): among equal PRIO and T the one that was
pushed, or arrived, before comes first, in ready queue and deque alike, so no two keys are equal (13 R333). -/
def State.before (s : State) (a b : Entry) : Bool :=
  let ra := s.regionBy a.root a.record.rid
  let rb := s.regionBy b.root b.record.rid
  if ra.prio ≠ rb.prio then decide (rb.prio < ra.prio)
  else
    let ta := ageT ra a.record.ts
    let tb := ageT rb b.record.ts
    if ta ≠ tb then decide (ta < tb) else decide (a.arrival < b.arrival)

/-- An entry placed in a list in key order. -/
def State.insertKey (s : State) (e : Entry) : List Entry → List Entry
  | [] => [e]
  | x :: t => if s.before e x then e :: x :: t else x :: s.insertKey e t

/-- An entry in 80 bytes: the record, its address and its T. -/
def State.entryBytes (s : State) (e : Entry) : List Byte :=
  e.record.bytes ++ bytesOfNat 8 e.addr.toNat ++ bytesOfNat 8 (ageT (s.regionBy e.root e.record.rid) e.record.ts).toNat

/-- A core's ready queue, in key order: the 33rd entry and those after it stand in the larder's spill area, in that
order (01 R30, 13 R332; log 38). -/
def State.setReady (s : State) (c : Nat) (es : List Entry) : State :=
  let t := s.setCore c { s.core c with ready := es }
  (es.drop Config.readyInHardware).zipIdx.foldl (fun t e => t.poke (larderAt c (Config.spillBase + 80 * e.2)) (s.entryBytes e.1)) t

/-- An entry enters a core's ready queue. -/
def State.enter' (s : State) (c : Nat) (e : Entry) : State := s.setReady c (s.insertKey e (s.core c).ready)
def State.enqueue (s : State) (c : Nat) (r : Record) (addr : Reg) (root : Nat) (o : Origin) : State :=
  let e : Entry := { record := r, addr := addr, root := root, arrival := s.stamp, origin := o }
  { s with stamp := s.stamp + 1 }.enter' c e

/-- Whether a core's ready queue is full (13 R332). -/
def Core.readyFull (c : Core) : Bool := Config.readySize ≤ c.ready.length

/-- An entry that must enter a ready queue: it waits while that is full (13 R332). -/
def State.admitEntry (s : State) (c : Nat) (e : Entry) : State :=
  if (s.core c).readyFull then s.setCore c { s.core c with waiting := (s.core c).waiting ++ [e] } else s.enter' c e
def State.admitTask (s : State) (c : Nat) (r : Record) (addr : Reg) (root : Nat) (o : Origin) : State :=
  { s with stamp := s.stamp + 1 }.admitEntry c { record := r, addr := addr, root := root, arrival := s.stamp, origin := o }

/-- An entry is pushed at the newest end of a core's deque (09 R233). -/
def State.pushDeque (s : State) (c : Nat) (r : Record) (addr : Reg) (root : Nat) : State :=
  let e : Entry := { record := r, addr := addr, root := root, arrival := s.stamp, origin := .package }
  let s := { s with stamp := s.stamp + 1 }
  s.setCore c { s.core c with deque := (s.core c).deque ++ [e] }

/-! ### Bound tasks (09 R234) -/

/-- What the read of a fired record comes to: it waits, or for its line from memory; it faults, where an error was met
if one was; or it gives the record, read at a home or from the L1. -/
inductive BoundRead where
  | wait
  | fill (tenant : BitVec 10) (l : Loc)
  | fault (e : Cause) (l : Option Loc)
  | ok (r : Record) (used : Option Loc)
  deriving DecidableEq, Repr

/-- The record that a fired binding names, read by a load of 64 bytes under the translation context of the region that
bound it, and checked (09 R233, R234). -/
def State.boundRead (s : State) (f : Fired) : BoundRead :=
  let c := f.who.core
  let r := s.regionBy f.who.root f.who.rid
  let w : Who := { core := c, vf := r.vf, sec := f.who.secure, tenant := r.tenant, lut := (s.core c).lut, data := true }
  let got (used : Option Loc) (bs : List Byte) : BoundRead :=
    let x := recordOf bs
    if x.clean && s.below f.who.root f.who.rid x.rid then .ok x used else .fault Cause.data none
  if s.walkHeld c r.vf f.who.secure f.record.toNat then .wait
  else match s.needMiss c r.vf f.who.secure r.tenant f.record.toNat with
  | some l => .fill r.tenant l
  | none => match s.checkNow w .load f.record 64 64 with
    | .error e => .fault e (if e = Cause.key then match s.translate c r.vf f.who.secure f.record.toNat with
        | .ok t => some (t.loc f.record.toNat)
        | .error _ => none else s.walkError r.vf f.who.secure f.record.toNat)
    | .ok t =>
      match t, s.readable c t 64 with
      | .decoded _ _, .error e => .fault e none
      | .decoded win off, .ok _ => got none ((List.range 64).map (fun i => s.aliasByte c none w.lut win (off + i)))
      | .at' l, r => match l1Find (s.core c).l1 (l.place / 128) l.sec with
        | some x => got none ((x.bytes.drop (l.place % 128)).take 64)
        | none =>
          if s.waits l 64 || s.mute c l.place then .wait
          else match r with
            | .error e => .fault e (if e = Cause.memory then some l else none)
            | .ok _ =>
              if s.mustFill w.tenant l 64 then .fill w.tenant l
              else got (some l) (if storeOf l.place = .host then s.overPub w.vf l.place (s.homeBytes l 64) else s.homeBytes l 64)

/-- A fired binding after its record's read: the task becomes ready, or the fault is reported, or the read is still to
come (09 R234, 15 R382). -/
def State.bound (s : State) (f : Fired) : State :=
  let vf := (s.regionBy f.who.root f.who.rid).vf
  let u := if s.walkNeeded f.who.core vf f.who.secure f.record.toNat
    then (s.walkLocs vf f.who.secure f.record.toNat).foldl State.useHome s else s
  match s.boundRead f with
  | .wait => { s with fired := s.fired ++ [f] }
  | .fill tenant l => { s.askLine tenant l with fired := s.fired ++ [f] }
  | .fault e l =>
    let s := match l with
      | some l => if e = Cause.key then u.faqAdd 5 l.place else u.noteError l
      | none => u
    s.report (regionReport s f.who.root f.who.rid 0x0A e (8 * f.who.core) f.record 0 0)
  | .ok r used => ((used.map u.useHome).getD u).admitTask f.who.core r f.record f.who.root .package

/-! ### Counters (06 R157 to R161, 09 R234) -/

/-- The fields of a counter object (06 Table 6.12). -/
def State.cntValue (s : State) (p : Nat) : BitVec 32 := BitVec.ofNat 32 (leNat (s.peek p 4))
def State.cntStatus (s : State) (p : Nat) : BitVec 32 := BitVec.ofNat 32 (leNat (s.peek (p + 4) 4))
def State.cntBind (s : State) (p : Nat) : Reg := BitVec.ofNat 64 (leNat (s.peek (p + 8) 8))

/-- Whether a counter is live. -/
def State.live (s : State) (p : Nat) : Bool := (Tab.find s.counters p).isSome

/-- A value held to the range of a counter (06 R160). -/
def clamp32 (x : Int) : BitVec 32 := BitVec.ofInt 32 (max (-2 ^ 31) (min (2 ^ 31 - 1) x))

/-- A counter fires: its waiters receive its status, and its bound task becomes ready (06 R160). -/
def State.fire (s : State) (p : Nat) : State :=
  let s := s.wake (fun _ _ w => w == .counter p) ((s.cntStatus p).setWidth 64)
  match Tab.find s.counters p with
  | none => s
  | some who =>
    if s.cntBind p = 0 then s
    else (s.pokeNat (p + 8) 8 0).bound { record := s.cntBind p, who := who }

/-- Whether reading a counter meets an uncorrectable error (06 R145), and its word that does. -/
def State.cntBad (s : State) (p : Nat) : Bool := s.bad p || s.bad (p + 8)
def State.cntError (s : State) (p : Nat) : State := s.noteError (.plain (if s.bad p then p else p + 8))

/-- An update of a live counter: an amount added, flags or errors ored into the status. DESIGN CHOICE (log 115): one whose
words cannot be read stays as it is, and the error is recorded. -/
def State.cntUpdate (s : State) (p : Nat) (d : Int) (or' : BitVec 32) : State :=
  let old := (s.cntValue p).toInt
  let new := clamp32 (old + d)
  if s.cntBad p then s.cntError p else
  let s := (s.pokeNat p 4 new.toNat).pokeNat (p + 4) 4 (s.cntStatus p ||| or').toNat
  if 0 < old && new.toInt ≤ 0 then s.fire p else s

/-- Bits of a counter's status. -/
def statusErr : BitVec 32 := 0x100
def statusPart : BitVec 32 := 0x200
def statusReset : BitVec 32 := 0x400

/-! ### Rings (08 R187 to R194) -/

def RingDesc.count (d : RingDesc) : Nat := d.slots.toNat + 1
def RingDesc.size (d : RingDesc) : Nat := (d.slotsz.toNat + 1) * 64

/-- The virtual address of a slot (08 R187). -/
def RingDesc.addr (d : RingDesc) (i : Nat) : Nat :=
  windowBase + (match d.win.toNat with | 0 => 0 | 1 => 1 | _ => 8) * 2 ^ 32
    + d.offset.toNat + i * d.size

/-- The place of a slot for a core. -/
def RingDesc.place (d : RingDesc) (c i : Nat) : Nat :=
  let off := d.offset.toNat + i * d.size
  match d.win.toNat with
  | 0 => larderAt c off
  | 1 => cellarAt (clusterOf c) off
  | _ => atticAt (dieOf c) off

/-- The scope of a ring: 0 core, 1 cluster, 2 die (08 R190). -/
def RingDesc.scope (d : RingDesc) : Nat := Nat.min d.win.toNat 2

/-- A core's open handle. -/
def Core.ring (c : Core) (q : Nat) : Option Ring := Tab.find c.q q
def Core.setRing (c : Core) (q : Nat) (r : Ring) : Core := { c with q := Tab.put c.q q r }

/-- Whether a parked QWAIT finds its slots, and the address it is given (08 R191). -/
def ringReady (r : Ring) (k : Nat) (free : Bool) : Bool :=
  if free then decide (k ≤ r.desc.count - r.filled) else decide (k ≤ r.filled)
def ringAddr (r : Ring) (free : Bool) : Reg :=
  BitVec.ofNat 64 (r.desc.addr (if free then r.tail else r.head))

/-- A ring changes, and the slots parked on it that find their slots are woken. -/
def State.putRing (s : State) (c q : Nat) (r : Ring) : State :=
  let s := s.setCore c ((s.core c).setRing q r)
  s.mapSlots (fun c' _ x =>
    match x.wait with
    | .ring q' k free =>
      if c' = c && q'.toNat = q && ringReady r k free
      then { x with wait := .ringWoken (ringAddr r free) r.desc.scope } else x
    | _ => x)

/-- k slots filled at the tail, or freed at the head. -/
def Ring.push (r : Ring) (k : Nat) : Ring :=
  { r with tail := (r.tail + k) % r.desc.count, filled := r.filled + k }
def Ring.pop (r : Ring) (k : Nat) : Ring :=
  { r with head := (r.head + k) % r.desc.count, filled := r.filled - k }

/-! ### Locks (10 R261 to R275) -/

/-- Level, tensor, tile and line of a lock name, and whether it is well formed (10 R261). -/
def lockLevel (n : Reg) : Nat := n.toNat / 2 ^ 62
def lockTensor (n : Reg) : Nat := n.toNat / 2 ^ 40 % 2 ^ 20
def lockNameOk (n : Reg) : Bool :=
  n.toNat / 2 ^ 60 % 4 = 0 &&
    match lockLevel n with
    | 0 => n.toNat % 2 ^ 40 = 0
    | 1 => n.toNat % 2 ^ 20 = 0
    | 2 => true
    | _ => false

/-- The parent of a tile or line name. -/
def lockParent (n : Reg) : Reg :=
  let tensor := lockTensor n * 2 ^ 40
  if lockLevel n = 2 then BitVec.ofNat 64 (2 ^ 62 + tensor + n.toNat / 2 ^ 20 % 2 ^ 20 * 2 ^ 20)
  else BitVec.ofNat 64 tensor

/-- The matrix entry for a held and a requested mode (10 R263, R274). -/
def compatible (m : BitVec 36) (held req : BitVec 3) : Bool := m.getLsbD (6 * held.toNat + req.toNat)

def State.matrix (s : State) (vf : BitVec 9) : BitVec 36 := (Tab.get Ngamon.reset s.vfs vf.toNat).matrix

/-- The lock of a name in a virtual function and world; one with no holder and no waiter if none. -/
def State.lockAt (s : State) (vf : BitVec 9) (sec : Bool) (name : Reg) : Lock :=
  (s.locks.find? (fun l => l.vf == vf && l.secure == sec && l.name == name)).getD
    { vf := vf, secure := sec, name := name, holders := [], waiters := [] }

def Lock.same (a b : Lock) : Bool := a.vf == b.vf && a.secure == b.secure && a.name == b.name

/-- A lock put in place of its earlier state; one without holders and waiters is not kept. A revocation
clock runs while the request that wounded waits (10 R267). -/
def State.setLock (s : State) (l : Lock) : State :=
  let rest := s.locks.filter (fun x => !x.same l)
  let runs (r : Revoke) : Bool := !(r.vf == l.vf && r.secure == l.secure && r.name == l.name)
    || l.waiters.any (fun w => w.uid = r.wounder)
  { s with locks := if l.holders = [] && l.waiters = [] then rest else l :: rest
           revokes := s.revokes.filter runs }

/-- Whether a request is grantable (10 R266). -/
def grantable (m : BitVec 36) (l : Lock) (u : LockUser) : Bool :=
  l.holders.all (fun h => h.uid = u.uid || compatible m h.mode u.mode)
    && l.waiters.all (fun w => w.uid = u.uid || !w.age.older u.age || compatible m w.mode u.mode)

/-- A request granted: the requester holds the mode and waits no longer. -/
def Lock.grant (l : Lock) (u : LockUser) : Lock :=
  { l with holders := l.holders.filter (fun h => h.uid ≠ u.uid) ++ [u]
           waiters := l.waiters.filter (fun w => w.uid ≠ u.uid) }

/-- The slot that waits for a name under a uid is woken with a status. -/
def State.wakeLock (s : State) (uid : Nat) (name v : Reg) : State :=
  s.mapSlots (fun _ _ x => match x.task with
    | some t => if t.uid = uid && x.wait == .lock name then { x with wait := .woken v } else x
    | none => x)

/-- Scans of the waiters from the oldest, each up to the first one that is grantable at that point; a grant begins the
next scan. The number bounds the grants (10 R266). -/
def State.scanWaiters (s : State) (m : BitVec 36) : Nat → Lock → State
  | 0, l => s.setLock l
  | n + 1, l =>
    match l.waiters.find? (grantable m l) with
    | some w => State.scanWaiters (s.wakeLock w.uid l.name 0) m n (l.grant w)
    | none => s.setLock l

/-- A lock after a change that may grant waiters. -/
def State.lockChanged (s : State) (l : Lock) : State := s.scanWaiters (s.matrix l.vf) l.waiters.length l

/-- A waiter placed by age, oldest first. -/
def insertWaiter (u : LockUser) : List LockUser → List LockUser
  | [] => [u]
  | w :: t => if u.age.older w.age then u :: w :: t else w :: insertWaiter u t

/-- Every younger holder whose mode conflicts with a waiting request is wounded, once for the request (10 R267). A
wound that is due already is merged with the new one; the clock of each wounder runs by itself. -/
def State.woundFor (s : State) (l : Lock) (u : LockUser) : State :=
  let m := s.matrix l.vf
  let victims := l.holders.filter (fun h =>
    h.uid ≠ u.uid && u.age.older h.age && !compatible m h.mode u.mode
      && !(s.revokes.any (fun r => r.victim = h.uid && r.wounder = u.uid && r.vf == l.vf && r.secure == l.secure && r.name == l.name)))
  victims.foldl (fun s h =>
    let s := s.mapSlots (fun _ _ x => match x.task with
      | some t => if t.uid = h.uid && x.wound = none then { x with wound := some { name := l.name } } else x
      | none => x)
    { s with revokes := s.revokes ++
      [{ victim := h.uid, wounder := u.uid, vf := l.vf, secure := l.secure, name := l.name, age := 0 }] }) s

/-- A waiting request is withdrawn; a holder that waits to upgrade keeps its mode (10 R270, R271). -/
def State.withdraw (s : State) (uid : Nat) : State :=
  (s.locks.filter (fun l => l.waiters.any (fun w => w.uid = uid))).foldl
    (fun s l => s.lockChanged { l with waiters := l.waiters.filter (fun w => w.uid ≠ uid) }) s

/-- A task's hold on a name is dropped. -/
def State.dropLock (s : State) (uid : Nat) (l : Lock) : State :=
  let l := s.lockAt l.vf l.secure l.name
  s.lockChanged { l with holders := l.holders.filter (fun h => h.uid ≠ uid) }

/-- Every lock of a task is dropped, lines first, then tiles, then tensors (10 R272). -/
def State.dropLocks (s : State) (uid : Nat) : State :=
  let held := s.locks.filter (fun l => l.holders.any (fun h => h.uid = uid))
  let level (k : Nat) := held.filter (fun l => lockLevel l.name = k)
  (level 2 ++ level 1 ++ level 0).foldl (fun s l => s.dropLock uid l) s

/-- The mode in which a task holds a name. -/
def Lock.modeOf (l : Lock) (uid : Nat) : Option (BitVec 3) :=
  (l.holders.find? (fun h => h.uid = uid)).map (·.mode)

/-! ### Waystations (10 R248 to R252) -/

/-- The entry of a key at a slice. -/
def State.wayAt (s : State) (slice : Nat) (t : Triple) : Option Waystation :=
  s.waystations.find? (fun e => e.slice = slice && e.triple == t)

/-- An entry replaced by its next state. -/
def State.setWay (s : State) (e : Waystation) : State :=
  { s with waystations := s.waystations.map (fun x =>
      if x.slice = e.slice && x.triple == e.triple then e else x) }

/-! ### The Ngamon blocks (14 Table 14.3) -/

def State.ngamon (s : State) (vf : BitVec 9) : Ngamon := Tab.get Ngamon.reset s.vfs vf.toNat
def State.setNgamon (s : State) (vf : BitVec 9) (n : Ngamon) : State :=
  { s with vfs := Tab.set Ngamon.reset s.vfs vf.toNat n }

end Sys2Proof.Machine
end

