-- ==== Sys2Proof/Machine/Ops.lean ====
section
/-! DEFINITION. The named operations that instructions share: ending a task, fetching, taking a trap and
returning from one, loads, stores and atomics, release and acquire (06 R121 to R145; 09 R236; 10 R250
to R256; 11 R276 to R283, R288; 12 R307, R308). -/

namespace Sys2Proof.Machine

/-! ### The end of a task (09 R236, 10 R254, R256, R272) -/

/-- The step gate of a group for a slot: its object in the cluster of the region's origin (10 R246). -/
def State.gateOf (s : State) (c k : Nat) (group : BitVec 16) : Nat :=
  let r := s.regionOf c k
  barKey (clusterOf (coreAt r.x r.y)) (group.toNat % 1024)

/-- A caravan leaves its waystation entry: whether it leads, and the members gathered there (10 R250). -/
def State.leaveWay (s : State) (c k : Nat) : State × Bool × Members :=
  let x := s.slotAt c k
  let uid := x.runId
  let rec' := (x.task.map (·.addr)).getD 0
  match s.wayAt x.wslice x.triple with
  | none => (s.setSlotAt c k { x with atws := false }, false, 0)
  | some e =>
    let lead := if x.triple.group.getLsbD 15 then e.low == rec' else decide (e.opener = uid)
    let s := s.setWay { e with held := e.held - 1, closed := e.closed || lead }
    (s.setSlotAt c k { x with atws := false }, lead, e.members)

/-- A caravan of a gated group ends: the gate counts one caravan less, and completes if every other one
has arrived (10 R254). -/
def State.leaveGate (s : State) (b : Nat) (arrv : Bool) (gtok : BitVec 32) : State :=
  let x := s.bar b
  if x.n = 0 then s
  else
    let n := x.n - 1
    let a := if arrv && x.gen == gtok then x.a - 1 else x.a
    if n = 0 then s.setBar b Barrier.reset
    else
      let s := s.setBar b { x with n := n, a := a }
      if a = n then s.barPhase b else s

/-- How many FENCE.net a slot has issued; those of the running slot. -/
def State.fenceOf (s : State) (c k : Nat) : Nat := Tab.get 0 (s.core c).fences k
def State.fence (s : State) : Nat := s.fenceOf s.cur.core s.cur.slot

/-- The convoy ports of an ending task emit abort-close markers (09 R244). -/
def State.abortConvoys (s : State) (c k uid : Nat) : State :=
  let mine := (s.core c).ports.filter (fun e => e.2.slot = k && e.2.uid = uid)
  let flits := mine.map (fun e =>
    ({ src := c, slot := k, uid := uid, port := e.1, serial := e.2.serial, dst := e.2.dst, qh := e.2.qh,
       ctr := e.2.ctr, flit := .abort, fence := s.fenceOf c k, secure := s.secureAt c k } : ConvFlit))
  let s := { s with cnet := s.cnet ++ flits }
  s.setCore c { s.core c with ports := (s.core c).ports.filter (fun e => !(e.2.slot = k && e.2.uid = uid)) }

/-- A walk asked for a slot is asked for no longer: its access has been abandoned (15 R374). -/
def State.dropWalks (s : State) (c k : Nat) : State :=
  { s with walks := s.walks.map (fun (e : Nat × List WalkReq) => (e.1, e.2.filter (fun r => !(r.core = c && r.slot = k)))) }

/-- The package without what a slot has done ahead. -/
def State.dropEarly (s : State) (c k : Nat) : State :=
  { s with early := s.early.filter (fun e => !(e.core = c && e.slot = k)) }

/-- What a trap of a slot abandons: its walks, and what it has done ahead for instructions that it does not reach (06
R130, 15 R374). -/
def State.abandon (s : State) (c k : Nat) : State := (s.dropWalks c k).dropEarly c k

/-- The task of a slot ends. An advance that its PUBLISH has begun is left to the interface (06 R162). `kept` says that a yielded caravan takes its place at the gate. -/
def State.endTask (s : State) (c k : Nat) (kept : Bool) : State :=
  let x := s.slotAt c k
  let uid := x.runId
  let s :=
    if x.caravan && x.atws then
      let (t, lead, members) := s.leaveWay c k
      if lead then t.report (slotReport t c k 0x07 0 (x.triple.node.setWidth 64)
          (BitVec.ofNat 64 (x.triple.group.toNat * 2 ^ 32 + x.triple.step.toNat)) members)
      else t
    else s
  let group := if x.met then x.triple.group else x.cvgroup
  let s := if x.caravan && group.getLsbD 15 && !kept then s.leaveGate (s.gateOf c k group) x.arrv x.gtok
    else s
  let s := (s.withdraw uid).abortConvoys c k uid
  let s := (s.dropWalks c k).dropEarly c k
  let s := if x.wait = .publishing then
      let vf := (s.regionOf c k).vf
      s.setNgamon vf { s.ngamon vf with advancing := true }
    else s
  let holds := s.locks.any (fun l => l.holders.any (fun h => h.uid = uid))
  let t := x.task
  let s := if holds then { s with lockDrops := s.lockDrops ++
      [{ uid := uid, core := c, slot := k, root := (t.map (·.root)).getD 0, rid := (t.map (·.rid)).getD 0 }] }
    else s
  s.setSlotAt c k Slot.reset

/-- A slot is killed or halted: the fault domain is told, and its task ends (11 R283). -/
def State.stopTask (s : State) (c k : Nat) (event cause : BitVec 8) (addr data : Reg) : State :=
  (s.report (slotReport s c k event cause addr data 0)).endTask c k false

/-! ### Fetching (03 R63, R64; 05 R120; 15 R370) -/

/-- One parcel of code at an address: `none` waits for a translation, an error is the fault's cause. Whether it waits
at its home as well is `State.codeWaits`'s to say. -/
def State.parcelAt (s : State) (c k : Nat) (find : Nat → Option (Except Cause Tlb)) (a : Nat) :
    Option (Except Cause (Loc × List Byte)) :=
  if windowBase ≤ a then some (.error Cause.fetch)
  else match find a with
  | none => none
  | some (.error e) => some (.error (if e = Cause.data then Cause.fetch else e))
  | some (.ok t) =>
    let l := t.loc a
    if !systemOk (s.secureAt c k) l.place then some (.error Cause.fetch)
    else if !s.granuleOk t.sec l.place then some (.error Cause.secure)
    else if t.ms || storeOf l.place ≠ .hbm then some (.error Cause.fetch)
    else if s.keyGone t.key then some (.error Cause.key)
    else match l1Find (s.core c).l1i (l.place / 128) l.sec with
      | some x => some (.ok (l, (x.bytes.drop (l.place % 128)).take 2))
      | none => if s.homeBad l 2 then some (.error Cause.memory) else some (.ok (l, s.homeBytes l 2))

/-- What fetching the next instruction of a slot comes to. -/
inductive Fetched where
  /-- It waits for a translation of the address. -/
  | wait (addr : Nat)
  /-- It waits at the home of a parcel: for a claim or an epoch, for its line from memory, or for the crossbar. -/
  | held (l : Loc)
  | fault (cause : Cause) (xval : Reg)
  | ok (bytes : List Byte) (locs : List Loc)
  deriving DecidableEq, Repr

/-- Whether a parcel that the instruction cache does not hold waits at its home. -/
def State.codeWaits (s : State) (c k : Nat) (l : Loc) : Bool :=
  (l1Find (s.core c).l1i (l.place / 128) l.sec).isNone
    && (s.waits l 2 || s.mustFill (s.regionOf c k).tenant l 2 || s.mute c l.place)

/-- Parcels from an address on. -/
def State.parcels (s : State) (c k : Nat) (find : Nat → Option (Except Cause Tlb)) :
    Nat → Nat → Fetched
  | 0, _ => .ok [] []
  | n + 1, a =>
    match s.parcelAt c k find a with
    | none => .wait a
    | some (.error e) => .fault e (BitVec.ofNat 64 a)
    | some (.ok (l, bs)) =>
      if s.codeWaits c k l then .held l
      else match s.parcels c k find n (a + 2) with
      | .ok more locs => .ok (bs ++ more) (l :: locs)
      | r => r

/-- The bytes of the instruction at a slot's pc (03 R64). -/
def State.fetch (s : State) (c k : Nat) (find : Nat → Option (Except Cause Tlb)) : Fetched :=
  let pc := (s.slotAt c k).pc
  let a := pc.toNat
  let hi := (s.core c).codehi.toNat
  if 2 ^ 52 ≤ a then .fault Cause.fetchWide pc
  else if windowBase ≤ a || a < (s.core c).codelo.toNat || a % 2 = 1 then .fault Cause.fetch pc
  else if hi < a + 2 then .fault Cause.codeEnd pc
  else
    match s.parcels c k find 1 a with
    | .ok first locs =>
      let len := lengthOf (parcelOf (first.getD 0 0) (first.getD 1 0))
      if hi < a + len then .fault Cause.codeEnd pc
      else
        match s.parcels c k find (len / 2 - 1) (a + 2) with
        | .ok more locs' => .ok (first ++ more) (locs ++ locs')
        | r => r
    | r => r

/-- A slot's own translations: what a walk answered for it, or what the TLBs hold. -/
def State.slotFind (s : State) (c k : Nat) (va : Nat) : Option (Except Cause Tlb) :=
  match (s.slotAt c k).walkFault with
  | some (page, cause) =>
    if page = va / 4096 then some (.error cause)
    else (s.tlbFor c (s.regionOf c k).vf (s.secureAt c k) va).map .ok
  | none => (s.tlbFor c (s.regionOf c k).vf (s.secureAt c k) va).map .ok

/-- Translations found at once, by a walk where the TLBs miss; the walk may have to wait. -/
def State.nowFind (s : State) (c k : Nat) (va : Nat) : Option (Except Cause Tlb) :=
  let r := s.regionOf c k
  let sec := s.secureAt c k
  if s.walkNeeded c r.vf sec va && s.walkStays r.vf sec r.tenant va then none else some (s.translate c r.vf sec va)

/-- The package once such a walk, if one was needed, has read its entries. -/
def State.nowUse (s : State) (c k : Nat) (va : Nat) : State :=
  let r := s.regionOf c k
  let sec := s.secureAt c k
  if s.walkNeeded c r.vf sec va then s.useWalk r.vf sec r.tenant va else s

/-! ### Taking a trap and returning from one (11 R276 to R280, R288) -/

/-- Bits of XCAUSE. -/
def Slot.hnd (x : Slot) : Bool := x.xcause.getLsbD 63
def Slot.nsret (x : Slot) : Bool := x.xcause.getLsbD 61

/-- The slot's commands of the running task that wait in a queue. -/
def pending (q : List Cmd) (k uid : Nat) : Nat := (q.filter (fun m => m.slot = k && m.uid = uid)).length

/-- An address as XPC, XBASE, CODELO, CODEHI and SMCBASE hold it (11 Table 11.4). -/
def addrField (v : Reg) : Reg := v &&& 0x000FFFFFFFFFFFFE#64

/-- XCAUSE as a trap writes it (11 Table 11.1). -/
def trapCause (x : Slot) (q : Core) (k : Nat) (cause : Cause) (prior : Cause) : Reg :=
  let uid := x.runId
  let flags : BitVec 3 := (1 : BitVec 1) ++ BitVec.ofBool x.hnd ++ BitVec.ofBool (cause == Cause.smc)
  flags ++ (0 : BitVec 8) ++ BitVec.ofNat 5 (pending q.mixq k uid) ++ (0 : BitVec 3)
    ++ BitVec.ofNat 5 (pending q.dataq k uid) ++ (0 : BitVec 24) ++ prior ++ cause

/-- XSTAT as a trap writes it (11 Table 11.3). -/
def trapStat (x : Slot) (q : Core) : Reg := x.mqseq ++ q.mrseq ++ x.dqseq ++ q.drseq

/-- The slot's registers as a trap leaves them. -/
def trapSlot (x : Slot) (q : Core) (k : Nat) (cause : Cause) (xval xpc : Reg) : Slot :=
  { x with
    xcause := trapCause x q k cause 0
    xval := xval
    xpc := addrField xpc
    xstat := trapStat x q
    pc := if cause = Cause.smc then q.smcbase else q.xbase
    smc := x.smc || cause == Cause.smc
    wait := .none
    latched := none
    copied := none
    walkFault := none
    entering := none
    budgetDue := x.budgetDue && cause != Cause.budget
    wound := if cause = Cause.wound then none else x.wound }

/-- What the fetch of the first handler instruction comes to: none while it waits, else whether it faults. The page at
SMCBASE is secure (11 R290). -/
def State.handlerFaults (s : State) (c k : Nat) (cause : Cause) : Option Bool :=
  match s.fetch c k (s.slotFind c k) with
  | .fault _ _ => some true
  | .ok _ locs => some (cause == Cause.smc && !(locs.all (·.sec)))
  | .wait _ | .held _ => none

/-- A fault in the fetch of a handler's first instruction halts the slot: the trap's cause becomes PRIOR (11 R280). -/
def State.doubleFault (s : State) (c k : Nat) (prior : Cause) : State :=
  let x := s.slotAt c k
  (s.setSlotAt c k { x with xcause := x.xcause.extractLsb' 16 48 ++ prior ++ Cause.double }).stopTask c k 0x03
    Cause.double x.xpc (prior.setWidth 64)

/-- A memory error or a key fault is also recorded where it was met (12 R306, R319, R322): at the place that was
read, in the word of the cellar that a decoding window shows, or at the table entry that stopped the walk (15 R369). -/
def State.noteFault (s : State) (c k : Nat) (cause : Cause) (xval : Reg) : State :=
  if cause ≠ Cause.memory && cause ≠ Cause.key then s
  else if windowBase ≤ xval.toNat then
    match s.window c (s.secureAt c k) .load xval.toNat 1 with
    | .ok (.at' l) => s.noteError l
    | .ok (.decoded win off) =>
      (((List.range 64).flatMap (fun i => s.aliasPlaces c win (off + i))).find? s.bad).elim s (fun p => s.noteError (.plain p))
    | _ => s
  else
    let vf := (s.regionOf c k).vf
    match s.translate c vf (s.secureAt c k) xval.toNat with
    | .ok t => if cause = Cause.key then s.faqAdd 5 (t.loc xval.toNat).place else s.noteError (t.loc xval.toNat)
    | .error _ =>
      if cause = Cause.memory then ((s.walkError vf (s.secureAt c k) xval.toNat).map s.noteError).getD s else s

/-- Taking a trap is one step (11 R280). A parked wait is abandoned, and a waiting lock request is
withdrawn. A fault in the fetch of the handler's first instruction halts the slot, now or once that fetch no longer
waits. The handler context of MSGH takes no trap: it keeps the cause for its handler fault (09 R232). -/
def State.takeTrap (s : State) (c k : Nat) (cause : Cause) (xval xpc : Reg) : State :=
  let x := s.slotAt c k
  let s := match x.wait with
    | .lock _ => s.withdraw x.runId
    | _ => s
  let y := trapSlot x (s.core c) k cause xval xpc
  let t := ((s.noteFault c k cause xval).abandon c k).setSlotAt c k y
  if 8 ≤ k then t
  else match t.handlerFaults c k cause with
    | some false => t
    | some true => t.doubleFault c k cause
    | none => t.setSlotAt c k { y with entering := some cause }

/-- The running slot takes a synchronous trap at its instruction. -/
def State.trapHere (s : State) (cause : Cause) (xval : Reg) : State :=
  s.takeTrap s.cur.core s.cur.slot cause xval s.base

/-- The return from a handler (11 R288). The slot leaves the secure world where an SMC brought it in. -/
def State.leaveHandler (s : State) : State :=
  let x := s.me
  s.setMe { x with
    xcause := x.xcause &&& 0x1FFFFFFFFFFFFFFF#64
    smc := x.smc && !x.nsret
    pc := x.xpc }

/-! ### Illegal instructions (03 R67) -/

/-- XVAL of an illegal-instruction trap: the word decoded, the dictionary code it came from, and the
index of the first illegal word of a command. -/
def illegalXval (code : Option (BitVec 16)) (w : Word) (idx : Nat) : Reg :=
  BitVec.ofNat 64 (idx % 8 * 2 ^ 49
    + (match code with | some n => 2 ^ 48 + n.toNat * 2 ^ 32 | none => 0) + w.toNat)

/-- The word that an instruction was decoded from; a command's is its header. -/
def wordOfInstr (i : Instr) : Word :=
  match i with
  | .engineQueueEntry h _ _ _ _ _ _ _ => cmdHeader h
  | _ => (encodeWord i).getD 0

/-- The index of the first illegal word of a command. -/
def illegalIndex (i : Instr) : Nat :=
  match i with
  | .engineQueueEntry h w1 w2 w3 w4 w5 w6 w7 => (cmdIllegal (cmdHeader h) w1 w2 w3 w4 w5 w6 w7).getD 0
  | _ => 0

/-- The running slot takes an illegal-instruction trap at an instruction. -/
def State.illegal (s : State) (i : Instr) : State :=
  s.trapHere Cause.illegal (illegalXval s.cur.code (wordOfInstr i) (illegalIndex i))

/-! ### Running an instruction -/

abbrev Outcome := Host.Outcome State Fault Refusal

/-- Why an instruction does not complete: it stalls and is tried again, or it takes a trap. -/
inductive Stop where
  | stall
  | trap (cause : Cause) (xval : Reg)
  deriving DecidableEq, Repr

/-- The work of an instruction: it may stop, and what it has done by then stays done. -/
abbrev Act := ExceptT Stop (StateM State)

def Act.stall {α : Type} : Act α := throw .stall
def Act.trap {α : Type} (cause : Cause) (xval : Reg) : Act α := throw (.trap cause xval)

/-- The illegal-instruction trap of an instruction's own rules. -/
def Act.illegal {α : Type} (i : Instr) : Act α := do
  let s ← get
  Act.trap Cause.illegal (illegalXval s.cur.code (wordOfInstr i) (illegalIndex i))

/-- The running slot keeps the instruction that it has decoded, until it goes on with it (01 R21, 03 R64). -/
def State.latch (s : State) (i : Instr) : State :=
  s.setMe { s.me with latched := some { instr := i, len := s.cur.len, code := s.cur.code } }

/-- What the work of an instruction comes to: the next state of the slot. Where it stalls or parks, it keeps the
instruction. -/
def Act.next (a : Act Unit) (i : Instr) (s : State) : State :=
  match a s with
  | (.ok _, t) => if t.me.wait = .none then t else t.latch i
  | (.error .stall, t) => t.latch i
  | (.error (.trap cause xval), t) => t.trapHere cause xval

/-- An instruction that only changes registers, and goes on at the next one. -/
def simple (i : Instr) (f : State → State) (s : State) : Outcome :=
  if legal i then .next (f s).adv else .next (s.illegal i)

/-- An instruction of a slot. The status with which the slot was woken, if it was, is handed to it. -/
def runWith (i : Instr) (a : Option Reg → Act Unit) (s : State) : Outcome :=
  if legal i then
    match s.me.wait with
    | .none => .next ((a none).next i s)
    | .woken v => .next ((a (some v)).next i s.unpark)
    | _ => .next ((a none).next i s.unpark)
  else .next (s.illegal i)

/-- An instruction whose waits need no status. -/
def run (i : Instr) (a : Act Unit) (s : State) : Outcome := runWith i (fun _ => a) s

/-- The slot goes on at the next instruction. -/
def Act.done : Act Unit := modify State.adv

/-- A result is written and the slot goes on. -/
def Act.result (d : BitVec 5) (v : Reg) : Act Unit := modify (fun s => (s.setG d v).adv)

/-- The slot parks; its instruction is not done. -/
def Act.park (w : Wait) : Act Unit := modify (fun s => s.park w)

/-- The request leaves the cluster for a slice, when the crossbar takes it (14 R345, R347). -/
def Act.crossing : Act Unit := do
  let s ← get
  if s.silent s.cur.core then Act.stall else pure ()

/-! ### Release and acquire (06 R136, R137) -/

/-- The narrowest scope that contains two cores. -/
def scopeBetween (a b : Nat) : Nat :=
  if a = b then 0 else if clusterOf a = clusterOf b then 1 else if dieOf a = dieOf b then 2 else 3

/-- The package that a header with REMOTE names, and the scope in which the target of a message lies. -/
def Message.package (m : Message) : Nat := m.header.toNat / 2 ^ 51 % 2 ^ 12
def Message.scope (m : Message) (pkg : BitVec 12) : Nat :=
  if m.header.getLsbD 63 && m.package ≠ pkg.toNat then 4 else scopeBetween m.src m.dst

/-- Every message of this package that is not yet acknowledged. -/
def State.undelivered (s : State) : List Message :=
  (s.net ++ s.remote ++ s.cores.flatMap (fun e => e.2.inbox)).filter (fun m => m.pkg.isNone)

/-- Whether a release of a slot at a scope is complete (06 R136). Loads and operations on objects are
performed when their instruction completes. -/
def State.released (s : State) (c k sc : Nat) : Bool :=
  (s.core c).sb.all (fun e => e.slot ≠ k || sc < homeScope c (e.block * 64))
    && s.undelivered.all (fun m => !(m.src = c && m.slot = k) || sc < m.scope s.package)
    && s.posted.all (fun p => !(p.src = c && p.slot = k) || sc < homeScope c p.place)
    && s.nnet.all (fun e => !(e.src = c && e.slot = k) || sc < scopeBetween e.src e.dst)
    && s.cnet.all (fun f => !(f.src = c && f.slot = k) || sc < scopeBetween c f.dst)
    && s.claims.all (fun q => q.recorded || !(q.core = c && q.slot = k) || sc < homeScope c (q.line * 128))

/-- The slot stalls until its release at a scope is complete. -/
def Act.release (sc : Nat) : Act Unit := do
  let s ← get
  if s.released s.cur.core s.cur.slot sc then pure () else Act.stall

/-- An acquire of a slot at a scope: the slot reads afresh; at cluster or wider, attic lines and lines of writable pages
leave the L1, and so does what any slot of the core has read ahead from such a line. -/
def State.acquire (s : State) (c k sc : Nat) : State :=
  if sc = 0 then s.dropEarly c k
  else
    let kept (e : Early) : Bool := e.core ≠ c || !e.l1 || (e.ro && storeOf e.place ≠ .attic)
    let t : State := { s.dropEarly c k with early := (s.dropEarly c k).early.filter kept }
    t.setCore c { t.core c with l1 := (t.core c).l1.filter (fun x => x.ro && storeOf (x.line * 128) ≠ .attic) }

def Act.acquire (sc : Nat) : Act Unit := modify (fun s => s.acquire s.cur.core s.cur.slot sc)

/-! ### Resolving addresses -/

/-- A walk is asked for, once, at the die of the core (15 R372, R373). -/
def State.askWalk (s : State) (c k va : Nat) (fetch : Bool) : State :=
  let d := dieOf c
  let q := Tab.get [] s.walks d
  let r : WalkReq := { core := c, slot := k, vf := (s.regionOf c k).vf, secure := s.secureAt c k,
                       page := va / 4096, fetch := fetch }
  if q.contains r || Config.walkQueueSize ≤ q.length then s
  else { s with walks := Tab.set [] s.walks d (q ++ [r]) }

/-- A translation that the L2 TLB gave enters the L1 TLB (15 R372). -/
def State.keepTlb (s : State) (c k va : Nat) : State :=
  let vf := (s.regionOf c k).vf
  let sec := s.secureAt c k
  match findTlb (s.core c).tlbs vf sec va with
  | some _ => s
  | none =>
    match s.tlbFor c vf sec va with
    | some t => s.putTlb c t
    | none => s

/-- The package once an address is translated: the core's TLB holds the translation (15 R372), or a walk at once has read
its entries. -/
def State.resolved (s : State) (c k va : Nat) : State :=
  if windowBase ≤ va then s else if k < 8 then s.keepTlb c k va else s.nowUse c k va

/-- What an address names, for an access of n bytes: rows 1 to 6 of Table 6.1. -/
def Act.resolve (use : Use) (va : Reg) (n al : Nat) : Act Target := do
  let s ← get
  let c := s.cur.core
  let k := s.cur.slot
  match s.check (s.who c k) (if k < 8 then s.slotFind c k else s.nowFind c k) use va n al with
  | none => do
    if k < 8 then set (s.askWalk c k va.toNat false)
    Act.stall
  | some (.error e) => do
    if 8 ≤ k && va.toNat % al = 0 then set (s.nowUse c k va.toNat)
    Act.trap e va
  | some (.ok t) => do
    set (s.resolved c k va.toNat)
    pure t

/-! ### Loads (06 R125 to R130) -/

/-- A line leaves a core's L1 (06 R126). -/
def State.dropLine (s : State) (c line : Nat) : State :=
  s.setCore c { s.core c with l1 := (s.core c).l1.filter (fun x => x.line ≠ line) }

/-- The lines of an L1 cache with one more: in the place of an older copy of it, or of one of the eight lines of its set
(12 R304). -/
def fillSet (ls : List L1Line) (x : L1Line) (choice : Nat) : List L1Line :=
  let rest := ls.filter (fun y => !(y.line = x.line && y.secure == x.secure))
  let mates := rest.filter (fun y => Config.l1Set y.line % 32 = Config.l1Set x.line % 32)
  x :: (if mates.length < 8 then rest else rest.filter (fun y => some y ≠ mates[choice]?))

/-- A line enters a core's L1, as its home gives it. A line with an error is not kept. -/
def State.fillL1 (s : State) (c : Nat) (l : Loc) : State :=
  let line := l.place / 128
  let at0 := { l with place := line * 128 }
  if s.homeBad at0 128 then s
  else
    let x : L1Line := { line := line, bytes := s.homeBytes at0 128, ro := l.ro, secure := l.sec }
    let d := s.choose 8
    d.2.setCore c { d.2.core c with l1 := fillSet (d.2.core c).l1 x d.1 }

/-- Whether the L1 may hold a location (06 R126). -/
def Loc.cacheable (l : Loc) : Bool :=
  match storeOf l.place with
  | .attic => true
  | .hbm => !l.ms
  | _ => false

/-- A line is asked for, and the slot waits for its fill (12 R308). -/
def State.missLine (s : State) (c k : Nat) (l : Loc) : State :=
  let t := s.askLine (s.regionOf c k).tenant l
  t.setSlotAt c k { t.slotAt c k with wait := .fill (s.homeSlice l.place) (l.place / 128) }

/-- The place that stands for an offset of a decoding window among what is read ahead. -/
def windowPlace (win off : Nat) : Nat := 2 ^ 60 + win * 2 ^ 32 + off

/-- Whether bytes read ahead are a slot's and overlap a stretch. -/
def Early.on (e : Early) (c k p n : Nat) : Bool :=
  e.core = c && e.slot = k && e.inv.isNone && decide (e.place < p + n) && decide (p < e.place + e.bytes.length)

/-- Whether bytes read ahead may show the same words as a stretch does through another window: those of a core's own
cellar, raw or decoded. -/
def Early.shows (e : Early) (c k p : Nat) : Bool :=
  let raw (p : Nat) : Bool := decide (storeOf p = .cellar) && cellarCluster p = clusterOf c
  e.core = c && e.slot = k && e.inv.isNone && (if 2 ^ 60 ≤ p then raw e.place || (decide (2 ^ 60 ≤ e.place) && decide (e.place / 2 ^ 32 ≠ p / 2 ^ 32))
    else raw p && decide (2 ^ 60 ≤ e.place))

/-- The package without what a slot has read ahead of a stretch, by whatever window. -/
def State.unread (s : State) (c k p n : Nat) : State :=
  { s with early := s.early.filter (fun e => !(e.on c k p n || e.shows c k p)) }

/-- A load of n bytes answered by what was read ahead for it. -/
def State.ahead (s : State) (c k : Nat) (l : Loc) (n : Nat) (cached : Bool) : Option (List Byte) :=
  (s.early.find? (fun e => e.core = c && e.slot = k && e.place = l.place && e.bytes.length = n && e.secure == l.sec
    && e.ldf != cached && e.inv.isNone && !e.lost)).map (·.bytes)

/-- Whether a slot's access to a stretch was lost on its way (14 R358). -/
def State.lostAhead (s : State) (c k p n : Nat) : Bool := s.early.any (fun e => e.lost && e.on c k p n)

/-- Bytes of a location as its home gives them to a slot: in host memory, its function's buffered bytes over them (14
R353). -/
def State.homeGives (s : State) (c k : Nat) (l : Loc) (n : Nat) : List Byte :=
  if storeOf l.place = .host then s.overPub (s.regionOf c k).vf l.place (s.homeBytes l n) else s.homeBytes l n

/-- Bytes of a location, read for a slot from the L1 when it may be used, else from the home. -/
def Act.readLoc (l : Loc) (va : Reg) (n : Nat) (cached : Bool) : Act (List Byte) := do
  let s ← get
  let c := s.cur.core
  let k := s.cur.slot
  let own (s : State) (bs : List Byte) : List Byte := forward (s.core c).sb k l.place bs
  if s.lostAhead c k l.place n then Act.trap Cause.link va
  let hit := if cached && l.cacheable then l1Find (s.core c).l1 (l.place / 128) l.sec else none
  match s.ahead c k l n cached, hit with
  | some bs, _ => do
    let s := s.unread c k l.place n
    set (if l.cacheable && !cached then s.dropLine c (l.place / 128) else s)
    pure (own s bs)
  | none, some x => do
    set (s.unread c k l.place n)
    pure (own s ((x.bytes.drop (l.place % 128)).take n))
  | none, none =>
    if s.waits l n || s.mute c l.place then Act.stall
    else match s.readable c (.at' l) n with
      | .error e => Act.trap e va
      | .ok _ =>
        if s.mustFill (s.regionOf c k).tenant l n then do
          set (s.missLine c k l)
          Act.stall
        else do
          let s := (s.useHome l).unread c k l.place n
          let bs := s.homeGives c k l n
          let s := if l.cacheable then
              (if cached then s.fillL1 c l else s.dropLine c (l.place / 128)) else s
          set s
          pure (own s bs)

/-- The bytes that a decoding window shows the running slot. -/
def State.aliasBytes (s : State) (win off n : Nat) : List Byte :=
  (List.range n).map (fun i => s.aliasByte s.cur.core (some s.cur.slot) s.here.lut win (off + i))

/-- Bytes of a decoding window loaded by the running slot: those read ahead, or as the cellar has them. -/
def Act.readWindow (win off n : Nat) (cached : Bool) : Act (List Byte) := do
  let s ← get
  let p := windowPlace win off
  set (s.unread s.cur.core s.cur.slot p n)
  pure ((s.ahead s.cur.core s.cur.slot (.plain p) n cached).getD (s.aliasBytes win off n))

/-- Bytes loaded from a virtual address, by LD's rules or, without the L1, by LDF's. -/
def Act.load (va : Reg) (n al : Nat) (cached : Bool) : Act (List Byte) := do
  match ← Act.resolve .load va n al with
  | .decoded win off => do
    let s ← get
    if (s.ahead s.cur.core s.cur.slot (.plain (windowPlace win off)) n cached).isSome then Act.readWindow win off n cached
    else match s.readable s.cur.core (.decoded win off) n with
    | .error e => Act.trap e va
    | .ok _ => Act.readWindow win off n cached
  | .at' l => Act.readLoc l va n cached

/-! ### Stores (06 R131 to R133) -/

/-- An entry of the store buffer takes more bytes. -/
def putBlock (t : Tab Byte) (p : Nat) : List Byte → Tab Byte
  | [] => t
  | b :: r => putBlock (Tab.put t (p % 64) b) (p + 1) r

/-- The last entry of a slot for a block takes the bytes, if it may; else a new entry is made. -/
def sbAdd (e : SbEntry) (p : Nat) (bs : List Byte) (sb : List SbEntry) : List SbEntry :=
  match (sb.filter (fun x => x.slot = e.slot && x.block = e.block)).getLast? with
  | some x =>
    if x = { e with bytes := x.bytes, va := x.va } && x.va.toNat / 4096 = e.va.toNat / 4096 then
      sb.map (fun y => if y = x then { x with bytes := putBlock x.bytes p bs } else y)
    else sb ++ [{ e with bytes := putBlock [] p bs }]
  | none => sb ++ [{ e with bytes := putBlock [] p bs }]

/-- The package after bytes written by the running slot to a location: at once in its larder, else in
the store buffer. They lie in one aligned block of 64 bytes. -/
def State.putStore (s : State) (l : Loc) (va : Reg) (bs : List Byte) : State :=
  let c := s.cur.core
  let s := s.unread c s.cur.slot l.place bs.length
  if storeOf l.place = .larder then (s.dropEarly c s.cur.slot).poke l.place bs
  else
    let t := s.me.task
    let e : SbEntry :=
      { slot := s.cur.slot, uid := s.uid, fence := s.fence, block := l.place / 64, bytes := [],
        ms := l.ms, key := l.key, va := va, root := (t.map (·.root)).getD 0,
        rid := (t.map (·.rid)).getD 0, vf := s.region.vf, tenant := s.region.tenant, secure := l.sec,
        route := if storeOf l.place = .remote then s.routeTo (remotePackage l.place) else 0 }
    let s := s.dropLine c (l.place / 128)
    s.setCore c { s.core c with sb := sbAdd e l.place bs (s.core c).sb }

/-- Several stores, none of which is made unless the store buffer has room for all (06 R122, R132). -/
def Act.storeAll (ws : List (Loc × Reg × List Byte)) : Act Unit := do
  let s ← get
  let t := ws.foldl (fun s w => s.putStore w.1 w.2.1 w.2.2) s
  if Config.storeBufferSize < (t.core t.cur.core).sb.length then Act.stall
  else set t

/-- The location of a store of n bytes. -/
def Act.storeLoc (va : Reg) (n al : Nat) : Act Loc := do
  match ← Act.resolve .store va n al with
  | .decoded _ _ => Act.trap Cause.data va
  | .at' l => pure l

/-- Bytes stored at a virtual address. -/
def Act.store (va : Reg) (al : Nat) (bs : List Byte) : Act Unit := do
  let l ← Act.storeLoc va bs.length al
  Act.storeAll [(l, va, bs)]

/-! ### Atomics (06 R140 to R145) -/

/-- Buffered bytes of a word of host memory leave a function's publication buffer: an atomic comes after them in
the word's order and has written over them (06 R124, R144; 14 R353; log 89). -/
def State.unbuffer (s : State) (vf : BitVec 9) (p n : Nat) : State :=
  { s with pub := s.pub.map (fun e => if e.vf == vf && e.line = p / 128
      then { e with bytes := e.bytes.filter (fun b => !(p % 128 ≤ b.1 && b.1 < p % 128 + n)) } else e) }

/-- Whether the home of a place is neither the core's larder nor its own cellar (06 R139). -/
def networkHome (c p : Nat) : Bool :=
  match storeOf p with
  | .larder => false
  | .cellar => decide (cellarCluster p ≠ clusterOf c)
  | _ => true

/-- A network write of the slot before its last FENCE.net is still to be performed (06 R139). -/
def State.fenceHolds (s : State) (c k fence : Nat) : Bool :=
  (s.core c).sb.any (fun e => e.slot = k && e.fence < fence && networkHome c (e.block * 64))
    || s.posted.any (fun p => p.src = c && p.slot = k && p.fence < fence)
    || s.undelivered.any (fun m => m.src = c && m.slot = k && m.fence < fence)
    || s.nnet.any (fun e => e.src = c && e.slot = k && e.fence < fence)
    || s.cnet.any (fun f => f.src = c && f.slot = k && f.fence < fence)

/-- Whether a FENCE.net holds back a write at a place: it is a network write, and an earlier one of the slot is
still to be performed (06 R139). -/
def State.fenceHoldsAt (s : State) (c k fence p : Nat) : Bool :=
  networkHome c p && s.fenceHolds c k fence

/-- A write at a place waits for the network writes before the slot's last FENCE.net. -/
def Act.fenced (p : Nat) : Act Unit := do
  let s ← get
  if s.fenceHoldsAt s.cur.core s.cur.slot s.fence p then Act.stall else pure ()

/-- An atomic of n bytes at an address: a release at its scope, the old bytes read and the new ones
written as one step at the home, and an acquire (06 R143, R144). -/
def Act.atomic (va : Reg) (n sc : Nat) (f : Nat → Option Nat) : Act Nat := do
  match ← Act.resolve .atomic va n n with
  | .decoded _ _ => Act.trap Cause.data va
  | .at' l => do
    Act.release sc
    let s ← get
    let c := s.cur.core
    let k := s.cur.slot
    if s.lostAhead c k l.place n then Act.trap Cause.link va
    else if (s.core c).sb.any (fun e => e.slot = k && e.block = l.place / 64)
      || s.fenceHoldsAt c k s.fence l.place || s.waits l n || s.mute c l.place then Act.stall
    else match s.readable c (.at' l) n with
      | .error e => Act.trap e va
      | .ok _ =>
        if s.mustFill (s.regionOf c k).tenant l n then do
          set (s.missLine c k l)
          Act.stall
        else do
        let s := s.useHome l
        let host := decide (storeOf l.place = .host)
        let vf := (s.regionOf c k).vf
        let bs := s.homeBytes l n
        let old := leNat (if host then s.overPub vf l.place bs else bs)
        let s := match f old with
          | some v => (if host then s.unbuffer vf l.place n else s).homeWrite l (s.regionOf c k).tenant (bytesOfNat n v)
          | none => s
        set ((s.dropLine c (l.place / 128)).acquire c k sc)
        pure old

end Sys2Proof.Machine
end

