-- ==== Sys2Proof/Machine/Operands.lean ====
section
/-! DEFINITION. Operand forms: immediates, bit fields, lanes of vector registers, masks (01 R13 to R15,
03 R69, 02 Table 2.1). -/

namespace Sys2Proof.Machine

/-! ### Scalars -/

/-- An immediate field, sign-extended to a register (03 R69). -/
def sx {n : Nat} (x : BitVec n) : Reg := x.signExtend 64

/-- A register's low n bits, sign- or zero-extended. -/
def sext64 (n : Nat) (x : Nat) : Reg := BitVec.ofInt 64 (intOf true n x)
def zext64 (n : Nat) (x : Nat) : Reg := BitVec.ofNat 64 (x % 2 ^ n)

/-- The branch offset: off[5:1] in the low field, off[15:6] in the high one (03 Table 3.3). -/
def braOff (lo : BitVec 5) (hi : BitVec 10) : Reg := sx (hi ++ lo ++ (0 : BitVec 1))

/-- The jump offset: off[20:1] (03 Table 3.3). -/
def jmpOff (o : BitVec 20) : Reg := sx (o ++ (0 : BitVec 1))

/-- The store offset: imm[4:0] in the low field, imm[11:5] in the high one (06 R131). -/
def stiOff (lo : BitVec 5) (hi : BitVec 7) : Reg := sx (hi ++ lo)

/-- The number that a truth value is written as. -/
def flag (b : Bool) : Reg := if b then 1 else 0

/-! ### Lanes (01 R14, R15) -/

/-- Element i of width w of a vector. -/
def lane (w : Nat) (x : Vec) (i : Nat) : Nat := x.toNat / 2 ^ (w * i) % 2 ^ w

/-- Element i of width w replaced. -/
def setLane (w : Nat) (x : Vec) (i v : Nat) : Vec :=
  let m := (BitVec.ofNat 512 (2 ^ w - 1)) <<< (w * i)
  (x &&& ~~~m) ||| ((BitVec.ofNat 512 (v % 2 ^ w)) <<< (w * i))

/-- How many lanes of a width a vector has. -/
def lanes (w : Nat) : Nat := 512 / w

/-- Whether a mask lets a lane take part. -/
def active (m : Reg) (i : Nat) : Bool := m.getLsbD i

/-- A vector whose lanes of width w are given by their index. -/
def ofLanes (w : Nat) (xs : List Nat) : Vec :=
  BitVec.ofNat 512 (xs.foldr (fun v acc => v % 2 ^ w + 2 ^ w * acc) 0)

/-- The lanes of a vector, lowest first. -/
def toLanes (w : Nat) (x : Vec) : List Nat := (List.range (lanes w)).map (lane w x)

/-- A vector with the lanes that a mask selects taken from new values. -/
def maskLanes (w : Nat) (m : Reg) (old : Vec) (new : Nat → Nat) : Vec :=
  ofLanes w ((List.range (lanes w)).map (fun i => if active m i then new i else lane w old i))

/-- The bytes of a vector, lane 0 at the lowest address, and a vector of bytes. -/
def vecBytes (x : Vec) : List Byte := bytesOfNat 64 x.toNat
def ofBytes (bs : List Byte) : Vec := BitVec.ofNat 512 (leNat bs)

end Sys2Proof.Machine
end

