-- ==== Sys2Proof/Machine/Flags.lean ====
section
/-! DEFINITION. The sticky flags and the rounding source: how a computation that raises flags or draws
random bits acts on FSTAT and on the core's LFSR (02 R52, R53; 05 R115). -/

namespace Sys2Proof.Machine

/-- What a computation starts from: no flag raised, the core's LFSR. -/
def State.fp (s : State) : Fp := { flags := 0, lfsr := s.here.lfsr }

/-- Flags are ored into the slot's FSTAT, and the core's LFSR moves on. -/
def State.settle (s : State) (f : Fp) : State :=
  let s := if f.lfsr = s.here.lfsr then s else s.setHere { s.here with lfsr := f.lfsr }
  s.setMe { s.me with fstat := s.me.fstat ||| f.flags }

/-- A computation over lanes in ascending order, from one lane's flags and bits to the next. -/
def eachLane {α : Type} (f : Nat → Fp → α × Fp) : List Nat → Fp → List α × Fp
  | [], fp => ([], fp)
  | i :: t, fp =>
    let r := f i fp
    let rest := eachLane f t r.2
    (r.1 :: rest.1, rest.2)

/-! ### Trees and folds (02 R60, R61) -/

/-- One level of a tree: adjacent values combined, the lower as the left operand. -/
def pairUp {α : Type} (f : α → α → Fp → α × Fp) (e : α) : List α → Fp → List α × Fp
  | [], fp => ([], fp)
  | [x], fp => ([(f x e fp).1], (f x e fp).2)
  | x :: y :: t, fp =>
    let r := f x y fp
    let rest := pairUp f e t r.2
    (r.1 :: rest.1, rest.2)

/-- The tree over values, padded with identities to a power of two. The number bounds the levels. -/
def treeOf {α : Type} (f : α → α → Fp → α × Fp) (e : α) : Nat → List α → Fp → α × Fp
  | _, [], fp => (e, fp)
  | _, [x], fp => (x, fp)
  | 0, x :: _, fp => (x, fp)
  | n + 1, xs, fp => treeOf f e n (pairUp f e xs fp).1 (pairUp f e xs fp).2

/-- A left fold of values. -/
def foldFp {α : Type} (f : α → α → Fp → α × Fp) (x : α) : List α → Fp → α × Fp
  | [], fp => (x, fp)
  | y :: t, fp => foldFp f (f x y fp).1 t (f x y fp).2

/-- The sum of two elements at a node of a reduction: rounded to nearest even with a canonical NaN, or
an integer that wraps (02 R61). -/
def sumNode (t : BitVec 5) (x y : Nat) (fp : Fp) : Nat × Fp :=
  if isFloat t then
    let r := fadd t 0 x y fp
    (if (val t r.1).isNan then canonNan t else r.1, r.2)
  else ((x + y) % 2 ^ typeWidth t, fp)

/-- The identity of addition: -0, or 0 (02 R60). -/
def sumIdentity (t : BitVec 5) : Nat := if isFloat t then signBit t else 0

end Sys2Proof.Machine
end

