-- ==== Sys2Proof/Machine/Lanes.lean ====
section
/-! DEFINITION. Accesses of many lanes (06 Table 6.1, 07 R168 to R172, 10 R260): every lane is checked
before any is performed, row by row of the table, and within a row the lowest lane first. -/

namespace Sys2Proof.Machine

/-- The row of Table 6.1 in which a check of an address failed with a cause. -/
def State.rowOf (s : State) (w : Who) (use : Use) (va : Reg) (al : Nat) (cause : Cause) : Nat :=
  let a := va.toNat
  if 2 ^ 52 ≤ a then 1
  else if a % al ≠ 0 then 2
  else if cause = Cause.secure then 5
  else if cause = Cause.key then 6
  else if windowBase ≤ a then 3
  else match s.translate w.core w.vf w.sec a with
    | .ok t => if use.writes && t.ro then 4 else 3
    | .error _ => 4

/-- The entry of the lowest row, the first of them; the list is not empty. -/
def lowestRow : Nat × Cause × Reg → List (Nat × Cause × Reg) → Nat × Cause × Reg
  | x, [] => x
  | x, y :: t => lowestRow (if y.1 < x.1 then y else x) t

/-- What the addresses of lanes name, each for n bytes with an alignment. Once a walk has found a fault
for the slot, the other translations are found at once, so that the first row decides. -/
def Act.resolveLanes (use : Use) (vas : List Reg) (n al : Nat) : Act (List Target) := do
  let s ← get
  let c := s.cur.core
  let k := s.cur.slot
  let w := s.who c k
  let find (a : Nat) : Option (Except Cause Tlb) :=
    if k < 8 then
      match s.slotFind c k a with
      | some r => some r
      | none => if (s.slotAt c k).walkFault.isNone then none else s.nowFind c k a
    else s.nowFind c k a
  let rs := vas.map (fun va => (va, s.check w find use va n al))
  match rs.find? (fun r => r.2.isNone) with
  | some r => do
    if k < 8 && (s.slotAt c k).walkFault.isNone then set (s.askWalk c k r.1.toNat false)
    Act.stall
  | none =>
    let bad := rs.filterMap (fun r => match r.2 with
      | some (.error e) => some (s.rowOf w use r.1 al e, e, r.1)
      | _ => none)
    match bad with
    | x :: t => do
      let y := lowestRow x t
      set (vas.foldl (fun s va => if va.toNat % al = 0 then s.nowUse c k va.toNat else s) s)
      Act.trap y.2.1 y.2.2
    | [] => do
      set (vas.foldl (fun s va => s.resolved c k va.toNat) s)
      pure (rs.filterMap (fun r => match r.2 with
        | some (.ok t) => some t
        | _ => none))

/-- Whether a load of a target of n bytes would be answered in the core: by what the slot has read ahead, or by the L1. -/
def State.l1Answers (s : State) (c k n : Nat) : Target → Bool
  | .at' l => (s.ahead c k l n true).isSome || (l.cacheable && (l1Find (s.core c).l1 (l.place / 128) l.sec).isSome)
  | .decoded win off => (s.ahead c k (.plain (windowPlace win off)) n true).isSome

/-- Rows 7 and 8 for the lanes of a load. -/
def State.lanesReadable (s : State) (c k : Nat) (ts : List (Reg × Target)) (n : Nat) : Option (Cause × Reg) :=
  let bad := ts.filterMap (fun r =>
    let lost := match r.2 with
      | .at' l => s.lostAhead c k l.place n
      | .decoded _ _ => false
    if lost then some (8, Cause.link, r.1)
    else if s.l1Answers c k n r.2 then none
    else match s.readable c r.2 n with
      | .error e => some (if e = Cause.memory then 7 else 8, e, r.1)
      | .ok _ => none)
  match bad with
  | [] => none
  | x :: t => some (lowestRow x t).2

/-- The bytes of a target of a load by LD's rules. -/
def Act.readTarget (va : Reg) (n : Nat) : Target → Act (List Byte)
  | .decoded win off => Act.readWindow win off n true
  | .at' l => Act.readLoc l va n true

/-- Whether a load of a target waits at its home, or for the crossbar (06 R128, R150; 14 R347). -/
def State.targetWaits (s : State) (c k n : Nat) (t : Target) : Bool :=
  match t with
  | .at' l => !s.l1Answers c k n t && (s.waits l n || s.mute c l.place)
  | .decoded _ _ => false

/-- The values of lanes loaded from addresses, n bytes each. -/
def Act.loadLanes (vas : List Reg) (n al : Nat) : Act (List Nat) := do
  let ts ← Act.resolveLanes .load vas n al
  let s ← get
  if ts.any (s.targetWaits s.cur.core s.cur.slot n) then Act.stall
  else match s.lanesReadable s.cur.core s.cur.slot (vas.zip ts) n with
  | some e => Act.trap e.1 e.2
  | none => (vas.zip ts).mapM (fun r => do
      let bs ← Act.readTarget r.1 n r.2
      pure (leNat bs))

/-- Lanes stored at addresses, n bytes each, as one store: all of them enter the store buffer or none. -/
def Act.storeLanes (xs : List (Reg × Nat)) (n al : Nat) : Act Unit := do
  let ts ← Act.resolveLanes .store (xs.map (·.1)) n al
  let ws := (xs.zip ts).filterMap (fun r => match r.2 with
    | .at' l => some (l, r.1.1, bytesOfNat n r.1.2)
    | .decoded _ _ => none)
  Act.storeAll ws

end Sys2Proof.Machine
end

