-- ==== Sys2Proof/Machine/Caravan.lean ====
section
/-! DEFINITION. Caravans, membership and the manifest (10 R245 to R260). -/

namespace Sys2Proof.Machine

/-! ### MEET and DEPART (10 R248 to R252) -/

/-- An instruction for caravans only (01 R17). -/
def Act.caravan (i : Instr) : Act Unit := do
  let s ← get
  if s.me.caravan then pure () else Act.illegal i

/-- The address of a node: rows 1, 3, 4 and 5 of Table 6.1 for one byte, in plain memory of this package
that is not memory-side. -/
def Act.node (va : Reg) : Act Loc := do
  let s ← get
  let c := s.cur.core
  let k := s.cur.slot
  let find (a : Nat) : Option (Except Cause Tlb) :=
    (s.slotFind c k a).map (fun r => r.map (fun t => { t with key := 0 }))
  match s.check (s.who c k) find .load va 1 1 with
  | none => do
    set (s.askWalk c k va.toNat false)
    Act.stall
  | some (.error e) => Act.trap e va
  | some (.ok (.decoded _ _)) => Act.trap Cause.data va
  | some (.ok (.at' l)) =>
    if l.ms || storeOf l.place ≠ .hbm then Act.trap Cause.data va
    else do
      set (s.keepTlb c k va.toNat)
      pure l

/-- An entry that may be freed (10 R252). -/
def Waystation.spent (e : Waystation) : Bool := e.closed && e.held = 0

/-- A spent entry of a unit goes, to make room; which one, where there are several, is open. -/
def State.freeWay (s : State) (slice : Nat) : State :=
  match s.waystations.filter (fun e => e.slice = slice && e.spent) with
  | [] => s
  | e :: t =>
    let r := s.choose (t.length + 1)
    let gone := (e :: t).getD r.1 e
    { r.2 with waystations := r.2.waystations.filter (fun x => !(x.slice = slice && x.triple == gone.triple)) }

/-- The unit's step of a MEET: its status, and the package after it (10 R249, R252). -/
def State.meetAt (s : State) (slice : Nat) (t : Triple) (mb : Members) (rec' : Reg) (uid : Nat) : Reg × State :=
  let old (e : Waystation) : Bool := e.slice = slice && e.spent && e.triple.vf == t.vf
    && e.triple.secure == t.secure && e.triple.group == t.group && e.triple.step < t.step
  let s := { s with waystations := s.waystations.filter (fun e => !old e) }
  match s.wayAt slice t with
  | some e =>
    if e.closed then (2, s)
    else (1, s.setWay { e with members := e.members ||| mb, low := if rec' < e.low then rec' else e.low
                               held := e.held + 1 })
  | none =>
    let full (s : State) : Bool :=
      Config.waystationSize ≤ (s.waystations.filter (fun e => e.slice = slice)).length
    let s := if full s then s.freeWay slice else s
    if full s then (3, s)
    else (0, { s with waystations := s.waystations ++
      [{ slice := slice, triple := t, members := mb, low := rec', opener := uid, held := 1, closed := false }] })

/-- The address of the running task's record, as g3 held it at dispatch (10 R245). -/
def State.recordAddr (s : State) : Reg := match s.me.task with
  | some t => t.addr
  | none => 0

/-- MEET (10 R249). The waystation units are the slices', which a cluster without a turn of the crossbar does not reach (14
R347). -/
def execMeet (d a : BitVec 5) (s : State) : Outcome :=
  run (.meet d a) (do
    Act.caravan (.meet d a)
    let s ← get
    if s.me.atws || s.me.met then Act.illegal (.meet d a)
    else do
      let l ← Act.node (s.g a)
      Act.release 3
      let s ← get
      let x := s.me
      let node : BitVec 52 := (s.g a).setWidth 52
      let step := x.cvstep + 1
      let t : Triple := { vf := s.region.vf, secure := s.secure, group := x.cvgroup, node := node, step := step }
      if s.silent s.cur.core then Act.stall
      let slice := s.homeSlice l.place
      let r := s.meetAt slice t x.mb s.recordAddr s.uid
      set (r.2.setMe { x with cvstep := step, cvnode := node, triple := t, wslice := slice, atws := r.1 ≤ 1
                              met := x.cvgroup.getLsbD 15, passed := false })
      Act.result d r.1) s

/-- DEPART (10 R250). -/
def execDepart (d : BitVec 5) (s : State) : Outcome :=
  run (.depart d) (do
    Act.caravan (.depart d)
    let s ← get
    let x := s.me
    if !x.atws || (x.triple.group.getLsbD 15 && !x.passed) then Act.illegal (.depart d)
    else if s.silent s.cur.core then Act.stall
    else do
      let r := s.leaveWay s.cur.core s.cur.slot
      let t := r.1
      if r.2.1 then do
        set (t.setMe { t.me with mb := r.2.2 })
        Act.acquire 3
        Act.result d 0
      else do
        set (t.setMe { t.me with mb := 0 })
        Act.result d 1) s

/-! ### Step gates (10 R253 to R255) -/

/-- The address of a group's step gate (10 R246). -/
def gateAddr (group : BitVec 16) : Reg := BitVec.ofNat 64 (0xFFF3000000000 + 64 * (group.toNat % 1024))

/-- The caravan has its gate behind it. -/
def Slot.leftGate (x : Slot) (passed : Bool) : Slot := { x with met := false, arrv := false, passed := passed }

/-- GATE acts on the group of the arrival (10 R245, R253). -/
def execGate (d : BitVec 5) (s : State) : Outcome :=
  runWith (.gate d) (fun woken => do
    Act.caravan (.gate d)
    let s ← get
    let group := s.me.triple.group
    let b := s.gateOf s.cur.core s.cur.slot group
    let complete : Act Unit := do
      modify (fun s => s.setMe (s.me.leftGate true))
      Act.acquire 3
      Act.result d 0
    match woken with
    | some v =>
      if v = 0 then complete
      else do
        set (s.setMe (s.me.leftGate false))
        if d = 0 then Act.trap Cause.barrier (gateAddr group) else Act.result d 1
    | none =>
      if !s.me.cvgroup.getLsbD 15 || !s.me.met then Act.illegal (.gate d)
      else if (s.bar b).n = 0 then Act.trap Cause.data (gateAddr group)
      else do
        if !s.me.arrv then do
          Act.release 3
          let s ← get
          let t := s.setMe { s.me with arrv := true, gtok := (s.bar b).gen }
          set (t.barArrive b)
        let s ← get
        if (s.bar b).gen ≠ s.me.gtok then complete
        else Act.park (.barrier b)) s

/-! ### SPLIT (10 R257) -/

/-- The record of the child. -/
def State.childRecord (s : State) (entry : Reg) (go : Members) : Record :=
  let x := s.me
  let noSteal : BitVec 16 := match x.task with
    | some t => t.flags &&& 2
    | none => 0
  { entry := entry.setWidth 32, flags := 1 ||| noSteal, group := x.cvgroup
    ts := (x.task.map (·.ts)).getD 0, rid := (x.task.map (·.rid)).getD 0
    args := [x.cvnode.setWidth 64, (s.g 31).setWidth 32 ++ x.cvstep,
             go.setWidth 64, (go >>> 64).setWidth 64, (go >>> 128).setWidth 64, (go >>> 192).setWidth 64] }

/-- The end of a SPLIT, once its release is complete: the entry, the gate's count, the push. -/
def Act.pushChild (d : BitVec 5) (addr : Reg) (r : Record) (stay : Members) : Act Unit := do
  let s ← get
  if Config.dequeSize ≤ s.here.deque.length then Act.result d 4
  else do
    let group := s.me.cvgroup
    if group.getLsbD 15 then do
      let b := s.gateOf s.cur.core s.cur.slot group
      let x := s.bar b
      if x.n = 0 then Act.trap Cause.data (gateAddr group)
      else set (s.setBar b { x with n := x.n + 1 })
    modify (fun s => s.pushDeque s.cur.core r addr ((s.me.task.map (·.root)).getD 0))
    modify (fun s => s.setMe { s.me with mb := stay, mt := 0 })
    Act.result d (2 ||| flag (stay != 0))

/-- SPLIT (10 R257). Its record is written once; a slot that waits for the release is marked. -/
def execSplit (d a b : BitVec 5) (s : State) : Outcome :=
  let written := s.me.wait = .split
  run (.split d a b) (do
    Act.caravan (.split d a b)
    let s ← get
    let x := s.me
    let stay := x.mb &&& x.mt
    let go := x.mb &&& ~~~x.mt
    if x.atws then Act.illegal (.split d a b)
    else if 2 ^ 32 ≤ (s.g 31).toNat then Act.trap Cause.data (s.g 31)
    else if go = 0 then do
      set (s.setMe { x with mb := stay, mt := 0 })
      Act.result d (flag (stay != 0))
    else if !written && Config.dequeSize ≤ s.here.deque.length then Act.result d 4
    else do
      let r := s.childRecord (s.g b) go
      if !written then Act.store (s.g a) 64 r.bytes
      let s ← get
      if s.released s.cur.core s.cur.slot 3 then Act.pushChild d (s.g a) r stay
      else do
        set (s.setMe { s.me with wait := .split })
        Act.stall) s

/-! ### Membership (10 R258) -/

/-- The four doublewords of a membership in memory. -/
def memberAddrs (va : Reg) : List Reg := (List.range 4).map (fun i => va + BitVec.ofNat 64 (8 * i))

/-- The alignment of a membership in memory, checked before what is behind the address. -/
def Act.memberAligned (va : Reg) : Act Unit :=
  if va.toNat < 2 ^ 52 && va.toNat % 32 ≠ 0 then Act.trap Cause.data va else pure ()

/-- MBLD (10 R258). -/
def execMbld (a : BitVec 5) (s : State) : Outcome :=
  run (.mbld a) (do
    let s ← get
    Act.memberAligned (s.g a)
    let xs ← Act.loadLanes (memberAddrs (s.g a)) 8 8
    modify (fun s => s.setMe { s.me with mb := (ofLanes 64 xs).setWidth 256 })
    Act.done) s

/-- MBST (10 R258). -/
def execMbst (a : BitVec 5) (s : State) : Outcome :=
  run (.mbst a) (do
    let s ← get
    Act.memberAligned (s.g a)
    Act.storeLanes ((memberAddrs (s.g a)).zip (toLanes 64 (s.me.mb.setWidth 512))) 8 8
    Act.done) s

/-- MBAND (10 R258). -/
def execMband (s : State) : Outcome :=
  simple .mband (fun s => s.setMe { s.me with mb := s.me.mb &&& s.me.mt }) s

/-- MBOR (10 R258). -/
def execMbor (s : State) : Outcome :=
  simple .mbor (fun s => s.setMe { s.me with mb := s.me.mb ||| s.me.mt }) s

/-- MBANDN (10 R258). -/
def execMbandn (s : State) : Outcome :=
  simple .mbandn (fun s => s.setMe { s.me with mb := s.me.mb &&& ~~~s.me.mt }) s

/-- The members, lowest first. -/
def membersOf (mb : Members) : List Nat := (List.range 256).filter (fun i => mb.getLsbD i)

/-- MBPOP (10 R258). -/
def execMbpop (d : BitVec 5) (s : State) : Outcome :=
  simple (.mbpop d) (fun s => s.setG d (BitVec.ofNat 64 (membersOf s.me.mb).length)) s

/-- MBFST (10 R258). -/
def execMbfst (d : BitVec 5) (s : State) : Outcome :=
  simple (.mbfst d) (fun s => s.setG d (BitVec.ofNat 64 ((membersOf s.me.mb).headD 256))) s

/-- MBNXT (10 R258). -/
def execMbnxt (d a : BitVec 5) (s : State) : Outcome :=
  simple (.mbnxt d a) (fun s => s.setG d
    (BitVec.ofNat 64 (((membersOf s.me.mb).find? (fun i => decide ((s.g a).toNat < i))).getD 256))) s

/-- Bits from lo on of a membership, w of them, replaced. -/
def putMembers (mt : Members) (lo w : Nat) (x : Nat) : Members :=
  let m : Members := BitVec.ofNat 256 (2 ^ w - 1) <<< lo
  (mt &&& ~~~m) ||| (BitVec.ofNat 256 (x % 2 ^ w) <<< lo)

/-- MTSET: a mask taken as a test of a piece of the membership (10 R258). -/
def execMtset (a h : BitVec 5) (k : BitVec 3) (s : State) : Outcome :=
  simple (.mtset a h k) (fun s =>
    let x := s.me
    let lo := 32 * k.toNat + if h = 2 then 16 else 0
    let w := if h = 0 then 32 else 16
    s.setMe { x with mt := putMembers x.mt lo w ((s.p a.toNat).toNat &&& (x.mb.toNat / 2 ^ lo)) }) s

/-! ### The manifest (10 R259, R260) -/

/-- Fields of a control word (10 Table 10.4). -/
def mfType (x : Reg) : BitVec 5 := x.extractLsb' 32 5
def mfHalf (x : Reg) : Bool := x.getLsbD 40
def mfRow (x : Reg) : Nat := 4 * (x.toNat / 2 ^ 16 % 2 ^ 12)
def mfCol (x : Reg) : Nat := x.toNat % 2 ^ 16

/-- A control word that the manifest instructions do not take. -/
def mfBad (x : Reg) : Bool :=
  let t := mfType x
  let w := typeWidth t / 8
  2 ^ 41 ≤ x.toNat || x.toNat / 2 ^ 37 % 8 ≠ 0 || x.toNat / 2 ^ 28 % 16 ≠ 0
    || !(t ≤ 5 || (8 ≤ t && t ≤ 10)) || mfRow x = 0 || mfCol x % w ≠ 0 || mfRow x < mfCol x + w
    || (mfHalf x && w < 4)

/-- The lanes that take part, each with the address of its member's field. -/
def State.mfLanes (s : State) (a b : BitVec 5) (k : BitVec 3) : List (Nat × Reg) :=
  let x := s.g b
  let wide := typeWidth (mfType x) = 32
  let start := 32 * k.toNat + if mfHalf x then 16 else 0
  ((List.range (if wide then 16 else 32)).filter (fun i => s.me.mb.getLsbD (start + i))).map (fun i =>
    (i, s.g a + (s.g 31 + BitVec.ofNat 64 (start + i)) * BitVec.ofNat 64 (mfRow x) + BitVec.ofNat 64 (mfCol x)))

/-- A control word checked. -/
def Act.manifest (b : BitVec 5) : Act Unit := do
  let s ← get
  if mfBad (s.g b) then Act.trap Cause.data (s.g b) else pure ()

/-- MFLD (10 R260). -/
def execMfld (v a b : BitVec 5) (k : BitVec 3) (s : State) : Outcome :=
  run (.mfld v a b k) (do
    Act.manifest b
    let s ← get
    let w := typeWidth (mfType (s.g b))
    let ls := s.mfLanes a b k
    let xs ← Act.loadLanes (ls.map (·.2)) (w / 8) (w / 8)
    modify (fun s => s.setV v ((ls.zip xs).foldl
      (fun (y : Vec) (e : (Nat × Reg) × Nat) => setLane w y e.1.1 e.2) (s.v v)))
    Act.done) s

/-- MFST (10 R260). -/
def execMfst (v a b : BitVec 5) (k : BitVec 3) (s : State) : Outcome :=
  run (.mfst v a b k) (do
    Act.manifest b
    let s ← get
    let w := typeWidth (mfType (s.g b))
    Act.storeLanes ((s.mfLanes a b k).map (fun e => (e.2, lane w (s.v v) e.1))) (w / 8) (w / 8)
    Act.done) s

/-- The sum of a field and a lane: an integer wraps, a floating sum rounds to nearest even (10 R260). -/
def mfSum (t : BitVec 5) (x y : Nat) (fp : Fp) : Nat × Fp :=
  if isFloat t then fadd t 0 x y fp else ((x + y) % 2 ^ typeWidth t, fp)

/-- MFADD: a load and then a store for each lane (10 R260). -/
def execMfadd (v a b : BitVec 5) (k : BitVec 3) (s : State) : Outcome :=
  run (.mfadd v a b k) (do
    Act.manifest b
    let s ← get
    let t := mfType (s.g b)
    let w := typeWidth t
    let ls := s.mfLanes a b k
    let _ ← Act.resolveLanes .store (ls.map (·.2)) (w / 8) (w / 8)
    let xs ← Act.loadLanes (ls.map (·.2)) (w / 8) (w / 8)
    let s ← get
    let both := ls.zip xs
    let r := eachLane (fun i fp => match both[i]? with
      | some e => mfSum t e.2 (lane w (s.v v) e.1.1) fp
      | none => (0, fp)) (List.range both.length) s.fp
    Act.storeLanes ((ls.map (·.2)).zip r.1) (w / 8) (w / 8)
    modify (fun s => s.settle r.2)
    Act.done) s

end Sys2Proof.Machine
end

