-- ==== Sys2Proof/Machine/Control.lean ====
section
/-! DEFINITION. Control transfer (05 R117 to R120). A transfer is complete before its target is fetched;
a target that cannot be fetched faults as the next instruction. -/

namespace Sys2Proof.Machine

/-- The running slot goes on at an address if a condition holds, else at the next instruction. -/
def State.branch (s : State) (taken : Bool) (target : Reg) : State :=
  if taken then s.goto target else s.adv

/-- A branch: it writes no register (05 R117). -/
def branchOp (i : Instr) (p a b : BitVec 5) (o : BitVec 10) (c : Reg → Reg → Bool) (s : State) : Outcome :=
  if legal i then .next (s.branch (c (s.g a) (s.g b)) (s.base + braOff p o)) else .next (s.illegal i)

/-- BEQ (05 R117). -/
def execBeq (p a b : BitVec 5) (o : BitVec 10) (s : State) : Outcome :=
  branchOp (.beq p a b o) p a b o (fun x y => x == y) s

/-- BNE (05 R117). -/
def execBne (p a b : BitVec 5) (o : BitVec 10) (s : State) : Outcome :=
  branchOp (.bne p a b o) p a b o (fun x y => x != y) s

/-- BLT, of signed values (05 R117). -/
def execBlt (p a b : BitVec 5) (o : BitVec 10) (s : State) : Outcome :=
  branchOp (.blt p a b o) p a b o (fun x y => x.slt y) s

/-- BGE, of signed values (05 R117). -/
def execBge (p a b : BitVec 5) (o : BitVec 10) (s : State) : Outcome :=
  branchOp (.bge p a b o) p a b o (fun x y => !x.slt y) s

/-- BLTU, of unsigned values (05 R117). -/
def execBltu (p a b : BitVec 5) (o : BitVec 10) (s : State) : Outcome :=
  branchOp (.bltu p a b o) p a b o (fun x y => decide (x < y)) s

/-- BGEU, of unsigned values (05 R117). -/
def execBgeu (p a b : BitVec 5) (o : BitVec 10) (s : State) : Outcome :=
  branchOp (.bgeu p a b o) p a b o (fun x y => !decide (x < y)) s

/-- LOOP: the count less one is written, and the branch taken while it is not zero. LOOP of g0 always
branches (05 R118). -/
def execLoop (p a : BitVec 5) (o : BitVec 10) (s : State) : Outcome :=
  .next ((s.setG a (s.g a - 1)).branch (s.g a - 1 != 0) (s.base + braOff p o))

/-- JAL (05 R119). -/
def execJal (d : BitVec 5) (o : BitVec 20) (s : State) : Outcome :=
  .next ((s.setG d s.after).goto (s.base + jmpOff o))

/-- JALR: the register is read before the link is written; bit 0 of the target is cleared (05 R119). -/
def execJalr (d a : BitVec 5) (i : BitVec 15) (s : State) : Outcome :=
  .next ((s.setG d s.after).goto ((s.g a + sx i) &&& 0xFFFFFFFFFFFFFFFE#64))

end Sys2Proof.Machine
end

