-- ==== Sys2Proof/Machine/Sync.lean ====
section
/-! DEFINITION. Reduction epochs, barriers, counters and publication (06 R146 to R162; 02 R61; 14 R353,
R360). -/

namespace Sys2Proof.Machine

/-! ### Reduction epochs (06 R146 to R150) -/

/-- What holds an epoch: the home slice of its base, or the base die of a memory-side one (12 R315). -/
def State.epochHome (s : State) (base : Nat) (ms : Bool) : Nat :=
  if ms then 4096 + stackOf base else s.homeSlice base

/-- The sum of values by the tree over lanes, or over the declared cores of a die. -/
def sumTree (t : BitVec 5) (xs : List Nat) : Nat :=
  (treeOf (sumNode t) (sumIdentity t) 12 xs { flags := 0, lfsr := 1 }).1

/-- The sum of two values at one node. -/
def sumTwo (t : BitVec 5) (x y : Nat) : Nat := (sumNode t x y { flags := 0, lfsr := 1 }).1

/-- What one core contributed to an element, in its program order, if anything. -/
def Epoch.fromCore (e : Epoch) (elem core : Nat) : Option Nat :=
  match (e.contributions.filter (fun q => q.core = core)).flatMap
      (fun q => (q.parts.filter (fun p => p.1 = elem)).map (fun p => p.2.toNat)) with
  | [] => none
  | x :: t => some (t.foldl (sumTwo e.type) x)

/-- A core id put in its place in an ascending list. -/
def insertCore (c : Nat) : List Nat → List Nat
  | [] => [c]
  | d :: t => if c ≤ d then c :: d :: t else d :: insertCore c t

/-- What a die contributes to an element: a tree over its declared cores, ascending. -/
def Epoch.fromDie (e : Epoch) (elem die : Nat) : Nat :=
  let mine := (e.declared.filter (fun c => dieOf c = die)).foldr insertCore []
  sumTree e.type (mine.map (fun c => (e.fromCore elem c).getD (sumIdentity e.type)))

/-- What an epoch adds to an element: the die results folded in ascending die number. -/
def Epoch.total (e : Epoch) (elem : Nat) : Nat :=
  ([1, 2, 3].map (e.fromDie elem)).foldl (sumTwo e.type) (e.fromDie elem 0)

/-- Whether any lane contributed to an element. -/
def Epoch.touched (e : Epoch) (elem : Nat) : Bool :=
  e.contributions.any (fun q => q.parts.any (fun p => p.1 = elem))

/-- The location of an element. -/
def Epoch.loc (e : Epoch) (elem : Nat) : Loc :=
  { place := e.base + elem * (typeWidth e.type / 8), ms := e.ms, ro := false, sec := e.secure, key := e.key }

/-- The epoch is no longer open. -/
def State.dropEpoch (s : State) (e : Epoch) : State :=
  { s with epochs := s.epochs.filter (fun x => x.base ≠ e.base) }

/-- One element of an epoch that applies: read at its home and rewritten with the old value as the left operand of the
final node. One that meets an error, or whose key has gone, stays as it is, and its line is recorded, once (06 R145, 12
R306, R320, R322; 15 R382). DESIGN CHOICE (log 116): the fault domain of the epoch's root is told of a failed write, of
block 0. -/
def State.applyElem (e : Epoch) (x : State × List Nat) (i : Nat) : State × List Nat :=
  let w := typeWidth e.type / 8
  let l := e.loc i
  let tenant := (x.1.regionBy e.root 0).tenant
  let line := l.place / 128
  if x.1.keyGone e.key || x.1.homeBad l w then
    if x.2.contains line then x
    else
      let cause : Cause := if x.1.keyGone e.key then Cause.key else Cause.memory
      let s := x.1.noteAt l
      (s.report (regionReport s e.root 0 0x04 cause 0 (BitVec.ofNat 64 (l.place % 2 ^ 56)) 0 0), line :: x.2)
  else
    let s := x.1.useRun tenant l w
    (s.homeWrite l tenant (bytesOfNat w (sumTwo e.type (leNat (s.homeBytes l w)) (e.total i))), x.2)

/-- The epoch applies: each touched element is rewritten (06 R149). -/
def State.applyEpoch (s : State) (e : Epoch) : State :=
  (((List.range e.n).filter e.touched).foldl (State.applyElem e) (s, [])).1.dropEpoch e

/-- Whether a core's close is the last, and whether an element that it then rewrites waits for its line (12 R308). -/
def Epoch.lastClose (e : Epoch) (core : Nat) : Bool :=
  e.declared.contains core && !e.closed.contains core && e.declared.length = e.p && e.closed.length + 1 = e.p
def State.applyWaits (s : State) (e : Epoch) : Bool :=
  ((List.range e.n).filter e.touched).any (fun i =>
    s.fillWaits (s.regionBy e.root 0).tenant (e.loc i) (typeWidth e.type / 8))

/-- Fields of the control word (06 Table 6.10). -/
def redClose (x : Reg) : Bool := x.getLsbD 63
def redP (x : Reg) : Nat := x.toNat / 2 ^ 32 % 2 ^ 13
def redType (x : Reg) : BitVec 5 := x.extractLsb' 16 5
def redN (x : Reg) : Nat := x.toNat % 2 ^ 12 + 1

/-- A control word that no epoch takes. -/
def redBad (x : Reg) : Bool :=
  x.toNat / 2 ^ 45 % 2 ^ 18 ≠ 0 || x.toNat / 2 ^ 21 % 2 ^ 11 ≠ 0 || x.toNat / 2 ^ 12 % 2 ^ 4 ≠ 0
    || !isWide (redType x) || (!redClose x && (redP x = 0 || 4096 < redP x))

/-- The bytes of the range that a control word names. -/
def redBytes (x : Reg) : Nat := redN x * (typeWidth (redType x) / 8)

/-- The status of a RED.DECL, and the package after it (06 R147; log 33). -/
def State.redDecl (s : State) (core root : Nat) (l : Loc) (leaves : Bool) (x : Reg) : Nat × State :=
  let there := s.epochs.find? (fun e => e.base = l.place)
  if redBad x || leaves then (2, s)
  else if redClose x && redP x = 0 then
    match there with
    | some e => if e.n ≠ redN x || e.type ≠ redType x then (2, s) else (0, s.dropEpoch e)
    | none => (3, s)
  else
    match there with
    | some e =>
      if e.n ≠ redN x || e.type ≠ redType x || e.p ≠ redP x then (2, s)
      else if redClose x then
        if !e.declared.contains core || e.closed.contains core then (3, s)
        else
          let e' := { e with closed := e.closed ++ [core] }
          let s := { s with epochs := s.epochs.map (fun y => if y.base = e.base then e' else y) }
          (0, if e'.declared.length = e.p && e'.closed.length = e.p then s.applyEpoch e' else s)
      else if e.declared.contains core || e.p ≤ e.declared.length then (3, s)
      else (0, { s with epochs := s.epochs.map (fun y =>
        if y.base = e.base then { e with declared := e.declared ++ [core] } else y) })
    | none =>
      if redClose x then (3, s)
      else if 2 ≤ (s.epochs.filter (fun e =>
          s.epochHome e.base e.ms = s.epochHome l.place l.ms)).length then (1, s)
      else if s.inEpoch l.place (redBytes x) then (2, s)
      else (0, { s with epochs := s.epochs ++
        [{ base := l.place, type := redType x, n := redN x, p := redP x, declared := [core], closed := [],
           contributions := [], root := root, ms := l.ms, key := l.key, secure := l.sec }] })

/-- The log2 of the page of an address, for the check that a range stays in it. -/
def State.pageSize (s : State) (c k va : Nat) : Nat :=
  match s.tlbFor c (s.regionOf c k).vf (s.secureAt c k) va with
  | some t => 2 ^ t.lg
  | none => 4096

/-- Whether a held write is a contribution. -/
def PostedOp.adds : PostedOp → Bool
  | .add _ _ => true
  | _ => false

/-- RED_DECL (06 R146, R147). DEDUCED (log 90): it writes nothing itself, so its base is checked as a load's is, and
a read-only page is refused to RED_ADD, which is the reduction of row 4 of Table 6.1. -/
def execRedDecl (d a b : BitVec 5) (s : State) : Outcome :=
  run (.redDecl d a b) (do
    let s ← get
    let va := s.g a
    if windowBase ≤ va.toNat && va.toNat < 2 ^ 52 then Act.trap Cause.data va
    else match ← Act.resolve .load va 1 128 with
    | .decoded _ _ => Act.trap Cause.data va
    | .at' l => do
      if storeOf l.place ≠ .hbm then Act.trap Cause.data va
      else do
        let s ← get
        let c := s.cur.core
        let k := s.cur.slot
        let page := s.pageSize c k va.toNat
        if s.mute c l.place || redClose (s.g b) && (s.posted.any (fun q => q.src = c && q.op.adds)
          || s.epochs.any (fun e => e.base = l.place && e.lastClose c && s.applyWaits e)) then Act.stall
        let root := (s.me.task.map (·.root)).getD 0
        let r := s.redDecl c root l (page < va.toNat % page + redBytes (s.g b)) (s.g b)
        set r.2
        Act.result d (BitVec.ofNat 64 r.1)) s

/-- The epoch that takes a lane of RED.ADD: one over the place that the core has declared and not closed. -/
def State.epochFor (s : State) (core place : Nat) : Option Epoch :=
  s.epochs.find? (fun e => e.base ≤ place && place < e.base + e.bytes
    && e.declared.contains core && !e.closed.contains core)

/-- The address of a lane of RED.ADD. -/
def redAddr (a : Reg) (idx : Vec) (i : Nat) : Reg := a + BitVec.ofNat 64 (lane 32 idx i)

/-- The epoch and the element of each unmasked lane, lowest lane first, or the address of the first one at fault:
one outside the core's epochs, in another epoch than the lanes before it, or of another type (06 R148). -/
def State.redLanes (s : State) (t : BitVec 5) : List (Nat × Reg × Target) → Option Nat → Except Reg (List (Nat × Nat × Nat))
  | [], _ => .ok []
  | (_, va, .decoded _ _) :: _, _ => .error va
  | (i, va, .at' l) :: rest, base =>
    match s.epochFor s.cur.core l.place with
    | none => .error va
    | some e =>
      if e.type ≠ t || base.any (fun x => x ≠ e.base) then .error va
      else (s.redLanes t rest (some e.base)).map ((i, e.base, (l.place - e.base) / (typeWidth t / 8)) :: ·)

/-- A contribution takes its place in the epoch at a base. -/
def State.contribute (s : State) (base : Nat) (q : Contribution) : State :=
  { s with epochs := s.epochs.map (fun (e : Epoch) =>
      if e.base = base then { e with contributions := e.contributions ++ [q] } else e) }

/-- Whether a write held at a core's interface comes before another of the core: to the same epoch, or to a counter in the
same line (02 R61, 14 R349). -/
def Posted.before (p : Posted) (core place : Nat) (op : PostedOp) : Bool :=
  p.src = core && match p.op, op with
    | .add base _, .add base' _ => decide (base = base')
    | .add _ _, _ | _, .add _ _ => false
    | _, _ => decide (p.place / 128 = place / 128)

/-- Whether the interface holds a write of the running slot: an earlier network write before the slot's last FENCE.net is
still to be performed (06 R139), the crossbar takes nothing from the cluster (14 R347), or an earlier write of the core
to the epoch or the line is held (14 R349). -/
def State.postHeld (s : State) (place : Nat) (op : PostedOp) : Bool :=
  s.fenceHoldsAt s.cur.core s.cur.slot s.fence place || s.mute s.cur.core place
    || s.posted.any (fun p => p.before s.cur.core place op)

/-- The register that the reply of a held write fills. -/
def PostedOp.reply : PostedOp → List (BitVec 5)
  | .cntAdd d _ | .cntInit d _ _ => if d = 0 then [] else [d]
  | _ => []

/-- A write of the running slot: performed at once, or held at the interface; then the slot goes on, and waits for a
reply only where it names its register. -/
def State.post (s : State) (va : Reg) (place : Nat) (op : PostedOp) (now : State → State) : State :=
  if s.postHeld place op then
    let t : State := { s with posted := s.posted ++
      [{ src := s.cur.core, slot := s.cur.slot, uid := s.uid, fence := s.fence, place := place, op := op
         va := va, vf := s.region.vf }] }
    if op.reply = [] then t else t.setMe { s.me with owed := s.me.owed ++ op.reply }
  else now s

/-- A write of the running slot to a counter waits for the earlier writes of its core to the line that the interface holds
(14 R349). -/
def Act.unposted (place : Nat) : Act Unit := do
  let s ← get
  if s.posted.any (fun p => p.before s.cur.core place .sig) then Act.stall else pure ()

/-- The contribution of one RED.ADD: for each target element, the tree over all lanes, in which the
lanes that do not name it are the identity (06 R148). -/
def contribution (t : BitVec 5) (v : Vec) (ls : List (Nat × Nat × Nat)) : List (Nat × Reg) :=
  let w := typeWidth t
  ((ls.map (fun x => x.2.2)).eraseDups).map (fun elem =>
    (elem, BitVec.ofNat 64 (sumTree t ((List.range (lanes w)).map (fun i =>
      if ls.any (fun x => x.1 = i && x.2.2 = elem) then lane w v i else sumIdentity t)))))

/-- RED_ADD (06 R148). -/
def execRedAdd (d a b : BitVec 5) (p : BitVec 3) (t : BitVec 5) (s : State) : Outcome :=
  run (.redAdd d a b p t) (do
    let s ← get
    let idx := (List.range (lanes (typeWidth t))).filter (fun i => active (s.p p.toNat) i)
    let vas := idx.map (redAddr (s.g a) (s.v b))
    let w := typeWidth t / 8
    let ts ← Act.resolveLanes .atomic vas w w
    let s' ← get
    match s'.redLanes t (idx.zip (vas.zip ts)) none with
    | .error va => Act.trap Cause.data va
    | .ok [] => Act.done
    | .ok ((i, base, e) :: ls) => do
      let q : Contribution := { core := s'.cur.core, parts := contribution t (s.v d) ((i, base, e) :: ls) }
      set (s'.post (redAddr (s.g a) (s.v b) i) base (.add base q) (fun s => s.contribute base q))
      Act.done) s

/-! ### Barriers (06 R151 to R156) -/

/-- The object that an address names for a slot: in the issuing core's cluster, or in the cluster of the
region's origin; one not assigned to the region takes a data fault. -/
def State.barAt (s : State) (c k : Nat) (va : Reg) : Except Cause Nat :=
  let a := va.toNat
  let r := s.regionOf c k
  let n := a % 2 ^ 32 / 64
  let win := (a - windowBase) / 2 ^ 32
  if 2 ^ 52 ≤ a then .error Cause.wide
  else if a < windowBase || (win ≠ 0x20 && win ≠ 0x30) || a % 64 ≠ 0 || 1024 ≤ n
    || n < r.barbase.toNat || r.barbase.toNat + r.barcnt.toNat ≤ n then .error Cause.data
  else .ok (barKey (clusterOf (if win = 0x20 then c else coreAt r.x r.y)) n)

/-- The object of a barrier instruction. -/
def Act.barrier (va : Reg) : Act Nat := do
  let s ← get
  match s.barAt s.cur.core s.cur.slot va with
  | .error e => Act.trap e va
  | .ok b => pure b

/-- BAR_INIT: a linked object may not be set up or freed by a program (06 R152, 14 R360). -/
def execBarInit (a b : BitVec 5) (s : State) : Outcome :=
  run (.barInit a b) (do
    let s ← get
    let o ← Act.barrier (s.g a)
    let n := s.g b
    if n.toNat % 2 ^ 16 = 0 || 2 ^ 16 ≤ n.toNat || (s.linkOf o).isSome then Act.trap Cause.data (s.g a)
    else do
      set ((s.barRelease o 1).setBar o { n := n.setWidth 16, a := 0, gen := 0 })
      Act.done) s

/-- BAR_ARR: the release is at package scope, at system scope on a linked object (06 R153, 14 R360). -/
def execBarArr (d a : BitVec 5) (s : State) : Outcome :=
  run (.barArr d a) (do
    let s ← get
    let o ← Act.barrier (s.g a)
    Act.release (if (s.linkOf o).isSome then 4 else 3)
    if (s.bar o).n = 0 then Act.trap Cause.data (s.g a)
    else do
      set (s.barArrive o)
      Act.result d ((s.bar o).gen.setWidth 64)) s

/-- BAR_WAIT (06 R154, R155). A wait on a linked object ends with an acquire at system scope. -/
def execBarWait (d a b : BitVec 5) (s : State) : Outcome :=
  runWith (.barWait d a b) (fun woken => do
    let s ← get
    let finish (o : Nat) : Act Unit := do
      Act.acquire (if (s.linkOf o).isSome then 4 else 3)
      Act.result d 0
    let o ← Act.barrier (s.g a)
    match woken with
    | some v =>
      if v = 0 then finish o
      else if d = 0 then Act.trap Cause.barrier (s.g a)
      else Act.result d 1
    | none =>
      if (s.bar o).n = 0 then Act.trap Cause.data (s.g a)
      else if (s.bar o).gen ≠ (s.g b).setWidth 32 then finish o
      else Act.park (.barrier o)) s

/-- BAR_INFO (06 R156, Table 6.11). -/
def execBarInfo (d a : BitVec 5) (s : State) : Outcome :=
  run (.barInfo d a) (do
    let s ← get
    let o ← Act.barrier (s.g a)
    let x := s.bar o
    Act.result d (x.gen ++ x.a ++ x.n)) s

/-- BAR_FREE (06 R156). -/
def execBarFree (a : BitVec 5) (s : State) : Outcome :=
  run (.barFree a) (do
    let s ← get
    let o ← Act.barrier (s.g a)
    if (s.linkOf o).isSome then Act.trap Cause.data (s.g a)
    else do
      set ((s.barRelease o 1).setBar o Barrier.reset)
      Act.done) s

/-! ### Counters (06 R157 to R161) -/

/-- The place of a counter object: 16-byte aligned, in the own raw cellar window or the remote one. -/
def State.cntAt (s : State) (c : Nat) (sec : Bool) (va : Reg) : Except Cause Nat :=
  let a := va.toNat
  let win := (a - windowBase) / 2 ^ 32
  if 2 ^ 52 ≤ a then .error Cause.wide
  else if a % 16 ≠ 0 || a < windowBase || (win ≠ 1 && win ≠ 0x10) then .error Cause.data
  else match s.window c sec .load a 16 with
    | .ok (.at' l) => .ok l.place
    | .ok (.decoded _ _) => .error Cause.data
    | .error e => .error e

/-- The object of a counter instruction. -/
def Act.counter (va : Reg) : Act Nat := do
  let s ← get
  match s.cntAt s.cur.core s.secure va with
  | .error e => Act.trap e va
  | .ok p => pure p

/-- An object that must be live and readable. -/
def Act.liveCounter (p : Nat) (va : Reg) : Act Unit := do
  let s ← get
  if !s.live p then Act.trap Cause.data va
  else if s.cntBad p then Act.trap Cause.memory va
  else pure ()

/-- Waiters of a counter that is set up anew or retired receive its old status with RESET (06 R159). -/
def State.cntReset (s : State) (p : Nat) : State :=
  s.wake (fun _ _ w => w == .counter p) ((s.cntStatus p ||| statusReset).setWidth 64)

/-- CNT_INIT's status and effect; who sets the counter up is kept beside it. A retired counter's words keep what
they held. -/
def State.cntInit (s : State) (p : Nat) (x : Reg) (who : Counter) : Nat × State :=
  let full := Config.liveCounters ≤
    (s.counters.filter (fun e => cellarCluster e.1 = cellarCluster p)).length
  if 2 ^ 33 ≤ x.toNat then (2, s)
  else if x.getLsbD 32 then
    (0, { s.cntReset p with counters := Tab.erase s.counters p })
  else if !s.live p && full then (1, s)
  else
    let s := if s.live p then s.cntReset p else s
    let s := s.poke p (bytesOfNat 4 (x.toNat % 2 ^ 32) ++ bytesOfNat 12 0)
    (0, { s with counters := Tab.put s.counters p who })

/-- The running task as what sets up or binds a counter (09 R234). -/
def State.counterOwner (s : State) : Counter :=
  let t := s.me.task
  { core := s.cur.core, root := (t.map (·.root)).getD 0, rid := (t.map (·.rid)).getD 0, secure := s.secure }

/-- CNT_INIT (06 R159). -/
def execCntInit (d a b : BitVec 5) (s : State) : Outcome :=
  run (.cntInit d a b) (do
    let s ← get
    let p ← Act.counter (s.g a)
    if (s.g b).getLsbD 32 && (s.g b).toNat < 2 ^ 33 && !s.live p then Act.trap Cause.data (s.g a)
    else if s.live p && s.bad p then Act.trap Cause.memory (s.g a)
    else do
      let now (s : State) : State :=
        let r := s.cntInit p (s.g b) s.counterOwner
        r.2.setG d (BitVec.ofNat 64 r.1)
      set (if 2 ^ 33 ≤ (s.g b).toNat then now s else s.post (s.g a) p (.cntInit d (s.g b) s.counterOwner) now)
      Act.done) s

/-- CNT_SIG (06 R161). -/
def execCntSig (a : BitVec 5) (s : State) : Outcome :=
  run (.cntSig a) (do
    let s ← get
    let p ← Act.counter (s.g a)
    Act.release 3
    Act.liveCounter p (s.g a)
    set (s.post (s.g a) p .sig (fun s => s.cntUpdate p (-1) 0))
    Act.done) s

/-- CNT_WAIT (06 R161). -/
def execCntWait (d a : BitVec 5) (s : State) : Outcome :=
  runWith (.cntWait d a) (fun woken => do
    let s ← get
    let finish (v : Reg) : Act Unit := do
      Act.acquire 3
      Act.result d v
    match woken with
    | some v => finish v
    | none => do
      let p ← Act.counter (s.g a)
      Act.liveCounter p (s.g a)
      if (s.cntValue p).toInt ≤ 0 then finish ((s.cntStatus p).setWidth 64)
      else Act.park (.counter p)) s

/-- CNT_ADD (06 R161). -/
def execCntAdd (d a b : BitVec 5) (s : State) : Outcome :=
  run (.cntAdd d a b) (do
    let s ← get
    let p ← Act.counter (s.g a)
    Act.liveCounter p (s.g a)
    set (s.post (s.g a) p (.cntAdd d (s.g b)) (fun s =>
      (s.cntUpdate p (intOf true 32 (s.g b).toNat) 0).setG d (sext64 32 (s.cntValue p).toNat)))
    Act.done) s

/-! ### Publication (06 R162, 14 R353) -/

/-- The place of an address of host memory, as a device register or a ring holds it. -/
def hostAt (x : Reg) : Nat := 2 ^ 52 + x.toNat % 2 ^ 48

/-- An advance of a function's version word begins: its buffered lines are to be written (06 R162, 14 R353). -/
def State.pubBegin (s : State) (vf : BitVec 9) : State :=
  { s with pub := s.pub.map (fun e => if e.vf == vf then { e with due := true } else e) }

/-- Lines of a function that its advance has still to write. -/
def State.pubDue (s : State) (vf : BitVec 9) : Bool := s.pub.any (fun e => e.vf == vf && e.due)

/-- The k-th buffered line is written to host memory, if an advance is to write it; the lines go in any order. -/
def State.pubLine (s : State) (k : Nat) : State :=
  match s.pub[k]? with
  | none => s
  | some e =>
    if e.due then e.bytes.foldl (fun s b => s.poke (e.line * 128 + b.1) [b.2]) { s with pub := s.pub.eraseIdx k } else s

/-- The version word of a function, and the package with 1 added to it. -/
def State.version (s : State) (vf : BitVec 9) : Nat := leNat (s.peek (hostAt (s.ngamon vf).pubver) 8)
def State.pubVersion (s : State) (vf : BitVec 9) : State :=
  s.pokeNat (hostAt (s.ngamon vf).pubver) 8 ((s.version vf + 1) % 2 ^ 64)

/-- Whether a function's share of the buffer is full, and whether the buffer takes bytes of a line: in a line that it
holds, or in a new one (14 R353). -/
def State.pubFull (s : State) (vf : BitVec 9) : Bool :=
  Config.pubLinesPerVf ≤ (s.pub.filter (fun e => e.vf == vf)).length
def State.pubRoom (s : State) (vf : BitVec 9) (line : Nat) : Bool :=
  s.pub.any (fun e => e.vf == vf && e.line = line) || (!s.pubFull vf && decide (s.pub.length < Config.pubLines))

/-- Bytes of one line stored to a publication window enter the buffer, which has room for them. -/
def State.pubPut (s : State) (vf : BitVec 9) (line : Nat) (bytes : Tab Byte) : State :=
  match s.pub.find? (fun e => e.vf == vf && e.line = line) with
  | some _ => { s with pub := s.pub.map (fun e =>
      if e.vf == vf && e.line = line
      then { e with bytes := bytes.foldl (fun t b => Tab.put t b.1 b.2) e.bytes } else e) }
  | none => { s with pub := s.pub ++ [{ vf := vf, line := line, bytes := bytes, due := false }] }

/-- Bytes stored to a publication window. -/
def State.pubWrite (s : State) (vf : BitVec 9) (p : Nat) (bs : List Byte) : State :=
  (byLine p bs).foldl (fun s e => s.pubPut vf e.1 e.2) s

/-- PUBLISH: after the release it has its function's buffered lines written, stalls until they are, and only then
adds 1 to the version word (06 R162). DESIGN CHOICE (log 35): the word is the one that PUBVER names by then. Where its task ends before, the interface ends the advance. -/
def execPublish (d a : BitVec 5) (s : State) : Outcome :=
  let going := s.me.wait = .publishing
  run (.publish d a) (do
    let s ← get
    let vf := s.region.vf
    if !going && 2 ^ 52 ≤ (s.g a).toNat then Act.trap Cause.wide (s.g a)
    else if !going && s.g a ≠ (s.ngamon vf).pubver then Act.trap Cause.data (s.g a)
    else do
      if !going then Act.release 4
      let t := if going then s else s.pubBegin vf
      if t.pubDue vf then do
        set (t.setMe { t.me with wait := .publishing })
        Act.stall
      else do
        set (t.pubVersion vf)
        Act.result d (BitVec.ofNat 64 ((t.version vf + 1) % 2 ^ 64))) s

end Sys2Proof.Machine
end

