-- ==== Sys2Proof/Machine/Engine.lean ====
section
/-! DEFINITION. The queues of the two engines of a core: what a command names, when the command at the head
begins, how it fails, retires and signals (03 R76 to R78; 08 R193 to R202; 09 R219 to R221, R238, R239). -/

namespace Sys2Proof.Machine

/-! ### The fields of a command -/

def Cmd.op (m : Cmd) : Nat := bits m.header 10 7
def Cmd.qa (m : Cmd) : Nat := bits m.header 14 11
def Cmd.qb (m : Cmd) : Nat := bits m.header 18 15
def Cmd.qd (m : Cmd) : Nat := bits m.header 22 19
def Cmd.acc (m : Cmd) : Nat := bits m.header 25 23
def Cmd.sg (m : Cmd) : Bool := m.header.getLsbD 31
def Cmd.ta (m : Cmd) : BitVec 5 := m.w1.extractLsb' 0 5
def Cmd.tb (m : Cmd) : BitVec 5 := m.w1.extractLsb' 5 5
def Cmd.td (m : Cmd) : BitVec 5 := m.w1.extractLsb' 10 5
def Cmd.rm (m : Cmd) : BitVec 3 := m.w1.extractLsb' 15 3
/-- Option bit k. -/
def Cmd.opt (m : Cmd) (k : Nat) : Bool := m.w1.getLsbD (18 + k)
/-- The first tile slot of the skip map that a command uses. -/
def Cmd.tslot (m : Cmd) : Nat := m.w3.toNat % 4096
/-- Groups or tiles of the commands that count them in word 2. -/
def Cmd.c2 (m : Cmd) : Nat := bits m.w2 15 8 + 1

/-- Bytes of a tile of a type (08 Table 8.1). -/
def tileSize (t : BitVec 5) : Nat :=
  match t.toNat with
  | 10 => 4096
  | 8 | 9 => 2048
  | 12 | 13 => 1024
  | 14 => 576
  | _ => 512

/-- The vector length of a butterfly, its tiles in a group, and the weight tiles of a stage (08 R204). -/
def Cmd.bflyN (m : Cmd) : Nat := 2 ^ (bits m.w2 3 0 + 5)
def Cmd.bflyG (m : Cmd) : Nat := Nat.max 1 (m.bflyN / 1024)
def Cmd.bflyW (m : Cmd) : Nat := Nat.max 1 (m.bflyN / 512)
/-- Its stages. -/
def Cmd.bflyK (m : Cmd) : Nat := if m.op = 1 then 1 else bits m.w2 6 4 + 1

/-- The source rings of a command: handle, slots it must hold, and bytes a slot must hold. -/
def Cmd.sources (m : Cmd) : List (Nat × Nat × Nat) :=
  match m.op with
  | 0 => [(m.qa, m.w2.toNat % 256 + 1, tileSize m.ta), (m.qb, m.w2.toNat % 256 + 1, tileSize m.tb)]
  | 1 | 2 => [(m.qa, m.c2 * m.bflyG, tileSize m.ta), (m.qb, m.bflyK * m.bflyW, tileSize m.tb)]
  | 3 =>
    let n := m.c2 * (bits m.w2 23 16 + 1)
    if bits m.w2 1 0 = 2 then [(m.qa, n, tileSize m.ta), (m.qb, n, tileSize m.tb)]
    else [(m.qa, n, tileSize m.ta)]
  | 4 => [(m.qa, m.w2.toNat % 64 + 1, tileSize m.ta)]
  | 5 => [(m.qa, 1, 0)]
  | 7 => if m.opt 0 then [] else [(m.qa, m.w6.toNat % 256 + 1, tileSize m.ta)]
  | 9 => if m.opt 1 then [] else [(m.qa, m.w2.toNat % 256 + 1, tileSize m.ta)]
  | 10 => if bits m.w2 1 0 = 2 then [(m.qa, 1, 0)] else []
  | 11 => if m.opt 0 then [(m.qa, 1, 0)] else []
  | 12 | 14 => [(m.qa, 1, 0)]
  | 13 => [(m.qa, 1, 0), (m.qb, 1, 0)]
  | _ => []

/-- The destination rings of a command, in the same form. -/
def Cmd.dests (m : Cmd) : List (Nat × Nat × Nat) :=
  match m.op with
  | 1 | 2 => [(m.qd, m.c2 * m.bflyG, tileSize m.td)]
  | 3 => [(m.qd, m.c2 * (bits m.w2 23 16 + 1), tileSize m.td)]
  | 4 => [(m.qd, 1, 0)]
  | 6 => if m.opt 0 then [] else [(m.qd, m.w6.toNat % 256 + 1, tileSize m.ta)]
  | 9 => [(m.qd, m.w2.toNat % 256 + 1, tileSize m.td)]
  | 10 => if bits m.w2 1 0 = 3 then [(m.qd, 1, 0)] else []
  | 11 => if m.opt 1 then [(m.qd, 1, 0)] else []
  | 12 | 14 => [(m.qd, 1, 0)]
  | _ => []

/-- Slots that the command frees when it retires; a TSIG with KEEP frees none (08 R209). -/
def Cmd.pops (m : Cmd) : List (Nat × Nat) :=
  if m.op = 4 && m.opt 0 then [] else m.sources.map (fun x => (x.1, x.2.1))
def Cmd.pushes (m : Cmd) : List (Nat × Nat) := m.dests.map (fun x => (x.1, x.2.1))

/-- Elements that a command under .rsr writes (02 R52). -/
def Cmd.draws (m : Cmd) : Nat :=
  match m.op with
  | 1 | 2 | 3 | 9 => 1024 * (m.dests.map (fun x => x.2.1)).foldl (· + ·) 0
  | _ => 0

/-- Whether a queued command names a handle as a source, or as a destination (08 R190, R192). -/
def Core.asSource (c : Core) (q : Nat) : Bool :=
  (c.mixq ++ c.dataq).any (fun m => m.sources.any (fun x => x.1 = q))
def Core.asDest (c : Core) (q : Nat) : Bool :=
  (c.mixq ++ c.dataq).any (fun m => m.dests.any (fun x => x.1 = q))

/-- Whether an open convoy delivers into a ring (09 R243). DESIGN CHOICE (log 101): a stream that the receiver has
aborted no longer counts, although its closing marker is still to come. -/
def Core.convoyInto (c : Core) (q : Nat) : Bool := c.streams.any (fun x => x.qh.toNat = q && !x.aborted)

/-! ### Addresses of a command (08 R213; 09 R222 to R224) -/

/-- Bytes of a row of a tile: its codes. -/
def rowBytes (t : BitVec 5) : Nat := if t = 14 then 16 else tileSize t / 32

/-- The rows of a TLD or TST: tile, row, the address of its bytes and that of its side entry (08 R213). -/
def Cmd.rows (m : Cmd) : List (Nat × Nat × Reg × Reg) :=
  let base := m.base1 + sx m.w3
  let c := if m.opt 0 then 1 else m.w6.toNat % 256 + 1
  (List.range c).flatMap (fun t => (List.range 32).map (fun r =>
    let tile := base + BitVec.ofNat 64 t * sx m.w5
    (t, r, tile + BitVec.ofNat 64 r * sx m.w4, tile + sx m.w7 + BitVec.ofNat 64 (2 * r))))

/-- Bytes in a row of a CPY, its rows, and the addresses of a row in memory (09 R222). -/
def Cmd.cpyBytes (m : Cmd) : Nat := bits m.w5 15 0 + 1
def Cmd.cpyRows (m : Cmd) : Nat := bits m.w5 31 16 + 1
def Cmd.cpySrc (m : Cmd) (r : Nat) : Reg := m.base1 + sx m.w3 + BitVec.ofNat 64 r * sx m.w6
def Cmd.cpyDst (m : Cmd) (r : Nat) : Reg := m.base2 + sx m.w4 + BitVec.ofNat 64 r * sx m.w7

/-- The alignment of a row. -/
def rowAlign (t : BitVec 5) : Nat := if t = 14 || t = 15 then 1 else typeWidth t / 8

/-- Every row and side entry of a TLD or TST as an address, its bytes and its alignment. -/
def Cmd.rowRuns (m : Cmd) : List (Reg × Nat × Nat) :=
  m.rows.flatMap (fun (x : Nat × Nat × Reg × Reg) =>
    (x.2.2.1, rowBytes m.ta, rowAlign m.ta) :: (if m.ta = 14 then [(x.2.2.2, 2, 1)] else []))

/-- Elements, and the type and width in bytes of an element. -/
def Cmd.elems (m : Cmd) : Nat := m.w5.toNat % 8192 + 1
def Cmd.elemType (m : Cmd) : BitVec 5 := if m.op = 12 then m.td else m.tb
def Cmd.elemBytes (m : Cmd) : Nat := typeWidth m.elemType / 8

/-- The address of the mask, if one is asked for. -/
def Cmd.maskAddr (m : Cmd) : Option Reg :=
  if bits m.w2 12 8 = 0 then none else some (m.base2 + sx m.w4)

/-- Parameters of a COLL: members, elements, kind, tag, bytes of an element and of its destination. -/
def Cmd.members (m : Cmd) : Nat := m.w4.toNat % 256 + 1
def Cmd.collN (m : Cmd) : Nat := m.w5.toNat % 8192 + 1
def Cmd.collKind (m : Cmd) : Nat := bits m.w5 18 16
def Cmd.tag (m : Cmd) : Nat := m.w6.toNat % 65536
def Cmd.collW (m : Cmd) : Nat := typeWidth m.td / 8
def Cmd.collDst (m : Cmd) : Nat := (if m.collKind = 4 then m.members else 1) * m.collN * m.collW

/-- The runs of bytes that a command names by their addresses; elements of a gather or a scatter apart. -/
def Cmd.runs (m : Cmd) : List (Use × Reg × Nat) :=
  match m.op with
  | 6 => m.rowRuns.map (fun x => (.engineRead, x.1, x.2.1))
  | 7 => m.rowRuns.map (fun x => (.engineWrite, x.1, x.2.1))
  | 11 => (List.range m.cpyRows).flatMap (fun r =>
      (if m.opt 0 then [] else [(.copy, m.cpySrc r, m.cpyBytes)])
        ++ (if m.opt 1 then [] else [(.engineWrite, m.cpyDst r, m.cpyBytes)]))
  | 12 | 13 => (m.maskAddr.map (fun va => (Use.engineWrite, va, (m.elems + 7) / 8))).toList
  | 14 => [(.engineRead, m.base1 + sx m.w3, 4 * m.members)]
  | _ => []

/-- The maker of a command's accesses. -/
def State.whoCmd (s : State) (c : Nat) (m : Cmd) : Who :=
  let r := s.regionBy m.root m.rid
  { core := c, vf := r.vf, sec := m.secure, tenant := r.tenant, lut := m.lut, data := decide (11 ≤ m.op) }

/-- The writes that the command at the head of a queue has still to perform, and the core with others. -/
def Core.staged (c : Core) (data : Bool) : List Staged := if data then c.dataw else c.mixw
def Core.stage (c : Core) (data : Bool) (xs : List Staged) : Core :=
  if data then { c with dataw := xs } else { c with mixw := xs }

/-! ### Memory as an engine reads and writes it (08 R213, R214; 09 R221) -/

/-- A run of bytes cut where pages may end; the first number bounds the pieces. -/
def pagePieces : Nat → Reg → Nat → List (Reg × Nat)
  | 0, _, _ => []
  | k + 1, va, n =>
    if n = 0 then []
    else
      let here := Nat.min n (4096 - va.toNat % 4096)
      (va, here) :: pagePieces k (va + BitVec.ofNat 64 here) (n - here)

/-- What n bytes from an address are, or the trap that an access to them would take. -/
def State.engTargets (s : State) (w : Who) (use : Use) (va : Reg) (n al : Nat) :
    Except Cause (List (Target × Nat)) :=
  if va.toNat % al ≠ 0 then .error Cause.data
  else (pagePieces (n / 4096 + 2) va n).mapM (fun x =>
    match s.checkNow w use x.1 x.2 1 with
    | .error e => .error e
    | .ok t => .ok (t, x.2))

/-- The reason of a failed address check: 7 for a key, else 3 (08 Table 8.8). -/
def causeReason (e : Cause) : Nat := if e = Cause.key then 7 else 3


/-- Whether a target lies in another package, or overlaps a live counter. -/
def targetRemote (t : Target × Nat) : Bool :=
  match t.1 with
  | .at' l => storeOf l.place = .remote
  | .decoded _ _ => false
def State.targetCounter (s : State) (t : Target × Nat) : Bool :=
  match t.1 with
  | .at' l => s.coversCounter l.place t.2
  | .decoded _ _ => false

/-- The reason for which an engine may not access n bytes at an address, if there is one. -/
def State.engReason (s : State) (w : Who) (use : Use) (va : Reg) (n al : Nat) : Option Nat :=
  match s.engTargets w use va n al with
  | .error e => some (causeReason e)
  | .ok ts =>
    if ts.any targetRemote || (use.writes && ts.any s.targetCounter) then some 3 else none

/-- An error that an engine's read met is told to the fault domain (08 R214, 09 R222). -/
def State.engPoison (s : State) (c : Nat) (data : Bool) (m : Cmd) (l : Loc) : State :=
  (s.noteError l).report (regionReport s m.root m.rid 0x0B Cause.memory (8 * c + m.slot)
    (BitVec.ofNat 64 (l.place % 2 ^ 56)) (if data then 1 else 0) 0)

/-- What fails the checks of a run of a command is recorded where it is an error of memory: a key fault at its place
(12 Table 12.6), or an error in an entry of its page walk, which the fault domain is told too (15 R369, R382). -/
def State.noteCheck (s : State) (m : Cmd) (w : Who) (use : Use) (va : Reg) (n : Nat) : State :=
  match (pagePieces (n / 4096 + 2) va n).findSome? (fun x => match s.checkNow w use x.1 x.2 1 with
      | .error e => some (e, x.1.toNat)
      | .ok _ => none) with
  | none => s
  | some (e, a) => match s.translate w.core w.vf w.sec a with
    | .ok t => if e = Cause.key then s.faqAdd 5 (t.loc a).place else s
    | .error _ => if e = Cause.memory then ((s.walkError w.vf w.sec a).map (s.engPoison w.core w.data m)).getD s else s

/-- Why a row of a command that has begun can no longer be accessed: a page or a key that has gone meanwhile (12
R322). -/
def State.rowGone (s : State) (w : Who) (xs : List (Use × Reg × Nat)) : Option Nat :=
  xs.findSome? (fun x => match s.engTargets w x.1 x.2.1 x.2.2 1 with
    | .error e => some (causeReason e)
    | .ok _ => none)

/-- The same for the run for which a command fails. -/
def State.noteChecks (s : State) (c : Nat) (m : Cmd) (reason : Nat) : State :=
  if reason ≠ 3 && reason ≠ 7 then s
  else match m.runs.find? (fun x => (s.engReason (s.whoCmd c m) x.1 x.2.1 x.2.2 1).isSome) with
    | some x => s.noteCheck m (s.whoCmd c m) x.1 x.2.1 x.2.2
    | none => s

/-- The targets of checked addresses. -/
def State.engOk (s : State) (w : Who) (use : Use) (va : Reg) (n : Nat) : List (Target × Nat) :=
  match s.engTargets w use va n 1 with
  | .ok ts => ts
  | .error _ => []

/-- Whether the line, or the word of a larder or cellar, that holds a byte meets an uncorrectable error. -/
def State.engBad (s : State) (l : Loc) : Bool :=
  match storeOf l.place with
  | .larder | .cellar | .attic => s.bad l.place
  | _ => s.homeBad { l with place := l.place / 128 * 128 } 128

/-- The package with what a command has staged for cellars in them, as it sees them itself. -/
def State.withStaged (s : State) (w : Who) : State :=
  (((s.core w.core).staged w.data).filter (fun x => storeOf (x.line * 128) = .cellar)).foldl (fun s x =>
    x.bytes.foldl (fun s b => { s with mem := Tab.set Memory.blank s.mem (x.line * 128 + b.1) b.2 }) s) s

/-- What a command has staged for a place, over what memory holds there. -/
def overStaged (xs : List Staged) (p : Nat) (b : Byte) : Byte :=
  (xs.filter (fun x => x.line = p / 128)).foldl (fun b x => (Tab.find x.bytes (p % 128)).getD b) b

/-- A byte of a target, and where it lies if the read meets an error. A command sees its own writes. -/
def State.engByte (s : State) (w : Who) (t : Target) (i : Nat) : Byte × Option Loc :=
  match t with
  | .at' l =>
    let m := l.shift i
    let b := s.homeByte m
    (overStaged ((s.core w.core).staged w.data) m.place
      (if storeOf m.place = .host then (s.overPub w.vf m.place [b]).headD b else b),
     if s.engBad m then some m else none)
  | .decoded win off =>
    ((s.withStaged w).aliasByte w.core none w.lut win (off + i),
     ((s.aliasPlaces w.core win (off + i)).find? s.bad).map .plain)

/-- The bytes of targets in order. -/
def State.engBytes (s : State) (w : Who) (ts : List (Target × Nat)) : List (Byte × Option Loc) :=
  ts.flatMap (fun x => (List.range x.2).map (s.engByte w x.1))

/-- A core's L1 copies of the lines of a run of bytes go. -/
def State.dropRun (s : State) (c p n : Nat) : State :=
  (List.range (n / 128 + 2)).foldl (fun s i => s.dropLine c (p / 128 + i)) s

/-- Bytes written by an engine to a location that an address names: they are staged, line by line. -/
def State.engPut (s : State) (w : Who) (va : Reg) (l : Loc) (bs : List Byte) : State :=
  let x := s.core w.core
  s.setCore w.core (x.stage w.data (x.staged w.data ++ (byLine l.place bs).map (fun e =>
    { line := e.1, bytes := e.2, ms := l.ms, sec := l.sec, key := l.key, tenant := w.tenant, vf := w.vf, va := va })))

/-- Bytes written by an engine at their home at once: an element of a scatter at its owner (09 R221, R223). -/
def State.putNow (s : State) (w : Who) (l : Loc) (bs : List Byte) : State :=
  let s := s.dropRun w.core l.place bs.length
  if storeOf l.place = .host then s.pubWrite w.vf l.place bs else s.homeWrite l w.tenant bs

/-- Bytes written by an engine to a larder, a cellar or an attic. A bank refuses those that a counter has come to cover
since the command was checked (06 R158); DESIGN CHOICE (log 97): the command goes on without them. -/
def State.bankPut (s : State) (p : Nat) (bs : List Byte) : State :=
  if storeOf p = .cellar && s.coversCounter p bs.length then
    (bs.zipIdx).foldl (fun s b => if s.coversCounter (p + b.2) 1 then s else s.poke (p + b.2) [b.1]) s
  else s.poke p bs

/-- A staged write performed at its home. The core's L1 copies of the line go. -/
def State.performStaged (s : State) (c : Nat) (x : Staged) : State :=
  let l : Loc := { place := x.line * 128, ms := x.ms, ro := false, sec := x.sec, key := x.key }
  let s := s.dropLine c x.line
  match storeOf l.place with
  | .hbm => (s.backInvalidate x.line).writeLine l x.tenant x.bytes
  | .host => s.pubPut x.vf x.line x.bytes
  | _ => x.bytes.foldl (fun s b => s.bankPut (l.place + b.1) [b.2]) s

/-- Bytes written by an engine to the targets of an address. -/
def State.engWrite (s : State) (w : Who) (va : Reg) : List (Target × Nat) → List Byte → State
  | [], _ => s
  | (.at' l, n) :: t, bs => (s.engPut w va l (bs.take n)).engWrite w (va + BitVec.ofNat 64 n) t (bs.drop n)
  | (.decoded _ _, n) :: t, bs => s.engWrite w (va + BitVec.ofNat 64 n) t (bs.drop n)

/-- Lines of global memory that targets touch. -/
def targetLines (ts : List (Target × Nat)) : List Nat :=
  (ts.flatMap (fun x => match x.1 with
    | .at' l => if storeOf l.place = .hbm then
        (List.range (x.2 / 128 + 2)).filterMap (fun i =>
          let line := l.place / 128 + i
          if line * 128 < l.place + x.2 then some line else none) else []
    | .decoded _ _ => [])).eraseDups

/-- Whether an access of an engine to a line may be made: no claim stands on it, or the first one is the engine's
own (12 R307: a claim holds back the accesses of other engines). -/
def State.lineFree (s : State) (c : Nat) (data : Bool) (line : Nat) : Bool :=
  match s.claims.find? (fun q => q.recorded && q.line = line) with
  | none => true
  | some q => q.core = c && q.data == data

/-- Whether an engine waits at the homes of targets: for claims, for an open epoch, or for the crossbar (06 R150, 14
R347). -/
def State.engHeld (s : State) (c : Nat) (data : Bool) (ts : List (Target × Nat)) : Bool :=
  !((targetLines ts).all (s.lineFree c data))
    || ts.any (fun x => match x.1 with
      | .at' l => storeOf l.place = .hbm && s.inEpoch l.place x.2 || s.mute c l.place
      | .decoded _ _ => false)

/-- The part of a target in each line of memory: its location and its bytes. -/
def linePieces (ts : List (Target × Nat)) : List (Loc × Nat) :=
  ts.flatMap (fun x => match x.1 with
    | .at' l => l.lines x.2
    | .decoded _ _ => [])

/-- Whether a write to host memory at once finds no room in the publication buffer. -/
def State.pubFilled (s : State) (w : Who) (ts : List (Target × Nat)) : Bool :=
  ts.any (fun x => match x.1 with
    | .at' l => storeOf l.place = .host && !s.pubRoom w.vf (l.place / 128)
    | .decoded _ _ => false)

/-- What the accesses that an engine makes next come to: they wait, or for a line from memory; or they are made, and
read these lines. -/
inductive Gate where
  | wait
  | ask (tenant : BitVec 10) (l : Loc)
  | go (ls : List Loc)
  deriving DecidableEq, Repr

/-- The pages of some runs of bytes, each by an address in it; and the entries of the walks that they need. -/
def runPages (xs : List (Use × Reg × Nat)) : List Nat :=
  xs.flatMap (fun x => (pagePieces (x.2.2 / 4096 + 2) x.2.1 x.2.2).map (fun y => y.1.toNat))
def State.runWalks (s : State) (w : Who) (xs : List (Use × Reg × Nat)) : List Loc :=
  ((runPages xs).filter (s.walkNeeded w.core w.vf w.sec)).flatMap (s.walkLocs w.vf w.sec)

/-- The gate of the walks that runs of bytes need (15 R369, 12 R308). -/
def State.walkGate (s : State) (w : Who) (xs : List (Use × Reg × Nat)) : Gate :=
  let vas := runPages xs
  if vas.any (s.walkHeld w.core w.vf w.sec) then .wait
  else match vas.findSome? (s.needMiss w.core w.vf w.sec w.tenant) with
    | some l => .ask w.tenant l
    | none => .go []

/-- The gate of the accesses that a command makes next; without any, it waits for a neighbour (06 R128, 12 R307, R308,
15 R369). -/
def State.engGate (s : State) (c : Nat) (data : Bool) (m : Cmd) : Option (List (Use × Reg × Nat)) → Gate
  | none => .wait
  | some xs =>
    let w := s.whoCmd c m
    match s.walkGate w xs with
    | .wait => .wait
    | .ask tenant l => .ask tenant l
    | .go _ =>
    let ts (p : Use → Bool) : List (Target × Nat) :=
      (xs.filter (fun x => p x.1)).flatMap (fun x => s.engOk w x.1 x.2.1 x.2.2)
    let reads := linePieces (ts (fun u => u ≠ .engineWrite))
    if s.engHeld c data (ts (fun _ => true)) || s.pubFilled w (ts Use.writes)
      || s.silent c && (m.sources ++ m.dests).any (fun x => match (s.core c).ring x.1 with
        | some r => 2 ≤ r.desc.win.toNat
        | none => false) then .wait
    else match reads.find? (fun x => s.mustFill w.tenant x.1 x.2 && !s.engBad x.1) with
      | some x => .ask w.tenant x.1
      | none => .go (s.runWalks w (if m.prog.isSome then xs else m.runs ++ xs) ++ reads.map (·.1))

/-- Errors that a piece of a command's reads met: each line, or word of a larder or cellar, is told once (12 R306), and
the command has reason 4. -/
def State.engPoisons (s : State) (c : Nat) (data : Bool) (m : Cmd) : Progress → List Loc → State × Progress
  | p, [] => (s, p)
  | p, l :: rest =>
    let at0 := match storeOf l.place with
      | .larder | .cellar => l.place / 8 * 8
      | _ => l.place / 128 * 128
    let q := { p with reason := if p.reason = 0 then 4 else p.reason }
    if p.told.contains at0 then s.engPoisons c data m q rest
    else (s.engPoison c data m l).engPoisons c data m { q with told := at0 :: p.told } rest

/-! ### Ring slots -/

/-- The bytes that the command at the head of a queue has read ahead, and the core with others. -/
def Core.taken (c : Core) (data : Bool) : Tab Byte := if data then c.datat else c.mixt
def Core.setTaken (c : Core) (data : Bool) (t : Tab Byte) : Core :=
  if data then { c with datat := t } else { c with mixt := t }

/-- The bytes of slot i of a ring for the command at the head of a queue, and whether reading them meets an error. -/
def State.slotBytes (s : State) (c : Nat) (data : Bool) (d : RingDesc) (i n : Nat) : List Byte :=
  (List.range n).map (fun k =>
    let p := d.place c i + k
    if s.bad p then Config.poisonByte p else (Tab.find ((s.core c).taken data) p).getD (s.byte p))
def State.slotBad (s : State) (c : Nat) (d : RingDesc) (i n : Nat) : Bool :=
  (List.range n).any (fun k => s.bad (d.place c i + k))

/-- The k-th filled slot of a core's ring, and its k-th free slot. -/
def State.srcSlot (s : State) (c : Nat) (data : Bool) (q k n : Nat) : List Byte :=
  match (s.core c).ring q with
  | some r => s.slotBytes c data r.desc ((r.head + k) % r.desc.count) n
  | none => []
def State.srcBad (s : State) (c q k n : Nat) : Bool :=
  match (s.core c).ring q with
  | some r => s.slotBad c r.desc ((r.head + k) % r.desc.count) n
  | none => false
/-- The errors among n bytes of a filled slot, a word of a larder or cellar or a line of an attic each, recorded as they
are met (12 R306). -/
def State.noteSlot (s : State) (c q k n : Nat) : State :=
  match (s.core c).ring q with
  | some r =>
    let p := r.desc.place c ((r.head + k) % r.desc.count)
    let bad := ((List.range ((n + 7) / 8)).map (fun i => p + 8 * i)).filter s.bad
    ((bad.map (fun w => if storeOf w = .attic then w / 128 * 128 else w)).eraseDups).foldl
      (fun s w => s.noteError (.plain w)) s
  | none => s

/-- Bytes written to the k-th free slot. The core's L1 copies of attic lines go (08 R200, R217). -/
def State.dstPut (s : State) (c q k off : Nat) (bs : List Byte) : State :=
  match (s.core c).ring q with
  | some r =>
    let p := r.desc.place c ((r.tail + k) % r.desc.count) + off
    (s.dropRun c p bs.length).bankPut p bs
  | none => s

/-- Reason 4 where bytes at the front of the head slots of some rings meet an error. -/
def State.headReason (s : State) (c : Nat) (xs : List (Nat × Nat)) : Nat :=
  if xs.any (fun x => s.srcBad c x.1 0 x.2) then 4 else 0
/-- Those errors recorded. -/
def State.noteHeads (s : State) (c : Nat) (xs : List (Nat × Nat)) : State :=
  xs.foldl (fun s x => s.noteSlot c x.1 0 x.2) s

/-- The size of a core's ring slots. -/
def State.slotSize (s : State) (c q : Nat) : Nat :=
  match (s.core c).ring q with
  | some r => r.desc.size
  | none => 0

/-- Whether every byte of a ring lies in converted attic (12 R312). -/
def State.ringInAttic (s : State) (c : Nat) (d : RingDesc) : Bool :=
  (List.range (d.count * d.size / 64)).all (fun i => s.atticHas (dieOf c) (d.offset.toNat + 64 * i))

/-! ### Neighbours (09 R238) -/

/-- The neighbour of a core in a direction: 0 north, 1 east, 2 south, 3 west. -/
def neighbourOf (r : Region) (set : BitVec 8) (c dir : Nat) : Option Nat :=
  let dx : Int := if dir = 1 then 1 else if dir = 3 then -1 else 0
  let dy : Int := if dir = 2 then 1 else if dir = 0 then -1 else 0
  let x := (xOf c : Int) - r.x + dx
  let y := (yOf c : Int) - r.y + dy
  let code := set.toNat / 4 ^ dir % 4
  if code = 1 then none
  else if 0 ≤ x ∧ x < r.w ∧ 0 ≤ y ∧ y < r.h then some (coreAt (r.x + x.toNat) (r.y + y.toNat))
  else if code = 2 then some (coreAt (r.x + (x % r.w).toNat) (r.y + (y % r.h).toNat))
  else none

/-- The entries of a mailbox of a core; and its free entries, those on their way counted. -/
def State.mailbox (s : State) (c dir : Nat) : List Vec := Tab.get [] (s.core c).mail dir
def State.mailRoom (s : State) (c dir : Nat) : Nat :=
  Config.mailboxSize - (s.mailbox c dir).length
    - (s.nnet.filter (fun e => e.dst = c && e.dir.toNat = dir)).length

/-- The oldest entries of a mailbox are taken. -/
def State.mailDrop (s : State) (c dir n : Nat) : State :=
  s.setCore c { s.core c with mail := Tab.set [] (s.core c).mail dir ((s.mailbox c dir).drop n) }

/-- An entry leaves a core in a direction, for the mailbox of its neighbour's side (09 R239). -/
def State.mailSend (s : State) (c dst dir slot uid fence : Nat) (v : Vec) : State :=
  { s with nnet := s.nnet ++
      [{ src := c, dst := dst, dir := BitVec.ofNat 2 (dir + 2), slot := slot, uid := uid, fence := fence, data := v }] }

/-! ### Beginning, failing, retiring -/

/-- What an executed command leaves: the package, its flags, and the first error reason it met, 0 for none; and
its progress, when it is not at its end. -/
structure Work where
  s : State
  flags : BitVec 5
  reason : Nat
  rest : Option Progress := none

/-- A command that has done nothing yet. -/
def Progress.start : Progress := { pos := 0, mask := [], flags := 0, reason := 0, told := [], rows := [], ended := false }

/-- A piece of work that may be the last of so many. -/
def Progress.work (p : Progress) (s : State) (last : Nat) : Work :=
  { s := s, flags := p.flags, reason := p.reason
    rest := if p.pos + 1 < last then some { p with pos := p.pos + 1 } else none }

/-- The progress of a command. -/
def Cmd.progress (m : Cmd) : Progress := m.prog.getD .start
def Cmd.begun (m : Cmd) : Bool := m.prog.isSome

/-- The first of two reasons. -/
def firstReason (a b : Nat) : Nat := if a = 0 then b else a

/-- Why the rings of a command fail it, whatever they hold: closed, too few slots, two roles (08 R193). -/
def State.ringsWrong (s : State) (c : Nat) (m : Cmd) : Bool :=
  let all := m.sources ++ m.dests
  let names := all.map (·.1)
  names.eraseDups.length < names.length
    || all.any (fun x => match (s.core c).ring x.1 with
      | some r => decide (r.desc.count < x.2.1)
      | none => true)

/-- Whether every ring holds what the command needs (08 R193). -/
def State.ringsReady (s : State) (c : Nat) (m : Cmd) : Bool :=
  m.sources.all (fun x => match (s.core c).ring x.1 with
    | some r => decide (x.2.1 ≤ r.filled)
    | none => false)
  && m.dests.all (fun x => match (s.core c).ring x.1 with
    | some r => decide (x.2.1 ≤ r.desc.count - r.filled)
    | none => false)

/-- The reason for which the rings' bytes or the counter's address fail a command that begins: slots too
small or gone from the attic 1; the attic of the other world, a live counter under a destination slot or
a bad counter address 3 (06 R158; 08 R193, R198; 12 R311, R312). DESIGN CHOICE (log 102): where several of Table 8.8
apply, it is reported in this order, rings, slots, counter, and then the command's own reasons. -/
def State.commonReason (s : State) (c : Nat) (m : Cmd) : Option Nat :=
  let ring (q : Nat) : RingDesc := match (s.core c).ring q with
    | some r => r.desc
    | none => { win := 0, offset := 0, slotsz := 0, slots := 0 }
  let all := m.sources ++ m.dests
  let attic (x : Nat × Nat × Nat) : Bool := 2 ≤ (ring x.1).win.toNat
  if all.any (fun x => decide ((ring x.1).size < x.2.2)) then some 1
  else if all.any (fun x => attic x && !s.ringInAttic c (ring x.1)) then some 1
  else if all.any (fun x => attic x && s.atticSecure (dieOf c) != m.secure) then some 3
  else if m.dests.any (fun x => match (s.core c).ring x.1 with
      | some r => (List.range x.2.1).any (fun k =>
          s.coversCounter (r.desc.place c ((r.tail + k) % r.desc.count)) r.desc.size)
      | none => false) then some 3
  else match m.ctr with
    | some va => match s.cntAt c m.secure va with
      | .ok _ => none
      | .error _ => some 3
    | none => none

/-- The counter of a command, if its address passes. -/
def State.cmdCounter (s : State) (c : Nat) (m : Cmd) : Option Nat :=
  match m.ctr with
  | some va => match s.cntAt c m.secure va with
    | .ok p => some p
    | .error _ => none
  | none => none

/-- Whether a claim of a command is not recorded yet. -/
def State.unrecorded (s : State) (c : Nat) (data : Bool) (m : Cmd) : Bool :=
  s.claims.any (fun q => q.core = c && q.data == data && q.seq == m.seq && !q.recorded)

/-- A queue of a core, and the core with another queue and one more command retired. -/
def Core.queue (c : Core) (data : Bool) : List Cmd := if data then c.dataq else c.mixq
def Core.dequeue (c : Core) (data : Bool) (seq : BitVec 16) : Core :=
  if data then { c with dataq := c.dataq.drop 1, drseq := seq, datat := [] }
  else { c with mixq := c.mixq.drop 1, mrseq := seq, mixt := [] }

/-- The command at the head of a queue may read its source slots: its rings are ready and right, and its claims recorded
(08 R193, 12 R307). -/
def State.mayRead (s : State) (c : Nat) (data : Bool) (m : Cmd) : Bool :=
  m.begun || (!s.ringsWrong c m && s.ringsReady c m && (s.commonReason c m).isNone && !s.unrecorded c data m)

/-- It reads n bytes from an offset of its k-th source slot of a ring, ahead of the other reads of its work (22 R407; log
9). -/
def State.slotAhead (s : State) (c : Nat) (data : Bool) (q k off n : Nat) : State :=
  match (s.core c).queue data, (s.core c).ring q with
  | m :: _, some r =>
    let p := r.desc.place c ((r.head + k) % r.desc.count) + off
    if m.progress.ended || !s.mayRead c data m || !(m.sources.any (fun x => x.1 = q && decide (k < x.2.1)))
      || r.desc.size < off + n || (2 ≤ r.desc.win.toNat && s.silent c)
      || (List.range n).any (fun i => s.bad (p + i) || (Tab.find ((s.core c).taken data) (p + i)).isSome) then s
    else s.setCore c ((s.core c).setTaken data
      ((List.range n).foldl (fun t i => Tab.put t (p + i) (s.byte (p + i))) ((s.core c).taken data)))
  | _, _ => s

/-- A retired command enters the sticky status of the slot that queued it (08 R200). -/
def Slot.note (x : Slot) (data : Bool) (flags : BitVec 5) (reason : Nat) : Slot :=
  let add (y : Sticky) : Sticky :=
    { flags := y.flags ||| flags, err := y.err || reason ≠ 0,
      reason := if y.err then y.reason else BitVec.ofNat 4 reason }
  if data then { x with dsticky := add x.dsticky } else { x with msticky := add x.msticky }

/-- Slots parked in EWAIT whose commands have all retired are woken (08 R200). -/
def State.wakeEngine (s : State) (c : Nat) (data : Bool) : State :=
  wakeIf s (fun c' k x => c' = c && x.wait == .engine data && pending ((s.core c).queue data) k x.runId = 0)
where
  /-- Slots that meet a test are woken. -/
  wakeIf (s : State) (f : Nat → Nat → Slot → Bool) : State :=
    s.mapSlots (fun c k x => if f c k x then { x with wait := .woken 0 } else x)

/-- Whether a reason lets a command complete (08 R198, 09 R220). -/
def completes (data : Bool) (reason : Nat) : Bool :=
  reason = 0 || reason = 4 || reason = 8 || (data && (reason = 9 || reason = 10 || reason = 12))

/-- The command at the head of a queue retires: rings, claims, counter, sticky status (08 R193, R198). -/
def State.retire (s : State) (c : Nat) (data : Bool) (m : Cmd) (flags : BitVec 5) (reason : Nat) : State :=
  let ok := completes data reason
  let ctr := s.cmdCounter c m
  let s := if ok then m.pops.foldl (fun s x => match (s.core c).ring x.1 with
      | some r => s.putRing c x.1 (r.pop x.2)
      | none => s) s else s
  let s := if ok then m.pushes.foldl (fun s x => match (s.core c).ring x.1 with
      | some r => s.putRing c x.1 (r.push x.2)
      | none => s) s else s
  let s := s.setCore c ((s.core c).dequeue data m.seq)
  let s := { s with claims := s.claims.filter (fun q => !(q.core = c && q.data == data && q.seq == m.seq)) }
  let err : BitVec 32 := if reason = 0 then 0 else statusErr
  let part : BitVec 32 := if data && ok && reason ≠ 0 && reason ≠ 8 then statusPart else 0
  let live := match ctr with
    | some p => s.live p
    | none => true
  let s := match ctr with
    | some p => if s.live p then s.cntUpdate p (-1) (flags.setWidth 32 ||| err ||| part) else s
    | none => s
  let reason := if live then reason else firstReason reason 8
  let x := s.slotAt c m.slot
  let s := if x.runId = m.uid && m.uid ≠ 0 then s.setSlotAt c m.slot (x.note data flags reason) else s
  s.wakeEngine c data

/-- The command at the head of a queue with its progress. -/
def Core.setHead (c : Core) (data : Bool) (m : Cmd) : Core :=
  if data then { c with dataq := m :: c.dataq.drop 1 } else { c with mixq := m :: c.mixq.drop 1 }

/-- Claims of an ended command on lines to which it has nothing left to write are released (12 R307). -/
def State.releaseDone (s : State) (c : Nat) (data : Bool) (m : Cmd) : State :=
  { s with claims := s.claims.filter (fun q => !(q.core = c && q.data == data && q.seq == m.seq)
      || ((s.core c).staged data).any (fun x => x.line = q.line)) }

/-- A command after a piece of its work: it goes on later, or its staged writes are left, or it retires. -/
def State.carry (s : State) (c : Nat) (data : Bool) (m : Cmd) (w : Work) : State :=
  match w.rest with
  | some p => s.setCore c ((s.core c).setHead data { m with prog := some p, lost := false })
  | none =>
    if ((s.core c).staged data).isEmpty then s.retire c data m w.flags w.reason
    else
      let p := { m.progress with flags := w.flags, reason := w.reason, ended := true }
      (s.setCore c ((s.core c).setHead data { m with prog := some p })).releaseDone c data m

/-- Bytes that a staged write covers, from the first to the last. -/
def Staged.span (x : Staged) : Nat × Nat :=
  let first := (x.bytes.headD (0, 0)).1
  (x.line * 128 + first, ((x.bytes.getLast?).getD (0, 0)).1 - first + 1)

/-- Why bytes written to a line are dropped when they come to its home: a key that has gone meanwhile, or an address that
the base die answers with an error; the cause, and the kind of the queue entry (12 R317, R320, R322). -/
def State.writeFails (s : State) (l : Loc) (tenant : BitVec 10) : Option (Cause × Nat) :=
  if storeOf l.place ≠ .hbm then none
  else if s.keyGone l.key then some (Cause.key, 5)
  else if s.poolError l.place then some (Cause.memory, 1)
  else if s.retiredPage l.place && s.writesThrough l tenant then some (Cause.memory, 3)
  else none

/-- A write of a command that fails so is recorded and told to its fault domain (12 Table 12.6; 15 R382, Table 15.9).
DEDUCED (log 97): the command completes with reason 7 or 4. -/
def State.engRefused (s : State) (c : Nat) (m : Cmd) (place : Nat) (e : Cause × Nat) : State :=
  let t := s.faqAdd e.2 place
  t.report (regionReport t m.root m.rid 0x04 e.1 (8 * c + m.slot) (BitVec.ofNat 64 place) 0 0)
def refusedReason (e : Cause × Nat) : Nat := if e.2 = 5 then 7 else 4

/-- The first reason, but one that fails a command before one that lets it complete (08 R198, 09 R220; log 97). -/
def worseReason (data : Bool) (a b : Nat) : Nat := if completes data a && !completes data b then b else firstReason a b

/-- A staged write as a location. -/
def Staged.loc (x : Staged) : Loc := { place := x.line * 128, ms := x.ms, ro := false, sec := x.sec, key := x.key }

/-- The k-th staged write of an engine is performed, when every earlier claimant of its line has released it and
no earlier write of the command to the line is left (12 R307). DESIGN CHOICE (log 97): a command that fails for a write
performs none of those that are left. -/
def State.engineWrite (s : State) (c : Nat) (data : Bool) (k : Nat) : State :=
  let xs := (s.core c).staged data
  match xs[k]?, (s.core c).queue data with
  | some x, m :: _ =>
    if (xs.take k).any (fun y => y.line = x.line) || !s.lineFree c data x.line
      || (storeOf (x.line * 128) = .hbm && s.inEpoch x.span.1 x.span.2) || s.mute c (x.line * 128)
      || (storeOf (x.line * 128) = .host && !s.pubRoom x.vf x.line) then s
    else
      let p := m.progress
      match s.writeFails x.loc x.tenant with
      | some e =>
        let q := { p with reason := worseReason data p.reason (refusedReason e) }
        let left := if completes data q.reason then xs.eraseIdx k else []
        let q := if completes data q.reason then q else { q with ended := true }
        let y := { m with prog := some q }
        let t := (s.setCore c (((s.core c).stage data left).setHead data y)).engRefused c m (x.line * 128) e
        if q.ended then t.releaseDone c data y else t
      | none =>
        let t := (s.setCore c ((s.core c).stage data (xs.eraseIdx k))).performStaged c x
        if p.ended then t.releaseDone c data m else t
  | _, _ => s

/-- The next piece of a command's work, once its accesses may be made. -/
def State.engStep (s : State) (c : Nat) (data : Bool) (m : Cmd)
    (next : State → Nat → Cmd → Option (List (Use × Reg × Nat))) (work : State → Nat → Cmd → Work) : State :=
  match s.engGate c data m (next s c m) with
  | .wait => s
  | .ask tenant l => s.askLine tenant l
  | .go ls =>
    let t := ls.foldl State.useHome s
    let w := work t c m
    w.s.carry c data m w

/-- The operation of an engine on the command at the head of its queue, if it is of the kind: a command
whose rings or claims are not ready waits; one that meets a reason fails without effect; else it executes, in one
step or row by row, and retires once its staged writes are performed (08 R193, R197, R198; 12 R307; log 9).
`reason` gives the reason that the command's own values and addresses fail it for, `next` the accesses that it makes
next, none while it waits for a neighbour. -/
def engineRun (core : BitVec 12) (data : Bool) (op : Nat) (reason : State → Nat → Cmd → Option Nat)
    (next : State → Nat → Cmd → Option (List (Use × Reg × Nat))) (work : State → Nat → Cmd → Work) (s : State) : Outcome :=
  let c := core.toNat
  match (s.core c).queue data with
  | [] => .next s
  | m :: _ =>
    if m.op ≠ op then .next s
    else if m.begun then
      if m.progress.ended then
        .next (if ((s.core c).staged data).isEmpty then s.retire c data m m.progress.flags m.progress.reason else s)
      else .next (s.engStep c data m next work)
    else if s.ringsWrong c m then .next (s.retire c data m 0 1)
    else if !s.ringsReady c m then .next s
    else match s.walkGate (s.whoCmd c m) m.runs with
    | .wait => .next s
    | .ask tenant l => .next (s.askLine tenant l)
    | .go _ => match s.commonReason c m, reason s c m with
      | some r, _ => .next (s.retire c data m 0 r)
      | none, some r =>
        let t := (s.runWalks (s.whoCmd c m) m.runs).foldl State.useHome s
        .next ((t.noteChecks c m r).retire c data m 0 r)
      | none, none => .next (if s.unrecorded c data m then s else s.engStep c data m next work)

end Sys2Proof.Machine
end

