-- ==== Sys2Proof/Machine/Rings.lean ====
section
/-! DEFINITION. The scalar instructions of rings and engines, and the entry of a command into its queue
(03 R78; 08 R187 to R192, R197, R200, R212, R216). -/

namespace Sys2Proof.Machine

/-! ### EWAIT (08 R200) -/

/-- The result of EWAIT (08 Table 8.9). -/
def ewaitWord (pend : Bool) (rseq qseq : BitVec 16) (y : Sticky) : Reg :=
  BitVec.ofNat 64 (pend.toNat * 2 ^ 63 + rseq.toNat * 2 ^ 32 + qseq.toNat * 2 ^ 16
    + y.reason.toNat * 2 ^ 12 + y.err.toNat * 2 ^ 8 + y.flags.toNat)

/-- EWAIT: control bit 0 selects the engine, bit 1 is NOWAIT (08 R200). -/
def execEwait (d a : BitVec 5) (s : State) : Outcome :=
  run (.ewait d a) (do
    let s ← get
    let data := (s.g a).getLsbD 0
    let x := s.me
    let pend := pending (s.here.queue data) s.cur.slot s.uid ≠ 0
    if pend && !(s.g a).getLsbD 1 then Act.park (.engine data)
    else do
      let r := if data then ewaitWord pend s.here.drseq x.dqseq x.dsticky
        else ewaitWord pend s.here.mrseq x.mqseq x.msticky
      set (s.setMe (if data then { x with dsticky := .reset } else { x with msticky := .reset }))
      Act.result d r) s

/-! ### Ring handles (08 R187 to R192) -/

/-- A ring descriptor of 16 bytes (08 Table 8.2), and the number it holds. -/
def ringDescOf (n : Nat) : RingDesc :=
  { win := BitVec.ofNat 2 (n / 2 ^ 56), offset := BitVec.ofNat 26 n,
    slotsz := BitVec.ofNat 6 (n / 2 ^ 64), slots := BitVec.ofNat 8 (n / 2 ^ 72) }

/-- A descriptor that QCFG does not take (08 R189). -/
def State.descBad (s : State) (c : Nat) (n : Nat) : Bool :=
  let d := ringDescOf n
  let last := d.offset.toNat + d.count * d.size
  n / 2 ^ 80 ≠ 0 || n / 2 ^ 70 % 4 ≠ 0 || n / 2 ^ 58 % 64 ≠ 0 || n / 2 ^ 26 % 2 ^ 30 ≠ 0
    || n % 64 ≠ 0
    || match d.win.toNat with
      | 0 => Config.spillBase < last
      | 1 => Config.cellarSize < last
      | 2 => Config.atticSize < last || !s.ringInAttic c d
      | _ => true

/-- A handle opened or closed: every QWAIT parked on it ends with a fault (08 R191). -/
def State.setHandle (s : State) (c q : Nat) (r : Option RingDesc) : State :=
  let x := s.core c
  let s := s.setCore c { x with q := match r with
    | some d => Tab.put x.q q { desc := d, head := 0, tail := 0, filled := 0 }
    | none => Tab.erase x.q q }
  s.mapSlots (fun c' _ y => match y.wait with
    | .ring q' _ _ => if c' = c && q'.toNat = q then { y with wait := .ringGone } else y
    | _ => y)

/-- QCFG (08 R189). DESIGN CHOICE (log 109): where the handle is busy and the descriptor is bad as well, the status is 1. -/
def execQcfg (d a : BitVec 5) (q : BitVec 4) (s : State) : Outcome :=
  run (.qcfg d a q) (do
    let s ← get
    let c := s.cur.core
    let busy := s.here.asSource q.toNat || s.here.asDest q.toNat
    if a = 0 then do
      if busy then Act.result d 1
      else do
        set (s.setHandle c q.toNat none)
        Act.result d 0
    else do
      let bs ← Act.load (s.g a) 16 16 true
      let s ← get
      if busy then Act.result d 1
      else if s.descBad c (leNat bs) then Act.result d 2
      else do
        set (s.setHandle c q.toNat (some (ringDescOf (leNat bs))))
        Act.result d 0) s

/-- The status of QPUT and QPOP on a handle, and the ring after them (08 R190). -/
def ringMove (c : Core) (q : Nat) (put : Bool) (k : Nat) : Nat × Option Ring :=
  match c.ring q with
  | none => (4, none)
  | some r =>
    if k = 0 || r.desc.count < k then (2, none)
    else if put && (c.asDest q || c.convoyInto q) then (3, none)
    else if !put && c.asSource q then (3, none)
    else if put && r.desc.count - r.filled < k then (1, none)
    else if !put && r.filled < k then (1, none)
    else (0, some (if put then r.push k else r.pop k))

/-- The work of QPUT and QPOP after the waits of each. -/
def ringMoveAct (d b : BitVec 5) (q : BitVec 4) (put : Bool) : Act Unit := do
  let s ← get
  let r := ringMove s.here q.toNat put (s.g b).toNat
  match r.2 with
  | some x => set (s.putRing s.cur.core q.toNat x)
  | none => pure ()
  Act.result d (BitVec.ofNat 64 r.1)

/-- QPUT: a release at the ring's scope comes first (08 R190). -/
def execQput (d b : BitVec 5) (q : BitVec 4) (s : State) : Outcome :=
  run (.qput d b q) (do
    let s ← get
    match s.here.ring q.toNat with
    | some r => Act.release r.desc.scope
    | none => pure ()
    ringMoveAct d b q true) s

/-- QPOP (08 R190). -/
def execQpop (d b : BitVec 5) (q : BitVec 4) (s : State) : Outcome :=
  run (.qpop d b q) (ringMoveAct d b q false) s

/-- The end of a QWAIT: with FREE = 0 an acquire at the scope of the ring that was waited for (08 R191). -/
def Act.ringEnd (d b : BitVec 5) (sc : Nat) (v : Reg) : Act Unit := do
  let s ← get
  if !(s.g b).getLsbD 63 then Act.acquire sc
  Act.result d v

/-- The work of a QWAIT that has not waited. -/
def Act.ringWait (d b : BitVec 5) (q : BitVec 4) : Act Unit := do
  let s ← get
  let k := (s.g b).toNat % 2 ^ 9
  let free := (s.g b).getLsbD 63
  match s.here.ring q.toNat with
  | none => Act.trap Cause.data (s.g b)
  | some r =>
    if k = 0 || r.desc.count < k then Act.trap Cause.data (s.g b)
    else if ringReady r k free then Act.ringEnd d b r.desc.scope (ringAddr r free)
    else Act.park (.ring q k free)

/-- QWAIT. A slot whose handle was opened anew or closed while it was parked takes a data fault (08 R191). -/
def execQwait (d b : BitVec 5) (q : BitVec 4) (s : State) : Outcome :=
  match s.me.wait with
  | .ringGone => .next (s.unpark.trapHere Cause.data (s.g b))
  | .ringWoken v sc => run (.qwait d b q) (Act.ringEnd d b sc v) s
  | _ => run (.qwait d b q) (Act.ringWait d b q) s

/-- QSTAT (08 R192, Table 8.4). -/
def execQstat (d : BitVec 5) (q : BitVec 4) (s : State) : Outcome :=
  simple (.qstat d q) (fun s =>
    let c := s.here
    s.setG d (match c.ring q.toNat with
      | none => BitVec.ofNat 64 ((c.asSource q.toNat).toNat * 2 ^ 62
          + (c.asDest q.toNat || c.convoyInto q.toNat).toNat * 2 ^ 61)
      | some r => BitVec.ofNat 64 (2 ^ 63 + (c.asSource q.toNat).toNat * 2 ^ 62
          + (c.asDest q.toNat || c.convoyInto q.toNat).toNat * 2 ^ 61
          + r.filled * 2 ^ 32 + r.head * 2 ^ 24 + r.tail * 2 ^ 16 + r.desc.slots.toNat * 2 ^ 8
          + r.desc.win.toNat * 2 ^ 6 + r.desc.slotsz.toNat))) s

/-! ### Skip map and strides (08 R212, R216) -/

/-- SKRD (08 R212). -/
def execSkrd (d a : BitVec 5) (s : State) : Outcome :=
  simple (.skrd d a) (fun s => s.setG d (s.here.skip.extractLsb' (64 * ((s.g a).toNat % 64)) 64)) s

/-- A bit map with one of its 64-bit words replaced. -/
def putWord (m : BitVec 4096) (k : Nat) (v : Reg) : BitVec 4096 :=
  let at' := 64 * k
  (m &&& ~~~((BitVec.allOnes 64).setWidth 4096 <<< at')) ||| (v.setWidth 4096 <<< at')

/-- SKWR (08 R212). -/
def execSkwr (a b : BitVec 5) (s : State) : Outcome :=
  simple (.skwr a b) (fun s =>
    s.setHere { s.here with skip := putWord s.here.skip ((s.g a).toNat % 64) (s.g b) }) s

/-- SRW: the old stride is read, then a new one is set unless rs1 is g0 (08 R216). -/
def execSrw (d a : BitVec 5) (n : BitVec 3) (s : State) : Outcome :=
  simple (.srw d a n) (fun s =>
    let old := Tab.get (0 : BitVec 16) s.here.s n.toNat
    let t := if a = 0 then s
      else s.setHere { s.here with s := Tab.set 0 s.here.s n.toNat ((s.g a).setWidth 16) }
    t.setG d (old.setWidth 64)) s

/-! ### Entry into a queue (03 R78, 01 R20, 08 R197) -/

/-- The lines of global memory that a command claims, each with the slice or base die that holds its claim
(06 R128, 08 R214, 09 R221, 12 R315). -/
def State.claimLines (s : State) (w : Who) (m : Cmd) : List (Nat × Nat) :=
  let ms (t : Target × Nat) : Bool := match t.1 with
    | .at' l => l.ms
    | .decoded _ _ => false
  let at' (va : Reg) (n : Nat) : List (Nat × Nat) := (s.engOk w .engineWrite va n).flatMap (fun t =>
    (targetLines [t]).map (fun line => (line, s.epochHome (line * 128) (ms t))))
  (match m.op with
    | 7 => m.rows.flatMap (fun (x : Nat × Nat × Reg × Reg) =>
        at' x.2.2.1 (rowBytes m.ta) ++ (if m.ta = 14 then at' x.2.2.2 2 else []))
    | 11 => if m.opt 1 then []
        else (List.range m.cpyRows).flatMap (fun r => at' (m.cpyDst r) m.cpyBytes)
    | _ => []).eraseDups

/-- A command as it enters its queue: the state it captures (01 R20, 03 R76, 08 R197). -/
def State.capture (s : State) (h : BitVec 25) (w1 w2 w3 w4 w5 w6 w7 : Word) : Cmd :=
  let hdr := cmdHeader h
  let c := s.here
  let ring (q : Nat) : Option RingDesc := (c.ring q).map (·.desc)
  let ctr := BitVec.ofNat 5 (bits hdr 30 26)
  let t := s.me.task
  let data := 11 ≤ bits hdr 10 7
  { header := hdr, w1 := w1, w2 := w2, w3 := w3, w4 := w4, w5 := w5, w6 := w6, w7 := w7,
    seq := (if data then c.dseq else c.mseq) + 1,
    ctr := if ctr = 0 then none else some (s.g ctr),
    ringA := ring (bits hdr 14 11), ringB := ring (bits hdr 18 15), ringD := ring (bits hdr 22 19),
    strides := (List.range 8).map (Tab.get 0 c.s), skthr := c.skthr, lut := c.lut, lfsr := c.lfsr,
    base1 := s.g (w2.extractLsb' 0 5), base2 := s.g (w2.extractLsb' 8 5),
    slot := s.cur.slot, uid := s.uid, root := (t.map (·.root)).getD 0, rid := (t.map (·.rid)).getD 0,
    secure := s.secure, limit := s.region.cycles.toNat, waited := 0, since := none, carry := [], prog := none, lost := false }

/-- The package after a command has entered its queue. -/
def State.enter (s : State) (m : Cmd) : State :=
  let c := s.cur.core
  let data := decide (11 ≤ m.op)
  let x := s.here
  let lines := s.claimLines (s.whoCmd c m) m
  let lfsr := if m.rm = 5 then lfsrSteps m.draws x.lfsr else x.lfsr
  let y := if data then { x with dataq := x.dataq ++ [m], dseq := m.seq, lfsr := lfsr }
    else { x with mixq := x.mixq ++ [m], mseq := m.seq, lfsr := lfsr }
  let s := s.setHere { y with l1 := y.l1.filter (fun z => !lines.any (fun e => e.1 = z.line)) }
  let s := s.setMe (if data then { s.me with dqseq := m.seq } else { s.me with mqseq := m.seq })
  { s with claims := s.claims ++ lines.map (fun e =>
      { line := e.1, unit := e.2, core := c, data := data, seq := m.seq,
        slot := m.slot, recorded := false }) }

/-- ENGINE_QUEUE_ENTRY: the slot stays at the header while the queue is full, or while a walk for a claim waits (03 R78,
15 R369). -/
def execEngineQueueEntry (h : BitVec 25) (w1 w2 w3 w4 w5 w6 w7 : BitVec 32) (s : State) : Outcome :=
  run (.engineQueueEntry h w1 w2 w3 w4 w5 w6 w7) (do
    let s ← get
    let m := s.capture h w1 w2 w3 w4 w5 w6 w7
    if Config.queueSize ≤ (s.here.queue (decide (11 ≤ m.op))).length then Act.stall
    else match s.walkGate (s.whoCmd s.cur.core m) (m.runs.filter (fun x => x.1.writes)) with
    | .wait => Act.stall
    | .ask tenant l => do
      set (s.askLine tenant l)
      Act.stall
    | .go _ => do
      set (s.enter m)
      Act.done) s

end Sys2Proof.Machine
end

