-- ==== Sys2Proof/Machine/Vector.lean ====
section
/-! DEFINITION. Vector and mask instructions (07 R163 to R184; 02 R59, R60). -/

namespace Sys2Proof.Machine

/-! ### Loads and stores (07 R168 to R172) -/

/-- The effective address: base plus 64 times the offset. -/
def vmiAddr (a : Reg) (i : BitVec 7) : Reg := a + sx i * 64

/-- The unmasked lanes of a width. -/
def activeLanes (w : Nat) (m : Reg) : List Nat := (List.range (lanes w)).filter (fun i => active m i)

/-- A register with the values of some lanes replaced. -/
def putLanes (w : Nat) (old : Vec) (idx vals : List Nat) : Vec :=
  (idx.zip vals).foldl (fun v e => setLane w v e.1 e.2) old

/-- The two checks that every vector access makes, whatever its mask (07 R169). -/
def vecAligned (ea : Reg) (b : Nat) : Act Unit :=
  if 2 ^ 52 ≤ ea.toNat then Act.trap Cause.wide ea
  else if ea.toNat % b ≠ 0 then Act.trap Cause.data ea
  else pure ()

/-- VLD (07 R168). -/
def execVld (v a : BitVec 5) (p : BitVec 3) (t : BitVec 5) (i : BitVec 7) (s : State) : Outcome :=
  run (.vld v a p t i) (do
    let s ← get
    let w := typeWidth t
    let ea := vmiAddr (s.g a) i
    vecAligned ea (w / 8)
    let idx := activeLanes w (s.p p.toNat)
    let xs ← Act.loadLanes (idx.map (fun j => ea + BitVec.ofNat 64 (w / 8 * j))) (w / 8) (w / 8)
    modify (fun s => s.setV v (putLanes w (s.v v) idx xs))
    Act.done) s

/-- VST (07 R168). -/
def execVst (v a : BitVec 5) (p : BitVec 3) (t : BitVec 5) (i : BitVec 7) (s : State) : Outcome :=
  run (.vst v a p t i) (do
    let s ← get
    let w := typeWidth t
    let ea := vmiAddr (s.g a) i
    vecAligned ea (w / 8)
    let idx := activeLanes w (s.p p.toNat)
    Act.storeLanes (idx.map (fun j => (ea + BitVec.ofNat 64 (w / 8 * j), lane w (s.v v) j))) (w / 8) (w / 8)
    Act.done) s

/-- The address of a lane of VLDX and VSTX (07 R171). -/
def indexAddr (a : Reg) (idx : Vec) (k : BitVec 2) (i : Nat) : Reg :=
  a + (BitVec.ofNat 64 (lane 32 idx i) <<< k.toNat)

/-- VLDX (07 R171). -/
def execVldx (d a b : BitVec 5) (p : BitVec 3) (t : BitVec 5) (k : BitVec 2) (s : State) : Outcome :=
  run (.vldx d a b p t k) (do
    let s ← get
    let w := typeWidth t
    let idx := activeLanes w (s.p p.toNat)
    let xs ← Act.loadLanes (idx.map (indexAddr (s.g a) (s.v b) k)) (w / 8) (w / 8)
    modify (fun s => s.setV d (putLanes w (s.v d) idx xs))
    Act.done) s

/-- VSTX: of two lanes that name the same bytes the higher is the later one (07 R171). -/
def execVstx (d a b : BitVec 5) (p : BitVec 3) (t : BitVec 5) (k : BitVec 2) (s : State) : Outcome :=
  run (.vstx d a b p t k) (do
    let s ← get
    let w := typeWidth t
    let idx := activeLanes w (s.p p.toNat)
    Act.storeLanes (idx.map (fun j => (indexAddr (s.g a) (s.v b) k j, lane w (s.v d) j))) (w / 8) (w / 8)
    Act.done) s

/-! ### Lane arithmetic (07 R165, R173, R174) -/

/-- A register computed lane by lane, ascending; a masked lane keeps its old value. -/
def overLanes (w : Nat) (m : Reg) (old : Vec) (f : Nat → Fp → Nat × Fp) (fp : Fp) : Vec × Fp :=
  let r := eachLane (fun i fp => if active m i then f i fp else (lane w old i, fp)) (List.range (lanes w)) fp
  (ofLanes w r.1, r.2)

/-- A computed vector is written, and what it did to FSTAT and the LFSR. -/
def State.setVec (s : State) (d : BitVec 5) (r : Vec × Fp) : State := (s.settle r.2).setV d r.1

/-- A lane operation on two sources and the old destination. -/
def laneOp (i : Instr) (d a b : BitVec 5) (p : Nat) (w : Nat) (f : Nat → Nat → Nat → Fp → Nat × Fp)
    (s : State) : Outcome :=
  simple i (fun s => s.setVec d (overLanes w (s.p p) (s.v d)
    (fun j fp => f (lane w (s.v a) j) (lane w (s.v b) j) (lane w (s.v d) j) fp) s.fp)) s

/-- The integer that a lane of a type holds. -/
def laneInt (t : BitVec 5) (x : Nat) : Int := intOf (isSigned t) (typeWidth t) x

/-- VADD (07 R173). -/
def execVadd (d a b : BitVec 5) (p : BitVec 2) (t : BitVec 5) (m : BitVec 3) (s : State) : Outcome :=
  laneOp (.vadd d a b p t m) d a b p.toNat (typeWidth t) (fun x y _ fp =>
    if isFloat t then fadd t m x y fp else (fitInt (m = 1) t (laneInt t x + laneInt t y), fp)) s

/-- VSUB (07 R173). -/
def execVsub (d a b : BitVec 5) (p : BitVec 2) (t : BitVec 5) (m : BitVec 3) (s : State) : Outcome :=
  laneOp (.vsub d a b p t m) d a b p.toNat (typeWidth t) (fun x y _ fp =>
    if isFloat t then fsub t m x y fp else (fitInt (m = 1) t (laneInt t x - laneInt t y), fp)) s

/-- VMUL (07 R173). -/
def execVmul (d a b : BitVec 5) (p : BitVec 2) (t : BitVec 5) (m : BitVec 3) (s : State) : Outcome :=
  laneOp (.vmul d a b p t m) d a b p.toNat (typeWidth t) (fun x y _ fp =>
    if isFloat t then fmul t m x y fp else (fitInt (m = 1) t (laneInt t x * laneInt t y), fp)) s

/-- VFMA: a·b + c, rounded once (07 R173). -/
def execVfma (d a b : BitVec 5) (p : BitVec 2) (t : BitVec 5) (m : BitVec 3) (s : State) : Outcome :=
  laneOp (.vfma d a b p t m) d a b p.toNat (typeWidth t) (fun x y z fp =>
    if isFloat t then ffma t m false x y z fp
    else (fitInt (m = 1) t (laneInt t x * laneInt t y + laneInt t z), fp)) s

/-- VFMS: a·b − c, rounded once; a NaN c keeps its sign (07 R173). -/
def execVfms (d a b : BitVec 5) (p : BitVec 2) (t : BitVec 5) (m : BitVec 3) (s : State) : Outcome :=
  laneOp (.vfms d a b p t m) d a b p.toNat (typeWidth t) (fun x y z fp =>
    if isFloat t then ffma t m true x y z fp
    else (fitInt (m = 1) t (laneInt t x * laneInt t y - laneInt t z), fp)) s

/-- VRCP (07 R174). -/
def execVrcp (d a : BitVec 5) (p : BitVec 2) (t : BitVec 5) (m : BitVec 3) (s : State) : Outcome :=
  laneOp (.vrcp d a p t m) d a a p.toNat (typeWidth t) (fun x _ _ fp => funary 0 t m x fp) s

/-- VRSQ (07 R174). -/
def execVrsq (d a : BitVec 5) (p : BitVec 2) (t : BitVec 5) (m : BitVec 3) (s : State) : Outcome :=
  laneOp (.vrsq d a p t m) d a a p.toNat (typeWidth t) (fun x _ _ fp => funary 1 t m x fp) s

/-- VEXP2 (07 R174). -/
def execVexp2 (d a : BitVec 5) (p : BitVec 2) (t : BitVec 5) (m : BitVec 3) (s : State) : Outcome :=
  laneOp (.vexp2 d a p t m) d a a p.toNat (typeWidth t) (fun x _ _ fp => funary 2 t m x fp) s

/-- VLOG2 (07 R174). -/
def execVlog2 (d a : BitVec 5) (p : BitVec 2) (t : BitVec 5) (m : BitVec 3) (s : State) : Outcome :=
  laneOp (.vlog2 d a p t m) d a a p.toNat (typeWidth t) (fun x _ _ fp => funary 3 t m x fp) s

/-- VABS: on a floating type the sign bit is cleared, and no flag raised (07 R174). -/
def execVabs (d a : BitVec 5) (p : BitVec 2) (t : BitVec 5) (m : BitVec 3) (s : State) : Outcome :=
  laneOp (.vabs d a p t m) d a a p.toNat (typeWidth t) (fun x _ _ fp =>
    (if isFloat t then x % signBit t else fitInt (m = 1) t (laneInt t x).natAbs, fp)) s

/-- VNEG: on a floating type the sign bit is inverted, and no flag raised (07 R174). -/
def execVneg (d a : BitVec 5) (p : BitVec 2) (t : BitVec 5) (m : BitVec 3) (s : State) : Outcome :=
  laneOp (.vneg d a p t m) d a a p.toNat (typeWidth t) (fun x _ _ fp =>
    (if isFloat t then x ^^^ signBit t else fitInt (m = 1) t (-laneInt t x), fp)) s

/-! ### Two-operand lane operations (07 R175) -/

/-- VMIN (07 R175, 02 R48). -/
def execVmin (d a b : BitVec 5) (p : BitVec 3) (t : BitVec 5) (s : State) : Outcome :=
  laneOp (.vmin d a b p t) d a b p.toNat (typeWidth t) (fun x y _ fp =>
    if isFloat t then fminmax t false x y fp else (if laneInt t x ≤ laneInt t y then x else y, fp)) s

/-- VMAX (07 R175, 02 R48). -/
def execVmax (d a b : BitVec 5) (p : BitVec 3) (t : BitVec 5) (s : State) : Outcome :=
  laneOp (.vmax d a b p t) d a b p.toNat (typeWidth t) (fun x y _ fp =>
    if isFloat t then fminmax t true x y fp else (if laneInt t x ≤ laneInt t y then y else x, fp)) s

/-- VAND (07 R175). -/
def execVand (d a b : BitVec 5) (p : BitVec 3) (t : BitVec 5) (s : State) : Outcome :=
  laneOp (.vand d a b p t) d a b p.toNat (typeWidth t) (fun x y _ fp => (x &&& y, fp)) s

/-- VOR (07 R175). -/
def execVor (d a b : BitVec 5) (p : BitVec 3) (t : BitVec 5) (s : State) : Outcome :=
  laneOp (.vor d a b p t) d a b p.toNat (typeWidth t) (fun x y _ fp => (x ||| y, fp)) s

/-- VXOR (07 R175). -/
def execVxor (d a b : BitVec 5) (p : BitVec 3) (t : BitVec 5) (s : State) : Outcome :=
  laneOp (.vxor d a b p t) d a b p.toNat (typeWidth t) (fun x y _ fp => (x ^^^ y, fp)) s

/-- VSHL: by the low log2 w bits of the second lane (07 R175). -/
def execVshl (d a b : BitVec 5) (p : BitVec 3) (t : BitVec 5) (s : State) : Outcome :=
  laneOp (.vshl d a b p t) d a b p.toNat (typeWidth t) (fun x y _ fp =>
    (x * 2 ^ (y % typeWidth t) % 2 ^ typeWidth t, fp)) s

/-- VSHR (07 R175). -/
def execVshr (d a b : BitVec 5) (p : BitVec 3) (t : BitVec 5) (s : State) : Outcome :=
  laneOp (.vshr d a b p t) d a b p.toNat (typeWidth t) (fun x y _ fp => (x / 2 ^ (y % typeWidth t), fp)) s

/-- VSHA: copies of the lane's top bit come in, whatever the type (07 R175). -/
def execVsha (d a b : BitVec 5) (p : BitVec 3) (t : BitVec 5) (s : State) : Outcome :=
  laneOp (.vsha d a b p t) d a b p.toNat (typeWidth t) (fun x y _ fp =>
    (wrapInt (typeWidth t) (intOf true (typeWidth t) x / 2 ^ (y % typeWidth t)), fp)) s

/-! ### Compares, moves and permutations (07 R176 to R181) -/

/-- VCMP: masked bits keep their value, and the bits above the lanes are cleared (07 R176). -/
def execVcmp (q : BitVec 3) (e : BitVec 2) (a b : BitVec 5) (p : BitVec 3) (t : BitVec 5) (c : BitVec 2)
    (s : State) : Outcome :=
  simple (.vcmp q e a b p t c) (fun s =>
    let w := typeWidth t
    let m := s.p p.toNat
    let old := s.p q.toNat
    let r := eachLane (fun i fp =>
      if active m i then
        let h := fcond (c.toNat * 4 + e.toNat) (val t (lane w (s.v a) i)) (val t (lane w (s.v b) i))
        (h.1, fp.raiseIf h.2 flagNV)
      else (old.getLsbD i, fp)) (List.range (lanes w)) s.fp
    (s.settle r.2).setP q.toNat
      (BitVec.ofNat 64 (r.1.foldr (fun b acc => b.toNat + 2 * acc) 0))) s

/-- VSEL: the mask register selects, and every lane is written (07 R177). -/
def execVsel (d a b : BitVec 5) (p : BitVec 3) (t : BitVec 5) (s : State) : Outcome :=
  simple (.vsel d a b p t) (fun s =>
    s.setV d (maskLanes (typeWidth t) (s.p p.toNat) (s.v b) (lane (typeWidth t) (s.v a)))) s

/-- VPERM (07 R177). -/
def execVperm (d a b : BitVec 5) (p : BitVec 3) (t : BitVec 5) (s : State) : Outcome :=
  simple (.vperm d a b p t) (fun s =>
    let w := typeWidth t
    s.setV d (maskLanes w (s.p p.toNat) (s.v d)
      (fun i => lane w (s.v a) (lane w (s.v b) i % lanes w)))) s

/-- VPACK: narrow elements by truncation (07 R178). -/
def execVpack (d a b t : BitVec 5) (s : State) : Outcome :=
  simple (.vpack d a b t) (fun s =>
    let u := typeWidth t
    let n := 256 / u
    s.setV d (ofLanes u ((List.range (2 * n)).map (fun i =>
      if i < n then lane (2 * u) (s.v a) i else lane (2 * u) (s.v b) (i - n))))) s

/-- VUNPK: the elements of one half, extended (07 R178). -/
def execVunpk (d a h t : BitVec 5) (s : State) : Outcome :=
  simple (.vunpk d a h t) (fun s =>
    let u := typeWidth t
    let n := 256 / u
    s.setV d (ofLanes (2 * u) ((List.range n).map (fun i =>
      wrapInt (2 * u) (intOf (isSigned t) u (lane u (s.v a) (h.toNat * n + i))))))) s

/-- VCVT: a narrower result clears the bits above its elements (07 R179). -/
def execVcvt (d a t : BitVec 5) (p : BitVec 2) (src : BitVec 5) (m : BitVec 3) (s : State) : Outcome :=
  simple (.vcvt d a t p src m) (fun s =>
    let ws := typeWidth src
    let wd := typeWidth t
    let r := eachLane (fun i fp =>
      if active (s.p p.toNat) i then cvtElem src t m (lane ws (s.v a) i) fp else (lane wd (s.v d) i, fp))
      (List.range (512 / Nat.max ws wd)) s.fp
    (s.settle r.2).setV d (ofLanes wd r.1)) s

/-- VBCAST (07 R180). -/
def execVbcast (d a : BitVec 5) (p : BitVec 3) (t : BitVec 5) (s : State) : Outcome :=
  simple (.vbcast d a p t) (fun s =>
    s.setV d (maskLanes (typeWidth t) (s.p p.toNat) (s.v d) (fun _ => (s.g a).toNat))) s

/-- VMOVG: 0 for an index past the lanes (07 R180). -/
def execVmovg (d a b t : BitVec 5) (s : State) : Outcome :=
  simple (.vmovg d a b t) (fun s =>
    let w := typeWidth t
    s.setG d (if lanes w ≤ (s.g b).toNat then 0 else convReg' t w (lane w (s.v a) (s.g b).toNat))) s
where
  /-- A lane as a register holds it: sign-extended for signed integers, else zero-extended. -/
  convReg' (t : BitVec 5) (w x : Nat) : Reg := if isInt t && isSigned t then sext64 w x else zext64 w x

/-- VLUT: codes through the core's LUT (07 R181). -/
def execVlut (d a h : BitVec 5) (s : State) : Outcome :=
  simple (.vlut d a h) (fun s =>
    s.setV d (ofLanes 8 ((List.range 64).map (fun i =>
      (lutByte s.here.lut (lane 4 (s.v a) (64 * h.toNat + i))).toNat)))) s

/-- VLUTSET (07 R181). -/
def execVlutset (a : BitVec 5) (s : State) : Outcome :=
  simple (.vlutset a) (fun s => s.setHere { s.here with lut := (s.v a).setWidth 128 }) s

/-! ### Dot products (07 R182) -/

/-- An element of an integer dot product: a code goes through the LUT. -/
def dotElem (lut : BitVec 128) (t : BitVec 5) (x : Nat) : Int :=
  if t = 15 then (lutByte lut x).toInt else intOf (isSigned t) (typeWidth t) x

/-- A product of two 8-bit floating elements, exact in FP32. DEDUCED (log 87): a NaN element gives the positive
canonical NaN, as 07 R182 says, and does not keep its sign as the last bullet of 02 R47 would. -/
def dotLeaf (t : BitVec 5) (x y : Nat) (fp : Fp) : Nat × Fp :=
  if (val t x).isNan || (val t y).isNan then (canonNan 10, fp)
  else match mulNum (val t x) (val t y) with
    | none => (canonNan 10, fp.raise flagNV)
    | some v => round 10 0 v fp

/-- One lane of VDOT from its accumulator and its source elements. -/
def dotLane (lut : BitVec 128) (t : BitVec 5) (m : BitVec 3) (acc : Nat) (xs : List (Nat × Nat)) (fp : Fp) :
    Nat × Fp :=
  if isFloat t then
    let ps := eachLane (fun i fp => dotLeaf t (xs.getD i (0, 0)).1 (xs.getD i (0, 0)).2 fp)
      (List.range xs.length) fp
    let r := treeOf (fadd 10 0) 0 3 ps.1 ps.2
    fadd 10 m acc r.1 r.2
  else
    let x := intOf true 32 acc + (xs.map (fun e => dotElem lut t e.1 * dotElem lut t e.2)).foldl (· + ·) 0
    (if m = 1 then satInt true 32 x else wrapInt 32 x, fp)

/-- VDOT (07 R182). -/
def execVdot (d a b : BitVec 5) (p : BitVec 2) (t : BitVec 5) (m : BitVec 3) (s : State) : Outcome :=
  simple (.vdot d a b p t m) (fun s =>
    let w := typeWidth t
    let k := 32 / w
    s.setVec d (overLanes 32 (s.p p.toNat) (s.v d) (fun j fp =>
      dotLane s.here.lut t m (lane 32 (s.v d) j)
        ((List.range k).map (fun i => (lane w (s.v a) (k * j + i), lane w (s.v b) (k * j + i)))) fp) s.fp)) s

/-! ### Reductions and scans (07 R183; 02 R59, R60) -/

/-- The format in which nodes of a sum are held. -/
def nodeType (t : BitVec 5) : BitVec 5 := if t = 8 || t = 9 then 10 else t

/-- The larger or the smaller of two lanes in a reduction, −0 below +0; a NaN lane gives the first NaN, quieted
(02 R47, 07 R165, R183). -/
def pickNode (t : BitVec 5) (isMax : Bool) (x y : Nat) (fp : Fp) : Nat × Fp :=
  let a := val t x
  let b := val t y
  match [a, b].find? Num.isNan with
  | some n => (nanTo t n, fp.raiseIf (a.isSignalling || b.isSignalling) flagNV)
  | none => (if belowNum a b == isMax then y else x, fp)

/-- A node of a floating reduction: operators 0 add, 1 max, 2 min. -/
def redNode (o : BitVec 4) (t : BitVec 5) (x y : Nat) (fp : Fp) : Nat × Fp :=
  match o.toNat with
  | 0 => fadd (nodeType t) 0 x y fp
  | 1 => pickNode t true x y fp
  | _ => pickNode t false x y fp

/-- The identity of a floating reduction, in the format of its nodes. -/
def redUnit (o : BitVec 4) (t : BitVec 5) : Nat :=
  match o.toNat with
  | 0 => signBit (nodeType t)
  | 1 => infCode t true
  | _ => infCode t false

/-- A lane as it enters a floating reduction, and a node's value as it leaves it, rounded to the lane format: a lane that
no node has combined leaves quieted (02 R47, R60). -/
def redIn (o : BitVec 4) (t : BitVec 5) (x : Nat) (fp : Fp) : Nat × Fp :=
  if o = 0 && nodeType t ≠ t then cvt t (nodeType t) 0 x fp else (x, fp)
def redOut (o : BitVec 4) (t : BitVec 5) (m : BitVec 3) (x : Nat) (fp : Fp) : Nat × Fp :=
  cvt (if o = 0 then nodeType t else t) t m x fp

/-- A node of an integer reduction, exact; lanes enter `and`, `or` and `xor` as their bits. -/
def redInt (o : BitVec 4) (x y : Int) : Int :=
  match o.toNat with
  | 0 => x + y
  | 1 => max x y
  | 2 => min x y
  | 3 => (x.toNat &&& y.toNat : Nat)
  | 4 => (x.toNat ||| y.toNat : Nat)
  | _ => (x.toNat ^^^ y.toNat : Nat)

/-- The identity of an integer reduction. -/
def redIntUnit (o : BitVec 4) (t : BitVec 5) : Int :=
  match o.toNat with
  | 1 => intMin (isSigned t) (typeWidth t)
  | 2 => intMax (isSigned t) (typeWidth t)
  | 3 => 2 ^ typeWidth t - 1
  | _ => 0

/-- A lane as it enters an integer reduction, and a node's value as it leaves it. -/
def redIntIn (o : BitVec 4) (t : BitVec 5) (x : Nat) : Int := if o ≤ 2 then laneInt t x else x
def redIntOut (o : BitVec 4) (t : BitVec 5) (m : BitVec 3) (x : Int) : Nat :=
  if o = 0 then fitInt (m = 1) t x else wrapInt (typeWidth t) x

/-- One level of a scan: value n takes value n − d on its left (02 R59). DEDUCED (log 88): every node is computed
and raises its flags, also one that only masked lanes' outputs use. -/
def scanLevel {α : Type} (f : α → α → Fp → α × Fp) (e : α) (xs : List α) (d : Nat) (fp : Fp) :
    List α × Fp :=
  eachLane (fun n fp => if n < d then (xs.getD n e, fp) else f (xs.getD (n - d) e) (xs.getD n e) fp)
    (List.range xs.length) fp

/-- The levels of a scan, d = 1, 2, 4 and so on below the length. -/
def scanLevels {α : Type} (f : α → α → Fp → α × Fp) (e : α) : List Nat → List α → Fp → List α × Fp
  | [], xs, fp => (xs, fp)
  | d :: ds, xs, fp =>
    if d < xs.length then
      let r := scanLevel f e xs d fp
      scanLevels f e ds r.1 r.2
    else (xs, fp)

/-- The lanes of a source as they enter a floating reduction. -/
def redLoad (o : BitVec 4) (t : BitVec 5) (m : Reg) (x : Vec) (fp : Fp) : List Nat × Fp :=
  eachLane (fun i fp => if active m i then redIn o t (lane (typeWidth t) x i) fp else (redUnit o t, fp))
    (List.range (lanes (typeWidth t))) fp

/-- The lanes of a source as they enter an integer reduction. -/
def redIntLoad (o : BitVec 4) (t : BitVec 5) (m : Reg) (x : Vec) : List Int :=
  (List.range (lanes (typeWidth t))).map (fun i =>
    if active m i then redIntIn o t (lane (typeWidth t) x i) else redIntUnit o t)

/-- An integer node carries the flags along unchanged. -/
def redIntNode (o : BitVec 4) (x y : Int) (fp : Fp) : Int × Fp := (redInt o x y, fp)

/-- VRED: the result in lane 0, zero in every other lane (07 R183). -/
def execVred (d a : BitVec 5) (o : BitVec 4) (p : BitVec 2) (t : BitVec 5) (m : BitVec 3) (s : State) :
    Outcome :=
  simple (.vred d a o p t m) (fun s =>
    let mask := s.p p.toNat
    if isFloat t then
      let xs := redLoad o t mask (s.v a) s.fp
      let r := treeOf (redNode o t) (redUnit o t) 7 xs.1 xs.2
      let z := redOut o t m r.1 r.2
      s.setVec d (ofLanes (typeWidth t) [z.1], z.2)
    else
      let r := treeOf (redIntNode o) (redIntUnit o t) 7 (redIntLoad o t mask (s.v a)) s.fp
      s.setV d (ofLanes (typeWidth t) [redIntOut o t m r.1])) s

/-- VSCAN: the inclusive scan in each unmasked lane (07 R183). -/
def execVscan (d a : BitVec 5) (o : BitVec 4) (p : BitVec 2) (t : BitVec 5) (m : BitVec 3) (s : State) :
    Outcome :=
  simple (.vscan d a o p t m) (fun s =>
    let mask := s.p p.toNat
    let w := typeWidth t
    if isFloat t then
      let xs := redLoad o t mask (s.v a) s.fp
      let r := scanLevels (redNode o t) (redUnit o t) [1, 2, 4, 8, 16, 32] xs.1 xs.2
      s.setVec d (overLanes w mask (s.v d) (fun i fp => redOut o t m (r.1.getD i 0) fp) r.2)
    else
      let r := scanLevels (redIntNode o) (redIntUnit o t) [1, 2, 4, 8, 16, 32]
        (redIntLoad o t mask (s.v a)) s.fp
      s.setV d (maskLanes w mask (s.v d) (fun i => redIntOut o t m (r.1.getD i 0)))) s

/-! ### Masks (07 R184) -/

/-- PAND (07 R184). -/
def execPand (d a b : BitVec 5) (s : State) : Outcome :=
  simple (.pand d a b) (fun s => s.setP d.toNat (s.p a.toNat &&& s.p b.toNat)) s

/-- POR (07 R184). -/
def execPor (d a b : BitVec 5) (s : State) : Outcome :=
  simple (.por d a b) (fun s => s.setP d.toNat (s.p a.toNat ||| s.p b.toNat)) s

/-- PXOR (07 R184). -/
def execPxor (d a b : BitVec 5) (s : State) : Outcome :=
  simple (.pxor d a b) (fun s => s.setP d.toNat (s.p a.toNat ^^^ s.p b.toNat)) s

/-- PNOT (07 R184). -/
def execPnot (d a : BitVec 5) (s : State) : Outcome :=
  simple (.pnot d a) (fun s => s.setP d.toNat (~~~s.p a.toNat)) s

/-- PPOP: the set bits of all 64 (07 R184). -/
def execPpop (d a : BitVec 5) (s : State) : Outcome :=
  simple (.ppop d a) (fun s =>
    s.setG d (BitVec.ofNat 64 ((List.range 64).countP (fun i => (s.p a.toNat).getLsbD i)))) s

end Sys2Proof.Machine
end

