-- ==== Sys2Proof/Machine/Mixing.lean ====
section
/-! DEFINITION. The commands of the mixing engine (08 R185, R186, R202 to R215; 02 R45, R56 to R59). An
element enters a computation at its exact value; every node rounds to FP32 under RNE. -/

namespace Sys2Proof.Machine

/-! ### Tiles (08 R185, R186) -/

/-- Element e of a tile, and whether decoding it raises NV. -/
def elemNum (t : BitVec 5) (lut : BitVec 128) (b : Array Byte) (e : Nat) : Num × Bool :=
  let byte (i : Nat) : Nat := (b.getD i 0).toNat
  let code := byte (e / 2) / (if e % 2 = 0 then 1 else 16) % 16
  match t.toNat with
  | 14 =>
    let scale := byte (512 + 2 * (e / 32))
    let special := byte (513 + 2 * (e / 32))
    (e2m1Val code scale special, e2m1Nv code scale special)
  | 15 => (ofInt (lutByte lut code).toInt, false)
  | _ =>
    let n := typeWidth t / 8
    (val t (leNat ((List.range n).map (fun i => b.getD (n * e + i) 0))), false)

/-- The 1,024 elements of a tile, and the flags of decoding them (02 R62). DESIGN CHOICE (log 103): every element of a
tile is decoded, also those of a weight tile that a butterfly of fewer than 512 pairs never uses. -/
def tileNums (t : BitVec 5) (lut : BitVec 128) (bs : List Byte) (fp : Fp) : Array Num × Fp :=
  let b := bs.toArray
  let es := (List.range 1024).map (elemNum t lut b)
  ((es.map (·.1)).toArray, fp.raiseIf (es.any (·.2)) flagNV)

/-- Element e of a tile, 0 if it has none. -/
def numAt (a : Array Num) (e : Nat) : Num := a.getD e (.fin false 0 0)

/-- The tile in the k-th filled slot of a ring. -/
def State.tileIn (s : State) (c q k : Nat) (t : BitVec 5) (lut : BitVec 128) (fp : Fp) : Array Num × Fp :=
  tileNums t lut (s.srcSlot c false q k (tileSize t)) fp

/-- A rounding of an engine: one step of the captured sequence for each element written (02 R47, R52). -/
def engRound (t : BitVec 5) (mode : BitVec 3) (v : Num) (fp : Fp) : Nat × Fp :=
  let r := canonic t (round t mode v fp)
  (r.1, { r.2 with lfsr := lfsrStep fp.lfsr })

/-- Two codes a byte. -/
def packCodes : List Nat → List Byte
  | a :: b :: t => BitVec.ofNat 8 (a + 16 * b) :: packCodes t
  | [a] => [BitVec.ofNat 8 a]
  | [] => []

/-- The bytes of a tile written in a format: an E2M1 tile block by row (02 R45, 08 R205, R215). -/
def tileOut (t : BitVec 5) (mode : BitVec 3) (outl : Bool) (xs : Array Num) (fp : Fp) : List Byte × Fp :=
  if t = 14 then
    let r := eachLane (fun row fp =>
      let b := e2m1Block mode outl ((List.range 32).map (fun i => numAt xs (32 * row + i))) fp
      ((packCodes b.1, [BitVec.ofNat 8 b.2.1, BitVec.ofNat 8 b.2.2.1]), b.2.2.2)) (List.range 32) fp
    (r.1.flatMap (·.1) ++ r.1.flatMap (·.2), r.2)
  else
    let r := eachLane (fun e fp => engRound t mode (numAt xs e) fp) (List.range 1024) fp
    (r.1.flatMap (fun x => bytesOfNat (typeWidth t / 8) x), r.2)

/-- The rounding source with which a command writes its output tile k. -/
def Cmd.fpAt (m : Cmd) (k : Nat) (flags : BitVec 5) : Fp :=
  { flags := flags, lfsr := lfsrSteps (if m.rm = 5 then 1024 * k else 0) m.lfsr }

/-- The elements of an accumulator tile, as FP32 codes, and a tile set to new ones. -/
def Core.accTile (c : Core) (k : Nat) : Array Nat :=
  ((List.range 1024).map (fun e => (Tab.get (0 : Word) c.acc (1024 * k + e)).toNat)).toArray
def Core.setAcc (c : Core) (k e : Nat) (x : Nat) : Core :=
  { c with acc := Tab.set 0 c.acc (1024 * k + e) (BitVec.ofNat 32 x) }
def State.putAcc (s : State) (c k : Nat) (xs : List Nat) : State :=
  s.setCore c ((xs.foldl (fun (y : Core × Nat) x => (y.1.setAcc k y.2 x, y.2 + 1)) (s.core c, 0)).1)

/-- Reason 4 where one of the slots that a command reads meets an error; `read` says which slots of a ring it
reads (08 R198, R202). -/
def State.readReason (s : State) (c : Nat) (m : Cmd) (read : Nat → Nat → Bool) : Nat :=
  if m.sources.any (fun x => (List.range x.2.1).any (fun k => read x.1 k &&
    s.srcBad c x.1 k (if x.2.2 = 0 then s.slotSize c x.1 else x.2.2))) then 4 else 0

/-- Those errors recorded as they are met (12 R306). -/
def State.noteRead (s : State) (c : Nat) (m : Cmd) (read : Nat → Nat → Bool) : State :=
  m.sources.foldl (fun s x => ((List.range x.2.1).filter (read x.1)).foldl (fun s k =>
    s.noteSlot c x.1 k (if x.2.2 = 0 then s.slotSize c x.1 else x.2.2)) s) s
def State.noteSources (s : State) (c : Nat) (m : Cmd) : State := s.noteRead c m (fun _ _ => true)

/-- The same for a command that reads every slot it names. -/
def State.sourceReason (s : State) (c : Nat) (m : Cmd) : Nat := s.readReason c m (fun _ _ => true)

/-- Whether the skip bits of n tile slots are all set. -/
def Core.skips (c : Core) (j n : Nat) : Bool := (List.range n).all (fun i => c.skip.getLsbD (j + i))

/-- A command without a reason of its own, and one that names nothing by an address. -/
def noReason : State → Nat → Cmd → Option Nat := fun _ _ _ => none
def plainNext : State → Nat → Cmd → Option (List (Use × Reg × Nat)) := fun _ _ _ => some []

/-! ### MMA (08 R203, 02 R56, R57) -/

/-- A product of two exact values, rounded once to FP32. -/
def leafMul (x y : Num) (fp : Fp) : Nat × Fp := canonic 10 (fend 10 0 [x, y] false (mulNum x y) fp)

/-- A sum of two FP32 values in the engine. -/
def engAdd (x y : Nat) (fp : Fp) : Nat × Fp := canonic 10 (fadd 10 0 x y fp)

/-- One element of a tile product added to its accumulator element. -/
def mmaElem (a : Nat) (xs ys : List Num) (fp : Fp) : Nat × Fp :=
  let ps := eachLane (fun k fp => leafMul (xs.getD k (.fin false 0 0)) (ys.getD k (.fin false 0 0)) fp)
    (List.range 32) fp
  let r := treeOf engAdd 0 6 ps.1 ps.2
  engAdd a r.1 r.2

/-- A tile product; with TB the second tile is taken transposed. -/
def mmaTile (a : Array Nat) (x y : Array Num) (tb : Bool) (fp : Fp) : Array Nat × Fp :=
  let r := eachLane (fun e fp =>
    let i := e / 32
    let j := e % 32
    mmaElem (a.getD e 0) ((List.range 32).map (fun k => numAt x (32 * i + k)))
      ((List.range 32).map (fun k => numAt y (if tb then 32 * j + k else 32 * k + j))) fp)
    (List.range 1024) fp
  (r.1.toArray, r.2)

/-- The work of MMA. -/
def mmaWork (s : State) (c : Nat) (m : Cmd) : Work :=
  if m.sg && (s.core c).skips m.tslot 1 then { s := s, flags := 0, reason := 0 }
  else
    let a := if m.opt 1 then Array.replicate 1024 0 else (s.core c).accTile m.acc
    let r := (List.range (m.w2.toNat % 256 + 1)).foldl (fun (y : Array Nat × Fp) t =>
      let x := s.tileIn c m.qa t m.ta m.lut y.2
      let z := s.tileIn c m.qb t m.tb m.lut x.2
      mmaTile y.1 x.1 z.1 (m.opt 0) z.2) (a, { flags := 0, lfsr := 1 })
    { s := (s.noteSources c m).putAcc c m.acc r.1.toList, flags := r.2.flags, reason := s.sourceReason c m }

/-- MMA (08 R203). -/
def execMma (core : BitVec 12) (s : State) : Outcome := engineRun core false 0 noReason plainNext mmaWork s

/-! ### Butterflies (08 R204 to R206, 02 R58) -/

/-- A fused sum of two products, rounded once to FP32. -/
def dot2 (w x v y : Num) (fp : Fp) : Nat × Fp :=
  canonic 10 (fend 10 0 [w, x, v, y] (badProduct w x || badProduct v y)
    ((mulNum w x).bind (fun p => (mulNum v y).bind (fun q => addNum 0 p q))) fp)

/-- One stage of stride 2^b on vectors of N elements laid end to end. -/
def bflyStage (n b : Nat) (x w : Array Num) (fp : Fp) : Array Num × Fp :=
  let st := 2 ^ b
  let r := eachLane (fun e fp =>
    let i := e % n
    let hi := i.testBit b
    let lo := if hi then e - st else e
    let i0 := if hi then i - st else i
    let p := i0 / 2 ^ (b + 1) * st + i0 % st
    let k := 4 * p + (if hi then 2 else 0)
    let z := dot2 (numAt w k) (numAt x lo) (numAt w (k + 1)) (numAt x (lo + st)) fp
    (val 10 z.1, z.2)) (List.range x.size) fp
  (r.1.toArray, r.2)

/-- The strides of the stages, and whether all are powers of two up to half the vector. -/
def Cmd.bflyStrides (m : Cmd) : List Nat :=
  if m.op = 1 then [(m.strides.getD (bits m.w2 6 4) 0).toNat]
  else (m.strides.take m.bflyK).map (·.toNat)
def strideOk (n st : Nat) : Bool := st ≠ 0 && 2 ^ Nat.log2 st = st && 2 * st ≤ n

/-- Why a butterfly's values fail it. -/
def bflyReason (_ : State) (_ : Nat) (m : Cmd) : Option Nat :=
  if !(m.bflyStrides.all (strideOk m.bflyN)) || (m.sg && 4096 < m.tslot + m.c2 * m.bflyG) then some 2 else none

/-- The tiles of a ring from slot k on, laid end to end. -/
def State.tilesIn (s : State) (c q k n : Nat) (t : BitVec 5) (lut : BitVec 128) (fp : Fp) : Array Num × Fp :=
  (List.range n).foldl (fun (y : Array Num × Fp) i =>
    let x := s.tileIn c q (k + i) t lut y.2
    (y.1 ++ x.1, x.2)) (#[], fp)

/-- A group through every stage. -/
def bflyGroup (m : Cmd) (x w : Array Num) (fp : Fp) : Array Num × Fp :=
  (m.bflyStrides.zipIdx).foldl (fun (y : Array Num × Fp) st =>
    bflyStage m.bflyN (Nat.log2 st.1) y.1
      (w.extract (st.2 * m.bflyW * 1024) ((st.2 + 1) * m.bflyW * 1024)) y.2) (x, fp)

/-- Tiles written to the free slots from k on. -/
def State.tilesOut (s : State) (c : Nat) (m : Cmd) (outl : Bool) (x : Array Num) (k n : Nat) (flags : BitVec 5) :
    State × BitVec 5 :=
  (List.range n).foldl (fun (y : State × BitVec 5) i =>
    let r := tileOut m.td m.rm outl (x.extract (1024 * i) (1024 * (i + 1))) (m.fpAt (k + i) y.2)
    (y.1.dstPut c m.qd (k + i) 0 r.1, r.2.flags)) (s, flags)

/-- The work of BFLY and BFLYC: a group whose skip bits are all set is elided. -/
def bflyWork (s : State) (c : Nat) (m : Cmd) : Work :=
  let g := m.bflyG
  let w := s.tilesIn c m.qb 0 (m.bflyK * m.bflyW) m.tb m.lut { flags := 0, lfsr := 1 }
  let elided (i : Nat) : Bool := m.sg && (s.core c).skips (m.tslot + i * g) g
  let r := (List.range m.c2).foldl (fun (y : State × BitVec 5) i =>
    if elided i then y
    else
      let x := s.tilesIn c m.qa (i * g) g m.ta m.lut { flags := y.2 ||| w.2.flags, lfsr := 1 }
      let z := bflyGroup m x.1 w.1 x.2
      y.1.tilesOut c m (m.opt 0) z.1 (i * g) g z.2.flags) (s, 0)
  let read (q k : Nat) : Bool := if q = m.qa then !elided (k / g) else (List.range m.c2).any (fun i => !elided i)
  { s := r.1.noteRead c m read, flags := r.2, reason := s.readReason c m read }

/-- BFLY (08 R204, R205). -/
def execBfly (core : BitVec 12) (s : State) : Outcome := engineRun core false 1 bflyReason plainNext bflyWork s

/-- BFLYC (08 R204, R205). -/
def execBflyc (core : BitVec 12) (s : State) : Outcome := engineRun core false 2 bflyReason plainNext bflyWork s

/-! ### SCAN (08 R207, R208; 02 R59) -/

/-- A value rounded to FP32 as a node leaves it. -/
def node32 (ops : List Num) (bad : Bool) (r : Option Num) (fp : Fp) : Num × Fp :=
  let z := canonic 10 (fend 10 0 ops bad r fp)
  (val 10 z.1, z.2)

/-- x ⊕ y of a scan: 0 add, 1 max, 2 affine, whose elements are pairs. -/
def scanOp (k : Nat) (x y : Num × Num) (fp : Fp) : (Num × Num) × Fp :=
  match k with
  | 0 =>
    let r := node32 [x.1, y.1] false (addNum 0 x.1 y.1) fp
    ((r.1, x.2), r.2)
  | 1 =>
    let fp := fp.raiseIf (x.1.isSignalling || y.1.isSignalling) flagNV
    if x.1.isNan || y.1.isNan then ((val 10 (canonNan 10), x.2), fp)
    else ((if belowNum x.1 y.1 then y.1 else x.1, x.2), fp)
  | _ =>
    let a := node32 [y.1, x.1] false (mulNum y.1 x.1) fp
    let b := node32 [y.1, x.2, y.2] (badProduct y.1 x.2)
      ((mulNum y.1 x.2).bind (fun p => addNum 0 p y.2)) a.2
    ((a.1, b.1), b.2)

/-- A carry applied to an element: an FP32 value. DESIGN CHOICE (log 104): in a scan of kind max an element outside FP32,
a scaled E2M1 one, is rounded once, under RNE and with its flags, when this node is applied. -/
def scanApply (k : Nat) (h : Num) (x : Num × Num) (fp : Fp) : Num × Fp :=
  match k with
  | 2 => node32 [x.1, h, x.2] (badProduct x.1 h) ((mulNum x.1 h).bind (fun p => addNum 0 p x.2)) fp
  | _ =>
    let r := scanOp k (h, x.2) x fp
    node32 [r.1.1] false (some r.1.1) r.2

/-- One tile scanned from a carry: its outputs and the carry it leaves. -/
def scanTile (k : Nat) (excl : Bool) (h : Num) (xs : List (Num × Num)) (fp : Fp) : (List Num × Num) × Fp :=
  let zero : Num × Num := (.fin false 0 0, .fin false 0 0)
  let r := scanLevels (scanOp k) zero [1, 2, 4, 8, 16, 32, 64, 128, 256, 512] xs fp
  let ys := r.1.toArray
  let o := eachLane (fun n fp =>
    if excl then (if n = 0 then (h, fp) else scanApply k h (ys.getD (n - 1) zero) fp)
    else scanApply k h (ys.getD n zero) fp) (List.range 1024) r.2
  let z := scanApply k h (ys.getD 1023 zero) o.2
  ((o.1, z.1), z.2)

/-- The kind, the chains, and the carry codes of a SCAN. -/
def Cmd.scanKind (m : Cmd) : Nat := bits m.w2 1 0
def Cmd.chains (m : Cmd) : Nat := bits m.w2 23 16 + 1
def Cmd.cin (m : Cmd) : Nat := bits m.w3 2 0
def Cmd.cout (m : Cmd) : Nat := bits m.w3 6 4
/-- Mailbox entries that carry the chains. -/
def Cmd.carries (m : Cmd) : Nat := (m.chains + 15) / 16

/-- The identity that a carry starts from. -/
def scanUnit (k : Nat) : Nat :=
  match k with
  | 0 => 0x80000000
  | 1 => 0xFF800000
  | _ => 0

/-- The neighbour of a core as a command's task sees it. -/
def State.cmdNeighbour (s : State) (c : Nat) (m : Cmd) (dir : Nat) : Option Nat :=
  neighbourOf (s.regionBy m.root m.rid) (s.core c).ncfg c dir

/-- A direction without neighbour fails a SCAN. -/
def scanReason (s : State) (c : Nat) (m : Cmd) : Option Nat :=
  if (4 ≤ m.cin && (s.cmdNeighbour c m (m.cin - 4)).isNone)
    || (4 ≤ m.cout && (s.cmdNeighbour c m (m.cout - 4)).isNone) then some 6 else none

/-- Whether a SCAN still wants an entry of a neighbour. -/
def Cmd.wants (m : Cmd) : Bool := m.op = 3 && !m.begun && 4 ≤ m.cin && decide (m.carry.length < m.carries)

/-- A SCAN waits for the entries it takes; then, entry by entry, for room for those it sends (08 R208). -/
def scanNext (s : State) (c : Nat) (m : Cmd) : Option (List (Use × Reg × Nat)) :=
  if m.wants then none
  else if decide (4 ≤ m.cout) && (match s.cmdNeighbour c m (m.cout - 4) with
      | some d => s.mailRoom d ((m.cout - 4 + 2) % 4) = 0
      | none => false) then none
  else some []

/-- A SCAN that wants entries takes those that stand in the mailbox, where no slot is parked on it; from its first wait
on it competes with the slots that park (08 R208, 09 R240). -/
def State.scanTake (s : State) (c : Nat) (m : Cmd) : State :=
  let es := (s.mailbox c (m.cin - 4)).take (m.carries - m.carry.length)
  let t := s.mailDrop c (m.cin - 4) es.length
  let y := { m with carry := m.carry ++ es, since := some (m.since.getD s.stamp) }
  { t.setCore c ((t.core c).setHead false y) with stamp := s.stamp + 1 }

/-- Carries received into the accumulator. -/
def State.scanCarry (s : State) (c : Nat) (m : Cmd) : State :=
  if m.cin < 4 then s
  else (List.range m.chains).foldl (fun s j =>
    s.setCore c ((s.core c).setAcc m.acc j (lane 32 (m.carry.getD (j / 16) 0) (j % 16)))) s

/-- The e-th entry of final carries, as they stand in a package after the chains, is sent on. -/
def State.scanEntry (s : State) (c : Nat) (m : Cmd) (e : Nat) (done : State) : State :=
  match s.cmdNeighbour c m (m.cout - 4) with
  | none => s
  | some d =>
    let a := (done.core c).accTile m.acc
    s.mailSend c d (m.cout - 4) m.slot 0 0 (ofLanes 32 ((List.range 16).map (fun i =>
      if 16 * e + i < m.chains then a.getD (16 * e + i) 0 else 0)))

/-- One chain: its tiles in sequence, each from the carry that the one before it left. -/
def State.scanChain (s : State) (src : State) (c : Nat) (m : Cmd) (j : Nat) (flags : BitVec 5) :
    State × BitVec 5 :=
  let k := m.scanKind
  let h0 := if m.cin = 1 then scanUnit k else (Tab.get (0 : Word) (s.core c).acc (1024 * m.acc + j)).toNat
  let r := (List.range m.c2).foldl (fun (y : State × Num × BitVec 5) t =>
    let n := j * m.c2 + t
    let x := src.tileIn c m.qa n m.ta m.lut { flags := y.2.2, lfsr := 1 }
    let b := if k = 2 then src.tileIn c m.qb n m.tb m.lut x.2 else (#[], x.2)
    let z := scanTile k (m.w2.getLsbD 2) y.2.1
      ((List.range 1024).map (fun e => (numAt x.1 e, numAt b.1 e))) b.2
    let o := y.1.tilesOut c m false z.1.1.toArray n 1 z.2.flags
    (o.1, z.1.2, o.2)) (s, val 10 h0, flags)
  let back := canonic 10 (round 10 0 r.2.1 { flags := 0, lfsr := 1 })
  (r.1.setCore c ((r.1.core c).setAcc m.acc j back.1), r.2.2)

/-- The chains of a SCAN carried out: the package after them, and their flags. -/
def State.scanChains (s : State) (c : Nat) (m : Cmd) : State × BitVec 5 :=
  (List.range m.chains).foldl (fun (y : State × BitVec 5) j => y.1.scanChain s c m j y.2) (s.scanCarry c m, 0)

/-- The work of SCAN: each entry of final carries that it sends, and with the last one its outputs. Until then it has
written nothing, so that it may still fail (08 R198, R199). -/
def scanWork (s : State) (c : Nat) (m : Cmd) : Work :=
  let r := s.scanChains c m
  let e := m.progress.pos
  if 4 ≤ m.cout && decide (e + 1 < m.carries) then
    { s := s.scanEntry c m e r.1, flags := 0, reason := 0, rest := some { m.progress with pos := e + 1 } }
  else
    let t := r.1.noteSources c m
    { s := if 4 ≤ m.cout then t.scanEntry c m e r.1 else t, flags := r.2, reason := s.sourceReason c m }

/-- Whether the command at the head begins now: its rings are ready and nothing fails it. -/
def State.scanBegins (s : State) (c : Nat) (m : Cmd) : Bool :=
  !s.ringsWrong c m && s.ringsReady c m && ((s.commonReason c m).or (scanReason s c m)).isNone

/-- SCAN (08 R207, R208). -/
def execScan (core : BitVec 12) (s : State) : Outcome :=
  let c := core.toNat
  match (s.core c).mixq with
  | m :: _ =>
    if m.wants && s.scanBegins c m && (m.since.isNone || !(s.mailbox c (m.cin - 4)).isEmpty) then .next (s.scanTake c m)
    else engineRun core false 3 scanReason scanNext scanWork s
  | [] => .next s

/-! ### Signatures and skipping (08 R209 to R211) -/

/-- The signature of one strip of a tile. -/
def stripSig (x : Array Num) (q : Nat) (fp : Fp) : Nat × Fp :=
  let ps := eachLane (fun i fp =>
    let v := numAt x (64 * q + i)
    if v.isNan then (canonNan 10, fp.raiseIf v.isSignalling flagNV) else round 10 0 v.abs fp)
    (List.range 64) fp
  treeOf engAdd 0 7 ps.1 ps.2

/-- Slots smaller than the signatures fail a TSIG (reason 2). -/
def tsigReason (s : State) (c : Nat) (m : Cmd) : Option Nat :=
  if s.slotSize c m.qd < 64 * (m.w2.toNat % 64 + 1) then some 2 else none

/-- The work of TSIG. -/
def tsigWork (s : State) (c : Nat) (m : Cmd) : Work :=
  let r := (List.range (m.w2.toNat % 64 + 1)).foldl (fun (y : State × Fp) t =>
    let x := s.tileIn c m.qa t m.ta m.lut y.2
    let z := eachLane (stripSig x.1) (List.range 16) x.2
    (y.1.dstPut c m.qd 0 (64 * t) (z.1.flatMap (bytesOfNat 4)), z.2)) (s, { flags := 0, lfsr := 1 })
  { s := r.1.noteSources c m, flags := r.2.flags, reason := s.sourceReason c m }

/-- TSIG (08 R209). -/
def execTsig (core : BitVec 12) (s : State) : Outcome := engineRun core false 4 tsigReason plainNext tsigWork s

/-- A skip bit set or cleared. -/
def putSkip (m : BitVec 4096) (j : Nat) (b : Bool) : BitVec 4096 :=
  let one := (1 : BitVec 4096) <<< j
  if b then m ||| one else m &&& ~~~one

/-- The stored signatures of a tile slot, and a tile slot given new ones. -/
def Core.refsOf (c : Core) (j : Nat) : List Nat :=
  (List.range 16).map (fun q => (Tab.get (0 : Word) c.refs (16 * j + q)).toNat)
def Core.setRefs (c : Core) (j : Nat) (xs : List Nat) : Core :=
  { c with refs := (xs.zipIdx).foldl (fun t e => Tab.set 0 t (16 * j + e.2) (BitVec.ofNat 32 e.1)) c.refs }

/-- How far a tile has changed: the tree over the distances of its signatures. -/
def tileChange (sg ref : List Nat) : Nat :=
  let ds := (List.range 16).map (fun q =>
    let a := val 10 (sg.getD q 0)
    let b := val 10 (ref.getD q 0)
    let d := fend 10 0 [a, b] false (addNum 0 a b.negate) { flags := 0, lfsr := 1 }
    d.1 % 2 ^ 31)
  (treeOf engAdd 0 5 ds { flags := 0, lfsr := 1 }).1

/-- A range past the last tile slot, or slots smaller than the signatures. -/
def tskipReason (s : State) (c : Nat) (m : Cmd) : Option Nat :=
  let n := m.w2.toNat % 64 + 1
  if 4096 < m.tslot + n || s.slotSize c m.qa < 64 * n then some 2 else none

/-- The work of TSKIP. -/
def tskipWork (s : State) (c : Nat) (m : Cmd) : Work :=
  let n := m.w2.toNat % 64 + 1
  let bs := s.srcSlot c false m.qa 0 (64 * n)
  let y := (List.range n).foldl (fun (y : Core) t =>
    let j := m.tslot + t
    let sg := (List.range 16).map (fun q => natAt bs (64 * t + 4 * q) 4)
    let small := (fcond 2 (val 10 (tileChange sg (y.refsOf j))) (val 10 m.skthr.toNat)).1
    if !m.opt 0 && small then { y with skip := putSkip y.skip j true }
    else { y with skip := putSkip y.skip j false }.setRefs j sg) (s.core c)
  { s := (s.noteSlot c m.qa 0 (64 * n)).setCore c y, flags := 0, reason := s.headReason c [(m.qa, 64 * n)] }

/-- TSKIP (08 R210). -/
def execTskip (core : BitVec 12) (s : State) : Outcome := engineRun core false 5 tskipReason plainNext tskipWork s

/-- The range of an ECFG: its first tile slot and its count. -/
def Cmd.cfgBase (m : Cmd) : Nat := m.tslot
def Cmd.cfgCount (m : Cmd) : Nat := m.w4.toNat % 8192 + 1

/-- Why an ECFG's values fail it. -/
def ecfgReason (s : State) (c : Nat) (m : Cmd) : Option Nat :=
  let k := bits m.w2 1 0
  if 4096 < m.cfgBase + m.cfgCount then some 2
  else if (k = 2 && s.slotSize c m.qa / 64 < m.cfgCount) || (k = 3 && s.slotSize c m.qd / 64 < m.cfgCount)
  then some 2 else none

/-- The work of ECFG: 0 clears, 1 sets, 2 loads references, 3 stores them. -/
def ecfgWork (s : State) (c : Nat) (m : Cmd) : Work :=
  let x := s.core c
  let js := (List.range m.cfgCount).map (fun t => (t, m.cfgBase + t))
  let zeros : List Nat := (List.range 16).map (fun _ => 0)
  match bits m.w2 1 0 with
  | 0 => { s := s.setCore c (js.foldl (fun (y : Core) e =>
             { y with skip := putSkip y.skip e.2 false }.setRefs e.2 zeros) x), flags := 0, reason := 0 }
  | 1 => { s := s.setCore c (js.foldl (fun (y : Core) e => { y with skip := putSkip y.skip e.2 true }) x)
           flags := 0, reason := 0 }
  | 2 =>
    let bs := s.srcSlot c false m.qa 0 (64 * m.cfgCount)
    { s := (s.noteSlot c m.qa 0 (64 * m.cfgCount)).setCore c (js.foldl (fun (y : Core) e =>
        y.setRefs e.2 ((List.range 16).map (fun q => natAt bs (64 * e.1 + 4 * q) 4))) x)
      flags := 0, reason := s.headReason c [(m.qa, 64 * m.cfgCount)] }
  | _ => { s := js.foldl (fun s e => s.dstPut c m.qd 0 (64 * e.1) ((x.refsOf e.2).flatMap (bytesOfNat 4))) s
           flags := 0, reason := 0 }

/-- The four kinds of ECFG are rows of their own: each acts on a head of its kind only. -/
def ecfgRun (core : BitVec 12) (kind : Nat) (s : State) : Outcome :=
  match (s.core core.toNat).mixq with
  | m :: _ => if m.op = 10 && bits m.w2 1 0 ≠ kind then .next s
    else engineRun core false 10 ecfgReason plainNext ecfgWork s
  | [] => .next s

/-- ECFG.clr (08 R211). -/
def execEcfgClr (core : BitVec 12) (s : State) : Outcome := ecfgRun core 0 s
/-- ECFG.set (08 R211). -/
def execEcfgSet (core : BitVec 12) (s : State) : Outcome := ecfgRun core 1 s
/-- ECFG.ld (08 R211). -/
def execEcfgLd (core : BitVec 12) (s : State) : Outcome := ecfgRun core 2 s
/-- ECFG.st (08 R211). -/
def execEcfgSt (core : BitVec 12) (s : State) : Outcome := ecfgRun core 3 s

/-! ### Moving and converting tiles (08 R213 to R215) -/

/-- The first reason that an address gives. -/
def tileReason (use : Use) (s : State) (c : Nat) (m : Cmd) : Option Nat :=
  m.rowRuns.findSome? (fun x => s.engReason (s.whoCmd c m) use x.1 x.2.1 x.2.2)

/-- Row k of a TLD or a TST. -/
def Cmd.row (m : Cmd) (k : Nat) : Nat × Nat × Reg × Reg := (m.rows[k]?).getD (0, 0, 0, 0)

/-- The row that a TLD reads next. -/
def Cmd.tldRow (m : Cmd) : List (Use × Reg × Nat) :=
  let x := m.row m.progress.pos
  (.engineRead, x.2.2.1, rowBytes m.ta) :: (if m.ta = 14 then [(.engineRead, x.2.2.2, 2)] else [])
def tldNext (_ : State) (_ : Nat) (m : Cmd) : Option (List (Use × Reg × Nat)) := some m.tldRow

/-- The bytes that stand for the elements of a row in which errors were met (08 R214). -/
def poisonRow (t : BitVec 5) (bs : List (Byte × Option Loc)) : List Byte :=
  let w := rowAlign t
  if t = 14 || t = 15 then bs.map (fun b => if b.2.isSome then 0 else b.1)
  else (List.range (bs.length / w)).flatMap (fun e =>
    let mine := (bs.drop (w * e)).take w
    if mine.any (fun b => b.2.isSome) then bytesOfNat w (canonNan t) else mine.map (·.1))

/-- One row of a TLD: the bytes of its codes, its side entry, and where errors were met. DESIGN CHOICE (log 117): where only
the side entry is in error, the codes stay as they are beside the entry's 0xFF and 0x00. -/
def State.rowIn (s : State) (w : Who) (m : Cmd) (x : Nat × Nat × Reg × Reg) :
    List Byte × List Byte × List Loc :=
  let bs := s.engBytes w (s.engOk w .engineRead x.2.2.1 (rowBytes m.ta))
  let sd := if m.ta = 14 then s.engBytes w (s.engOk w .engineRead x.2.2.2 2) else []
  let bad := (bs ++ sd).filterMap (·.2)
  (poisonRow m.ta bs, if m.ta = 14 && !bad.isEmpty then [0xFF, 0x00] else sd.map (·.1), bad)

/-- A row of bytes put into its accumulator tile, or into its slot of the ring. -/
def State.rowPut (s : State) (c : Nat) (m : Cmd) (x : Nat × Nat × Reg × Reg) (codes side : List Byte) : State :=
  if m.opt 0 then
    s.setCore c ((List.range 32).foldl (fun y e => y.setAcc m.acc (32 * x.2.1 + e) (natAt codes (4 * e) 4)) (s.core c))
  else
    (s.dstPut c m.qd x.1 (rowBytes m.ta * x.2.1) codes).dstPut c m.qd x.1 (512 + 2 * x.2.1) side

/-- A command that has begun fails at a row that can no longer be accessed: its error is recorded, and what it has staged
is not written (08 R198, 12 R322; DEDUCED, log 97). -/
def State.rowLost (s : State) (m : Cmd) (w : Who) (xs : List (Use × Reg × Nat)) (reason : Nat) : Work :=
  let t := xs.foldl (fun s x => s.noteCheck m w x.1 x.2.1 x.2.2) s
  { s := t.setCore w.core ((t.core w.core).stage w.data []), flags := m.progress.flags
    reason := worseReason w.data m.progress.reason reason }

/-- The work of TLD: its next row; with the last one, all are written. -/
def tldWork (s : State) (c : Nat) (m : Cmd) : Work :=
  let p := m.progress
  let w := s.whoCmd c m
  match s.rowGone w m.tldRow with
  | some r => s.rowLost m w m.tldRow r
  | none =>
    let r := s.rowIn w m (m.row p.pos)
    let y := s.engPoisons c false m { p with rows := p.rows ++ [(r.1, r.2.1)] } r.2.2
    y.2.work (if p.pos + 1 < m.rows.length then y.1
      else (m.rows.zip y.2.rows).foldl (fun t x => t.rowPut c m x.1 x.2.1 x.2.2) y.1) m.rows.length

/-- TLD (08 R213, R214). -/
def execTld (core : BitVec 12) (s : State) : Outcome :=
  engineRun core false 6 (tileReason .engineRead) tldNext tldWork s

/-- The work of TST: every row is staged. -/
def tstWork (s : State) (c : Nat) (m : Cmd) : Work :=
  let w := s.whoCmd c m
  let n := rowBytes m.ta
  let acc := (s.core c).accTile m.acc
  let t := m.rows.foldl (fun t (x : Nat × Nat × Reg × Reg) =>
    let tile := if m.opt 0 then [] else s.srcSlot c false m.qa x.1 (tileSize m.ta)
    let bs := if m.opt 0 then (List.range 32).flatMap (fun e => bytesOfNat 4 (acc.getD (32 * x.2.1 + e) 0))
      else (tile.drop (n * x.2.1)).take n
    let t := t.engWrite w x.2.2.1 (s.engOk w .engineWrite x.2.2.1 n) bs
    if m.ta = 14 then t.engWrite w x.2.2.2 (s.engOk w .engineWrite x.2.2.2 2) ((tile.drop (512 + 2 * x.2.1)).take 2)
    else t) s
  { s := t.noteSources c m, flags := 0, reason := s.sourceReason c m }

/-- TST (08 R213, R214). -/
def execTst (core : BitVec 12) (s : State) : Outcome :=
  engineRun core false 7 (tileReason .engineWrite) plainNext tstWork s

/-- TZERO (08 R215). -/
def execTzero (core : BitVec 12) (s : State) : Outcome :=
  engineRun core false 8 noReason plainNext (fun s c m =>
    { s := s.putAcc c m.acc ((List.range 1024).map (fun _ => 0)), flags := 0, reason := 0 }) s

/-- A gated range past the last tile slot. -/
def tcvtReason (_ : State) (_ : Nat) (m : Cmd) : Option Nat :=
  if m.sg && 4096 < m.tslot + (m.w2.toNat % 256 + 1) then some 2 else none

/-- One tile through a conversion. An 8-bit format converted to itself keeps its codes, but
for a NaN, which becomes the canonical one (02 R47). -/
def State.tcvtTile (s : State) (src : State) (c : Nat) (m : Cmd) (t : Nat) (flags : BitVec 5) : State × BitVec 5 :=
  if m.sg && (src.core c).skips (m.tslot + t) 1 then (s, flags)
  else if !m.opt 1 && m.ta = m.td && (m.ta = 12 || m.ta = 13) then
    (s.dstPut c m.qd t 0 ((src.srcSlot c false m.qa t (tileSize m.ta)).map (fun b =>
      BitVec.ofNat 8 (canonic m.ta (b.toNat, { flags := 0, lfsr := 1 })).1)), flags)
  else
    let x := if m.opt 1 then (((src.core c).accTile m.acc).map (val 10), { flags := flags, lfsr := 1 })
      else src.tileIn c m.qa t m.ta m.lut { flags := flags, lfsr := 1 }
    s.tilesOut c m (m.opt 0) x.1 t 1 x.2.flags

/-- The work of TCVT. -/
def tcvtWork (s : State) (c : Nat) (m : Cmd) : Work :=
  let r := (List.range (m.w2.toNat % 256 + 1)).foldl (fun (y : State × BitVec 5) t =>
    y.1.tcvtTile s c m t y.2) (s, 0)
  let read (_ k : Nat) : Bool := !(m.sg && (s.core c).skips (m.tslot + k) 1)
  { s := r.1.noteRead c m read, flags := r.2, reason := s.readReason c m read }

/-- TCVT (08 R215). -/
def execTcvt (core : BitVec 12) (s : State) : Outcome := engineRun core false 9 tcvtReason plainNext tcvtWork s

end Sys2Proof.Machine
end

