-- ==== Sys2Proof/Machine/DataEngine.lean ====
section
/-! DEFINITION. The commands of the data engine (09 R219 to R225), and the stall timeout of both engines
(08 R199). -/

namespace Sys2Proof.Machine

/-! ### CPY (09 R222) -/

/-- The offset of a row from the start of a ring slot. -/
def Cmd.srcOff (m : Cmd) (r : Nat) : Int := m.w3.toInt + r * m.w6.toInt
def Cmd.dstOff (m : Cmd) (r : Nat) : Int := m.w4.toInt + r * m.w7.toInt

/-- A row that leaves a slot. -/
def leavesSlot (off : Int) (n size : Nat) : Bool := decide (off < 0 ∨ (size : Int) < off + n)

/-- Why a CPY's rows fail it. -/
def cpyReason (s : State) (c : Nat) (m : Cmd) : Option Nat :=
  let w := s.whoCmd c m
  let n := m.cpyBytes
  let rs := List.range m.cpyRows
  if rs.any (fun r => (m.opt 0 && leavesSlot (m.srcOff r) n (s.slotSize c m.qa))
      || (m.opt 1 && leavesSlot (m.dstOff r) n (s.slotSize c m.qd))) then some 2
  else rs.findSome? (fun r =>
    (if m.opt 0 then none else s.engReason w .copy (m.cpySrc r) n 1).or
      (if m.opt 1 then none else s.engReason w .engineWrite (m.cpyDst r) n 1))

/-- The row that is read next, and the run that it is written to. -/
def Cmd.cpyIn (m : Cmd) : List (Use × Reg × Nat) :=
  if m.opt 0 then [] else [(.copy, m.cpySrc m.progress.pos, m.cpyBytes)]
def Cmd.cpyOut (m : Cmd) : List (Use × Reg × Nat) :=
  if m.opt 1 then [] else [(.engineWrite, m.cpyDst m.progress.pos, m.cpyBytes)]
def cpyNext (_ : State) (_ : Nat) (m : Cmd) : Option (List (Use × Reg × Nat)) := some m.cpyIn

/-- The bytes of a row, and where errors were met. Bytes in error are 0. -/
def State.cpyRead (s : State) (c : Nat) (m : Cmd) (r : Nat) : List Byte × List Loc :=
  let w := s.whoCmd c m
  let n := m.cpyBytes
  let bs := if m.opt 0 then
      match (s.core c).ring m.qa with
      | some q =>
        let p := q.desc.place c q.head + (m.srcOff r).toNat
        s.engBytes w [(.at' (.plain p), n)]
      | none => []
    else s.engBytes w (s.engOk w .copy (m.cpySrc r) n)
  (bs.map (fun b => if b.2.isSome then 0 else b.1), bs.filterMap (·.2))

/-- One row copied. -/
def State.cpyRow (s : State) (c : Nat) (m : Cmd) (r : Nat) : State × List Loc :=
  let w := s.whoCmd c m
  let b := s.cpyRead c m r
  (if m.opt 1 then s.dstPut c m.qd 0 (m.dstOff r).toNat b.1
   else s.engWrite w (m.cpyDst r) (s.engOk w .engineWrite (m.cpyDst r) m.cpyBytes) b.1, b.2)

/-- The work of CPY: its next row, in ascending order, read whole before it is written. -/
def cpyWork (s : State) (c : Nat) (m : Cmd) : Work :=
  let w := s.whoCmd c m
  match s.rowGone w (m.cpyIn ++ m.cpyOut) with
  | some r => s.rowLost m w (m.cpyIn ++ m.cpyOut) r
  | none =>
    let z := s.cpyRow c m m.progress.pos
    let y := z.1.engPoisons c true m m.progress z.2
    y.2.work y.1 m.cpyRows

/-- CPY (09 R222). -/
def execCpy (core : BitVec 12) (s : State) : Outcome := engineRun core true 11 cpyReason cpyNext cpyWork s

/-! ### GTH and SCT (09 R223) -/

/-- The index of element i, and the element's address. -/
def State.index (s : State) (c : Nat) (m : Cmd) (i : Nat) : Nat :=
  let w := typeWidth m.ta / 8
  natAt (s.srcSlot c true m.qa 0 (w * (i + 1))) (w * i) w
def Cmd.elemAddr (m : Cmd) (idx : Nat) : Reg := m.base1 + sx m.w3 + BitVec.ofNat 64 (idx * m.elemBytes)

/-- Slots too small (2), or a mask that cannot be written (3). -/
def elemReason (s : State) (c : Nat) (m : Cmd) : Option Nat :=
  let n := m.elems
  let vals := if m.op = 12 then m.qd else m.qb
  if s.slotSize c m.qa < n * (typeWidth m.ta / 8) || s.slotSize c vals < n * m.elemBytes then some 2
  else match m.maskAddr with
    | some va => if (s.engReason (s.whoCmd c m) .engineWrite va ((n + 7) / 8) 1).isSome then some 3 else none
    | none => none

/-- Whether some core of a cluster, or a core, runs a region of a tenant and world (09 R229). -/
def State.coreRuns (s : State) (c : Nat) (tenant : BitVec 10) (sec : Bool) : Bool :=
  s.roots.any (fun e => e.2.regions.any (fun r => r.holds c && r.tenant == tenant && r.secure == sec))
def State.clusterRuns (s : State) (cl : Nat) (tenant : BitVec 10) (sec : Bool) : Bool :=
  (List.range 16).any (fun k => s.coreRuns (16 * cl + k) tenant sec)

/-- Where element i is performed, or the reason for which it is not: 12 by its index or address, 9 on a
link, 10 by its owner. -/
def State.elemAt (s : State) (c : Nat) (m : Cmd) (i : Nat) : Except Nat Loc :=
  let w := s.whoCmd c m
  let n := m.elemBytes
  let va := m.elemAddr (s.index c m i)
  if m.w6.toNat ≤ s.index c m i then .error 12
  else match s.checkNow w (if m.op = 12 then .engineRead else .engineWrite) va n n with
    | .error _ => .error 12
    | .ok (.decoded _ _) => .error 12
    | .ok (.at' l) =>
      if m.op = 13 && s.coversCounter l.place n then .error 12
      else if storeOf l.place = .remote && !s.linkUp (remotePackage l.place) then .error 9
      else if storeOf l.place = .cellar && cellarCluster l.place ≠ clusterOf c
        && !s.clusterRuns (cellarCluster l.place) w.tenant w.sec then .error 10
      else .ok l

/-- The next element's access: a gather's read, a scatter's store or reduction; none is made outside the index's limit. -/
def elemNext (s : State) (c : Nat) (m : Cmd) : Option (List (Use × Reg × Nat)) :=
  let i := s.index c m m.progress.pos
  some (if m.w6.toNat ≤ i then [] else
    [(if m.op = 12 then .engineRead else if bits m.w1 19 18 = 0 then .engineWrite else .atomic, m.elemAddr i, m.elemBytes)])

/-- The new word of a scattered element: 0 store, 1 add, 2 min, 3 max. -/
def sctOp (k : Nat) (t : BitVec 5) (old x : Nat) (fp : Fp) : Nat × Fp :=
  let canon (r : Nat × Fp) : Nat × Fp := (if (val t r.1).isNan then canonNan t else r.1, r.2)
  match k with
  | 0 => (x, fp)
  | 1 => sumNode t old x fp
  | 2 =>
    if isFloat t then canon (fminmax t false old x fp)
    else (if laneInt t old ≤ laneInt t x then old else x, fp)
  | _ =>
    if isFloat t then canon (fminmax t true old x fp)
    else (if laneInt t old ≤ laneInt t x then x else old, fp)

/-- An element that is resolved: it took effect, or a reason kept it from that. -/
def Progress.resolve (p : Progress) (r : Nat) : Progress :=
  { p with reason := firstReason p.reason r, mask := p.mask ++ [decide (r = 0)] }

/-- Whether an element is sent to its owner: its index is below the limit and its address passes. -/
def State.elemSent (s : State) (c : Nat) (m : Cmd) (i : Nat) : Bool :=
  let n := m.elemBytes
  let use : Use := if m.op = 12 then .engineRead else .engineWrite
  s.index c m i < m.w6.toNat && (match s.checkNow (s.whoCmd c m) use (m.elemAddr (s.index c m i)) n n with
    | .ok (.at' _) => true
    | _ => false)

/-- The next element of a gather or a scatter, performed at its owner (09 R223), where its packet is not lost (09
R220). -/
def State.elemStep (s : State) (c : Nat) (m : Cmd) : State × Progress :=
  let p := m.progress
  let i := p.pos
  let n := m.elemBytes
  let w := s.whoCmd c m
  if m.lost && s.elemSent c m i then (s, p.resolve 9)
  else match s.elemAt c m i with
  | .error r => (s.noteCheck m w (if m.op = 12 then .engineRead else .engineWrite) (m.elemAddr (s.index c m i)) n, p.resolve r)
  | .ok l =>
    let reads := m.op = 12 || bits m.w1 19 18 ≠ 0
    if reads && (List.range n).any (fun k => s.engBad (l.shift k)) then
      s.engPoisons c true m (p.resolve 4) [l]
    else if m.op = 12 then
      (s.dstPut c m.qd 0 (n * i) ((s.engBytes w [(.at' l, n)]).map (·.1)), p.resolve 0)
    else
      let x := natAt (s.srcSlot c true m.qb 0 (n * (i + 1))) (n * i) n
      let old := if storeOf l.place = .host then s.overPub w.vf l.place (s.homeBytes l n) else s.homeBytes l n
      let r := sctOp (bits m.w1 19 18) m.tb (leNat old) x { flags := p.flags, lfsr := 1 }
      match s.writeFails l w.tenant with
      | some e => (s.engRefused c m l.place e, p.resolve (refusedReason e))
      | none => (s.putNow w l (bytesOfNat n r.1), { p with flags := r.2.flags }.resolve 0)

/-- The bytes of a mask. -/
def maskBytes (bs : List Bool) : List Byte :=
  bytesOfNat ((bs.length + 7) / 8) (bs.foldr (fun b acc => b.toNat + 2 * acc) 0)

/-- The bytes of its index and value slots that a gather or a scatter reads. -/
def Cmd.elemSlots (m : Cmd) : List (Nat × Nat) :=
  (m.qa, m.elems * (typeWidth m.ta / 8)) :: (if m.op = 13 then [(m.qb, m.elems * m.elemBytes)] else [])

/-- The work of GTH and SCT: the next element; once all are resolved, the mask. -/
def elemWork (s : State) (c : Nat) (m : Cmd) : Work :=
  let y := if m.begun then s.elemStep c m
    else (s.noteHeads c m.elemSlots).elemStep c { m with prog := some { Progress.start with reason := s.headReason c m.elemSlots } }
  if y.2.pos + 1 < m.elems then y.2.work y.1 m.elems
  else
    y.2.work (match m.maskAddr with
      | some va => y.1.engWrite (s.whoCmd c m) va
          (s.engOk (s.whoCmd c m) .engineWrite va ((m.elems + 7) / 8)) (maskBytes y.2.mask)
      | none => y.1) m.elems

/-- GTH (09 R223). -/
def execGth (core : BitVec 12) (s : State) : Outcome := engineRun core true 12 elemReason elemNext elemWork s

/-- SCT (09 R223). -/
def execSct (core : BitVec 12) (s : State) : Outcome := engineRun core true 13 elemReason elemNext elemWork s

/-! ### COLL (09 R224, R225) -/

/-- A member of a collective: a core of this package, or another package. -/
inductive Member where
  | local' (core : Nat)
  | remote (pkg x y : Nat)
  deriving DecidableEq, Repr

/-- The member that an entry names (09 R224), if its fields are in range. -/
def memberOf (r : Region) (pkg : BitVec 12) (e : Nat) : Option Member :=
  let x := e % 128
  let y := e / 128 % 128
  if e / 2 ^ 14 % 32 ≠ 0 then none
  else if e / 2 ^ 31 = 0 then
    if x < r.w && y < r.h then some (.local' (coreAt (r.x + x) (r.y + y))) else none
  else if 64 ≤ x || 64 ≤ y then none
  else if e / 2 ^ 19 % 2 ^ 12 = pkg.toNat then some (.local' (coreAt x y))
  else some (.remote (e / 2 ^ 19 % 2 ^ 12) x y)

/-- The bytes of the member table, and where errors were met. DESIGN CHOICE (log 105): bytes in error are 0, as those
of a CPY are. -/
def State.collTable (s : State) (c : Nat) (m : Cmd) : List Byte × List Loc :=
  let w := s.whoCmd c m
  let bs := s.engBytes w (s.engOk w .engineRead (m.base1 + sx m.w3) (4 * m.members))
  (bs.map (fun b => if b.2.isSome then 0 else b.1), bs.filterMap (·.2))

/-- The members in rank order. -/
def State.collRanks (s : State) (c : Nat) (m : Cmd) : Option (List Member) :=
  (List.range m.members).mapM (fun i => memberOf (s.regionBy m.root m.rid) s.package (natAt (s.collTable c m).1 (4 * i) 4))

/-- The errors of a member table told, and the reason that they give. -/
def State.collNote (s : State) (c : Nat) (m : Cmd) (bad : List Loc) : State × Nat :=
  let r := s.engPoisons c true m Progress.start bad
  (r.1, r.2.reason)

/-- Why a COLL fails at its own core before it reads its member table: slots, or the table's address. -/
def collReason (s : State) (c : Nat) (m : Cmd) : Option Nat :=
  if s.slotSize c m.qa < m.collN * m.collW || s.slotSize c m.qd < m.collDst then some 2
  else s.engReason (s.whoCmd c m) .engineRead (m.base1 + sx m.w3) (4 * m.members) 1

/-- The read of the member table. -/
def collNext (_ : State) (_ : Nat) (m : Cmd) : Option (List (Use × Reg × Nat)) :=
  some [(.engineRead, m.base1 + sx m.w3, 4 * m.members)]

/-- The COLL with a tag at the head of a core's queue. -/
def State.collHead (s : State) (c tag : Nat) : Option Cmd :=
  match (s.core c).dataq with
  | m :: _ => if m.op = 14 && m.tag = tag then some m else none
  | [] => none

/-- A member's own failure, if its command has one: before it reads its table, or by an entry of it too. -/
def State.collBegins (s : State) (c : Nat) (m : Cmd) : Option Nat :=
  if s.ringsWrong c m then some 1
  else if !s.ringsReady c m then none
  else (s.commonReason c m).or (collReason s c m)
def State.collFails (s : State) (c : Nat) (m : Cmd) : Option Nat :=
  (s.collBegins c m).or (if s.ringsReady c m && (s.collRanks c m).isNone then some 2 else none)

/-- What several accesses come to together. -/
def Gate.all : List Gate → Gate
  | [] => .go []
  | g :: rest => match g, Gate.all rest with
    | .go a, .go b => .go (a ++ b)
    | .go _, x => x
    | x, _ => x

/-- The contribution that has come from a member of another package. -/
def State.collFrom (s : State) (pkg x y tag : Nat) : Option CollShare :=
  s.collIn.find? (fun e => e.pkg = pkg && e.x = x && e.y = y && e.tag = tag)

/-- A member's elements, unless its contribution is lost: its own command fails, a packet is lost (09 R220), or no
link brings it (09 R225). -/
def State.collShare (s : State) (x : Member) (tag : Nat) : Option (List Byte) :=
  match x with
  | .remote p x y => (s.collFrom p x y tag).map (·.bytes)
  | .local' c => match s.collHead c tag with
    | some m => if (s.collFails c m).isSome || m.lost then none else some (s.srcSlot c true m.qa 0 (m.collN * m.collW))
    | none => none

/-- A node of a floating COLL: a NaN is the canonical one (02 R47). -/
def collNode (o : BitVec 4) (t : BitVec 5) (x y : Nat) (fp : Fp) : Nat × Fp :=
  canonic (if o = 0 then nodeType t else t) (redNode o t x y fp)

/-- Element j of a reduction over ranks, in the lane tree of R60; a lost contribution is the identity. -/
def collElem (m : Cmd) (shares : List (Option (List Byte))) (j : Nat) (fp : Fp) : Nat × Fp :=
  let o : BitVec 4 := BitVec.ofNat 4 (m.collKind - 1)
  let get (x : Option (List Byte)) : Option Nat := x.map (fun bs => natAt bs (m.collW * j) m.collW)
  if isFloat m.td then
    let xs := eachLane (fun r fp => match get ((shares[r]?).getD none) with
      | some v => redIn o m.td v fp
      | none => (redUnit o m.td, fp)) (List.range shares.length) fp
    let r := treeOf (collNode o m.td) (redUnit o m.td) 9 xs.1 xs.2
    canonic m.td (redOut o m.td 0 r.1 r.2)
  else
    let r := treeOf (redIntNode o) (redIntUnit o m.td) 9 (shares.map (fun x => match get x with
      | some v => laneInt m.td v
      | none => redIntUnit o m.td)) fp
    (wrapInt (typeWidth m.td) r.1, r.2)

/-- What every member's slot receives: runs of bytes with their offsets. -/
def collOut (m : Cmd) (shares : List (Option (List Byte))) : List (Nat × List Byte) × BitVec 5 :=
  match m.collKind with
  | 0 => (match shares.head? with
      | some (some bs) => [(0, bs)]
      | _ => [], 0)
  | 4 => ((shares.zipIdx).filterMap (fun e => e.1.map (fun bs => (e.2 * m.collN * m.collW, bs))), 0)
  | _ =>
    let r := eachLane (collElem m shares) (List.range m.collN) { flags := 0, lfsr := 1 }
    ([(0, r.1.flatMap (bytesOfNat m.collW))], r.2.flags)

/-- A collective carried out at all its members. -/
def State.collRun (s : State) (ranks : List Member) (m : Cmd) : State :=
  let shares := ranks.map (fun x => s.collShare x m.tag)
  let lost := shares.any Option.isNone
  let out := collOut m shares
  ranks.foldl (fun t x => match x with
    | .remote _ _ _ => t
    | .local' d => match s.collHead d m.tag with
      | none => t
      | some y => match s.collFails d y with
        | some r => t.retire d true y 0 r
        | none =>
          let t := ((out.1.foldl (fun t e => t.dstPut d y.qd 0 e.1 e.2) t).noteSlot d y.qa 0 (y.collN * y.collW)).collNote d y (s.collTable d y).2
          t.1.retire d true y out.2 (firstReason (firstReason t.2 (s.headReason d [(y.qa, y.collN * y.collW)]))
            (if lost then 9 else 0)))
    { s with collIn := s.collIn.filter (fun e => !(e.tag = m.tag && ranks.contains (.remote e.pkg e.x e.y))) }

/-- Whether two commands of one tag belong to one collective, or a contribution from another package to it. -/
def collSame (a b : Cmd) : Bool :=
  a.collKind = b.collKind && a.collN = b.collN && a.td = b.td && a.members = b.members
def CollShare.fits (x : CollShare) (m : Cmd) : Bool :=
  x.kind = m.collKind && x.n = m.collN && x.td = m.td && x.members = m.members

/-- The cores of this package among members. -/
def localMembers (ranks : List Member) : List Nat := ranks.filterMap (fun x => match x with
  | .local' d => some d
  | .remote _ _ _ => none)

/-- The other members of this package whose command heads its queue, and the gate of their reads of their tables (06 R150,
R128). -/
def State.collPeers (s : State) (c tag : Nat) (ranks : List Member) : List (Nat × Cmd) :=
  (((localMembers ranks).filter (· ≠ c)).eraseDups).filterMap (fun d => (s.collHead d tag).map (fun y => (d, y)))
def State.collGate (s : State) (c tag : Nat) (ranks : List Member) : Gate :=
  Gate.all ((s.collPeers c tag ranks).map (fun e => s.engGate e.1 true e.2 (collNext s e.1 e.2)))

/-- A collective fails at every member: at those whose command heads its queue, and at those to come; what has come to it
from other packages goes (09 R224). -/
def State.collBreak (s : State) (tag : Nat) (heads : List (Nat × Cmd)) : State :=
  let all := (heads.flatMap (fun e => localMembers ((s.collRanks e.1 e.2).getD []))).eraseDups
  let s := (all.filter (fun d => !(heads.any (fun e => e.1 = d)))).foldl (fun s d =>
    s.setCore d { s.core d with collFailed := tag :: (s.core d).collFailed }) s
  let s := { s with collIn := s.collIn.filter (fun x => !(x.tag = tag
    && heads.any (fun e => ((s.collRanks e.1 e.2).getD []).contains (.remote x.pkg x.x x.y)))) }
  heads.foldl (fun t e => (t.collNote e.1 e.2 (s.collTable e.1 e.2).2).1.retire e.1 true e.2 0 11) s

/-- COLL: a difference between members fails all of them; a member of another package joins by its contribution
(log 42). DESIGN CHOICE (log 106): the peers of a member whose own command fails complete without it, with reason 9,
where one of them has its turn while that command stands at its head; else they wait for it, until they meet reason
5. -/
def execColl (core : BitVec 12) (s : State) : Outcome :=
  let c := core.toNat
  match (s.core c).dataq with
  | [] => .next s
  | m :: _ =>
    if m.op ≠ 14 then .next s
    else match s.walkGate (s.whoCmd c m) m.runs with
    | .wait => .next s
    | .ask tenant l => .next (s.askLine tenant l)
    | .go _ =>
    if (s.core c).collFailed.contains m.tag then
      .next ((s.setCore c { s.core c with collFailed := (s.core c).collFailed.erase m.tag }).retire c true m 0 11)
    else match s.collBegins c m with
      | some r => .next ((if (s.commonReason c m).isSome then s else s.noteChecks c m r).retire c true m 0 r)
      | none =>
        if !s.ringsReady c m then .next s
        else match s.engGate c true m (collNext s c m) with
        | .wait => .next s
        | .ask tenant l => .next (s.askLine tenant l)
        | .go ls =>
        let s := ls.foldl State.useHome s
        match s.collRanks c m with
          | none => .next ((s.collNote c m (s.collTable c m).2).1.retire c true m 0 2)
          | some ranks => match s.collGate c m.tag ranks with
          | .wait => .next s
          | .ask tenant l => .next (s.askLine tenant l)
          | .go ls =>
            let s := ls.foldl State.useHome s
            let heads := (c, m) :: s.collPeers c m.tag ranks
            let bad := !(localMembers ranks).contains c || ranks.eraseDups.length < ranks.length
              || heads.any (fun e => !collSame m e.2 || (s.collRanks e.1 e.2).any (· ≠ ranks))
              || s.collIn.any (fun x => x.tag = m.tag && ranks.contains (.remote x.pkg x.x x.y) && !x.fits m)
            let waits := ranks.any (fun x => match x with
              | .remote p x y => s.linkUp p && (s.collFrom p x y m.tag).isNone
              | .local' d => match s.collHead d m.tag with
                | some y => (s.collFails d y).isNone && !s.ringsReady d y
                | none => true)
            if bad then .next (s.collBreak m.tag heads)
            else if waits then .next s
            else .next (s.collRun ranks m)

/-! ### Stall timeout (08 R199) -/

/-- The accesses that the command at the head of a queue makes next; a collective waits for its members. -/
def nextOf (m : Cmd) : State → Nat → Cmd → Option (List (Use × Reg × Nat)) :=
  match m.op with
  | 3 => scanNext
  | 6 => tldNext
  | 11 => cpyNext
  | 12 | 13 => elemNext
  | 14 => fun _ _ _ => none
  | _ => plainNext

/-- Whether the command at the head of a queue waits: for ring slots, claims or homes before it begins, for neighbour
entries, or for peers. DESIGN CHOICE (log 107): a wait at a home, for a claim, an epoch, a walk or a line from memory,
counts as well. -/
def State.headWaits (s : State) (c : Nat) (data : Bool) (m : Cmd) : Bool :=
  let held : Bool := match s.engGate c data m (nextOf m s c m) with
    | .go _ => false
    | _ => true
  (!m.begun || m.op = 3 || m.op = 14) && !m.progress.ended && !s.ringsWrong c m
    && (!s.ringsReady c m || s.unrecorded c data m || held)

/-- The data engine of a core loses what it has on its way: the element it resolves next, or its contribution to a
collective (09 R220, R223, R225). -/
def State.packetLost (s : State) (c : Nat) : State :=
  match (s.core c).dataq with
  | m :: _ =>
    if (m.op = 12 || m.op = 13 || m.op = 14) && !m.progress.ended then
      s.setCore c ((s.core c).setHead true { m with lost := true })
    else s
  | [] => s

/-- ENGINE_STALL_TIMEOUT: a command that has waited at the head beyond its region's budget fails. -/
def execEngineStallTimeout (core : BitVec 12) (data : Bool) (s : State) : Outcome :=
  let c := core.toNat
  match (s.core c).queue data with
  | [] => .next s
  | m :: _ => if m.limit < m.waited && s.headWaits c data m then .next (s.retire c data m 0 5) else .next s

end Sys2Proof.Machine
end

