-- ==== Sys2Proof/Machine/LoadStore.lean ====
section
/-! DEFINITION. Loads, stores, prefetches, atomics, release, acquire and fences (06 R121 to R145). -/

namespace Sys2Proof.Machine

/-! ### Loads and stores -/

/-- Bytes that an LDI size names, and whether the value is sign-extended (06 R125). -/
def ldiBytes (sz : BitVec 3) : Nat :=
  match sz.toNat with
  | 0 | 1 => 1
  | 2 | 3 => 2
  | 4 | 5 => 4
  | _ => 8
def ldiSigned (sz : BitVec 3) : Bool := sz.toNat % 2 = 0

/-- The register value of loaded bytes. -/
def loaded (sz : BitVec 3) (bs : List Byte) : Reg :=
  if ldiSigned sz then sext64 (8 * ldiBytes sz) (leNat bs) else zext64 (8 * ldiBytes sz) (leNat bs)

/-- The work of LD and LDF. -/
def loadTo (d a : BitVec 5) (sz : BitVec 3) (i : BitVec 12) (cached : Bool) : Act Unit := do
  let s ← get
  let bs ← Act.load (s.g a + sx i) (ldiBytes sz) (ldiBytes sz) cached
  Act.result d (loaded sz bs)

/-- LD (06 R125, R126). -/
def execLd (d a : BitVec 5) (sz : BitVec 3) (i : BitVec 12) (s : State) : Outcome :=
  run (.ld d a sz i) (loadTo d a sz i true) s

/-- LDF: it never reads or fills the L1, and its line leaves it (06 R127). -/
def execLdf (d a : BitVec 5) (sz : BitVec 3) (i : BitVec 12) (s : State) : Outcome :=
  run (.ldf d a sz i) (loadTo d a sz i false) s

/-- ST: the low bytes of a register (06 R131). -/
def execSt (j a b : BitVec 5) (sz : BitVec 3) (i : BitVec 7) (s : State) : Outcome :=
  run (.st j a b sz i) (do
    let s ← get
    Act.store (s.g a + stiOff j i) (2 ^ sz.toNat) (bytesOfNat (2 ^ sz.toNat) (s.g b).toNat)
    Act.done) s

/-! ### Prefetch -/

/-- The line of a location is brought into its home slice, and the L1 too if that is asked for, where nothing holds it
back: it has been used, or is asked for from memory (06 R134, 12 R305, R308). An error that the read meets is recorded
(12 R306, R320). -/
def State.bringLine (s : State) (c k : Nat) (l : Loc) (toL1 : Bool) : State :=
  let tenant := (s.regionOf c k).tenant
  let at0 := { l with place := l.place / 128 * 128 }
  if s.waits at0 128 || s.mute c l.place then s
  else if !toL1 && (s.l2At (l.place / 128)).isNone && (s.openWays tenant (s.homeSlice l.place)).isEmpty then s
  else if s.homeBad at0 128 then s.noteError at0
  else if s.mustFill tenant at0 128 then s.askFor tenant at0 (if toL1 then [(c, l.ro)] else [])
  else if toL1 then (s.useHome at0).fillL1 c l else s.useHome at0

/-- What a prefetch does to the package; it never stops the slot. DESIGN CHOICE (log 93): where the TLBs miss it walks at
once, and is dropped where the walk fails or would have to wait. -/
def State.prefetch (s : State) (c k : Nat) (kind : BitVec 5) (va : Nat) : State :=
  let r := s.regionOf c k
  let sec := s.secureAt c k
  if windowBase ≤ va then
    match s.window c sec .load va 1 with
    | .ok (.at' l) => if kind = 1 && storeOf l.place = .attic then s.bringLine c k l true else s
    | _ => s
  else if s.walkNeeded c r.vf sec va && s.walkStays r.vf sec r.tenant va then s
  else
    let u := s.nowUse c k va
    match s.translate c r.vf sec va with
    | .ok t =>
      let l := t.loc va
      if l.ms || storeOf l.place ≠ .hbm || s.keyGone l.key || !systemOk sec l.place || !s.granuleOk t.sec l.place then u
      else u.bringLine c k l (kind = 1)
    | .error _ => ((s.walkError r.vf sec va).map u.noteError).getD u

/-- PF: an unlisted kind does nothing; address bits 63:52 are checked all the same (06 R134, 03 R79).
A prefetch for write to a decoding window takes a data fault (01 R31). -/
def execPf (kind a : BitVec 5) (i : BitVec 15) (s : State) : Outcome :=
  run (.pf kind a i) (do
    let s ← get
    let va := s.g a + sx i
    let win := (va.toNat - windowBase) / 2 ^ 32
    if 2 ^ 52 ≤ va.toNat then Act.trap Cause.wide va
    else if kind = 2 && windowBase ≤ va.toNat && 2 ≤ win && win ≤ 5 then Act.trap Cause.data va
    else
      if kind ≤ 2 then set (s.prefetch s.cur.core s.cur.slot kind va.toNat)
      Act.done) s

/-! ### Atomics -/

/-- The integer operations of AMO on n-bit values (06 R140). -/
def amoOp (o : BitVec 4) (n old b : Nat) : Nat :=
  let so := intOf true n old
  let sb := intOf true n b
  match o.toNat with
  | 0 => (old + b) % 2 ^ n
  | 1 => old &&& b
  | 2 => old ||| b
  | 3 => old ^^^ b
  | 4 => if so ≤ sb then old else b
  | 5 => if so ≤ sb then b else old
  | 6 => Nat.min old b
  | 7 => Nat.max old b
  | _ => b

/-- Bits of an atomic of width code 0 or 1. -/
def amoBits (w : BitVec 2) : Nat := if w = 0 then 32 else 64

/-- AMO (06 R140, R143, R144). -/
def execAmo (d a b : BitVec 5) (sc : BitVec 3) (w : BitVec 2) (o : BitVec 4) (s : State) : Outcome :=
  run (.amo d a b sc w o) (do
    let s ← get
    let n := amoBits w
    let x := (s.g b).toNat % 2 ^ n
    let old ← Act.atomic (s.g a) (n / 8) sc.toNat (fun old => some (amoOp o n old x))
    Act.result d (sext64 n old)) s

/-- CAS: the destination register holds the expected value (06 R141). -/
def execCas (d a b : BitVec 5) (sc : BitVec 3) (w : BitVec 2) (s : State) : Outcome :=
  run (.cas d a b sc w) (do
    let s ← get
    let n := amoBits w
    let x := (s.g b).toNat % 2 ^ n
    let want := (s.g d).toNat % 2 ^ n
    let old ← Act.atomic (s.g a) (n / 8) sc.toNat (fun old => if old = want then some x else none)
    Act.result d (sext64 n old)) s

/-- The floating operations of AMOF (06 R142). -/
def amofOp (o : BitVec 4) (t : BitVec 5) (old b : Nat) (fp : Fp) : Nat × Fp :=
  match o.toNat with
  | 0 => fadd t 0 old b fp
  | 1 => fminmax t false old b fp
  | _ => fminmax t true old b fp

/-- AMOF: the flags raised at the home reach FSTAT with the old value (06 R142). -/
def execAmof (d a b : BitVec 5) (sc : BitVec 3) (ty : BitVec 2) (o : BitVec 4) (s : State) : Outcome :=
  run (.amof d a b sc ty o) (do
    let s ← get
    let t : BitVec 5 := if ty = 0 then 10 else 11
    let n := typeWidth t
    let x := fpArg' t (s.g b)
    let old ← Act.atomic (s.g a) (n / 8) sc.toNat (fun old => some (amofOp o t old x s.fp).1)
    modify (fun s' => s'.settle (amofOp o t old x s.fp).2)
    Act.result d (BitVec.ofNat 64 old)) s
where
  /-- An operand of a floating type. -/
  fpArg' (t : BitVec 5) (x : Reg) : Nat := x.toNat % 2 ^ typeWidth t

/-! ### Release, acquire, fence -/

/-- ACQ (06 R137). -/
def execAcq (sc : BitVec 3) (s : State) : Outcome :=
  simple (.acq sc) (fun s => s.acquire s.cur.core s.cur.slot sc.toNat) s

/-- REL (06 R136). -/
def execRel (sc : BitVec 3) (s : State) : Outcome :=
  run (.rel sc) (do
    Act.release sc.toNat
    Act.done) s

/-- Whether every earlier store of a slot has been performed. -/
def State.drained (s : State) (c k : Nat) : Bool := (s.core c).sb.all (fun e => e.slot ≠ k)

/-- Whether every engine command of a slot has retired. -/
def State.engineIdle (s : State) (c k : Nat) : Bool :=
  (s.core c).mixq.all (fun m => m.slot ≠ k) && (s.core c).dataq.all (fun m => m.slot ≠ k)

/-- FENCE: kinds 0 .mem, 1 .net, 2 .eng, 3 .all (06 Table 6.4). Network writes after a .net carry a
higher number than those before it. -/
def execFence (kind : BitVec 2) (s : State) : Outcome :=
  run (.fence kind) (do
    let s ← get
    let c := s.cur.core
    let k := s.cur.slot
    if (kind = 0 || kind = 3) && !s.drained c k then Act.stall
    else if (kind = 2 || kind = 3) && !s.engineIdle c k then Act.stall
    else
      if kind = 1 || kind = 3 then set (s.setHere { s.here with fences := Tab.put s.here.fences k (s.fence + 1) })
      Act.done) s

end Sys2Proof.Machine
end

