-- ==== Sys2Proof/Machine/Issue.lean ====
section
/-! DEFINITION. What an instruction waits for at its issue, and what it is to the loads of its slot after it: the
registers that it reads and writes, and the order that it gives (06 R129, R130; 13 R336; 22 Table 22.1). -/

namespace Sys2Proof.Machine

/-! ### Registers -/

/-- General registers, vector registers and mask registers by their numbers. g0 and p0 hold constants. -/
def gs (xs : List (BitVec 5)) : List RegName := (xs.filter (· ≠ 0)).map .g
def vs (xs : List (BitVec 5)) : List RegName := xs.map .v
def ps (xs : List (BitVec 3)) : List RegName := (xs.filter (· ≠ 0)).map .p

/-- The mask of a vector instruction; a masked result keeps the other lanes. -/
def masked {n : Nat} (d : BitVec 5) (p : BitVec n) : List RegName :=
  if p = 0 then [] else [.p (p.setWidth 3), .v d]

/-- The registers that an instruction reads. -/
def readsOf : Instr → List RegName
  | .add _ a b | .sub _ a b | .and _ a b | .or _ a b | .xor _ a b | .shl _ a b | .shr _ a b | .sha _ a b
  | .min _ a b | .max _ a b | .minu _ a b | .maxu _ a b | .slt _ a b | .sltu _ a b | .mul _ a b | .mulh _ a b
  | .mulhu _ a b | .div _ a b | .divu _ a b | .rem _ a b | .remu _ a b | .lea _ a b _ _ | .fadd _ a b _ _
  | .fsub _ a b _ _ | .fmul _ a b _ _ | .fdiv _ a b _ _ | .fmin _ a b _ | .fmax _ a b _ | .fcmp _ a b _ _
  | .beq _ a b _ | .bne _ a b _ | .blt _ a b _ | .bge _ a b _ | .bltu _ a b _ | .bgeu _ a b _ | .st _ a b _ _
  | .amo _ a b _ _ _ | .amof _ a b _ _ _ | .barInit a b | .barWait _ a b | .cntInit _ a b | .cntAdd _ a b
  | .redDecl _ a b | .skwr a b | .msg _ a b _ | .msgh _ a b _ | .cntBind _ a b | .split _ a b | .dict a b | .tlbi a b
  | .l1inv a b | .wbr a b | .invr a b | .domset _ a b | .attset _ a b | .waymask _ a b => gs [a, b]
  | .sel d a b | .ffma d a b _ _ | .cas d a b _ _ => gs [d, a, b]
  | .bfi d a _ _ => gs [d, a]
  | .clz _ a | .ctz _ a | .popc _ a | .brev _ a | .bfx _ a _ _ | .bfxs _ a _ _ | .addi _ a _ | .andi _ a _
  | .ori _ a _ | .xori _ a _ | .slti _ a _ | .sltui _ a _ | .shli _ a _ | .shri _ a _ | .shai _ a _ | .fsqrt _ a _ _
  | .fcvt _ a _ _ _ | .jalr _ a _ | .loop _ a _ | .ld _ a _ _ | .ldf _ a _ _ | .pf _ a _ | .barArr _ a | .barInfo _ a
  | .barFree a | .cntSig a | .cntWait _ a | .publish _ a | .ewait _ a | .qcfg _ a _ | .skrd _ a | .srw _ a _
  | .spawn _ a | .ncfg _ a | .convClose _ a | .meet _ a | .mbld a | .lkreq _ a _ | .lktry _ a _ | .lkup _ a _
  | .lkdn _ a _ | .lkrel _ a | .lkq _ a | .lktab _ a | .caprd _ a | .smc a | .keydel _ a | .yield a | .syswr a _ => gs [a]
  | .qput _ b _ | .qpop _ b _ | .qwait _ b _ | .convOpen _ b => gs [b]
  | .redAdd d a b p _ => gs [a] ++ vs [d, b] ++ ps [p]
  | .vld v a p _ _ => gs [a] ++ (if p = 0 then [] else [.p p, .v v])
  | .vst v a p _ _ => gs [a] ++ vs [v] ++ ps [p]
  | .vldx d a b p _ _ => gs [a] ++ vs [b] ++ masked d p
  | .vstx d a b p _ _ => gs [a] ++ vs [d, b] ++ ps [p]
  | .vadd d a b p _ _ | .vsub d a b p _ _ | .vmul d a b p _ _ => vs [a, b] ++ masked d p
  | .vfma d a b p _ _ | .vfms d a b p _ _ | .vdot d a b p _ _ => vs [d, a, b] ++ masked d p
  | .vrcp d a p _ _ | .vrsq d a p _ _ | .vexp2 d a p _ _ | .vlog2 d a p _ _ | .vabs d a p _ _ | .vneg d a p _ _
  | .vcvt d a _ p _ _ | .vred d a _ p _ _ | .vscan d a _ p _ _ => vs [a] ++ masked d p
  | .vmin d a b p _ | .vmax d a b p _ | .vand d a b p _ | .vor d a b p _ | .vxor d a b p _ | .vshl d a b p _
  | .vshr d a b p _ | .vsha d a b p _ | .vperm d a b p _ => vs [a, b] ++ masked d p
  | .vcmp q _ a b p _ _ => vs [a, b] ++ (if p = 0 then [] else ps [p, q])
  | .vsel _ a b p _ => vs [a, b] ++ ps [p]
  | .vpack _ a b _ => vs [a, b]
  | .vunpk _ a _ _ | .vlut _ a _ | .vlutset a => vs [a]
  | .vbcast d a p _ => gs [a] ++ masked d p
  | .vmovg _ a b _ => gs [b] ++ vs [a]
  | .pand _ a b | .por _ a b | .pxor _ a b => ps [a.setWidth 3, b.setWidth 3]
  | .pnot _ a | .ppop _ a => ps [a.setWidth 3]
  | .nput v _ => vs [v]
  | .convPut a v => gs [a] ++ vs [v]
  | .mbst a => .mb :: gs [a]
  | .mband | .mbor | .mbandn => [.mb, .mt]
  | .mbpop _ | .mbfst _ => [.mb]
  | .mbnxt _ a => .mb :: gs [a]
  | .mtset a _ _ => [.mt, .v a]
  | .mfld v a b _ => gs [a, b] ++ [.mb, .v v]
  | .mfst v a b _ | .mfadd v a b _ => gs [a, b] ++ [.mb, .v v]
  | .engineQueueEntry h _ w2 _ _ _ _ _ =>
    let hdr := cmdHeader h
    let op := bits hdr 10 7
    gs ([BitVec.ofNat 5 (bits hdr 30 26)] ++ (if op = 6 || op = 7 || 11 ≤ op then [w2.extractLsb' 0 5] else [])
      ++ (if 11 ≤ op && op ≤ 13 then [w2.extractLsb' 8 5] else []))
  | _ => []

/-- The register that an instruction writes. -/
def writesOf : Instr → List RegName
  | .add d _ _ | .sub d _ _ | .and d _ _ | .or d _ _ | .xor d _ _ | .shl d _ _ | .shr d _ _ | .sha d _ _
  | .min d _ _ | .max d _ _ | .minu d _ _ | .maxu d _ _ | .slt d _ _ | .sltu d _ _ | .sel d _ _ | .mul d _ _
  | .mulh d _ _ | .mulhu d _ _ | .div d _ _ | .divu d _ _ | .rem d _ _ | .remu d _ _ | .clz d _ | .ctz d _
  | .popc d _ | .brev d _ | .bfx d _ _ _ | .bfxs d _ _ _ | .bfi d _ _ _ | .addi d _ _ | .andi d _ _ | .ori d _ _
  | .xori d _ _ | .slti d _ _ | .sltui d _ _ | .shli d _ _ | .shri d _ _ | .shai d _ _ | .lea d _ _ _ _ | .lui d _
  | .addpc d _ | .fadd d _ _ _ _ | .fsub d _ _ _ _ | .fmul d _ _ _ _ | .ffma d _ _ _ _ | .fdiv d _ _ _ _
  | .fsqrt d _ _ _ | .fmin d _ _ _ | .fmax d _ _ _ | .fcmp d _ _ _ _ | .fcvt d _ _ _ _ | .jal d _ | .jalr d _ _
  | .loop _ d _ | .ld d _ _ _ | .ldf d _ _ _ | .amo d _ _ _ _ _ | .cas d _ _ _ _ | .amof d _ _ _ _ _ | .barArr d _
  | .barWait d _ _ | .barInfo d _ | .cntInit d _ _ | .cntWait d _ | .cntAdd d _ _ | .publish d _ | .redDecl d _ _
  | .vmovg d _ _ _ | .ppop d _ | .ewait d _ | .qcfg d _ _ | .qput d _ _ | .qpop d _ _ | .qwait d _ _ | .qstat d _
  | .skrd d _ | .srw d _ _ | .msg d _ _ _ | .msgh d _ _ _ | .cntBind d _ _ | .spawn d _ | .tself d | .npeek d _
  | .ncfg d _ | .convOpen d _ | .convClose d _ | .meet d _ | .depart d | .split d _ _ | .gate d | .mbpop d | .mbfst d
  | .mbnxt d _ | .lkreq d _ _ | .lktry d _ _ | .lkup d _ _ | .lkdn d _ _ | .lkrel d _ | .lkq d _ | .lktab d _
  | .domset d _ _ | .attset d _ _ | .waymask d _ _ | .snap d | .caprd d _ | .keydel d _ | .budgetRead d
  | .sysrd d _ => gs [d]
  | .vld d _ _ _ _ | .vldx d _ _ _ _ _ | .vadd d _ _ _ _ _ | .vsub d _ _ _ _ _ | .vmul d _ _ _ _ _
  | .vfma d _ _ _ _ _ | .vfms d _ _ _ _ _ | .vdot d _ _ _ _ _ | .vrcp d _ _ _ _ | .vrsq d _ _ _ _ | .vexp2 d _ _ _ _
  | .vlog2 d _ _ _ _ | .vabs d _ _ _ _ | .vneg d _ _ _ _ | .vcvt d _ _ _ _ _ | .vred d _ _ _ _ _ | .vscan d _ _ _ _ _
  | .vmin d _ _ _ _ | .vmax d _ _ _ _ | .vand d _ _ _ _ | .vor d _ _ _ _ | .vxor d _ _ _ _ | .vshl d _ _ _ _
  | .vshr d _ _ _ _ | .vsha d _ _ _ _ | .vsel d _ _ _ _ | .vperm d _ _ _ _ | .vpack d _ _ _ | .vunpk d _ _ _
  | .vbcast d _ _ _ | .vlut d _ _ | .nget d _ | .mfld d _ _ _ => vs [d]
  | .vcmp q _ _ _ _ _ _ => ps [q]
  | .pand d _ _ | .por d _ _ | .pxor d _ _ | .pnot d _ => ps [d.setWidth 3]
  | .mbld _ | .mband | .mbor | .mbandn => [.mb]
  | .mtset _ _ _ => [.mt]
  | _ => []

/-- Whether an instruction names a register that a reply on its way is to fill: it waits for the reply (06 R129). -/
def Slot.owes (x : Slot) (i : Instr) : Bool :=
  (readsOf i ++ writesOf i).any (fun r => x.owed.any (fun d => r == .g d))

/-! ### Order -/

/-- What an instruction is to the loads of its slot after it: it holds them back; or it is a load itself; or its results
come later, or at once; and whether it changes something outside the registers of its slot, before which every earlier
load of the slot completes (06 R130). -/
inductive Flow where
  | orders
  | loads (outside : Bool)
  | replies (outside : Bool)
  | atOnce (outside : Bool)
  deriving DecidableEq, Repr
def Flow.load : Flow → Bool
  | .loads _ => true
  | _ => false
def Flow.outside : Flow → Bool
  | .orders => true
  | .loads o | .replies o | .atOnce o => o

/-- Whether a rounding mode steps the LFSR (02 R51, R52). -/
def stepsLfsr (m : BitVec 3) : Bool := m = 5

/-- A release, or a wait for engine commands, for what it orders; an acquire orders where it is made (06 R136, R138,
R139, R144; 08 R190). -/
def flowOf : Instr → Flow
  | .amo .. | .cas .. | .amof .. | .rel .. | .barArr .. | .cntSig .. | .publish .. | .cntBind .. | .spawn .. | .qput ..
  | .meet .. | .gate .. | .split .. | .lkdn .. | .lkrel .. | .tlbi .. | .yield .. | .ewait .. => .orders
  | .fence k => if k = 1 then .atOnce false else .orders
  | .ld .. | .ldf .. | .vld .. | .vldx .. | .mfld .. | .mbld .. => .loads false
  | .dict .. | .mfadd .. => .loads true
  | .cntAdd .. | .cntInit .. | .barInit .. | .barFree .. | .redDecl .. | .qcfg .. | .qpop .. | .qwait .. | .msg ..
  | .msgh .. | .nget .. | .convOpen .. | .convClose .. | .depart .. | .lkreq .. | .lktry .. | .lkup .. | .lktab ..
  | .barWait .. | .cntWait .. | .domset .. | .attset .. | .waymask .. | .keydel .. | .snap .. => .replies true
  | .barInfo .. | .lkq .. => .replies false
  | .fadd _ _ _ _ m | .fsub _ _ _ _ m | .fmul _ _ _ _ m | .ffma _ _ _ _ m | .fdiv _ _ _ _ m | .fsqrt _ _ _ m
  | .fcvt _ _ _ m _ | .vadd _ _ _ _ _ m | .vsub _ _ _ _ _ m | .vmul _ _ _ _ _ m | .vfma _ _ _ _ _ m
  | .vfms _ _ _ _ _ m | .vrcp _ _ _ _ m | .vrsq _ _ _ _ m | .vexp2 _ _ _ _ m | .vlog2 _ _ _ _ m | .vabs _ _ _ _ m
  | .vneg _ _ _ _ m | .vcvt _ _ _ _ _ m | .vred _ _ _ _ _ m | .vscan _ _ _ _ _ m | .vdot _ _ _ _ _ m =>
    .atOnce (stepsLfsr m)
  | .st .. | .vst .. | .vstx .. | .mbst .. | .mfst .. | .redAdd .. | .vlutset .. | .skwr .. | .srw ..
  | .engineQueueEntry .. | .nput .. | .ncfg .. | .convPut .. | .wbr .. | .invr .. | .syswr .. | .trap .. | .xret .. | .halt
  | .smc .. | .tend => .atOnce true
  | _ => .atOnce false

/-- Whether an instruction that has been tried and has not completed has issued all the same: it waits for its bytes, or
for the reply of what it sent (06 R130, 11 R301); another one that stalls does so before it issues. -/
def waitsIssued (i : Instr) : Bool := (flowOf i).load || (match i with
  | .convClose .. => true
  | _ => false)

/-- An atomic, whose access may have been lost as a load's may (14 R358). -/
def isAtomic : Instr → Bool
  | .amo .. | .cas .. | .amof .. => true
  | _ => false

/-- What has been executed since something was done ahead, once an instruction more has, if the load or L1INV that was
done ahead could have issued by then all the same: not where the instruction reads a register that was to be filled, nor
where it changes something outside the slot after a load. -/
def Since.past (x : Since) (i : Instr) : Option Since :=
  let late := match flowOf i with
    | .atOnce _ => []
    | _ => writesOf i
  if (readsOf i).any (fun r => x.regs.contains r) || ((flowOf i).outside && x.loads) then none
  else some { regs := late ++ x.regs.filter (fun r => !(writesOf i).contains r)
              loads := x.loads || (flowOf i).load }

/-- What a slot has done ahead, as it comes to an instruction, for the first time or again: it stays where the
instruction does not order it and had issued when it was done. -/
def Early.past (e : Early) (i : Instr) (again : Bool) : Option Early :=
  if flowOf i = .orders then (if e.lost && isAtomic i then some e else none)
  else if again && !waitsIssued i then none
  else (e.since.past i).map (fun x => { e with since := x })

/-- The word that an entry of the dictionary expands to (03 R66). -/
def dictExpand (entry : Word) (sub : BitVec 5) : Word :=
  if sub = 0 then entry else (entry &&& 0xFFFFF07F#32) ||| place sub 7

/-- What a dictionary code stands for. -/
def State.codeInstr (s : State) (c : Nat) : Instr → Instr
  | .dictionaryCode z n =>
    match (Tab.find (s.core c).dict n.toNat).map (fun e => decodeWord (dictExpand e z)) with
    | some (.ok i) => i
    | _ => .dictionaryCode z n
  | i => i

/-- The package as a slot comes to an instruction, for the first time or again: of what it has done ahead, what stays. -/
def State.past (s : State) (c k : Nat) (i : Instr) (again : Bool) : State :=
  { s with early := s.early.filterMap (fun e =>
      if e.core = c && e.slot = k then e.past (s.codeInstr c i) again else some e) }

end Sys2Proof.Machine
end

