-- ==== Sys2Proof/Machine/Messages.lean ====
section
/-! DEFINITION. Messages as they leave a core, tasks from threads, neighbour mailboxes and convoys
(09 R226 to R244). -/

namespace Sys2Proof.Machine

/-! ### Messages (09 R227, R228) -/

/-- Fields of a message header (09 Table 9.5). -/
def hdrRemote (h : Reg) : Bool := h.getLsbD 63
def hdrPkg (h : Reg) : Nat := h.toNat / 2 ^ 51 % 2 ^ 12
def hdrQh (h : Reg) : BitVec 4 := h.extractLsb' 32 4
def hdrCtr (h : Reg) : Option Nat := if h.getLsbD 31 then some (16 * (h.toNat / 2 ^ 15 % 2 ^ 16)) else none

/-- A reserved bit of a header is set, or it names a package without REMOTE. -/
def hdrBad (h : Reg) : Bool :=
  h.toNat / 2 ^ 36 % 2 ^ 15 ≠ 0 || h.getLsbD 14 || (!hdrRemote h && hdrPkg h ≠ 0)

/-- A field of 7 bits as a signed hop. -/
def signed7 (n : Nat) : Int := intOf true 7 n

/-- The core that a header names, if it lies on the grid. -/
def hdrTarget (c : Nat) (h : Reg) : Option Nat :=
  let x := h.toNat % 128
  let y := h.toNat / 128 % 128
  if hdrRemote h then coreAt? x y else coreAt? (xOf c + signed7 x) (yOf c + signed7 y)

/-- Fields of a delivery word (09 Table 9.6). -/
def dwLen (d : Reg) : Nat := d.toNat / 2 ^ 18 % 64
def dwCellar (d : Reg) : Bool := d.getLsbD 17
def dwOff (d : Reg) : Nat := 8 * (d.toNat % 2 ^ 17)

/-- A delivery word that a message does not take: a reserved bit, a length above 32, or a range that leaves
its window or reaches the spill area. -/
def dwBad (d : Reg) : Bool :=
  let last := dwOff d + 8 * dwLen d
  let size := if dwCellar d then Config.cellarSize else Config.spillBase
  2 ^ 24 ≤ d.toNat || 32 < dwLen d || size < last || size ≤ dwOff d

/-- Bytes read as so many loads of 8 bytes would read them. -/
def Act.loadRun (va : Reg) (n : Nat) : Act (List Byte) := do
  let xs ← (List.range n).mapM (fun i => Act.load (va + BitVec.ofNat 64 (8 * i)) 8 8 true)
  pure xs.flatten

/-- A message staged by the running slot: it leaves for its target core, or over the links. -/
def State.sendMessage (s : State) (chan : BitVec 2) (h d : Reg) (dst : Nat) (code : Option (List Byte))
    (payload : List Byte) : State :=
  let t := s.me.task
  let m : Message :=
    { src := s.cur.core, slot := s.cur.slot, uid := s.uid, fence := s.fence, chan := chan, dst := dst,
      code := code, payload := payload, dwin := dwCellar d, doff := dwOff d, ctr := hdrCtr h, header := h,
      root := (t.map (·.root)).getD 0, rid := (t.map (·.rid)).getD 0, tenant := s.region.tenant,
      secure := s.secure, pkg := none, route := Tab.get 0 s.routes (hdrPkg h) }
  if hdrRemote h && hdrPkg h ≠ s.package.toNat then { s with remote := s.remote ++ [m] }
  else { s with net := s.net ++ [m] }

/-- The work of MSG and MSGH. -/
def messageAct (d a b : BitVec 5) (chan : BitVec 2) (handler : Bool) : Act Unit := do
  let s ← get
  let h := s.g b
  let w := s.g d
  if hdrBad h || hdrQh h ≠ 0 then Act.trap Cause.data h
  else match hdrTarget s.cur.core h with
    | none => Act.trap Cause.data h
    | some dst =>
      if dwBad w then Act.trap Cause.data w
      else do
        let bs ← Act.loadRun (s.g a) (dwLen w + (if handler then 8 else 0))
        modify (fun s => s.sendMessage chan h w dst (if handler then some (bs.take 64) else none)
          (if handler then bs.drop 64 else bs))
        Act.done

/-- MSG (09 R228). -/
def execMsg (d a b : BitVec 5) (c : BitVec 2) (s : State) : Outcome :=
  run (.msg d a b c) (messageAct d a b c false) s

/-- MSGH: 64 bytes of handler code come before the payload (09 R228). -/
def execMsgh (d a b : BitVec 5) (c : BitVec 2) (s : State) : Outcome :=
  run (.msgh d a b c) (messageAct d a b c true) s

/-! ### Tasks (09 R233 to R237) -/

/-- A record read and checked as SPAWN checks it. -/
def Act.record (va : Reg) : Act Record := do
  let bs ← Act.load va 64 64 true
  let s ← get
  let r := recordOf bs
  match s.me.task with
  | none => Act.trap Cause.data va
  | some t => if r.clean && s.below t.root t.rid r.rid then pure r else Act.trap Cause.data va

/-- The copy that an instruction takes of a record at issue: a stalled one has taken it already (09 R233, 13 R331). -/
def Act.copy (va : Reg) : Act Record := do
  let s ← get
  match s.me.copied with
  | some r => pure r
  | none => Act.record va

/-- Its release at package scope, over which a stalled slot keeps the copy. -/
def Act.releaseWith (r : Record) : Act Unit := do
  let s ← get
  if s.released s.cur.core s.cur.slot 3 then
    if s.me.copied.isSome then set (s.setMe { s.me with copied := none }) else pure ()
  else do
    set (s.setMe { s.me with copied := some r })
    Act.stall

/-- SPAWN (09 R233). -/
def execSpawn (d a : BitVec 5) (s : State) : Outcome :=
  run (.spawn d a) (do
    let s ← get
    let r ← Act.copy (s.g a)
    Act.releaseWith r
    let s' ← get
    if Config.dequeSize ≤ s'.here.deque.length then Act.result d 0
    else do
      set (s'.pushDeque s'.cur.core r (s.g a) ((s'.me.task.map (·.root)).getD 0))
      Act.result d 1) s

/-- CNT_BIND. A task that is ready at once enters the ready queue, or waits as that of a firing does (09 R234, 13
R332). -/
def execCntBind (d a b : BitVec 5) (s : State) : Outcome :=
  run (.cntBind d a b) (do
    let s ← get
    let p ← Act.counter (s.g a)
    let r ← Act.record (s.g b)
    Act.release 3
    Act.liveCounter p (s.g a)
    let s' ← get
    let who := s'.counterOwner
    if s'.cntBind p ≠ 0 then Act.result d 1
    else if (s'.cntValue p).toInt ≤ 0 then do
      set (s'.admitTask s'.cur.core r (s.g b) who.root .package)
      Act.result d 0
    else do
      Act.fenced p
      Act.unposted p
      set { s'.pokeNat (p + 8) 8 (s.g b).toNat with counters := Tab.put s'.counters p who }
      Act.result d 0) s

/-- BOUND_TASK_READY: the k-th fired binding whose record has still to be read goes on with it (09 R234). -/
def execBoundTaskReady (k : Nat) (s : State) : Outcome :=
  .next (match s.fired[k]? with
  | none => s
  | some f => { s with fired := s.fired.eraseIdx k }.bound f)

/-- TEND (09 R236). -/
def execTend (s : State) : Outcome := .next (s.endTask s.cur.core s.cur.slot false)

/-- TSELF (09 R237, Table 9.8a). -/
def execTself (d : BitVec 5) (s : State) : Outcome :=
  simple (.tself d) (fun s =>
    let r := s.region
    let c := s.cur.core
    let rid : Nat := match s.me.task with
      | some t => t.rid.toNat
      | none => 0
    s.setG d (BitVec.ofNat 64 (rid * 2 ^ 48 + (r.h - 1) % 64 * 2 ^ 42 + (r.w - 1) % 64 * 2 ^ 36
      + (yOf c - r.y) % 64 * 2 ^ 30 + (xOf c - r.x) % 64 * 2 ^ 24 + s.cur.slot % 8))) s

/-! ### Neighbour mailboxes (09 R238 to R241) -/

/-- The neighbour of the running slot's core in a direction. -/
def State.neighbour (s : State) (dir : Nat) : Option Nat :=
  neighbourOf s.region s.here.ncfg s.cur.core dir

/-- NPUT (09 R239). -/
def execNput (v : BitVec 5) (e : BitVec 2) (s : State) : Outcome :=
  run (.nput v e) (do
    let s ← get
    match s.neighbour e.toNat with
    | none => Act.trap Cause.data (e.setWidth 64)
    | some n =>
      if s.mailRoom n ((e.toNat + 2) % 4) = 0 then Act.stall
      else do
        set (s.mailSend s.cur.core n e.toNat s.cur.slot s.uid s.fence (s.v v))
        Act.done) s

/-- The slot of a core that has been parked longest on a mailbox. -/
def oldestParked (dir : BitVec 2) : List (Nat × Slot) → Option (Nat × Slot)
  | [] => none
  | (k, x) :: t =>
    if x.wait = .mailbox dir then
      match oldestParked dir t with
      | some (j, y) => if y.parkedAt < x.parkedAt then some (j, y) else some (k, x)
      | none => some (k, x)
    else oldestParked dir t

/-- The SCAN at the head of a core's queue that waits for an entry from a direction, and since when (08 R208). -/
def State.scanWaiter (s : State) (c dir : Nat) : Option (Cmd × Nat) :=
  match (s.core c).mixq with
  | m :: _ => if m.wants && m.cin = dir + 4 then m.since.map (fun t => (m, t)) else none
  | [] => none

/-- An entry comes to a mailbox: the slot or the SCAN that has waited longest on it takes the entry, else it stays (08
R208, 09 R240). -/
def State.deliver (s : State) (c : Nat) (dir : BitVec 2) (v : Vec) : State :=
  let slot := oldestParked dir (s.core c).slots
  match s.scanWaiter c dir.toNat, slot with
  | some (m, t), some (j, x) => if x.parkedAt < t then give s j x else take s m
  | some (m, _), none => take s m
  | none, some (j, x) => give s j x
  | none, none => s.setCore c { s.core c with mail := Tab.set [] (s.core c).mail dir.toNat (s.mailbox c dir.toNat ++ [v]) }
where
  /-- The slot is given the entry. -/
  give (s : State) (j : Nat) (x : Slot) : State := s.setSlotAt c j { x with wait := .entry v }
  /-- The SCAN takes it, and begins to wait for its next one. -/
  take (s : State) (m : Cmd) : State :=
    { s.setCore c ((s.core c).setHead false { m with carry := m.carry ++ [v], since := some s.stamp }) with stamp := s.stamp + 1 }

/-- MAILBOX_ENTRY_ARRIVAL: entries from one core to one mailbox arrive in issue order (09 R239). -/
def execMailboxEntryArrival (k : Nat) (s : State) : Outcome :=
  match s.nnet[k]? with
  | none => .next s
  | some e =>
    if (s.nnet.take k).any (fun x => x.src = e.src && x.dst = e.dst && x.dir == e.dir)
      || s.fenceHolds e.src e.slot e.fence then .next s
    else .next ({ s with nnet := s.nnet.eraseIdx k }.deliver e.dst e.dir e.data)

/-- NGET: the entry that the parked slot has been given, or the oldest of the mailbox (09 R240). -/
def execNget (v : BitVec 5) (e : BitVec 2) (s : State) : Outcome :=
  let given : Option Vec := match s.me.wait with
    | .entry x => some x
    | _ => none
  run (.nget v e) (do
    let s ← get
    match given, s.mailbox s.cur.core e.toNat with
    | some x, _ => do
      set (s.setV v x)
      Act.done
    | none, x :: _ => do
      set ((s.mailDrop s.cur.core e.toNat 1).setV v x)
      Act.done
    | none, [] => Act.park (.mailbox e)) s

/-- NPEEK (09 R241; log 43). -/
def execNpeek (d : BitVec 5) (e : BitVec 2) (s : State) : Outcome :=
  simple (.npeek d e) (fun s =>
    let have' := (s.mailbox s.cur.core e.toNat).length
    s.setG d (match s.neighbour e.toNat with
      | none => BitVec.ofNat 64 (2 ^ 63 + have' % 8)
      | some n => BitVec.ofNat 64 (s.mailRoom n ((e.toNat + 2) % 4) % 8 * 2 ^ 8 + have' % 8))) s

/-- A neighbour setting that NCFG does not take. -/
def ncfgBad (x : Reg) : Bool := 256 ≤ x.toNat || (List.range 4).any (fun d => x.toNat / 4 ^ d % 4 = 3)

/-- NCFG (09 R238). -/
def execNcfg (d a : BitVec 5) (s : State) : Outcome :=
  run (.ncfg d a) (do
    let s ← get
    let old : Reg := s.here.ncfg.setWidth 64
    if a ≠ 0 && ncfgBad (s.g a) then Act.trap Cause.data (s.g a)
    else do
      if a ≠ 0 then set (s.setHere { s.here with ncfg := (s.g a).setWidth 8 })
      Act.result d old) s

/-! ### Convoys (09 R242 to R244) -/

/-- A flit sent down a port by its owner. -/
def State.sendFlit (s : State) (port : Nat) (p : ConvPort) (f : Flit) : State :=
  { s with cnet := s.cnet ++
      [{ src := s.cur.core, slot := s.cur.slot, uid := s.uid, port := port, serial := p.serial, dst := p.dst,
         qh := p.qh, ctr := p.ctr, flit := f, fence := s.fence, secure := s.secure }] }

/-- CONV_OPEN: one of the free ports is taken (09 R242). -/
def execConvOpen (d b : BitVec 5) (s : State) : Outcome :=
  run (.convOpen d b) (do
    let s ← get
    let h := s.g b
    match (if hdrBad h || hdrRemote h then none else hdrTarget s.cur.core h) with
    | none => Act.trap Cause.data h
    | some dst =>
      match (List.range 4).filter (fun k => (Tab.find s.here.ports k).isNone) with
      | [] => Act.result d (BitVec.allOnes 64)
      | k :: ks => do
        let pick := s.choose (ks.length + 1)
        let port := (k :: ks).getD pick.1 k
        let num := pick.2.tick
        let p : ConvPort := { slot := s.cur.slot, uid := s.uid, serial := num.1, dst := dst, qh := hdrQh h,
                              ctr := hdrCtr h, closing := false, answer := none }
        let t := num.2
        set ((t.setHere { t.here with ports := Tab.put t.here.ports port p }).sendFlit port p .opening)
        Act.result d (BitVec.ofNat 64 port)) s

/-- The port that a register names, if it is open and the slot's own. -/
def Act.port (x : Reg) : Act ConvPort := do
  let s ← get
  match Tab.find s.here.ports x.toNat with
  | some p => if p.slot = s.cur.slot && p.uid = s.uid then pure p else Act.trap Cause.data x
  | none => Act.trap Cause.data x

/-- CONV_PUT (09 R243). -/
def execConvPut (a v : BitVec 5) (s : State) : Outcome :=
  run (.convPut a v) (do
    let s ← get
    let p ← Act.port (s.g a)
    let flying := (s.cnet.filter (fun f => f.src = s.cur.core && f.port = (s.g a).toNat
      && f.serial = p.serial)).length
    if Config.convoyCredit < flying then Act.stall
    else do
      set (s.sendFlit (s.g a).toNat p (.data (s.v v)))
      Act.done) s

/-- CONV_CLOSE: the marker is sent once, and the slot stays until the receiver has answered (09 R244). -/
def execConvClose (d a : BitVec 5) (s : State) : Outcome :=
  run (.convClose d a) (do
    let s ← get
    let k := (s.g a).toNat
    let p ← Act.port (s.g a)
    match p.answer with
    | some aborted => do
      set (s.setHere { s.here with ports := Tab.erase s.here.ports k })
      Act.result d (flag aborted)
    | none =>
      if p.closing then Act.stall
      else do
        set ((s.setHere { s.here with ports := Tab.put s.here.ports k { p with closing := true } }).sendFlit k p .closing)
        Act.stall) s

/-- The streams of a core with one of them replaced, or gone. -/
def State.setStream (s : State) (c : Nat) (x : ConvStream) (y : Option ConvStream) : State :=
  let same (z : ConvStream) : Bool := z.src = x.src && z.port = x.port && z.serial = x.serial
  let rest := (s.core c).streams.filter (fun z => !same z)
  s.setCore c { s.core c with streams := rest ++ y.toList }

/-- The counter that a convoy or a message names, updated as by CNT.SIG, with bits for its status. -/
def State.signalAt (s : State) (c : Nat) (ctr : Option Nat) (or' : BitVec 32) : State :=
  match ctr with
  | some off =>
    let p := cellarAt (clusterOf c) off
    if s.live p then s.cntUpdate p (-1) or' else s
  | none => s

/-- The receiver closes a stream with abort status. -/
def State.abortStream (s : State) (c : Nat) (x : ConvStream) : State :=
  (s.setStream c x (some { x with aborted := true, pos := 0 })).signalAt c x.ctr statusErr

/-- The sender's port learns how the receiver closed its stream. -/
def State.answerPort (s : State) (f : ConvFlit) (aborted : Bool) : State :=
  match Tab.find (s.core f.src).ports f.port with
  | some p => if p.serial = f.serial then s.setCore f.src { s.core f.src with
      ports := Tab.put (s.core f.src).ports f.port { p with answer := some aborted } } else s
  | none => s

/-- The ring that a stream may fill: open, in the larder or the cellar (09 R242). -/
def Core.convoyRing (c : Core) (q : Nat) : Option Ring :=
  (c.ring q).filter (fun r => decide (r.desc.win.toNat ≤ 1))

/-- A flit at its receiver; `none` while a full ring holds the stream back. DESIGN CHOICE (log 108): a stream from the
other world is refused as a closed ring refuses it, with abort status, and signals no counter (15 R376). -/
def State.flitAt (s : State) (f : ConvFlit) : Option State :=
  let c := f.dst
  let foreign := s.clusterWorld (clusterOf c) = some (!f.secure)
  let y := ((s.core c).streams.find? (fun z => z.src = f.src && z.port = f.port && z.serial = f.serial)).getD
    { src := f.src, port := f.port, serial := f.serial, qh := f.qh, ctr := f.ctr, pos := 0, aborted := true }
  let x := if foreign then { y with aborted := true, ctr := none } else y
  let q := x.qh.toNat
  match f.flit with
  | .opening =>
    if foreign then some (s.setStream c x (some x)) else
    let x := { x with aborted := false }
    let s := s.setStream c x (some x)
    some (if ((s.core c).convoyRing q).isNone then s.abortStream c x else s)
  | .data v =>
    if x.aborted then some s
    else match (s.core c).convoyRing q with
      | none => some (s.abortStream c x)
      | some r =>
        let p := r.desc.place c r.tail + x.pos
        if r.desc.count ≤ r.filled then none
        else if s.coversCounter p 64 then some (s.abortStream c x)
        else
          let s := s.poke p (vecBytes v)
          if r.desc.size ≤ x.pos + 64 then
            some ((s.setStream c x (some { x with pos := 0 })).putRing c q (r.push 1))
          else some (s.setStream c x (some { x with pos := x.pos + 64 }))
  | .closing =>
    if x.aborted then some ((s.setStream c x none).answerPort f true)
    else match (s.core c).convoyRing q with
      | none => some (((s.abortStream c x).setStream c x none).answerPort f true)
      | some r =>
        if 0 < x.pos && r.desc.count ≤ r.filled then none
        else
          let s := if 0 < x.pos then s.putRing c q (r.push 1) else s
          some (((s.setStream c x none).signalAt c x.ctr 0).answerPort f false)
  | .abort =>
    if x.aborted then some (s.setStream c x none)
    else some ((s.setStream c x none).signalAt c x.ctr statusErr)

/-- CONVOY_FLIT_ARRIVAL: the flits of a stream arrive in order (09 R243, R244). -/
def execConvoyFlitArrival (k : Nat) (s : State) : Outcome :=
  match s.cnet[k]? with
  | none => .next s
  | some f =>
    if (s.cnet.take k).any (fun x => x.src = f.src && x.port = f.port && x.serial = f.serial)
      || s.fenceHolds f.src f.slot f.fence then .next s
    else match State.flitAt { s with cnet := s.cnet.eraseIdx k } f with
      | none => .next s
      | some t => .next t

end Sys2Proof.Machine
end

