-- ==== Sys2Proof/Machine/System.lean ====
section
/-! DEFINITION. System instructions: traps by instruction and their return, system registers, the budget,
the dictionary, maintenance of caches and TLBs, interleave domains, attic ways, way masks, keys, the
snapshot trigger and the capability list (11 R284 to R299; 12 R309 to R314, R322; 16 R388, R391). -/

namespace Sys2Proof.Machine

/-! ### Traps and returns (11 R288 to R290) -/

/-- XRET (11 R288). -/
def execXret (s : State) : Outcome :=
  if s.me.hnd then .next s.leaveHandler else .next (s.illegal .xret)

/-- HALT (11 R289; log 26). -/
def execHalt (s : State) : Outcome :=
  .next (s.stopTask s.cur.core s.cur.slot 0x02 Cause.halt s.base 0)

/-- TRAP (11 R288). -/
def execTrap (n : BitVec 12) (s : State) : Outcome :=
  .next (s.takeTrap s.cur.core s.cur.slot Cause.trapInsn (n.setWidth 64) s.after)

/-- SMC: illegal in the secure world and in a handler (11 R290). -/
def execSmc (a : BitVec 5) (s : State) : Outcome :=
  if s.secure || s.me.hnd then .next (s.illegal (.smc a))
  else .next (s.takeTrap s.cur.core s.cur.slot Cause.smc (s.g a) s.after)

/-! ### System registers (01 R23, 03 R75, 11 R286, R287) -/

/-- XCAUSE as it reads: traps held pending in the handler show in BPEND and WPEND (11 R279). -/
def Slot.readCause (x : Slot) : Reg :=
  x.xcause ||| (if x.hnd && x.budgetDue then 0x1000000000000000#64 else 0)
    ||| (if x.hnd && x.wound.isSome then 0x0800000000000000#64 else 0)

/-- A core's island. -/
def islandOf (c : Nat) : Nat := c / 16 * 4 + c % 16 / 8 * 2 + c % 4 / 2

/-- PLEVEL (16 Table 16.2). -/
def State.plevel (s : State) (c : Nat) : Reg :=
  let i := Tab.get Island.reset s.islands (islandOf c)
  i.downs ++ i.level.setWidth 32

/-- The value of a system register, or none where reading it is illegal. -/
def State.sysreg (s : State) (n : BitVec 12) : Option Reg :=
  let x := s.me
  let c := s.here
  match n.toNat with
  | 0x000 => some x.readCause
  | 0x001 => some x.xval
  | 0x002 => some x.xpc
  | 0x003 => some x.xstat
  | 0x004 => some c.xbase
  | 0x005 => some (x.fstat.setWidth 64)
  | 0x006 => some (x.budget.setWidth 64)
  | 0x007 => some c.codelo
  | 0x008 => some c.codehi
  | 0x009 => some s.region.tsbase
  | 0x00A => some (BitVec.ofNat 64 s.cur.core)
  | 0x00B => some ((htid s.cur.core s.cur.slot).setWidth 64)
  | 0x00C => some (if x.caravan then x.cvgroup.setWidth 64 else 0)
  | 0x00D => some (if x.caravan then x.cvstep.setWidth 64 else 0)
  | 0x00E => some (if x.caravan then x.cvnode.setWidth 64 else 0)
  | 0x00F => some (c.skthr.setWidth 64)
  | 0x010 => some (c.lfsr.setWidth 64)
  | 0x011 => some (c.alside.setWidth 64)
  | 0x100 => if s.secure then some c.smcbase else none
  | 0x101 => some (s.region.fdom.setWidth 64)
  | 0x102 => some ((match x.task with
    | some t => t.rid
    | none => 0).setWidth 64)
  | 0x103 => some (s.plevel s.cur.core)
  | _ => none

/-- An LFSR register holds no zero: one in its place (01 R22). -/
def lfsrOf (w : Word) : Word := if w = 0 then 1 else w

/-- The package with a system register written, or none where writing it is illegal. -/
def State.setSysreg (s : State) (n : BitVec 12) (v : Reg) : Option State :=
  let x := s.me
  let c := s.here
  let window := s.secure || x.hnd
  match n.toNat with
  | 0x000 => some (s.setMe { x with xcause := (x.xcause &&& ~~~0xFFFF#64) ||| (v &&& 0xFFFF#64) })
  | 0x001 => some (s.setMe { x with xval := v })
  | 0x002 => some (s.setMe { x with xpc := addrField v })
  | 0x003 => some (s.setMe { x with xstat := v })
  | 0x004 => some (s.setHere { c with xbase := addrField v })
  | 0x005 => some (s.setMe { x with fstat := v.setWidth 5 })
  | 0x007 => if window then some (s.setHere { c with codelo := addrField v }) else none
  | 0x008 => if window then some (s.setHere { c with codehi := addrField v }) else none
  | 0x00C => some (if x.caravan then s.setMe { x with cvgroup := v.setWidth 16 } else s)
  | 0x00D => some (if x.caravan then s.setMe { x with cvstep := v.setWidth 32 } else s)
  | 0x00E => some (if x.caravan then s.setMe { x with cvnode := v.setWidth 52 } else s)
  | 0x00F => some (s.setHere { c with skthr := v.setWidth 32 })
  | 0x010 => some (s.setHere { c with lfsr := lfsrOf (v.setWidth 32) })
  | 0x011 => some (s.setHere { c with alside := v.setWidth 20 &&& 0xFFFFE#20 })
  | 0x100 => if s.secure then some (s.setHere { c with smcbase := addrField v }) else none
  | _ => none

/-- SYSRD (11 R286). -/
def execSysrd (d : BitVec 5) (n : BitVec 12) (s : State) : Outcome :=
  run (.sysrd d n) (do
    let s ← get
    match s.sysreg n with
    | some v => Act.result d v
    | none => Act.illegal (.sysrd d n)) s

/-- SYSWR (11 R286, R287). -/
def execSyswr (a : BitVec 5) (n : BitVec 12) (s : State) : Outcome :=
  run (.syswr a n) (do
    let s ← get
    match s.setSysreg n (s.g a) with
    | some t => do
      set t
      Act.done
    | none => Act.illegal (.syswr a n)) s

/-! ### Budget and yield (11 R282, R291; 13 R332) -/

/-- BUDGET_READ (11 R291). -/
def execBudgetRead (d : BitVec 5) (s : State) : Outcome :=
  simple (.budgetRead d) (fun s => s.setG d (s.me.budget.setWidth 64)) s

/-- YIELD (11 R291, 10 R254). The record takes the ended caravan's place at its gate if it is a caravan of the same
gated group: of the same region, since every group belongs to one (10 R246). A record that finds the ready queue full
waits until the freed slot has dispatched (13 R332). -/
def execYield (a : BitVec 5) (s : State) : Outcome :=
  run (.yield a) (do
    let s ← get
    let r ← Act.copy (s.g a)
    let s ← get
    let x := s.me
    if x.atws || x.met then Act.illegal (.yield a)
    else do
      Act.releaseWith r
      let s ← get
      let c := s.cur.core
      let root := (x.task.map (·.root)).getD 0
      let kept := x.caravan && r.caravan && x.cvgroup.getLsbD 15 && r.group == x.cvgroup
        && some r.rid = x.task.map (·.rid)
      if s.here.readyFull then set ((s.endTask c s.cur.slot kept).admitTask c r (s.g a) root .package)
      else set ((s.admitTask c r (s.g a) root .package).endTask c s.cur.slot kept)) s

/-! ### The dictionary (11 R292) -/

/-- Fields of a DICT control word (11 Table 11.7), and one that DICT does not take. -/
def dictInv (x : Reg) : Bool := x.getLsbD 31
def dictCount (x : Reg) : Nat := x.toNat / 2 ^ 10 % 2 ^ 11
def dictFirst (x : Reg) : Nat := x.toNat % 2 ^ 10
def dictBad (x : Reg) : Bool :=
  2 ^ 32 ≤ x.toNat || x.toNat / 2 ^ 21 % 2 ^ 10 ≠ 0 || 1024 < dictFirst x + dictCount x

/-- DICT (11 R292). -/
def execDict (a b : BitVec 5) (s : State) : Outcome :=
  run (.dict a b) (do
    let s ← get
    let x := s.g b
    if dictBad x then Act.trap Cause.data x
    else do
      let ws : List Word ← (List.range (dictCount x)).mapM (fun i =>
        if dictInv x then pure 0
        else do
          let bs ← Act.load (s.g a + BitVec.ofNat 64 (4 * i)) 4 4 true
          pure (BitVec.ofNat 32 (leNat bs)))
      let put (t : Tab Word) (e : Nat × Word) : Tab Word := Tab.set 0 t (dictFirst x + e.1) e.2
      modify (fun s => s.setHere { s.here with
        dict := ((List.range (dictCount x)).zip ws).foldl put s.here.dict })
      Act.done) s

/-! ### Caches and translations (11 R293 to R296) -/

/-- The attic line that an address of the local windows names, if it names one. -/
def atticLine (c : Nat) (va : Reg) : Option Nat :=
  if (va.toNat - windowBase) / 2 ^ 32 = 8 then some (atticAt (dieOf c) (va.toNat % 2 ^ 32) / 128) else none

/-- The line of an address that an instruction does not check: of global memory through its translation, or of the attic;
none where it names no line (11 R293). -/
def Act.lineOf (va : Reg) : Act (Option Nat) := do
  let s ← get
  let c := s.cur.core
  let k := s.cur.slot
  let a := va.toNat
  if 2 ^ 52 ≤ a then pure none
  else if windowBase ≤ a then pure (atticLine c va)
  else match (if k < 8 then s.slotFind c k a else s.nowFind c k a) with
    | none => do
      if k < 8 then set (s.askWalk c k a false)
      Act.stall
    | some (.ok t) => do
      set (s.resolved c k a)
      pure (some ((t.loc a).place / 128))
    | some (.error e) => do
      let t := (if k < 8 then s else s.nowUse c k a).noteFault c k e va
      set (t.setMe { t.me with walkFault := none })
      pure none

/-- What a control word of L1INV selects leaves the caches of a core: every line, or the one given. What the core's slots
have read ahead of a data line goes with it (11 R293). -/
def State.l1Drop (s : State) (c : Nat) (x : Reg) (line : Option Nat) : State :=
  let keep (l : L1Line) : Bool := !x.getLsbD 2 && line ≠ some l.line
  let y := s.core c
  let unread (e : Early) : Bool := e.core = c && x.getLsbD 0 && e.inv.isNone && (x.getLsbD 2 || line = some (e.place / 128))
  { s with early := s.early.filter (fun e => !unread e) }.setCore c { y with
    l1 := if x.getLsbD 0 then y.l1.filter keep else y.l1
    l1i := if x.getLsbD 1 then y.l1i.filter keep else y.l1i }

/-- L1INV. One that the slot has carried out ahead of the loads before it has had its effect (11 R293). -/
def execL1inv (a b : BitVec 5) (s : State) : Outcome :=
  run (.l1inv a b) (do
    let s ← get
    let x := s.g b
    let done (e : Early) : Bool := e.core = s.cur.core && e.slot = s.cur.slot && e.inv == some (s.g a, x)
    if 8 ≤ x.toNat then Act.trap Cause.data x
    else if s.early.any done then do
      set { s with early := s.early.filter (fun e => !done e) }
      Act.done
    else do
      let line ← if x.getLsbD 2 then pure none else Act.lineOf (s.g a)
      modify (fun s => s.l1Drop s.cur.core x line)
      Act.done) s

/-- The translations without those that a test names: in the L1 TLBs of some cores and in the L2 TLBs of
some clusters. -/
def State.dropTlbs (s : State) (core cluster : Nat → Bool) (f : Tlb → Bool) : State :=
  { s with
    cores := s.cores.map (fun e =>
      (e.1, if core e.1 then e.2.dropTlb f else e.2))
    l2tlb := s.l2tlb.map (fun e => (e.1, if cluster e.1 then e.2.filter (fun t => !f t) else e.2)) }

/-- The tables as memory has them now, for the walks to come (15 R365). DESIGN CHOICE (log 82): a line in which they cannot
be read stays as it was, and the error is recorded. -/
def State.readTables (s : State) : State :=
  let mine (p : Nat) : Bool := p < 0x20088
  let struck := s.poisoned.map (· / 16) ++ (s.l2.filter (fun l => !l.bad.isEmpty)).map (·.line)
    ++ (s.stack 0).retired.flatMap (fun g => (List.range 32).map (fun i => 32 * g + i))
  let bad := struck.eraseDups.filter (fun l => mine (l * 128) && (List.range 16).any (fun i => s.entryBad (l * 128 + 8 * i)))
  let add (t : Memory) (l : L2Line) : Memory :=
    l.bytes.foldl (fun t b => if mine (l.line * 128 + b.1) then Tab.set Memory.blank t (l.line * 128 + b.1) b.2 else t) t
  let now := (s.l2.filter (fun l => l.slice = s.homeSlice (l.line * 128))).foldl add (s.mem.filter (fun e => mine e.1))
  let kept := s.tables.filter (fun e => bad.contains (e.1 / 128))
  let tables := kept.foldl (fun t e => Tab.set Memory.blank t e.1 e.2) (now.filter (fun e => !bad.contains (e.1 / 128)))
  bad.foldl (fun t l => t.noteError (t.tableLoc (l * 128))) { s with tables := tables }

/-- TLBI. It retires once the writes that a dropped translation gave are performed: buffered stores, those that an engine
has staged, contributions held at an interface (11 R295, 15 R365, R375). -/
def execTlbi (a b : BitVec 5) (s : State) : Outcome :=
  run (.tlbi a b) (do
    let s ← get
    let x := s.g b
    let kind := x.toNat % 4
    let scope := x.toNat / 4 % 8
    if 32 ≤ x.toNat || kind = 3 || 4 ≤ scope then Act.trap Cause.data x
    else if kind = 2 && !s.secure then Act.trap Cause.secure ((wordOfInstr (.tlbi a b)).setWidth 64)
    else do
      Act.release scope
      let s ← get
      let c := s.cur.core
      let vf := s.region.vf
      let within (d : Nat) : Bool := match scope with
        | 0 => d = c
        | 1 => clusterOf d = clusterOf c
        | 2 => dieOf d = dieOf c
        | _ => true
      let cluster (e : Nat) : Bool := scope ≠ 0 && within (16 * e)
      let hit (t : Tlb) : Bool := kind = 2 || (t.vf == vf && (kind = 1 || (s.g a).toNat / 2 ^ t.lg = t.vpage))
      let old (va : Reg) (of' : BitVec 9) : Bool := va.toNat < windowBase && (kind = 2 ||
        (of' == vf && (kind = 1 || va.toNat / 4096 = (s.g a).toNat / 4096
          || (s.cores.flatMap (fun q => q.2.tlbs) ++ s.l2tlb.flatMap (·.2)).any (fun t => hit t && va.toNat / 2 ^ t.lg = t.vpage))))
      if s.cores.any (fun q => within q.1 && (q.2.sb.any (fun e => old e.va e.vf)
          || (q.2.mixw ++ q.2.dataw).any (fun x => old x.va x.vf)))
        || s.posted.any (fun p => within p.src && old p.va p.vf) then Act.stall
      else do
        let s := s.dropTlbs within cluster hit
        set (if kind = 2 && scope = 3 then s.readTables else s)
        Act.done) s

/-- The stretches of memory that the pages of a range lie in: each page checked against rows 1, 3, 4, 5 and
6 of Table 6.1, the first at the address of the range (11 R296). -/
def Act.stretches (start : Reg) : Nat → Nat → Act (List (Nat × Nat))
  | 0, _ => pure []
  | n + 1, page => do
    let s ← get
    let c := s.cur.core
    let k := s.cur.slot
    let va := if page = start.toNat / 4096 then start else BitVec.ofNat 64 (page * 4096)
    if windowBase ≤ page * 4096 && page * 4096 < 2 ^ 52 then Act.trap Cause.data va
    else match s.check (s.who c k) (s.slotFind c k) .load va 1 1 with
      | none => do
        set (s.askWalk c k va.toNat false)
        Act.stall
      | some (.error e) => Act.trap e va
      | some (.ok (.decoded _ _)) => Act.trap Cause.data va
      | some (.ok (.at' l)) =>
        if l.ms then Act.trap Cause.data va
        else do
          set (s.keepTlb c k va.toNat)
          let rest ← Act.stretches start n (page + 1)
          pure ((l.place - va.toNat % 4096, 4096) :: rest)

/-- Pages cut to the lines of the range. -/
def cutLines (lo hi : Nat) (page : Nat) : List (Nat × Nat) → List (Nat × Nat)
  | [] => []
  | (p, _) :: t =>
    let first := Nat.max lo (page * 4096)
    let last := Nat.min hi (page * 4096 + 4096)
    (p + first % 4096, last - first) :: cutLines lo hi (page + 1) t

/-- A line lies in one of some stretches. -/
def inStretch (ps : List (Nat × Nat)) (line : Nat) : Bool :=
  ps.any (fun p => p.1 ≤ line * 128 && line * 128 < p.1 + p.2)

/-- The lines of a range written back; each copy stays, clean. -/
def State.writeBackAll (s : State) (ps : List (Nat × Nat)) : State :=
  (s.l2.filter (fun l => inStretch ps l.line)).foldl State.cleanCopy s

/-- The work of WBR and INVR, up to the write-back; the stretches of the range. -/
def Act.writeBackRange (va len : Reg) : Act (List (Nat × Nat)) := do
  if len = 0 || 2 ^ 30 < len.toNat then Act.trap Cause.data len
  else if 2 ^ 52 ≤ va.toNat then Act.trap Cause.wide va
  else do
    let lo := va.toNat / 128 * 128
    let hi := (va.toNat + len.toNat - 1) / 128 * 128 + 128
    let page := lo / 4096
    let pages ← Act.stretches va ((hi - 1) / 4096 + 1 - page) page
    let ps := cutLines lo hi page pages
    let s ← get
    if s.here.sb.any (fun e => e.slot = s.cur.slot && inStretch ps (e.block / 2)) || s.silent s.cur.core
      || s.claims.any (fun q => q.recorded && inStretch ps q.line)
      || ps.any (fun p => s.inEpoch p.1 p.2) then Act.stall
    else do
      set (s.writeBackAll ps)
      pure ps

/-- WBR (11 R296). -/
def execWbr (a b : BitVec 5) (s : State) : Outcome :=
  run (.wbr a b) (do
    let s ← get
    let _ ← Act.writeBackRange (s.g a) (s.g b)
    Act.done) s

/-- INVR (11 R296). DESIGN CHOICE (log 118): of the issuing core's L1 copies it drops those of the data cache; lines of
instructions and words that slots have read ahead stay. -/
def execInvr (a b : BitVec 5) (s : State) : Outcome :=
  run (.invr a b) (do
    let s ← get
    let ps ← Act.writeBackRange (s.g a) (s.g b)
    modify (fun s => { s with l2 := s.l2.filter (fun l => !inStretch ps l.line) })
    modify (fun s => s.setHere { s.here with l1 := s.here.l1.filter (fun l => !inStretch ps l.line) })
    Act.done) s

/-! ### Interleave domains, attic, tenant ways and keys (11 R297) -/

/-- An instruction of the secure world only: a secure violation in the other, with the instruction word. -/
def Act.secureOnly (i : Instr) : Act Unit := do
  let s ← get
  if s.secure then pure () else Act.trap Cause.secure ((wordOfInstr i).setWidth 64)

/-- An operand that must be below a bound. -/
def Act.below (x : Reg) (n : Nat) : Act Unit := if x.toNat < n then pure () else Act.trap Cause.data x

/-- A hash mask that DOMSET rejects (12 R303). -/
def maskBad (x : Reg) : Bool :=
  let log := x.toNat / 2 ^ 9 % 16
  let base := x.toNat % 512
  2 ^ 48 ≤ x.toNat || x.toNat / 2 ^ 13 % 4 ≠ 0 || 9 < log || base % 2 ^ log ≠ 0 || 512 < base + 2 ^ log
    || ((List.range 33).filter (fun k => x.getLsbD (15 + k))).length < log

/-- A new hash mask in force: misses in flight are replayed, and claims not yet recorded go to the new
homes (12 R309). -/
def State.switchDomain (s : State) (d : Nat) (mask : Reg) : State :=
  let moved (line : Nat) : Bool := domainOf (line * 128) = d
  let s := { s with domains := Tab.set domainReset s.domains d mask
                    misses := s.misses.filter (fun m => !moved m.line) }
  let s := s.mapSlots (fun _ _ x => match x.wait with
    | .fill _ line => if moved line then { x with wait := .none } else x
    | _ => x)
  { s with claims := s.claims.map (fun q =>
      if !q.recorded && moved q.line && q.unit < 4096 then { q with unit := s.homeSlice (q.line * 128) } else q) }

/-- DOMSET (12 R309). While it waits for recorded claims its slot is marked, and new claims of the domain wait. -/
def execDomset (d a b : BitVec 5) (s : State) : Outcome :=
  run (.domset d a b) (do
    Act.secureOnly (.domset d a b)
    let s ← get
    Act.below (s.g a) 64
    let dom := dieOf s.cur.core * 64 + (s.g a).toNat
    if maskBad (s.g b) then Act.trap Cause.data (s.g b)
    else if s.epochs.any (fun e => domainOf e.base = dom) then Act.trap Cause.data (s.g a)
    else do
      Act.crossing
      if s.claims.any (fun q => q.recorded && domainOf (q.line * 128) = dom) then do
        set (s.setMe { s.me with wait := .domset dom })
        Act.stall
      set (s.switchDomain dom (s.g b))
      Act.result d (s.domainMask dom)) s

/-- Attic storage of some ways of a slice. -/
def inWays (slice : Nat) (ways : BitVec 16) (place : Nat) : Bool :=
  storeOf place = .attic && atticDie place = slice / 512 && place / 128 % 512 = slice % 512
    && ways.getLsbD (15 - place % 2 ^ 26 / 2 ^ 22)

/-- Ways of a slice change sides: entering lines are written back, and the storage of ways that enter or
leave holds zeros; every core of the die drops its copies of lines that left (12 R312). -/
def State.setAttic (s : State) (slice : Nat) (ways : BitVec 16) : State :=
  let old := Tab.get (0 : BitVec 16) s.attic slice
  let enter := ways &&& ~~~old
  let leave := old &&& ~~~ways
  let s := (s.l2.filter (fun l => l.slice = slice && enter.getLsbD l.way)).foldl State.evict s
  let gone (p : Nat) : Bool := inWays slice (enter ||| leave) p
  { s with
    attic := Tab.set (0 : BitVec 16) s.attic slice ways
    mem := s.mem.filter (fun e => !gone e.1)
    poisoned := s.poisoned.filter (fun w => !gone (8 * w))
    cores := s.cores.map (fun e => (e.1,
      if dieOf e.1 = slice / 512 then { e.2 with l1 := e.2.l1.filter (fun l => !inWays slice leave (l.line * 128)) }
      else e.2)) }

/-- Whether a command that has begun works with attic storage of some ways of a slice: in a ring, at an address that it
names, or in a write that it has staged (12 R312). -/
def State.worksIn (s : State) (c : Nat) (data : Bool) (m : Cmd) (slice : Nat) (ways : BitVec 16) : Bool :=
  let hit (p n : Nat) : Bool := (List.range (n / 128 + 2)).any (fun i => inWays slice ways (Nat.min (p + 128 * i) (p + n - 1)))
  let w := s.whoCmd c m
  let run (x : Use × Reg × Nat) : Bool := (s.engOk w x.1 x.2.1 x.2.2).any (fun t => match t.1 with
    | .at' l => hit l.place t.2
    | .decoded _ _ => false)
  m.begun && ((m.sources ++ m.dests).any (fun x => match (s.core c).ring x.1 with
      | some r => hit (r.desc.place c 0) (r.desc.count * r.desc.size)
      | none => false)
    || m.runs.any run || ((s.core c).staged data).any (fun x => hit (x.line * 128) 128)
    || ((m.op = 12 || m.op = 13) && (List.range m.elems).any (fun i =>
      run (if m.op = 12 then .engineRead else .engineWrite, m.elemAddr (s.index c m i), m.elemBytes))))

/-- ATTSET. A command that is executing completes against the ways that leave, before they are freed; the ways that enter
have entered by then (12 R312). -/
def execAttset (d a b : BitVec 5) (s : State) : Outcome :=
  let before : Option (BitVec 16) := match s.me.wait with
    | .attset old => some old
    | _ => none
  run (.attset d a b) (do
    Act.secureOnly (.attset d a b)
    let s ← get
    Act.below (s.g a) 512
    Act.below (s.g b) (2 ^ 16)
    if before.isNone then Act.crossing
    let slice := dieOf s.cur.core * 512 + (s.g a).toNat
    let ways : BitVec 16 := (s.g b).setWidth 16
    let now := Tab.get (0 : BitVec 16) s.attic slice
    let old := before.getD now
    let leave := old &&& ~~~ways
    if s.cores.any (fun q => dieOf q.1 = dieOf s.cur.core && ((q.2.mixq.take 1).any (fun m => s.worksIn q.1 false m slice leave)
        || (q.2.dataq.take 1).any (fun m => s.worksIn q.1 true m slice leave))) then do
      let t := if before.isNone then s.setAttic slice (old ||| ways) else s
      set (t.setMe { t.me with wait := .attset old })
      Act.stall
    else do
      set (s.setAttic slice ways)
      Act.result d (old.setWidth 64)) s

/-- A tenant's mask: the lines that it allocated or wrote in the ways it loses are written back and invalidated first
(12 R314). -/
def State.setWays (s : State) (tenant : Nat) (mask : BitVec 16) : State :=
  let old := Tab.get (0xFFFF : BitVec 16) s.tenantWays tenant
  let lost := old &&& ~~~mask
  let mine (l : L2Line) : Bool := l.tenant.toNat = tenant || l.wrote.any (fun w => w.toNat = tenant)
  let s := (s.l2.filter (fun l => mine l && lost.getLsbD l.way)).foldl State.evict s
  { s with tenantWays := Tab.set (0xFFFF : BitVec 16) s.tenantWays tenant mask }

/-- WAYMASK (12 R313, R314). -/
def execWaymask (d a b : BitVec 5) (s : State) : Outcome :=
  run (.waymask d a b) (do
    Act.secureOnly (.waymask d a b)
    let s ← get
    Act.below (s.g a) 1024
    Act.below (s.g b) (2 ^ 16)
    Act.crossing
    let tenant := (s.g a).toNat
    set (s.setWays tenant ((s.g b).setWidth 16))
    Act.result d ((Tab.get (0xFFFF : BitVec 16) s.tenantWays tenant).setWidth 64)) s

/-- KEYDEL (12 R322). -/
def execKeydel (d a : BitVec 5) (s : State) : Outcome :=
  run (.keydel d a) (do
    Act.secureOnly (.keydel d a)
    let s ← get
    Act.below (s.g a) 4096
    Act.crossing
    let key := (s.g a).toNat
    if key = 0 || (Tab.find s.keys key).isNone then Act.result d 1
    else do
      set { s with keys := Tab.erase s.keys key, l2 := s.l2.filter (fun l => l.key.toNat ≠ key) }
      Act.result d 0) s

/-! ### Snapshot and capabilities (11 R298, R299) -/

/-- SNAP (11 R298, 15 R384). -/
def execSnap (d : BitVec 5) (s : State) : Outcome :=
  run (.snap d) (do
    let s ← get
    if s.latchDue || s.snapshot.isSome then Act.stall
    else do
      set { s with triggers := s.triggers + 1, latchDue := true }
      Act.result d ((s.triggers + 1).setWidth 64)) s

/-- The capability list (16 Table 16.5). -/
def State.capability (s : State) (i : Nat) : Reg :=
  match i with
  | 0 => if s.broken then 0x0000010000000000 else 0x0000010000000009
  | 1 => 0x0001010000000000 ||| s.package.setWidth 64
  | 2 => 0x0002010001020100
  | 3 => 0x0003010002010102
  | 4 => 0x000401000000F700
  | 5 => 0x00050100000000FF
  | 6 => 0x0006010000001000
  | 7 => 0x0007010000000040
  | 8 => 0x0008010000000010
  | 9 => 0x0009010000690C80
  | _ => 0

/-- CAPRD (11 R299, 16 R391). -/
def execCaprd (d a : BitVec 5) (s : State) : Outcome :=
  simple (.caprd d a) (fun s => s.setG d (s.capability (s.g a).toNat)) s

end Sys2Proof.Machine
end

