-- ==== Sys2Proof/Machine/Events.lean ====
section
/-! DEFINITION. What the package does beside the instructions of its slots: traps that fall due, the kill,
buffered stores, claims, fills and walks, accesses from the host and from other packages, keys and retired
pages (06 R132, 11 R279, R282, R283, 12 R307, R308, R320, 14 R351, R353, R358, 15 R369 to R374, R379). -/

namespace Sys2Proof.Machine

/-! ### Traps that fall due, and the kill (11 R279, R282, R283, R301) -/

/-- The slot awaits, or has, the reply of an operation it sent: the instruction completes before a trap is
taken (11 R301). -/
def State.replyDue (s : State) (c k : Nat) : Bool :=
  let x := s.slotAt c k
  (match x.wait with
    | .woken _ | .ringWoken _ _ | .entry _ | .ringGone | .publishing | .attset _ => true
    | _ => false) || !x.owed.isEmpty
  || (s.core c).ports.any (fun e => e.2.slot = k && e.2.uid = x.runId && e.2.closing)

/-- Whether a slot is at a boundary at which a pending trap is taken. -/
def State.takesPending (s : State) (c k : Nat) : Bool :=
  let x := s.slotAt c k
  x.task.isSome && !x.hnd && !s.replyDue c k

/-- BUDGET_TRAP (11 R279, R282). -/
def execBudgetTrap (core : BitVec 12) (slot : BitVec 3) (s : State) : Outcome :=
  let c := core.toNat
  let k := slot.toNat
  let x := s.slotAt c k
  .next (if s.takesPending c k && x.budgetDue then s.takeTrap c k Cause.budget 0 x.pc else s)

/-- WOUND_TRAP: a budget trap that is due is taken first (10 R267, 11 R279). -/
def execWoundTrap (core : BitVec 12) (slot : BitVec 3) (s : State) : Outcome :=
  let c := core.toNat
  let k := slot.toNat
  let x := s.slotAt c k
  .next (match x.wound with
    | some w => if s.takesPending c k && !x.budgetDue then s.takeTrap c k Cause.wound w.name x.pc else s
    | none => s)

/-- KILL (11 R282, R283). -/
def execKill (core : BitVec 12) (slot : BitVec 3) (s : State) : Outcome :=
  let c := core.toNat
  let k := slot.toNat
  let x := s.slotAt c k
  .next (if x.task.isSome && Config.killGrace ≤ x.overrun then
    s.stopTask c k 0x01 Cause.kill x.pc (BitVec.ofNat 64 x.overrun) else s)

/-- FETCH_FAULT: the running slot's fetch has faulted (03 R64, 05 R120); where it is that of a handler's first
instruction, the slot halts (11 R280). -/
def execFetchFault (cause : BitVec 8) (xval : BitVec 64) (s : State) : Outcome :=
  .next (match s.me.entering with
    | some prior => s.doubleFault s.cur.core s.cur.slot prior
    | none => s.trapHere cause xval)

/-- ILLEGAL_INSTRUCTION: the running slot has fetched a word that is no instruction (03 R67, R80). -/
def execIllegalInstruction (word : BitVec 32) (idx : BitVec 3) (s : State) : Outcome :=
  .next (s.trapHere Cause.illegal (illegalXval none word idx.toNat))

/-! ### The store buffer (06 R132, R158) -/

/-- The words of a store buffer: the place of the entry, and the word of 8 bytes in its block. -/
def sbWords (sb : List SbEntry) : List (Nat × Nat) :=
  sb.zipIdx.flatMap (fun e => ((e.1.bytes.map (fun b => b.1 / 8)).eraseDups).map (fun w => (e.2, w)))

/-- An entry's bytes in a word, and what is left of it. -/
def SbEntry.word (e : SbEntry) (w : Nat) : Tab Byte := e.bytes.filter (fun b => b.1 / 8 = w)
def SbEntry.without (e : SbEntry) (w : Nat) : SbEntry := { e with bytes := e.bytes.filter (fun b => b.1 / 8 ≠ w) }

/-- A store buffer with an entry replaced; an empty entry leaves. -/
def sbReplace (sb : List SbEntry) (i : Nat) (e : SbEntry) : List SbEntry :=
  (sb.set i e).filter (fun x => !x.bytes.isEmpty)

/-- A word of a store that its home refuses: the cause and the address of the report (06 R122, R158; 15 Table 15.9). -/
def State.refusedStore (s : State) (c : Nat) (e : SbEntry) (l : Loc) : Option (Cause × Reg) :=
  let pa : Reg := BitVec.ofNat 64 l.place
  let va : Reg := BitVec.ofNat 64 (e.va.toNat / 64 * 64 + l.place % 64)
  match storeOf l.place with
  | .cellar => if s.coversCounter l.place 1 then some (Cause.data, va) else none
  | .attic =>
    let off := l.place % 2 ^ 26
    if !s.atticHas (atticDie l.place) off then some (Cause.data, va)
    else if s.atticSecure (atticDie l.place) != e.secure then some (Cause.secure, va) else none
  | .hbm => (s.writeFails l e.tenant).map (fun x => (x.1, pa))
  | .host => if s.inPub e.vf l.place 1 then none else some (Cause.data, pa)
  | .remote => if s.routeUp e.route then none else some (Cause.link, pa)
  | _ => if c < Config.cores then none else some (Cause.data, pa)

/-- Bytes of one word performed at their home. -/
def State.performWord (s : State) (e : SbEntry) (l : Loc) (bytes : Tab Byte) : State :=
  let line := l.place / 128
  let at0 := e.block * 64
  match storeOf l.place with
  | .hbm => (s.backInvalidate line).writeLine { l with place := line * 128 } e.tenant
      (bytes.map (fun b => ((at0 + b.1) % 128, b.2)))
  | .host => s.pubPut e.vf line (bytes.map (fun b => ((at0 + b.1) % 128, b.2)))
  | _ =>
    if bytes.length = 8 then s.poke l.place (bytes.map (·.2))
    else bytes.foldl (fun s b => s.poke (at0 + b.1) [b.2]) s

/-- STORE_BUFFER_DRAIN: the k-th word of a core's buffer is performed, unless an earlier store of the slot to
the word, a FENCE.net, a claim, an epoch, the crossbar or a full publication buffer holds it back (06 R128, R132, R139,
R150; 14 R347, R353). -/
def execStoreBufferDrain (core : BitVec 12) (k : Nat) (s : State) : Outcome :=
  let c := core.toNat
  let sb := (s.core c).sb
  match (sbWords sb)[k]? with
  | none => .next s
  | some (i, w) =>
    match sb[i]? with
    | none => .next s
    | some e =>
      let bytes := e.word w
      let first := (bytes.headD (0, 0)).1
      let l : Loc := { place := e.block * 64 + first, ms := e.ms, ro := false, sec := e.secure, key := e.key }
      let earlier := (sb.take i).any (fun x => x.slot = e.slot && x.block = e.block && !(x.word w).isEmpty)
      if earlier || s.fenceHoldsAt c e.slot e.fence (e.block * 64) || s.waits { l with place := e.block * 64 + 8 * w } 8
        || s.mute c l.place || (storeOf l.place = .host && s.inPub e.vf l.place 1 && !s.pubRoom e.vf (l.place / 128)) then .next s
      else
        let put (s : State) (y : SbEntry) : State := s.setCore c { s.core c with sb := sbReplace sb i y }
        match s.refusedStore c e l with
        | some (cause, addr) =>
          let s := put s (e.without w)
          let s := match s.writeFails l e.tenant with
            | some x => s.faqAdd x.2 l.place
            | none => s
          .next (s.report (regionReport s e.root e.rid 0x04 cause (whereOf c e.slot) addr 0 0))
        | none => .next (((put s (e.without w)).performWord e l bytes).dropLine c (l.place / 128))

/-- The reply of a write that was held at an interface fills its register, where the slot still runs the task (06 R161, 11
R301). -/
def State.reply (s : State) (p : Posted) (d : BitVec 5) (v : Reg) : State :=
  let x := s.slotAt p.src p.slot
  if x.runId = p.uid then s.setSlotAt p.src p.slot { x.setG d v with owed := x.owed.erase d } else s

/-- A write held at an interface is performed, once no earlier network write of its slot holds it back, nor an earlier
one of its core to the line or the epoch (14 R349): a contribution reaches its epoch, another one its counter (06 R139).
DESIGN CHOICE (log 100): a signal whose counter has been retired meanwhile does nothing, and a CNT.ADD then answers with
a free value. -/
def State.performPosted (s : State) (k : Nat) : State :=
  match s.posted[k]? with
  | none => s
  | some p =>
    if s.fenceHolds p.src p.slot p.fence || s.mute p.src p.place
      || (s.posted.take k).any (fun q => q.before p.src p.place p.op) then s
    else
      let s := { s with posted := s.posted.eraseIdx k }
      match p.op with
      | .add base q => s.contribute base q
      | .sig => if s.live p.place then s.cntUpdate p.place (-1) 0 else s
      | .cntAdd d n =>
        if s.live p.place && !s.cntBad p.place then
          (s.cntUpdate p.place (intOf true 32 n.toNat) 0).reply p d (sext64 32 (s.cntValue p.place).toNat)
        else
          let s := if s.live p.place then s.cntError p.place else s
          ({ s with free := s.free + 1 } : State).reply p d (BitVec.ofNat 64 (Config.draw s.free))
      | .cntInit d x who =>
        let r := s.cntInit p.place x who
        r.2.reply p d (BitVec.ofNat 64 r.1)

/-- Bytes of a place that a slot has read ahead, and the line of the L1 that gave them, if one did. -/
def State.keepEarly (s : State) (c k p : Nat) (sec ldf : Bool) (hit : Option L1Line) (route : BitVec 16) (bs : List Byte) : State :=
  { s with early := s.early ++ [{ core := c, slot := k, place := p, secure := sec, ldf := ldf, l1 := hit.isSome, ro := (hit.map (·.ro)).getD false
                                  bytes := bs, since := { regs := [], loads := false }, inv := none, route := route, lost := false }] }

/-- A slot reads n bytes ahead of its next load of them (06 R129, 22 R407; log 5): what the load, an LD or an LDF, would
read now, where nothing holds it back. -/
def State.readAhead (s : State) (c k : Nat) (va : Reg) (n : Nat) (ldf : Bool) : State :=
  match s.check (s.who c k) (s.slotFind c k) .load va n n with
  | some (.ok (.at' l)) =>
    let hit := if !ldf && l.cacheable then l1Find (s.core c).l1 (l.place / 128) l.sec else none
    let keep (bs : List Byte) : State := s.keepEarly c k l.place l.sec ldf hit
      (if storeOf l.place = .remote then s.routeTo (remotePackage l.place) else 0) (forward (s.core c).sb k l.place bs)
    if (s.slotAt c k).task.isNone || s.early.any (fun e => e.on c k l.place n || e.shows c k l.place) then s
    else match hit with
      | some x => keep ((x.bytes.drop (l.place % 128)).take n)
      | none =>
        if s.waits l n || s.mute c l.place then s
        else match s.readable c (.at' l) n with
          | .error _ => s
          | .ok _ =>
            let tenant := (s.regionOf c k).tenant
            if s.mustFill tenant l n then s.askLine tenant l else (keep (s.homeGives c k l n)).useHome l
  | some (.ok (.decoded win off)) =>
    let p := windowPlace win off
    if (s.slotAt c k).task.isNone || s.early.any (fun e => e.on c k p n || e.shows c k p) then s
    else match s.readable c (.decoded win off) n with
      | .error _ => s
      | .ok _ => s.keepEarly c k p false ldf none 0
          ((List.range n).map (fun i => s.aliasByte c (some k) (s.core c).lut win (off + i)))
  | _ => s

/-! ### Claims, fills and walks -/

/-- A DOMSET waits for the claims of a domain (12 R309). -/
def State.draining (s : State) (dom : Nat) : Bool :=
  s.cores.any (fun e => (List.range 9).any (fun k => (s.slotAt e.1 k).wait == .domset dom))

/-- CLAIM_RECORD: a claim enters its unit's table when there is room, behind the claims recorded before it; while
a DOMSET waits for the line's domain, the claim waits (12 R307, R309). DESIGN CHOICE (log 110): each recorded claim takes
an entry of the table, also where several stand on one line. -/
def execClaimRecord (k : Nat) (s : State) : Outcome :=
  match s.claims[k]? with
  | none => .next s
  | some q =>
    if q.recorded || s.silent q.core || (s.claims.take k).any (fun x => x.line = q.line && x.core = q.core && x.data == q.data && !x.recorded)
      || s.draining (domainOf (q.line * 128)) || Config.claimTableSize ≤ (s.claims.filter (fun x => x.recorded && x.unit = q.unit)).length then .next s
    else .next ({ s with claims := s.claims.eraseIdx k ++ [{ q with recorded := true }] }.backInvalidate q.line)

/-- L2_FILL: a line that holds one of the 48 miss registers of its slice: the bytes that no copy holds come from memory,
every read that waits goes on, and a prefetch has the line in its L1 (06 R134, 12 R308). -/
def execL2Fill (k : Nat) (s : State) : Outcome :=
  match s.misses[k]? with
  | none => .next s
  | some m =>
    if Config.missRegisters ≤ ((s.misses.take k).filter (fun x => x.slice = m.slice)).length then .next s else
    let s := { s with misses := s.misses.eraseIdx k }
    let s := s.mapSlots (fun _ _ x => if x.wait == .fill m.slice m.line then { x with wait := .none } else x)
    let l : Loc := { place := m.line * 128, ms := false, ro := false, sec := m.secure, key := m.key }
    let s := s.fillLine m
    .next (if s.keyGone m.key then s else if s.homeBad l 128 then (if m.keep.isEmpty then s else s.noteError l) else m.keep.foldl (fun s e =>
      s.fillL1 e.1 { place := m.line * 128, ms := false, ro := e.2, sec := m.secure, key := m.key }) s)

/-- A translation enters the L1 TLB of a core and the L2 TLB of its cluster. -/
def State.installTlb (s : State) (c : Nat) (t : Tlb) : State := (s.putTlb c t).putL2Tlb (clusterOf c) t

/-- What a walk is for: the page of the leaf that it finds, or the page asked for where it faults. -/
def State.walkKey (s : State) (r : WalkReq) : BitVec 9 × Bool × Nat × Nat :=
  match s.walk r.vf r.secure (r.page * 4096) with
  | .ok t => (r.vf, r.secure, t.lg, t.vpage)
  | .error _ => (r.vf, r.secure, 0, r.page)

/-- The requests that a die's 16 walkers serve: the oldest, those that one leaf answers as one (15 R373). -/
def State.walkers (s : State) (q : List WalkReq) : List WalkReq :=
  (((q.map s.walkKey).eraseDups).take 16).filterMap (fun k => q.find? (fun r => s.walkKey r = k))

/-- PAGE_WALK: one of a die's walkers ends its walk, once the lines that it reads have come from memory; the requests
that the leaf covers are answered with it, and a fault answers those for its page (12 R308; 15 R368, R373). -/
def execPageWalk (die : BitVec 2) (k : Nat) (s : State) : Outcome :=
  let d := die.toNat
  let q := Tab.get [] s.walks d
  match (s.walkers q)[k]? with
  | none => .next s
  | some r =>
    let va := r.page * 4096
    let tenant := (s.regionOf r.core r.slot).tenant
    if s.walkWaits r.vf r.secure va then .next s
    else match s.walkMiss r.vf r.secure tenant va with
    | some l => .next (s.askLine tenant l)
    | none =>
      let s := (s.walkReads r.vf r.secure va).foldl (fun s p => s.touchLine (p / 128)) s
      let same (x : WalkReq) : Bool := x.vf == r.vf && x.secure == r.secure
      match s.walk r.vf r.secure va with
      | .ok t =>
        let mine (x : WalkReq) : Bool := same x && x.page * 4096 / 2 ^ t.lg = t.vpage
        let s := { s with walks := Tab.set [] s.walks d (q.filter (fun x => !mine x)) }
        .next ((q.filter mine).foldl (fun s x => s.installTlb x.core t) s)
      | .error e =>
        let mine (x : WalkReq) : Bool := same x && x.page = r.page
        let s := { s with walks := Tab.set [] s.walks d (q.filter (fun x => !mine x)) }
        .next ((q.filter mine).foldl (fun s x =>
          s.setSlotAt x.core x.slot { s.slotAt x.core x.slot with walkFault := some (x.page, e) }) s)

/-! ### The host and other packages -/

/-- The words that memory or a slice holds in a table of 4 KiB. -/
def State.tableWords (s : State) (table : Nat) : List Nat :=
  (((s.mem.map (·.1) ++ s.l2.flatMap (fun c => c.bytes.map (fun b => c.line * 128 + b.1))).filter (fun p =>
    decide (table ≤ p) && decide (p < table + 4096))).map (fun p => p / 8 * 8)).eraseDups

/-- Whether tables from one on map an address through a page with MS, by leaves of the levels still to read. -/
def State.msBelow (s : State) (pa : Nat) : List (Nat × Bool) → Nat → Bool
  | [], _ => false
  | (sh, leaf) :: rest, table => (s.tableWords table).any (fun p =>
    let e := s.entryAt p
    e.getLsbD 0 && (if e.getLsbD 1 then leaf && e.getLsbD 3 && decide (pteAddr e ≤ pa) && decide (pa < pteAddr e + 2 ^ sh)
      else s.msBelow pa rest (pteAddr e)))

/-- Whether a line is memory-side: the page tables of some context map it so (15 Table 15.4), or a TLB holds a
translation of that kind to it (log 94). -/
def State.msLine (s : State) (pa : Nat) : Bool :=
  let f (t : Tlb) : Bool := t.ms && t.pa ≤ pa && decide (pa < t.pa + 2 ^ t.lg)
  s.cores.any (fun e => e.2.tlbs.any f) || s.l2tlb.any (fun e => e.2.any f)
    || (((s.tables.map (fun e => e.1 / 16)).filter (fun i => i < 1024)).eraseDups).any (fun i =>
      let c := s.context (BitVec.ofNat 9 i) (decide (512 ≤ i))
      c.getLsbD 63 && s.msBelow pa [(48, false), (39, false), (30, true), (21, true), (12, true)]
        (c.toNat / 2 ^ 7 % 2 ^ 49 * 2 ^ 7))

/-- HOST_MEM_ACCESS: an access of 2^lg bytes over CXL.mem, performed at the line's home, the base die for a memory-side
line; `keep` says that the host holds the line afterwards (14 R351). -/
def execHostMemAccess (write keep : Bool) (lg : BitVec 2) (pa : BitVec 56) (data : BitVec 64) (s : State) : Outcome :=
  let p := pa.toNat
  let n := 2 ^ lg.toNat
  let l := { Loc.plain p with ms := s.msLine p }
  let line := p / 128
  if !s.booted || storeOf p ≠ .hbm || p % n ≠ 0 || s.worldBit p || s.waits l n || !write && s.fillWaits 0 l n then .next s
  else
    let s := if write then s.homeWrite l 0 (bytesOfNat n data.toNat)
      else if s.homeBad l n then s.noteError l
      else { s with answer := BitVec.ofNat 64 (leNat (s.homeBytes l n)) }.useRun 0 l n
    let s := s.backInvalidate line
    .next (if keep then
      let die (x : Nat) : Nat := stackOf (x * 128) / 2
      let mine := s.snoop.filter (fun x => die x = die line)
      let s := if 65536 ≤ mine.length then s.backInvalidate (mine.headD 0) else s
      { s with snoop := s.snoop ++ [line] } else s)

/-- PUBLICATION_ADVANCE: where a function's share of the publication buffer is full, the interface has its lines
written, and adds 1 to its version word once they are (14 R353). -/
def execPublicationAdvance (vf : BitVec 9) (s : State) : Outcome :=
  let n := s.ngamon vf
  .next (if n.advancing then
      (if s.pubDue vf then s else (s.pubVersion vf).setNgamon vf { n with advancing := false })
    else if s.pubFull vf then (s.pubBegin vf).setNgamon vf { n with advancing := true }
    else s)

/-- What an access of another package leaves in a word: 1 a store, 2 an AMO, 4 a CAS, 5 an AMOF, 6 an element of a
scatter; `none` where it writes nothing. -/
def remoteWord (op : BitVec 3) (sub : BitVec 4) (ty : BitVec 5) (n old x cmp : Nat) : Option Nat :=
  match op.toNat with
  | 1 => some x
  | 2 => some (amoOp sub (8 * n) old x)
  | 4 => if old = cmp then some x else none
  | 5 => some (amofOp sub ty old x { flags := 0, lfsr := 1 }).1
  | 6 => some (sctOp sub.toNat ty old x { flags := 0, lfsr := 1 }).1
  | _ => none

/-- REMOTE_ACCESS_ARRIVAL: an access of another package is checked against the world it carries and performed
at its home: 0 a load, 3 an element of a gather, the others as `remoteWord` says (14 R358, 15 R376). -/
def execRemoteAccessArrival (op : BitVec 3) (sub : BitVec 9) (lg : BitVec 2) (sec : Bool) (pa : BitVec 56)
    (data : BitVec 128) (s : State) : Outcome :=
  let how := sub.extractLsb' 0 4
  let p := pa.toNat
  let n := 2 ^ lg.toNat
  let l : Loc := { Loc.plain p with sec := sec, ms := s.msLine p }
  let reads := !(op = 1 || (op = 6 && how = 0))
  if !s.booted || p / 2 ^ 40 ≠ 0 || p % n ≠ 0 || s.worldBit p != sec || s.waits l n || reads && s.fillWaits 0 l n then .next s
  else if reads && s.homeBad l n then .next (s.noteError l)
  else
    let t := if reads then s.useRun 0 l n else s
    .next (match remoteWord op how (sub.extractLsb' 4 5) n (leNat (s.homeBytes l n))
      ((data.extractLsb' 0 64).toNat % 2 ^ (8 * n)) ((data.extractLsb' 64 64).toNat % 2 ^ (8 * n)) with
    | some v => t.homeWrite l 0 (bytesOfNat n v)
    | none => t)

/-! ### Keys and retired pages -/

/-- KEY_INSTALL: the base die of stack 0 acts on the key mailbox (15 R379). DESIGN CHOICE (log 113): on one that it cannot
read it does not act, and the error is recorded. -/
def execKeyInstall (s : State) : Outcome :=
  let l : Loc := { Loc.plain 0x20000 with ms := true, sec := true }
  if s.waits l 128 then .next s
  else if s.homeBad l 128 then .next (s.noteError l)
  else if s.devNat 0x20028 8 ≠ 1 then .next s
  else
    let key := s.devNat 0x20020 8 % 4096
    let status := if key = 0 then 2 else if (Tab.find s.keys key).isSome then 1 else 0
    let s := if status = 0 then { s with keys := Tab.put s.keys key (BitVec.ofNat 256 (s.devNat 0x20000 32)) } else s
    .next (((s.devPutNat 0x20000 32 0).devPutNat 0x20030 8 status).devPutNat 0x20028 8 0)

/-- A page joins a stack's retired list (12 R320). DESIGN CHOICE (log 111): one that is on the list already changes
nothing, also where the list is full. -/
def State.retirePage (s : State) (stack page : Nat) : State :=
  let d := s.stack stack
  if d.retired.contains page then s
  else if 4096 ≤ d.retired.length then s.faqAdd 3 (stack * 2 ^ 37 + page * 4096)
  else s.setStack stack { d with retired := d.retired ++ [page] }

/-- RETADD (12 R320). -/
def execRetadd (stack : BitVec 3) (page : BitVec 25) (s : State) : Outcome :=
  .next (s.retirePage stack.toNat page.toNat)

end Sys2Proof.Machine
end

