-- ==== Sys2Proof/Machine/Sched.lean ====
section
/-! DEFINITION. The scheduler of a core: dispatch, stealing, the issue stage, and the clocks (01 R26, 13 R331
to R336, 11 R282, 16 R387). -/

namespace Sys2Proof.Machine

/-! ### Which entry a free slot receives (13 R333, R335) -/

/-- The tasks of a region that run: on one core, and on all. -/
def runs (x : Slot) (root : Nat) (rid : BitVec 16) : Bool := match x.task with
  | some t => t.root = root && t.rid == rid
  | none => false
def State.runningOn (s : State) (c root : Nat) (rid : BitVec 16) : Nat :=
  ((s.core c).slots.filter (fun e => e.1 < 8 && runs e.2 root rid)).length
def State.running (s : State) (root : Nat) (rid : BitVec 16) : Nat :=
  (s.allSlots.filter (fun e => e.2.1 < 8 && runs e.2.2 root rid)).length

/-- Whether a region may use a free slot of a core (13 R335), and whether an entry may. -/
def State.mayUse (s : State) (c root : Nat) (rid : BitVec 16) : Bool :=
  match Tab.find s.roots root with
  | none => false
  | some x =>
    let r := s.regionBy root rid
    x.preempt.isNone && r.holds c && decide (s.runningOn c root rid < r.slots.toNat)
      && (r.tasks = 0 || decide (s.running root rid < r.tasks.toNat))
def State.mayRun (s : State) (c : Nat) (e : Entry) : Bool := s.mayUse c e.root e.record.rid

/-- The first entry that may run, of a ready queue and a deque with its newest entry first, taken in the
order of their heads; the deque goes first on equal keys. -/
def State.pick (s : State) (c : Nat) : Nat → List Entry → List Entry → Option Entry
  | 0, _, _ => none
  | _ + 1, [], [] => none
  | n + 1, r :: rs, [] => if s.mayRun c r then some r else s.pick c n rs []
  | n + 1, [], d :: ds => if s.mayRun c d then some d else s.pick c n [] ds
  | n + 1, r :: rs, d :: ds =>
    if s.before r d then (if s.mayRun c r then some r else s.pick c n rs (d :: ds))
    else if s.mayRun c d then some d else s.pick c n (r :: rs) ds

/-- What a core would dispatch now. -/
def State.nextEntry (s : State) (c : Nat) : Option Entry :=
  let x := s.core c
  s.pick c (x.ready.length + x.deque.length) x.ready x.deque.reverse

/-- Whether a slot is free. -/
def Core.freeSlot (c : Core) (k : Nat) : Bool := (c.slot k).task.isNone

/-! ### Dispatch (01 R26, 13 R335) -/

/-- A slot's state as dispatch sets it. -/
def dispatchSlot (e : Entry) (codelo : Reg) (cycles : BitVec 32) (uid : Nat) : Slot :=
  let r := e.record
  let x := { Slot.reset with
    pc := codelo + r.entry.setWidth 64
    budget := cycles
    task := some { root := e.root, rid := r.rid, ts := r.ts, flags := r.flags, addr := e.addr, uid := uid } }
  let x := x.setG 3 e.addr
  if r.caravan then
    { x.setG 31 ((r.arg 1) >>> 32) with
      cvgroup := r.group
      cvnode := (r.arg 0).setWidth 52
      cvstep := (r.arg 1).setWidth 32
      mb := r.arg 5 ++ r.arg 4 ++ r.arg 3 ++ r.arg 2 }
  else (((x.setG 4 (r.arg 0)).setG 5 (r.arg 1)).setG 6 (r.arg 2)).setG 7 (r.arg 3)

/-- Entries that wait for the ready queue enter it while it has room (13 R332). -/
def State.enterWaiting (s : State) (c : Nat) : Nat → State
  | 0 => s
  | n + 1 =>
    match (s.core c).waiting with
    | [] => s
    | e :: t =>
      if (s.core c).readyFull then s
      else ((s.setCore c { s.core c with waiting := t }).enter' c e).enterWaiting c n

/-- An entry is dispatched into a free slot; its task begins with an acquire. -/
def State.dispatch (s : State) (c k : Nat) (e : Entry) : State :=
  let num := s.tick
  let x := s.core c
  let r := s.regionBy e.root e.record.rid
  let s := (num.2.setCore c { x with deque := x.deque.filter (fun y => y.arrival ≠ e.arrival) }).setReady c
    (x.ready.filter (fun y => y.arrival ≠ e.arrival))
  let s := s.setSlotAt c k (dispatchSlot e x.codelo r.cycles num.1)
  let s := s.enterWaiting c x.waiting.length
  s.acquire c k (match e.origin with
    | .package => 3
    | .system => 4)

/-- TASK_DISPATCH (13 R333, R335). -/
def execTaskDispatch (core : BitVec 12) (slot : BitVec 3) (s : State) : Outcome :=
  let c := core.toNat
  let k := slot.toNat
  .next (if (s.core c).freeSlot k then
    match s.nextEntry c with
    | some e => s.dispatch c k e
    | none => s.enterWaiting c (s.core c).waiting.length
  else s)

/-- The core one hop away in a direction: 0 north, 1 east, 2 south, 3 west. -/
def hop (c dir : Nat) : Option Nat :=
  let dx : Int := if dir = 1 then 1 else if dir = 3 then -1 else 0
  let dy : Int := if dir = 2 then 1 else if dir = 0 then -1 else 0
  coreAt? (xOf c + dx) (yOf c + dy)

/-- The first free slot of a core. -/
def Core.free (c : Core) : Option Nat := (List.range 8).find? (fun k => c.freeSlot k)

/-- The regions for which a core that is idle may ask a neighbour: those that may use its free slot and whose rectangle
holds the neighbour (13 R334). -/
def State.stealRegions (s : State) (c n : Nat) : List (Nat × BitVec 16) :=
  match s.rootAt c with
  | none => []
  | some e => (e.2.regions.filter (fun r => r.holds n && s.mayUse c e.1 r.rid)).map (fun r => (e.1, r.rid))

/-- The neighbour that an idle core asks next, with the direction: the first that qualifies, in rotating order. -/
def State.stealFrom (s : State) (c : Nat) : Option (Nat × Nat) :=
  ((List.range 4).map (fun i => ((s.core c).askNext.toNat + i) % 4)).findSome? (fun d =>
    (hop c d).bind (fun n => if (s.stealRegions c n).isEmpty then none else some (d, n)))

/-- An idle core's request reaches a neighbour's port, which gives up its oldest entry of the region asked for whose
NOSTEAL is clear. Where several regions qualify, which one is asked for is open (log 76). -/
def State.askWork (s : State) (c : Nat) : State :=
  match s.stealFrom c with
  | none => s
  | some (d, n) =>
    let rs := s.stealRegions c n
    let pick := s.choose rs.length
    let r := rs.getD pick.1 (0, 0)
    let s := pick.2.setCore c { pick.2.core c with askNext := BitVec.ofNat 2 (d + 1) }
    match (s.core n).deque.find? (fun e => !e.record.noSteal && e.root = r.1 && e.record.rid == r.2) with
    | none => s
    | some e =>
      let s := s.setCore n { s.core n with deque := (s.core n).deque.filter (fun y => y.arrival ≠ e.arrival) }
      s.setCore c { s.core c with stolen := some e }

/-- A stolen entry arrives: it is dispatched at once, or enters the ready queue where R335 no longer lets it. -/
def State.stealArrives (s : State) (c : Nat) (e : Entry) : State :=
  let t := s.setCore c { s.core c with stolen := none }
  match (t.core c).free with
  | some k => if t.mayRun c e then t.dispatch c k e else t.admitEntry c e
  | none => t.admitEntry c e

/-- STEAL with the neighbour in a direction: the entry that is on its way from there arrives; or an idle core, with a
free slot and nothing to dispatch, asks the neighbour, where it is the one to be asked next (13 R334). -/
def execSteal (core : BitVec 12) (dir : BitVec 2) (s : State) : Outcome :=
  let c := core.toNat
  .next (match (s.core c).stolen with
  | some e => if (s.core c).askNext = dir + 1 then s.stealArrives c e else s
  | none =>
    if (s.core c).free.isNone || (s.nextEntry c).isSome || (s.stealFrom c).map (·.1) ≠ some dir.toNat then s
    else s.askWork c)

/-! ### The issue stage (13 R336) -/

/-- Whether a slot is parked. -/
def Slot.parked (x : Slot) : Bool := match x.wait with
  | .none | .woken _ | .ringWoken _ _ | .entry _ | .ringGone | .split | .domset _ | .attset _ | .publishing => false
  | _ => true

/-- Whether the fetch of a slot's next instruction waits. -/
def State.fetchWaits (s : State) (c k : Nat) : Bool := match s.fetch c k (s.slotFind c k) with
  | .wait _ | .held _ => true
  | _ => false

/-! ### Clocks (11 R282, 16 R387) -/

/-- A slot's budget after cycles: at zero the budget trap falls due once, and the cycles past it count
towards the kill. -/
def Slot.count (x : Slot) (n : Nat) : Slot :=
  if x.task.isNone then x
  else
    let b := x.budget.toNat
    { x with
      budget := BitVec.ofNat 32 (b - n)
      budgetDue := x.budgetDue || (0 < b && b ≤ n)
      overrun := x.overrun + (n - b) }

/-- A command at the head of its queue has waited longer (08 R199). -/
def headWaited (n : Nat) : List Cmd → List Cmd
  | [] => []
  | m :: t => { m with waited := m.waited + n } :: t

/-- Cycles pass on a core's clock. -/
def State.coreClock (s : State) (c n : Nat) : State :=
  let x := s.core c
  s.setCore c { x with
    slots := x.slots.map (fun e => (e.1, e.2.count n))
    cycle := x.cycle + n
    mixq := headWaited n x.mixq
    dataq := headWaited n x.dataq }

/-- Cycles pass on the uncore clock: revocation clocks run, and so do the timeouts of barriers some of
whose members have arrived and none is absent (10 R267, 14 R361). -/
def State.uncoreClock (s : State) (n : Nat) : State :=
  { s with
    revokes := s.revokes.map (fun r => { r with age := r.age + n })
    links := s.links.map (fun e => (e.1,
      if e.2.arrived.isEmpty || !e.2.absent.isEmpty then e.2 else { e.2 with waited := e.2.waited + n })) }

end Sys2Proof.Machine
end

