-- ==== Sys2Proof/Machine/Launch.lean ====
section
/-! DEFINITION. The launch queue of a virtual function, launches and their completion (13 R325 to R330, R341;
14 R352; 16 R390). -/

namespace Sys2Proof.Machine

/-! ### The Ngamon block and its rings (14 R352) -/

/-- A completion written to the completion ring, and the function's interrupt (14 R352, Table 14.5). -/
def State.complete (s : State) (vf : BitVec 9) (tag : Word) (status kind root : Nat) : State :=
  let n := s.ngamon vf
  let size := n.lcqsz.toNat + 1
  let phase := if n.done / size % 2 = 0 then 1 else 0
  let s := s.poke (hostAt n.lcqbase + 16 * (n.done % size)) (bytesOfNat 4 tag.toNat ++ bytesOfNat 2 status
    ++ bytesOfNat 1 kind ++ bytesOfNat 1 phase ++ bytesOfNat 4 root ++ bytesOfNat 4 0)
  (s.setNgamon vf { n with done := n.done + 1 }).raise vf.toNat

/-- An entry of the submission ring (14 Table 14.4). -/
structure Submission where
  op : Nat
  ver : Nat
  tag : Word
  arg0 : Reg
  arg1 : Reg
  deriving DecidableEq, Repr

/-- The entry that the device reads next. -/
def State.submission (s : State) (vf : BitVec 9) : Option Submission :=
  let n := s.ngamon vf
  if n.head = n.tail then none
  else
    let bs := s.peek (hostAt n.lsqbase + 64 * n.head.toNat) 64
    some { op := natAt bs 0 2, ver := natAt bs 2 2, tag := BitVec.ofNat 32 (natAt bs 4 4),
           arg0 := BitVec.ofNat 64 (natAt bs 8 8), arg1 := BitVec.ofNat 64 (natAt bs 16 8) }

/-- The submission ring after an entry has been read. -/
def State.nextEntryRead (s : State) (vf : BitVec 9) : State :=
  let n := s.ngamon vf
  s.setNgamon vf { n with head := BitVec.ofNat 16 ((n.head.toNat + 1) % (n.lsqsz.toNat + 1)) }

/-- The same for a request of the host; one of the secure world has no tag and is not answered here. -/
def State.answerTo (s : State) (vf : BitVec 9) (tag : Option Word) (status kind root : Nat) : State :=
  match tag with
  | some t => s.complete vf t status kind root
  | none => s

/-- Once bring-up is complete, the device reads the next entry, checks OP first and VER second, and acts on an entry of
one operation (14 R352, 16 R389); `none` while what it needs waits at its home. An entry of another listed operation is
left to its own row. -/
def State.entryStep (s : State) (vf : BitVec 9) (op : Nat) (work : Submission → State → Option State) : State :=
  match (if s.booted then s.submission vf else none) with
  | none => s
  | some e =>
    let t := s.nextEntryRead vf
    if e.op = 0 || 4 < e.op then t.complete vf e.tag 0x80 0 0
    else if (s.ngamon vf).sel.toNat < e.ver then t.complete vf e.tag 0x81 0 0
    else if e.op = op then (work e t).getD s
    else s

/-- The doorbell names the next free entry. A value outside the ring is ignored (log 45). -/
def State.doorbell (s : State) (vf : BitVec 9) (tail : BitVec 16) : State :=
  let n := s.ngamon vf
  if tail ≤ n.lsqsz then s.setNgamon vf { n with tail := tail } else s

/-- LSQTAIL. -/
def execLsqtail (vf : BitVec 9) (tail : BitVec 16) (s : State) : Outcome := .next (s.doorbell vf tail)

/-- NOP. -/
def execNop (vf : BitVec 9) (s : State) : Outcome :=
  .next (s.entryStep vf 4 (fun e s => some (s.complete vf e.tag 0 0 0)))

/-- The version changes only inside NGVER, and only while the submission ring is empty (16 R390). -/
def State.selectVersion (s : State) (vf : BitVec 9) (v : BitVec 16) : State :=
  let n := s.ngamon vf
  if n.head = n.tail && 0x0100 ≤ v && v ≤ 0x0102 then s.setNgamon vf { n with sel := v } else s

/-- NGSEL. -/
def execNgsel (vf : BitVec 9) (v : BitVec 16) (s : State) : Outcome := .next (s.selectVersion vf v)

/-! ### The device's accesses to a function's memory -/

/-- Where an address of a virtual function's context lies, the non-secure one but for the secure world (log 44). -/
def State.vfLoc (s : State) (vf : BitVec 9) (sec : Bool) (va : Nat) : Option Loc :=
  if windowBase ≤ va then none
  else match s.walk vf sec va with
    | .ok t =>
      let l := t.loc va
      if storeOf l.place = .remote || (storeOf l.place = .hbm && s.keyGone l.key) then none else some l
    | .error _ => none

/-- The status of a refused launch (13 Table 13.2); 0 stands for a read that waits. -/
abbrev Status := Nat

/-- Why the device stops: a status, and where it met an error. -/
abbrev Halt := Status × Option Loc

/-- Whether a run of bytes waits at its home, for a claim or an epoch (06 R128, R150). -/
def State.runWaits (s : State) (l : Loc) (n : Nat) : Bool :=
  storeOf l.place = .hbm && (s.inEpoch l.place n
    || s.claims.any (fun q => q.recorded && l.place / 128 ≤ q.line && q.line ≤ (l.place + n - 1) / 128))

/-- The pages of a run of a function's memory: an address and its bytes. -/
def vfPages : Nat → Nat → Nat → List (Nat × Nat)
  | 0, _, _ => []
  | f + 1, va, n =>
    if n = 0 then []
    else
      let m := Nat.min n (4096 - va % 4096)
      (va, m) :: vfPages f (va + m) (n - m)

/-- Whether a run of a function's memory waits: a walk, or its bytes; and whether a read of it waits for a line. -/
def State.vfHeld (s : State) (vf : BitVec 9) (sec : Bool) (va n : Nat) : Bool :=
  (vfPages (n / 4096 + 2) va n).any (fun x => s.walkStays vf sec 0 x.1 || ((s.vfLoc vf sec x.1).any (s.runWaits · x.2)))
def State.vfFills (s : State) (vf : BitVec 9) (sec : Bool) (va n : Nat) : Bool :=
  (vfPages (n / 4096 + 2) va n).any (fun x => (s.vfLoc vf sec x.1).any (s.fillWaits 0 · x.2))

/-- Such a read, as it leaves the slices: the walks and the bytes, up to a page that cannot be read (12 R305). -/
def State.vfUse (s : State) (vf : BitVec 9) (sec : Bool) (va n : Nat) : State :=
  let ps := vfPages (n / 4096 + 2) va n
  let stop := ps.findIdx (fun x => match s.vfLoc vf sec x.1 with
    | some l => s.homeBad l x.2
    | none => true)
  (ps.take (stop + 1)).foldl (fun s x =>
    let u := s.useWalk vf sec 0 x.1
    ((s.vfLoc vf sec x.1).map (u.useRun 0 · x.2)).getD u) s

/-- Where an address of a function's memory meets an error: in an entry of its walk, or its key has gone. -/
def State.vfError (s : State) (vf : BitVec 9) (sec : Bool) (va : Nat) : Option Loc :=
  match s.walk vf sec va with
  | .ok t => if s.keyGone t.key then some (t.loc va) else none
  | .error _ => s.walkError vf sec va

/-- Bytes of a function's memory, page by page; status 1 where some cannot be read. -/
def State.vfRead (s : State) (vf : BitVec 9) (sec : Bool) : Nat → Nat → Nat → Except Halt (List Byte)
  | 0, _, n => if n = 0 then .ok [] else .error (1, none)
  | f + 1, va, n =>
    if n = 0 then .ok []
    else
      let m := Nat.min n (4096 - va % 4096)
      match s.vfLoc vf sec va with
      | none => .error (1, s.vfError vf sec va)
      | some l => match (List.range m).find? (fun i => s.byteBad (l.shift i)) with
        | some i => .error (1, some (l.shift i))
        | none => (s.vfRead vf sec f (va + m) (n - m)).map (s.homeBytes l m ++ ·)

/-- What the device reads of a function's memory in a row: the runs that it has read, and why it stops. -/
abbrev Reads := ExceptT Halt (StateM (List (Nat × Nat)))
def Reads.of {α : Type} (x : Except Halt α) : Reads α := ExceptT.mk (pure x)
def State.vfBytes (s : State) (vf : BitVec 9) (sec : Bool) (va n : Nat) : Reads (List Byte) :=
  if s.vfHeld vf sec va n || s.vfFills vf sec va n then Reads.of (.error (0, none))
  else do
    modify (· ++ [(va, n)])
    Reads.of (s.vfRead vf sec (n / 4096 + 2) va n)

/-- The package after such reads, and after the error that stopped the device, which is recorded (15 R382). -/
def State.vfUses (s : State) (vf : BitVec 9) (sec : Bool) (rs : List (Nat × Nat)) : State :=
  rs.foldl (fun s x => s.vfUse vf sec x.1 x.2) s
def State.noteHalt (s : State) (h : Halt) : State := (h.2.map s.noteAt).getD s

/-- Bytes written to a function's memory, page by page. What cannot be written is lost (log 15); an error that it meets
is recorded. -/
def State.vfWrite (s : State) (vf : BitVec 9) (sec : Bool) : Nat → Nat → List Byte → State
  | 0, _, _ => s
  | f + 1, va, bs =>
    if bs.isEmpty then s
    else
      let m := 4096 - va % 4096
      let u := s.useWalk vf sec 0 va
      let s := match s.vfLoc vf sec va with
        | some l => if l.ro then u else u.homeWrite l 0 (bs.take m)
        | none => ((s.vfError vf sec va).map u.noteAt).getD u
      s.vfWrite vf sec f (va + m) (bs.drop m)

/-! ### Region control blocks (13 R326, R329, R330) -/

/-- Bits of a word. -/
def fld (x lo len : Nat) : Nat := x / 2 ^ lo % 2 ^ len

/-- The bits that a word of an RCB may hold. -/
def rcbMask (k : Nat) : Nat :=
  match k with
  | 0 | 6 => 0xFFFFFFFFFFFFFFFF
  | 1 => 0x0000FFFF0000FFFF
  | 2 => 0x3F3FFF7F
  | 3 => 0x00FFFFFFFFFFFFFF
  | 4 => 0x000007FF0000FFFF
  | 5 => 0x03FF01FF0001FFFF
  | 7 => 0x00000000001FFFFF
  | _ => 0

/-- Word k of the i-th RCB of an array. -/
def rcbWord (bs : List Byte) (i k : Nat) : Nat := natAt bs (256 * i + 8 * k) 8

/-- The values of an RCB with its parent's for every group that it does not override. Its rectangle is
relative to the root's origin; none where it begins above or left of that. -/
def rcbRegion (bs : List Byte) (i ovr parent : Nat) (p : Region) : Option Region :=
  let w := rcbWord bs i
  let own {α : Type} (k : Nat) (a b : α) : α := if ovr.testBit k then a else b
  let at' (org lo : Nat) : Int := if i = 0 then 0 else org + intOf true 7 (fld (w 2) lo 7)
  let x := own 0 (at' p.x 0) p.x
  let y := own 0 (at' p.y 8) p.y
  if x < 0 || y < 0 then none
  else some
    { rid := BitVec.ofNat 16 (w 1), parent := parent, x := x.toNat, y := y.toNat
      w := own 0 (fld (w 2) 16 6 + 1) p.w
      h := own 0 (fld (w 2) 24 6 + 1) p.h
      cycles := own 1 (BitVec.ofNat 32 (w 3)) p.cycles
      tasks := own 2 (BitVec.ofNat 16 (fld (w 3) 32 16)) p.tasks
      cellar := own 3 (BitVec.ofNat 11 (fld (w 4) 32 11)) p.cellar
      ways := own 4 (BitVec.ofNat 16 (w 4)) p.ways
      slots := own 5 (BitVec.ofNat 4 (fld (w 3) 48 4)) p.slots
      prio := own 6 (BitVec.ofNat 4 (fld (w 3) 52 4)) p.prio
      fdom := own 7 (BitVec.ofNat 16 (w 5)) p.fdom
      secure := own 8 ((w 5).testBit 16) p.secure
      vf := own 9 (BitVec.ofNat 9 (fld (w 5) 32 9)) p.vf
      tenant := own 9 (BitVec.ofNat 10 (fld (w 5) 48 10)) p.tenant
      tsbase := own 10 (BitVec.ofNat 64 (w 6)) p.tsbase
      barbase := own 11 (BitVec.ofNat 10 (w 7)) p.barbase
      barcnt := own 11 (BitVec.ofNat 11 (fld (w 7) 10 11)) p.barcnt }

/-- A field out of range, for an RCB's values. -/
def Region.badRange (r : Region) : Bool :=
  r.cycles.toNat < 4096 || r.slots.toNat < 1 || 8 < r.slots.toNat || 1024 < r.cellar.toNat
    || 1024 < r.barbase.toNat + r.barcnt.toNat

/-- The limits of Table 13.4 on a child, with its parent and its root. A group that the child takes from its
parent meets them. -/
def Region.within (r p root : Region) : Bool :=
  decide (p.x ≤ r.x) && decide (p.y ≤ r.y) && decide (r.x + r.w ≤ p.x + p.w) && decide (r.y + r.h ≤ p.y + p.h)
    && r.cellar ≤ p.cellar && r.ways == root.ways && r.slots ≤ p.slots && r.secure == p.secure
    && r.vf == p.vf && r.tenant == p.tenant
    && decide (p.barbase.toNat ≤ r.barbase.toNat)
    && decide (r.barbase.toNat + r.barcnt.toNat ≤ p.barbase.toNat + p.barcnt.toNat)

/-- The i-th RCB of an array at an address, checked against those before it. DESIGN CHOICE (log 120): the ranges are those of
the values that the region has after inheritance; a raw field of a group that is not overridden is not looked at. -/
def parseRcb (bs : List Byte) (base i : Nat) (prev : List Region) : Except Status Region :=
  let w := rcbWord bs i
  let j := (w 0 - base) / 256
  let ovr := if i = 0 then 0xFFF else fld (w 1) 32 16
  if (List.range 32).any (fun k => w k &&& rcbMask k ≠ w k) || 0xFFF < ovr then .error 1
  else if (i = 0 && w 0 ≠ 0) || (i ≠ 0 && (w 0 = 0 || w 0 ≠ base + 256 * j || i ≤ j)) then .error 2
  else if prev.any (fun q => q.rid.toNat = fld (w 1) 0 16) then .error 2
  else match rcbRegion bs i ovr j ((prev[j]?).getD Region.default) with
    | none => .error 2
    | some r =>
      let far := i = 0 && (w 2).testBit 15 && (63 < fld (w 2) 0 7 || 63 < fld (w 2) 8 7)
      if r.badRange || far then .error 1
      else if i ≠ 0 && !r.within ((prev[j]?).getD Region.default) (prev.headD Region.default) then .error 2
      else .ok r

/-- The RCBs of an array from the i-th on. -/
def parseRcbs (bs : List Byte) (base : Nat) : Nat → Nat → List Region → Except Status (List Region)
  | 0, _, prev => .ok prev
  | n + 1, i, prev =>
    match parseRcb bs base i prev with
    | .error e => .error e
    | .ok r => parseRcbs bs base n (i + 1) (prev ++ [r])

/-- A root that a virtual function may place, one of its own that is not secure, or that the secure world places (13
Table 13.2, status 6). -/
def rootOf (vf : BitVec 9) (sec : Bool) (rs : List Region) : Except Status (List Region) :=
  let top := rs.headD Region.default
  if top.secure != sec || top.vf ≠ vf then .error 6 else .ok rs

/-! ### Free rectangles and placing (13 R327) -/

/-- Whether two rectangles share a core. -/
def Region.overlaps (a b : Region) : Bool :=
  a.x < b.x + b.w && b.x < a.x + a.w && a.y < b.y + b.h && b.y < a.y + a.h

/-- Whether two ranges of barrier objects share one. -/
def Region.barsMeet (a b : Region) : Bool :=
  a.barbase.toNat < b.barbase.toNat + b.barcnt.toNat && b.barbase.toNat < a.barbase.toNat + a.barcnt.toNat
    && a.barcnt != 0 && b.barcnt != 0

/-- Whether a root's rectangle, moved to an origin, is free. -/
def State.freeAt (s : State) (top : Region) (x y : Nat) : Bool :=
  let r := { top with x := x, y := y }
  let mine := r.clusters
  decide (x + r.w ≤ 64) && decide (y + r.h ≤ 64)
    && s.roots.all (fun e =>
      let q := e.2.top
      !r.overlaps q && (!(mine.any (fun cl => q.clusters.contains cl))
        || (q.tenant == r.tenant && q.secure == r.secure && !r.barsMeet q)))
    && mine.all (fun cl =>
      let sharing := s.roots.filter (fun e => e.2.top.clusters.contains cl)
      decide (r.cellar.toNat + (sharing.map (fun e => e.2.top.cellar.toNat)).foldl (· + ·) 0 ≤ 1024))

/-- A free origin: the one given, or one that the driver chooses among those that a test allows. -/
def State.findOrigin (s : State) (top : Region) (given : Option (Nat × Nat)) (ok : Nat → Nat → Bool) :
    Option ((Nat × Nat) × State) :=
  match given with
  | some (x, y) => if s.freeAt top x y then some ((x, y), s) else none
  | none =>
    match (List.range 4096).filter (fun i => s.freeAt top (i % 64) (i / 64) && ok (i % 64) (i / 64)) with
    | [] => none
    | is =>
      let d := s.choose is.length
      let i := (is[d.1]?).getD 0
      some ((i % 64, i / 64), d.2)

/-- Storage cleared to zero. -/
def State.clear (s : State) (p n : Nat) : State :=
  { s with
    mem := s.mem.filter (fun b => !(p ≤ b.1 && b.1 < p + n))
    poisoned := s.poisoned.filter (fun w => !(p ≤ 8 * w && 8 * w < p + n)) }

/-- A core as placement leaves it: all that Table 1.2 lists is at reset, the inbox among it (13 R327). -/
def Core.placed (x : Core) (clo chi : Reg) : Core :=
  { Core.reset with
    slots := Tab.erase x.slots 8, sb := x.sb, cycle := x.cycle, lastTie := x.lastTie, smcbase := x.smcbase
    mseq := x.mseq, mrseq := x.mrseq, dseq := x.dseq, drseq := x.drseq
    codelo := addrField clo, codehi := addrField chi, xbase := addrField clo }

def State.placeCore (s : State) (clo chi : Reg) (c : Nat) : State :=
  (s.setCore c ((s.core c).placed clo chi)).clear (larderAt c 0) Config.larderSize

/-- A cellar that no other root shares is cleared, and its counters are gone. -/
def State.clearCellar (s : State) (cl : Nat) : State :=
  let s := s.clear (cellarAt cl 0) Config.cellarSize
  { s with counters := s.counters.filter (fun e => cellarCluster e.1 ≠ cl) }

/-- The barrier objects of a root's range are free in the clusters that it touches. -/
def State.freeBars (s : State) (r : Region) : State :=
  let mine := r.clusters
  { s with bars := s.bars.filter (fun e => !(mine.contains (e.1 / 1024) && r.barbase.toNat ≤ e.1 % 1024
      && e.1 % 1024 < r.barbase.toNat + r.barcnt.toNat)) }

/-- A root's regions moved to its origin. -/
def moveTo (x y : Nat) (rs : List Region) : List Region := rs.map (fun r => { r with x := r.x + x, y := r.y + y })

/-- A root placed at a free origin, and its handle. -/
def State.placeRoot (s : State) (rs : List Region) (x y : Nat) (vf : BitVec 9) (tag : Option Word) (clo chi : Reg) :
    Nat × State :=
  let rs := moveTo x y rs
  let top := rs.headD Region.default
  let alone := top.clusters.filter (fun cl => !(s.roots.any (fun e => e.2.top.clusters.contains cl)))
  let s := s.setWays top.tenant.toNat top.ways
  let s := top.cores.foldl (fun s c => s.placeCore clo chi c) s
  let s := (alone.foldl State.clearCellar s).freeBars top
  let root : Root := { regions := rs, vf := vf, tag := tag, clo := clo, chi := chi, preempt := none }
  (s.nextRoot, { s with roots := Tab.put s.roots s.nextRoot root, nextRoot := s.nextRoot + 1 })

/-! ### Launching (13 R325, R326, R328) -/

/-- An initial record: its hop from the root's origin, the record and its address. -/
structure Initial where
  x : Nat
  y : Nat
  record : Record
  addr : Reg
  deriving DecidableEq, Repr

/-- The i-th initial record, checked. -/
def parseInitial (rs : List Region) (recs : Nat) (rb pb : List Byte) (i : Nat) : Except Status Initial :=
  let p := natAt pb (4 * i) 4
  let x := recordOf ((rb.drop (64 * i)).take 64)
  if p &&& 0x3F3F ≠ p then .error 1
  else match rs.find? (fun r => r.rid = x.rid) with
    | none => .error 3
    | some r =>
      if !x.clean || r.w ≤ p % 64 || r.h ≤ p / 256 then .error 3
      else .ok { x := r.x + p % 64, y := r.y + p / 256, record := x, addr := BitVec.ofNat 64 (recs + 64 * i) }

def parseInitials (rs : List Region) (recs : Nat) (rb pb : List Byte) : List Nat → Except Status (List Initial)
  | [] => .ok []
  | i :: t =>
    match parseInitial rs recs rb pb i with
    | .error e => .error e
    | .ok x => (parseInitials rs recs rb pb t).map (x :: ·)

/-- More records on one core than its ready queue holds. -/
def crowded (xs : List Initial) : Bool :=
  xs.any (fun a => Config.readySize < (xs.filter (fun b => b.x = a.x && b.y = a.y)).length)

/-- What a launch places: its regions with the root at (0, 0), its records, the given origin, and the values of
CODELO and CODEHI. -/
structure Plan where
  regions : List Region
  initials : List Initial
  origin : Option (Nat × Nat)
  clo : Reg
  chi : Reg
  deriving DecidableEq, Repr

/-- A check without a place. -/
def checked {α : Type} : Except Status α → Reads α
  | .error e => Reads.of (.error (e, none))
  | .ok x => Reads.of (.ok x)

/-- A launch descriptor, read and checked whole, with what was read. What cannot be read is refused with status 1 (log
44). -/
def State.launchReads (s : State) (vf : BitVec 9) (sec : Bool) (desc : Nat) : Reads Plan := do
  let d ← s.vfBytes vf sec desc 64
  let w (k : Nat) : Nat := natAt d (8 * k) 8
  if 2 ^ 11 ≤ w 1 || 2 ^ 20 ≤ w 4 || w 7 ≠ 0 || w 1 = 0 || 1024 < w 1
    || w 0 % 256 ≠ 0 || w 2 % 64 ≠ 0 || w 3 % 4 ≠ 0 then Reads.of (.error (1, none))
  else
    let bs ← s.vfBytes vf sec (w 0) (256 * w 1)
    let rs ← checked ((parseRcbs bs (w 0) (w 1) 0 []).bind (rootOf vf sec))
    let rb ← s.vfBytes vf sec (w 2) (64 * w 4)
    let pb ← s.vfBytes vf sec (w 3) (4 * w 4)
    let xs ← checked (parseInitials rs (w 2) rb pb (List.range (w 4)))
    let g := rcbWord bs 0 2
    if crowded xs then Reads.of (.error (4, none))
    else pure { regions := rs, initials := xs
                origin := if g.testBit 15 then some (fld g 0 7, fld g 8 7) else none
                clo := BitVec.ofNat 64 (w 5), chi := BitVec.ofNat 64 (w 6) }
def State.readLaunch (s : State) (vf : BitVec 9) (sec : Bool) (desc : Nat) : Except Halt Plan × List (Nat × Nat) :=
  (s.launchReads vf sec desc).run.run []

/-- A checked launch is placed, or refused where no rectangle is free. -/
def State.launchPlan (s : State) (vf : BitVec 9) (tag : Option Word) (p : Plan) : State :=
  match s.findOrigin (p.regions.headD Region.default) p.origin (fun _ _ => true) with
  | none => s.answerTo vf tag 5 0 0
  | some ((x, y), s) =>
    let r := s.placeRoot p.regions x y vf tag p.clo p.chi
    (p.initials.foldl (fun s i => s.enqueue (coreAt (x + i.x) (y + i.y)) i.record i.addr r.1 .system) r.2).answerTo
      vf tag 0 0 r.1

/-- A launch by the host of a virtual function, or by the secure world; `none` while a read waits. -/
def State.launchFrom (s : State) (vf : BitVec 9) (sec : Bool) (tag : Option Word) (desc : Nat) : Option State :=
  let r := s.readLaunch vf sec desc
  let u := s.vfUses vf sec r.2
  match r.1 with
  | .error h => if h.1 = 0 then none else some ((u.noteHalt h).answerTo vf tag h.1 0 0)
  | .ok p => some (u.launchPlan vf tag p)

/-- LAUNCH (13 R326 to R328, 14 R352). -/
def execLaunch (vf : BitVec 9) (s : State) : Outcome :=
  .next (s.entryStep vf 1 (fun e s => s.launchFrom vf false (some e.tag) e.arg0.toNat))

/-- The secure world launches a root of its own (13 Table 13.2). -/
def State.secureLaunch (s : State) (vf : BitVec 9) (desc : Nat) : State := (s.launchFrom vf true none desc).getD s

/-! ### Completion (13 R341) -/

/-- No task of a tree runs or waits to run. -/
def State.noTasks (s : State) (root : Nat) : Bool :=
  s.allSlots.all (fun e => (e.2.2.task.map (·.root)) != some root)
    && s.cores.all (fun e => (e.2.ready ++ e.2.deque ++ e.2.waiting ++ e.2.stolen.toList).all (fun y => y.root ≠ root))

/-- No engine command, staged message or convoy of a tree is outstanding. -/
def State.noWork (s : State) (root : Nat) (top : Region) : Bool :=
  s.cores.all (fun e => (e.2.mixq ++ e.2.dataq).all (fun m => m.root ≠ root))
    && s.undelivered.all (fun m => m.root ≠ root)
    && s.cnet.all (fun f => !top.holds f.src)
    && s.cores.all (fun e => (e.2.ports.isEmpty || !top.holds e.1) && e.2.streams.all (fun x => !top.holds x.src))

/-- The bindings of a tree's counters that never fired are discarded and reported. DESIGN CHOICE (log 114): the block of the
report is slot 0 of the core that bound. -/
def State.dropBindings (s : State) (root : Nat) : State :=
  (s.counters.filter (fun e => e.2.root = root && s.cntBind e.1 ≠ 0)).foldl (fun s e =>
    (s.report (regionReport s root e.2.rid 0x0A 0 (8 * e.2.core) (s.cntBind e.1) 0 0)).pokeNat (e.1 + 8) 8 0) s

/-- LAUNCH_COMPLETE. -/
def execLaunchComplete (root : Nat) (s : State) : Outcome :=
  .next (match Tab.find s.roots root with
  | none => s
  | some r =>
    if r.preempt.isNone && s.noTasks root && s.noWork root r.top && s.fired.all (fun f => f.who.root ≠ root) then
      let s := s.dropBindings root
      { s with roots := Tab.erase s.roots root }.answerTo r.vf r.tag 0 1 0
    else s)

end Sys2Proof.Machine
end

