-- ==== Sys2Proof/Machine/Image.lean ====
section
/-! DEFINITION. Pre-emption: the request, the region image, and the restore (13 R337 to R340, 14 R361). Where
Tables 13.6 and 13.7 give a section's contents but no layout, log 15 says which one this model takes. -/

namespace Sys2Proof.Machine

/-! ### Bytes of tables -/

/-- n words of w bytes, from a table's entries. -/
def packWords (w n : Nat) (f : Nat → Nat) : List Byte := (List.range n).flatMap (fun i => bytesOfNat w (f i))

/-- The entries that are not zero of n words of w bytes. -/
def tabFrom {α : Type} (w n : Nat) (f : Nat → α) (bs : List Byte) : Tab α :=
  (List.range n).filterMap (fun i => let v := natAt bs (w * i) w; if v = 0 then none else some (i, f v))

/-! ### The request (13 R337) -/

/-- A placed root is asked to make way: from now on no task of the tree is dispatched or stolen. -/
def State.stopTree (s : State) (root : Nat) (r : Root) (p : Preempt) : State :=
  { s with roots := Tab.put s.roots root { r with preempt := some p } }

/-- PREEMPT, as the host asks for it. -/
def execPreempt (vf : BitVec 9) (s : State) : Outcome :=
  .next (s.entryStep vf 2 (fun e s => some (
    match Tab.find s.roots e.arg0.toNat with
    | some r =>
      if r.vf = vf && r.preempt.isNone then
        (s.stopTree e.arg0.toNat r { image := e.arg1, vf := vf, secure := false, tag := some e.tag }).complete vf e.tag 0 0 0
      else s.complete vf e.tag 1 0 0
    | none => s.complete vf e.tag 1 0 0)))

/-- The same, as the secure world asks for it: the image is written in its context of the root's function (log 24). -/
def State.securePreempt (s : State) (root : Nat) (image : Reg) : State :=
  match Tab.find s.roots root with
  | some r => if r.preempt.isNone then s.stopTree root r { image := image, vf := r.top.vf, secure := true, tag := none } else s
  | none => s

/-! ### Core sections (13 Table 13.7) -/

def RingDesc.number (d : RingDesc) : Nat :=
  d.offset.toNat + d.win.toNat * 2 ^ 56 + d.slotsz.toNat * 2 ^ 64 + d.slots.toNat * 2 ^ 72

/-- A ring handle in 32 bytes. -/
def ringBytes (r : Option Ring) : List Byte :=
  match r with
  | none => bytesOfNat 32 0
  | some r => bytesOfNat 16 r.desc.number ++ bytesOfNat 4 r.head ++ bytesOfNat 4 r.tail ++ bytesOfNat 4 r.filled
      ++ bytesOfNat 4 1

/-- An open handle from 32 bytes. -/
def ringFrom (bs : List Byte) : Option Ring :=
  if natAt bs 28 4 = 0 then none
  else some { desc := ringDescOf (natAt bs 0 16), head := natAt bs 16 4, tail := natAt bs 20 4, filled := natAt bs 24 4 }

/-- The entries of one mailbox. -/
def Core.mailbox (x : Core) (d : Nat) : List Vec := Tab.get [] x.mail d

/-- The entries of a ready queue as they are saved: those that wait for it come last (log 50). -/
def Core.queued (x : Core) : List Entry := x.ready ++ x.waiting

/-- A core's section without the larder. -/
def State.coreBytes (s : State) (c : Nat) : List Byte :=
  let x := s.core c
  let box (d i : Nat) : Vec := ((x.mailbox d)[i]?).getD 0
  let es := x.queued ++ x.deque
  let head := bytesOfNat 8 x.xbase.toNat ++ bytesOfNat 4 x.skthr.toNat ++ bytesOfNat 4 x.lfsr.toNat
    ++ bytesOfNat 4 x.alside.toNat ++ bytesOfNat 4 x.ncfg.toNat ++ bytesOfNat 1 x.queued.length
    ++ bytesOfNat 1 x.deque.length ++ packWords 1 4 (fun d => (x.mailbox d).length) ++ bytesOfNat 2 0
    ++ bytesOfNat 16 x.lut.toNat ++ packWords 2 8 (fun i => (Tab.get 0 x.s i).toNat)
  head ++ bytesOfNat (256 - head.length) 0
    ++ (List.range 16).flatMap (fun q => ringBytes (x.ring q))
    ++ (List.range 16).flatMap (fun i => bytesOfNat 64 (box (i / 4) (i % 4)).toNat)
    ++ packWords 4 1024 (fun i => (Tab.get 0 x.dict i).toNat)
    ++ packWords 1 128 (fun i => (List.range 8).foldl (fun n b => n + if (Tab.find x.dict (8 * i + b)).isSome then 2 ^ b else 0) 0)
    ++ bytesOfNat 512 x.skip.toNat
    ++ es.flatMap s.entryBytes ++ bytesOfNat (11520 - 80 * es.length) 0
    ++ packWords 4 8192 (fun i => (Tab.get 0 x.acc i).toNat)
    ++ packWords 4 65536 (fun i => (Tab.get 0 x.refs i).toNat)

/-- A core's state loaded from its section; the entries are rebuilt apart. -/
def Core.load (x : Core) (bs : List Byte) : Core :=
  let dict := (List.range 1024).filterMap (fun i =>
    if (natAt bs (0x1700 + i / 8) 1).testBit (i % 8) then some (i, BitVec.ofNat 32 (natAt bs (0x700 + 4 * i) 4)) else none)
  let box (d : Nat) : List Vec := (List.range (natAt bs (0x1A + d) 1)).map (fun i =>
    BitVec.ofNat 512 (natAt bs (0x300 + 256 * d + 64 * i) 64))
  { x with
    xbase := BitVec.ofNat 64 (natAt bs 0 8), skthr := BitVec.ofNat 32 (natAt bs 8 4)
    lfsr := lfsrOf (BitVec.ofNat 32 (natAt bs 12 4)), alside := BitVec.ofNat 20 (natAt bs 16 4) &&& 0xFFFFE
    ncfg := BitVec.ofNat 8 (natAt bs 20 4), lut := BitVec.ofNat 128 (natAt bs 0x20 16)
    s := tabFrom 2 8 (BitVec.ofNat 16) (bs.drop 0x30)
    q := (List.range 16).filterMap (fun q => (ringFrom ((bs.drop (0x100 + 32 * q)).take 32)).map (fun r => (q, r)))
    mail := (List.range 4).filterMap (fun d => if box d = [] then none else some (d, box d))
    dict := dict, skip := BitVec.ofNat 4096 (natAt bs 0x1780 512)
    acc := tabFrom 4 8192 (BitVec.ofNat 32) (bs.drop 0x4680)
    refs := tabFrom 4 65536 (BitVec.ofNat 32) (bs.drop 0xC680) }

/-- The saved entries of a core: of its ready queue, and of its deque, each in its order. -/
def savedEntries (bs : List Byte) (from' n : Nat) : List (Record × Reg) :=
  (List.range n).map (fun i =>
    let at' := 0x1980 + 80 * (from' + i)
    (recordOf ((bs.drop at').take 64), BitVec.ofNat 64 (natAt bs (at' + 64) 8)))

/-- Entries put at the end of a core's ready queue or deque, in saved order; those that find the queue full wait. -/
def State.putSaved (s : State) (c root : Nat) (deque : Bool) : List (Record × Reg) → State
  | [] => s
  | (r, a) :: t =>
    let num := s.tick
    let e : Entry := { record := r, addr := a, root := root, arrival := num.1, origin := .package }
    let x := num.2.core c
    (if deque then num.2.setCore c { x with deque := x.deque ++ [e] }
     else if x.readyFull then num.2.setCore c { x with waiting := x.waiting ++ [e] }
     else num.2.setReady c (x.ready ++ [e])).putSaved c root deque t

/-! ### Cluster sections (13 Table 13.6) -/

/-- A live counter of a tree in 16 bytes: its offset with bit 0 set, its core's hop from the origin, its
region and its world. -/
def counterBytes (top : Region) (e : Nat × Counter) : List Byte :=
  bytesOfNat 4 (e.1 % 2 ^ 20 + 1) ++ bytesOfNat 1 (xOf e.2.core - top.x) ++ bytesOfNat 1 (yOf e.2.core - top.y)
    ++ bytesOfNat 2 e.2.rid.toNat ++ bytesOfNat 8 (if e.2.secure then 1 else 0)

/-- The live counters of a cluster that go with a tree: all but those of another placed root (01 R37). -/
def State.countersOf (s : State) (root cl : Nat) : Tab Counter :=
  s.counters.filter (fun e => cellarCluster e.1 = cl && (e.2.root = root || (Tab.find s.roots e.2.root).isNone))

/-- A cluster's section without the cellar. -/
def State.clusterBytes (s : State) (root : Nat) (top : Region) (cl : Nat) : List Byte :=
  let cs := s.countersOf root cl
  cs.flatMap (counterBytes top) ++ bytesOfNat (8192 - 16 * cs.length) 0
    ++ (List.range 1024).flatMap (fun k =>
      let b := s.bar (barKey cl k)
      bytesOfNat 2 b.n.toNat ++ bytesOfNat 2 b.a.toNat ++ bytesOfNat 4 b.gen.toNat)

/-- A cluster loaded from its section: its counters, its barrier objects and its cellar. -/
def State.loadCluster (s : State) (root : Nat) (top : Region) (cl : Nat) (bs : List Byte) : State :=
  let s := (List.range 512).foldl (fun s i =>
    let w := natAt bs (16 * i) 4
    if w % 2 = 0 then s
    else
      let who : Counter := { core := coreAt (top.x + natAt bs (16 * i + 4) 1) (top.y + natAt bs (16 * i + 5) 1)
                             root := root, rid := BitVec.ofNat 16 (natAt bs (16 * i + 6) 2)
                             secure := natAt bs (16 * i + 8) 8 ≠ 0 }
      { s with counters := Tab.put s.counters (cellarAt cl (w - 1)) who }) s
  let s := (List.range 1024).foldl (fun s k =>
    let at' := 8192 + 8 * k
    s.setBar (barKey cl k) { n := BitVec.ofNat 16 (natAt bs at' 2), a := BitVec.ofNat 16 (natAt bs (at' + 2) 2)
                             gen := BitVec.ofNat 32 (natAt bs (at' + 4) 4) }) s
  s.poke (cellarAt cl 0) ((bs.drop 16384).take Config.cellarSize)

/-- The clusters that a rectangle touches, row by row. -/
def Region.clusterRows (r : Region) : List Nat :=
  (List.range ((r.y + r.h - 1) / 4 - r.y / 4 + 1)).flatMap (fun j =>
    (List.range ((r.x + r.w - 1) / 4 - r.x / 4 + 1)).map (fun i =>
      clusterOf (coreAt (4 * (r.x / 4 + i)) (4 * (r.y / 4 + j)))))

/-! ### The image (13 R338) -/

/-- Sizes of a core section and of a cluster section. -/
def coreSection : Nat := 378496
def clusterSection : Nat := 1064960

/-- Whether an image has cluster sections. -/
def State.hasClusters (s : State) (r : Root) : Bool :=
  r.regions.any (fun q => q.cellar != 0 || q.barcnt != 0)
    || s.counters.any (fun e => r.top.clusters.contains (cellarCluster e.1))

/-- The header. -/
def imageHeader (r : Root) (csect : Bool) : List Byte :=
  let t := r.top
  bytesOfNat 8 ((t.w - 1) + (t.h - 1) * 2 ^ 8 + t.x % 4 * 2 ^ 16 + t.y % 4 * 2 ^ 24 + (if csect then 2 ^ 32 else 0))
    ++ bytesOfNat 8 r.regions.length ++ bytesOfNat 8 r.clo.toNat ++ bytesOfNat 8 r.chi.toNat ++ bytesOfNat 224 0

/-- The RCB of a region, with every group its own: its parent is named by its place in the image. -/
def rcbBytes (rs : List Region) (i : Nat) (r : Region) : List Byte :=
  let p := (rs[r.parent]?).getD r
  let hop (a b : Nat) : Nat := (a + 128 - b) % 128
  let org := if i = 0 then 0 else hop r.x p.x + hop r.y p.y * 2 ^ 8
  bytesOfNat 8 (if i = 0 then 0 else 256 + 256 * r.parent)
    ++ bytesOfNat 8 (r.rid.toNat + (if i = 0 then 0 else 0xFFF * 2 ^ 32))
    ++ bytesOfNat 8 (org + (r.w - 1) * 2 ^ 16 + (r.h - 1) * 2 ^ 24)
    ++ bytesOfNat 8 (r.cycles.toNat + r.tasks.toNat * 2 ^ 32 + r.slots.toNat * 2 ^ 48 + r.prio.toNat * 2 ^ 52)
    ++ bytesOfNat 8 (r.ways.toNat + r.cellar.toNat * 2 ^ 32)
    ++ bytesOfNat 8 (r.fdom.toNat + (if r.secure then 2 ^ 16 else 0) + r.vf.toNat * 2 ^ 32 + r.tenant.toNat * 2 ^ 48)
    ++ bytesOfNat 8 r.tsbase.toNat ++ bytesOfNat 8 (r.barbase.toNat + r.barcnt.toNat * 2 ^ 10) ++ bytesOfNat 192 0

/-- The pieces of an image: where each lies in it, and its bytes. -/
def State.imagePieces (s : State) (root : Nat) (r : Root) : List (Nat × List Byte) :=
  let csect := s.hasClusters r
  let n := r.regions.length
  let cores0 := 256 + 256 * n
  let clusters0 := cores0 + coreSection * r.top.cores.length
  [(0, imageHeader r csect)]
    ++ r.regions.zipIdx.map (fun e => (256 + 256 * e.2, rcbBytes r.regions e.2 e.1))
    ++ r.top.cores.zipIdx.flatMap (fun e => [(cores0 + coreSection * e.2, s.coreBytes e.1),
        (cores0 + coreSection * e.2 + 0x4C680, s.peek (larderAt e.1 0) Config.larderSize)])
    ++ (if csect then r.top.clusterRows.zipIdx.flatMap (fun e =>
        [(clusters0 + clusterSection * e.2, s.clusterBytes root r.top e.1),
         (clusters0 + clusterSection * e.2 + 16384, s.peek (cellarAt e.1 0) Config.cellarSize)]) else [])

/-! ### Saving (13 R337) -/

/-- Every task of a tree has ended, and all it sent has been delivered and acknowledged. -/
def State.drainedTree (s : State) (root : Nat) (top : Region) : Bool :=
  s.allSlots.all (fun e => (e.2.2.task.map (·.root)) != some root)
    && s.noWork root top
    && s.cores.all (fun e => e.2.stolen.all (fun y => y.root ≠ root) && e.2.sb.all (fun b => b.root ≠ root))
    && top.cores.all (fun c => (s.core c).queued.length + (s.core c).deque.length ≤ 144)
    && s.posted.all (fun p => !top.holds p.src)
    && s.nnet.all (fun e => !top.holds e.src && !top.holds e.dst) && s.cnet.all (fun f => !top.holds f.dst)
    && s.fired.all (fun f => f.who.root ≠ root)
    && s.lockDrops.all (fun d => d.root ≠ root)

/-- An epoch of a tree is abandoned, and its fault domain told. DESIGN CHOICE (log 114): of block 0, as Table 15.9 names none. -/
def State.abandonEpochs (s : State) (root : Nat) (top : Region) : State :=
  (s.epochs.filter (fun e => e.root = root)).foldl (fun s e =>
    (s.dropEpoch e).report (regionReport s root top.rid 0x09 0 0 (BitVec.ofNat 64 e.base) 0 0)) s

/-- The link entries of a region's objects: the proxy absence goes to the master, here if it is this package
(14 R361). -/
def State.linksAbsent (s : State) (top : Region) (image : Reg) : State :=
  (List.range 64).foldl (fun s e =>
    let l := s.link e
    let k := l.object % 1024
    match top.clusterRows.findIdx? (fun cl => cl = l.object / 1024) with
    | none => s
    | some i =>
      if !l.valid || l.saved.isSome || k < top.barbase.toNat || top.barbase.toNat + top.barcnt.toNat ≤ k then s
      else s.setLink e { l with
        saved := some { vf := top.vf, rid := top.rid, image := image, cluster := i }
        absent := if l.master = s.package.toNat then l.absent ++ [s.package.toNat] else l.absent }) s

/-- A root leaves its cores, its clusters and its barrier range. -/
def State.freeRoot (s : State) (root : Nat) (top : Region) : State :=
  let s := top.cores.foldl (fun s c => s.setCore c { s.core c with ready := [], waiting := [], deque := [] }) s
  let s := s.freeBars top
  let gone := top.clusters.flatMap (fun cl => (s.countersOf root cl).map (·.1))
  { s with counters := s.counters.filter (fun e => !gone.contains e.1), roots := Tab.erase s.roots root }

/-- PREEMPT_SAVE. -/
def execPreemptSave (root : Nat) (s : State) : Outcome :=
  .next (match Tab.find s.roots root with
  | none => s
  | some r =>
    match r.preempt with
    | none => s
    | some q =>
      let held := (s.imagePieces root r).any (fun p => s.vfHeld q.vf q.secure (q.image.toNat + p.1) p.2.length)
      if s.drainedTree root r.top && !held then
        let s := s.abandonEpochs root r.top
        let s := (s.imagePieces root r).foldl (fun s p =>
          s.vfWrite q.vf q.secure (p.2.length / 4096 + 2) (q.image.toNat + p.1) p.2) s
        ((s.linksAbsent r.top q.image).freeRoot root r.top).answerTo q.vf q.tag 0 2 0
      else s)

/-! ### Restoring (13 R339, R340) -/

/-- What the header of an image says. -/
structure Header where
  w : Nat
  h : Nat
  px : Nat
  py : Nat
  csect : Bool
  nrcb : Nat
  clo : Reg
  chi : Reg
  deriving DecidableEq, Repr

def headerOf (bs : List Byte) : Header :=
  let g := natAt bs 0 8
  { w := fld g 0 8 + 1, h := fld g 8 8 + 1, px := fld g 16 8, py := fld g 24 8, csect := g.testBit 32
    nrcb := natAt bs 8 8, clo := BitVec.ofNat 64 (natAt bs 16 8), chi := BitVec.ofNat 64 (natAt bs 24 8) }

/-- The header and the regions of an image, checked, with what was read. -/
def State.imageReads (s : State) (vf : BitVec 9) (image : Nat) : Reads (Header × List Region) := do
  let hb ← s.vfBytes vf false image 256
  let h := headerOf hb
  if h.nrcb < 1 || 1024 < h.nrcb then Reads.of (.error (1, none))
  else
    let bs ← s.vfBytes vf false (image + 256) (256 * h.nrcb)
    let rs ← checked ((parseRcbs bs 256 h.nrcb 0 []).bind (rootOf vf false))
    let t := rs.headD Region.default
    if t.w = h.w && t.h = h.h then pure (h, rs) else Reads.of (.error (1, none))
def State.readImage (s : State) (vf : BitVec 9) (image : Nat) : Except Halt (Header × List Region) × List (Nat × Nat) :=
  (s.imageReads vf image).run.run []

/-- Where the cluster sections of an image begin, and where it ends. -/
def Header.clusters (h : Header) (image : Nat) (top : Region) : Nat :=
  image + 256 + 256 * h.nrcb + coreSection * top.cores.length
def Header.last (h : Header) (image : Nat) (top : Region) : Nat :=
  h.clusters image top + (if h.csect then clusterSection * top.clusterRows.length else 0)

/-- Whether an image with these properties may land at an origin (R339). -/
def State.landsAt (s : State) (h : Header) (top : Region) (x y : Nat) : Bool :=
  !h.csect || (x % 4 = h.px && y % 4 = h.py
    && ({ top with x := x, y := y } : Region).clusters.all (fun cl => s.roots.all (fun e => !e.2.top.clusters.contains cl)))

/-- One core of a restored root loaded from its section; a part that cannot be read stays as placed. -/
def State.loadCore (s : State) (vf : BitVec 9) (root c at' : Nat) : State :=
  let u := s.vfUse vf false at' coreSection
  match s.vfRead vf false (coreSection / 4096 + 2) at' coreSection with
  | .error h => u.noteHalt h
  | .ok bs =>
    let s := u.setCore c ((u.core c).load bs)
    let s := s.putSaved c root false (savedEntries bs 0 (natAt bs 0x18 1))
    let s := s.putSaved c root true (savedEntries bs (natAt bs 0x18 1) (natAt bs 0x19 1))
    s.poke (larderAt c 0) (bs.drop 0x4C680)

/-- The link entries of an image's objects move to the clusters where the objects land, and the master hears
of their presence (14 R361). -/
def State.linksPresent (s : State) (top : Region) (image : Reg) : State :=
  let mine (x : SavedLink) : Bool := x.vf == top.vf && x.rid == top.rid
  let exact := (List.range 64).any (fun e => match (s.link e).saved with
    | some y => mine y && y.image == image
    | none => false)
  (List.range 64).foldl (fun s e =>
    let l := s.link e
    match l.saved with
    | none => s
    | some x =>
      if !mine x || (exact && x.image ≠ image) then s
      else
        let cl := (top.clusterRows[x.cluster]?).getD 0
        let raw := (l.raw &&& ~~~(BitVec.ofNat 128 (0xFF * 2 ^ 10))) ||| BitVec.ofNat 128 (cl * 2 ^ 10)
        let y : Link := { l with raw := raw, saved := none, due := 0
                                 absent := l.absent.filter (fun m => !(l.master = s.package.toNat && m = s.package.toNat)) }
        let s := s.setLink e y
        s.setBar y.object { s.bar y.object with gen := (s.bar y.object).gen + BitVec.ofNat 32 l.due }) s

/-- A checked image placed at an origin and loaded. -/
def State.restoreAt (s : State) (vf : BitVec 9) (tag : Word) (image : Reg) (h : Header) (rs : List Region) (x y : Nat) : State :=
  let p := s.placeRoot rs x y vf (some tag) h.clo h.chi
  let top : Region := { rs.headD Region.default with x := x, y := y }
  let cores0 := image.toNat + 256 + 256 * h.nrcb
  let s := top.cores.zipIdx.foldl (fun s e => s.loadCore vf p.1 e.1 (cores0 + coreSection * e.2)) p.2
  let s := if h.csect then top.clusterRows.zipIdx.foldl (fun s e =>
      let at' := h.clusters image.toNat top + clusterSection * e.2
      let u := s.vfUse vf false at' clusterSection
      match s.vfRead vf false (clusterSection / 4096 + 2) at' clusterSection with
      | .error h => u.noteHalt h
      | .ok bs => u.loadCluster p.1 top e.1 bs) s else s
  (s.linksPresent top image).complete vf tag 0 0 p.1

/-- RESTORE. DESIGN CHOICE (log 47): a given origin that is neither free nor at the saved phase gets status 5. -/
def execRestore (vf : BitVec 9) (s : State) : Outcome :=
  .next (s.entryStep vf 3 (fun e s =>
    let o := e.arg1.toNat
    if 2 ^ 16 ≤ o || (o ≠ 0xFFFF && (63 < o % 256 || 63 < o / 256)) then some (s.complete vf e.tag 1 0 0)
    else
      let r := s.readImage vf e.arg0.toNat
      let u := s.vfUses vf false r.2
      match r.1 with
      | .error st => if st.1 = 0 then none else some ((u.noteHalt st).complete vf e.tag st.1 0 0)
      | .ok (h, rs) =>
        let top := rs.headD Region.default
        let given := if o = 0xFFFF then none else some (o % 256, o / 256)
        let n := h.last e.arg0.toNat top - e.arg0.toNat
        if s.vfHeld vf false e.arg0.toNat n || s.vfFills vf false e.arg0.toNat n then none
        else match u.findOrigin top given (s.landsAt h top) with
        | none => some (u.complete vf e.tag 5 0 0)
        | some ((x, y), s) =>
          some (if s.landsAt h top x y then s.restoreAt vf e.tag e.arg0 h rs x y else s.complete vf e.tag 7 0 0)))

end Sys2Proof.Machine
end

