-- ==== Sys2Proof/Machine/Fabric.lean ====
section
/-! DEFINITION. The register window, the optical ports, barriers across packages, islands, power and snapshots
(14 R344, R347, R354 to R362; 15 R383, R384; 16 R385 to R389; 12 R319, R320). -/

namespace Sys2Proof.Machine

/-! ### Ports and what they carry (14 R354 to R358) -/

def State.port (s : State) (k : Nat) : Port := Tab.get Port.reset s.ports k
def State.setPort (s : State) (k : Nat) (x : Port) : State := { s with ports := Tab.set Port.reset s.ports k x }

/-- A count that stays at its largest value. -/
def bump (w : Word) : Word := if w = 0xFFFFFFFF then w else w + 1

/-- The threshold of a wavelength (14 Table 14.6). -/
def Port.threshold (x : Port) (w : Nat) : Word := Tab.get 0x1000 x.berthr w

/-- A link with an agreed version is up while each fibre has an active wavelength (14 R356, R357). -/
def Port.settled (x : Port) : Port := { x with up := x.ver != 0 && x.txact != 0 && x.rxact != 0 }

/-- The address that a report gives for a barrier object: in the window of its own cluster (06 R151). -/
def objectAddr (b : Nat) : Reg := BitVec.ofNat 64 (0xFFF2000000000 + 64 * (b % 1024))

/-- The root on whose clusters and barrier range an object lies. -/
def State.rootOfObject (s : State) (b : Nat) : Option (Nat × Region) :=
  (s.roots.find? (fun e =>
    let r := e.2.top
    r.clusters.contains (b / 1024) && r.barbase.toNat ≤ b % 1024
      && b % 1024 < r.barbase.toNat + r.barcnt.toNat)).map (fun e => (e.1, e.2.top))

/-- A barrier's timeout has expired: the waiters here are released with barrier reset, the entry is unlinked,
and the fault domain is told (14 R361). DESIGN CHOICE (log 114): of block 0, as Table 15.9 names none. -/
def State.linkExpire (s : State) (e : Nat) : State :=
  let l := s.link e
  let addr := objectAddr l.object
  let master : Reg := BitVec.ofNat 64 l.master
  let rep := match s.rootOfObject l.object with
    | some (root, r) => regionReport s root r.rid 0x0D Cause.barrier 0 addr master 0
    | none => packageReport s 0x0D Cause.barrier 0 addr master
  let s := if l.saved.isSome then s else s.barRelease l.object 1
  (s.setLink e Link.reset).report rep

/-- The other packages that have lost their last route (14 R362). -/
def State.lostRoutes (before after : State) : List Nat :=
  (before.routes.map (·.1)).filter (fun pkg => pkg ≠ after.package.toNat && before.linkUp pkg && !after.linkUp pkg)

/-- A barrier whose master, or one of whose members, is among some lost packages expires (14 R362). The link entry names no
members: the master knows those that have sent a token, and whether one of the others is a member is open (log 56). -/
def State.linkLost (lost : List Nat) (s : State) (e : Nat) : State :=
  let l := s.link e
  let own := s.package.toNat
  let heard := l.known.filter (fun m => m ≠ own)
  if !l.valid then s
  else if lost.contains l.master || (l.master = own && heard.any lost.contains) then s.linkExpire e
  else if l.master = own && heard.length + 1 < l.members && !lost.isEmpty then
    let d := s.choose 2
    if d.1 = 1 then d.2.linkExpire e else d.2
  else s

/-- Of what may be in flight on a port that goes down, what is lost is open (14 R358). -/
def State.mayLose {α : Type} (on : α → Bool) : List α → State → List (α × Bool) × State
  | [], s => ([], s)
  | x :: t, s =>
    let d := if on x then s.choose 2 else (0, s)
    let r := State.mayLose on t d.2
    ((x, d.1 = 1) :: r.1, r.2)

/-- The port that a message to another package uses: of those that its route entry names, beginning with the one that its
core's id picks, the first that is up (14 R358). -/
def State.routePort (s : State) (m : Message) : Option Nat :=
  let ps := (List.range 16).filter (fun k => m.route.getLsbD k)
  ((List.range ps.length).map (fun i => ps.getD ((m.src + i) % ps.length) 0)).find? (fun k => (s.port k).up)

/-- A message, or a store of a core, that a link has lost is told to its fault domain (09 R229, 14 R358). -/
def State.messageLost (s : State) (m : Message) : State :=
  s.report (regionReport s m.root m.rid 0x05 0 (8 * m.src + m.slot) m.header 1 0)
def State.storeLost (c : Nat) (s : State) (e : SbEntry) : State :=
  let off := (e.bytes.headD (0, 0)).1
  s.report (regionReport s e.root e.rid 0x04 Cause.link (whereOf c e.slot) (BitVec.ofNat 64 (e.block * 64 + off)) 0 0)

/-- A port goes down: loads, messages and stores that may be in flight on it are lost, or go on by another port of their
mask (14 R358). What a FENCE.net holds is not in flight. -/
def State.portLost (s : State) (k : Nat) : State :=
  let old := s
  let x := State.mayLose (fun (e : Early) => e.route.getLsbD k) s.early s
  let s : State := { x.2 with early := x.1.map (fun e => { e.1 with lost := e.1.lost || e.2 }) }
  let y := State.mayLose (fun (m : Message) => s.routePort m == some k && !old.fenceHolds m.src m.slot m.fence) s.remote s
  let s := ((y.1.filter (fun e => e.2)).map (fun e => e.1)).foldl State.messageLost
    { y.2 with remote := (y.1.filter (fun e => !e.2)).map (fun e => e.1) }
  (s.cores.map (·.1)).foldl (fun s c =>
    let z := State.mayLose (fun (e : SbEntry) => e.route.getLsbD k && !old.fenceHoldsAt c e.slot e.fence (e.block * 64)) (s.core c).sb s
    ((z.1.filter (fun e => e.2)).map (fun e => e.1)).foldl (State.storeLost c)
      (z.2.setCore c { z.2.core c with sb := (z.1.filter (fun e => !e.2)).map (fun e => e.1) })) s

/-- A port's new state. A port that goes down loses what is on it and is reported, and barriers without a route expire.
DESIGN CHOICE (log 114): the report is of block 0, as Table 15.9 names none. -/
def State.portChanged (s : State) (k : Nat) (x : Port) (gone : BitVec 8) : State :=
  let y := x.settled
  let down := (s.port k).up && !y.up
  let t := (if down then s.portLost k else s).setPort k y
  let t := if gone != 0 || down then
      t.report (packageReport t 0x0F 0 0 0 ((0 : BitVec 48) ++ gone ++ BitVec.ofNat 8 k)) else t
  (List.range 64).foldl (State.linkLost (State.lostRoutes s t)) t

/-- CRC_REPLAY: the flits arrive in order all the same (14 R354). -/
def execCrcReplay (port : BitVec 4) (s : State) : Outcome :=
  let x := s.port port.toNat
  .next (s.setPort port.toNat { x with replays := bump x.replays })

/-- The active wavelengths of a fibre, and the one in training. -/
def Port.active (x : Port) (tx : Bool) : BitVec 8 := if tx then x.txact else x.rxact
def Port.training (x : Port) (tx : Bool) : Option (BitVec 3) := if tx then x.txTraining else x.rxTraining

/-- A wavelength leaves the active set of its fibre, and trains. -/
def Port.train (x : Port) (tx : Bool) (w : BitVec 3) : Port :=
  let act := x.active tx &&& ~~~(BitVec.ofNat 8 (2 ^ w.toNat))
  let x := { x with retrains := bump x.retrains }
  if tx then { x with txact := act, txTraining := some w } else { x with rxact := act, rxTraining := some w }

/-- The next wavelength of a fibre that waits for its training begins it. -/
def Port.trainNext (x : Port) (tx : Bool) : Port :=
  match x.due.find? (fun d => d.1 == tx) with
  | some d => ({ x with due := x.due.erase d }).train tx d.2
  | none => x

/-- RETRAIN_START: a window of 2^32 bits ends on an active wavelength, with the bits that its code corrected. Past the
threshold the wavelength leaves the active set, one for each fibre at a time; a second one waits (14 R356). -/
def execRetrainStart (port : BitVec 4) (tx : Bool) (w : BitVec 3) (count : BitVec 32) (s : State) : Outcome :=
  let k := port.toNat
  let x := s.port k
  let y := { x with bercnt := Tab.set 0 x.bercnt w.toNat count }
  .next (if !(x.active tx).getLsbD w.toNat then s
    else if count ≤ x.threshold w.toNat then s.setPort k y
    else if (x.training tx).isSome then
      s.setPort k { y with due := if y.due.contains (tx, w) then y.due else y.due ++ [(tx, w)] }
    else s.portChanged k (y.train tx w) 0)

/-- RETRAIN_END: the wavelength is readmitted, or trains again; after three failures in a row it is retired. The one that
waits for it trains next (14 R356). -/
def execRetrainEnd (port : BitVec 4) (tx : Bool) (w : BitVec 3) (ok : Bool) (s : State) : Outcome :=
  let k := port.toNat
  let x := s.port k
  let bit : BitVec 8 := BitVec.ofNat 8 (2 ^ w.toNat)
  let key := (if tx then 0 else 16) + w.toNat
  let n := Tab.get 0 x.fails key + 1
  let idle (x : Port) : Port := if tx then { x with txTraining := none } else { x with rxTraining := none }
  .next (if x.training tx ≠ some w then s
    else if ok then
      let y := idle { x with fails := Tab.set 0 x.fails key 0 }
      s.portChanged k ((if tx then { y with txact := y.txact ||| bit } else { y with rxact := y.rxact ||| bit }).trainNext tx) 0
    else if n < 3 then s.setPort k { x with fails := Tab.set 0 x.fails key n }
    else s.portChanged k ((idle { x with fails := Tab.set 0 x.fails key 0, retired := x.retired ||| bit }).trainNext tx) bit)

/-- PORT_TRAINING: a port that is down and whose partner is lit trains, and takes the highest version in both
ranges; without one it stays down (14 R357, 16 R389). -/
def execPortTraining (port : BitVec 4) (lanes : BitVec 8) (lo hi : BitVec 16) (s : State) : Outcome :=
  let k := port.toNat
  let x := s.port k
  let ver := if hi ≤ 0x0201 then hi else 0x0201
  let act := lanes &&& ~~~x.retired
  .next (if !s.booted || x.up || ver < 0x0102 || ver < lo || hi < lo then s
    else s.portChanged k { x with ver := ver, txact := act, rxact := act, txTraining := none, rxTraining := none, due := [] } 0)

/-! ### Barriers across packages (14 R359 to R362) -/

/-- The entry is in use and this package is, or is not, the master. -/
def State.masters (s : State) (e : Nat) : Bool := (s.link e).valid && (s.link e).master = s.package.toNat
def State.follows (s : State) (e : Nat) : Bool := (s.link e).valid && (s.link e).master ≠ s.package.toNat

/-- ARRIVAL_TOKEN. -/
def execArrivalToken (e : BitVec 6) (member : BitVec 12) (s : State) : Outcome :=
  .next (if s.masters e.toNat then s.masterArrive e.toNat member.toNat else s)

/-- RELEASE_TOKEN. -/
def execReleaseToken (e : BitVec 6) (s : State) : Outcome :=
  .next (if s.follows e.toNat then s.linkRelease e.toNat else s)

/-- PROXY_ABSENCE_TOKEN: while a member is absent the timeout does not run (14 R361). -/
def execProxyAbsenceToken (e : BitVec 6) (member : BitVec 12) (s : State) : Outcome :=
  let l := s.link e.toNat
  .next (if s.masters e.toNat && !l.absent.contains member.toNat
    then s.setLink e.toNat { l with absent := l.absent ++ [member.toNat] } else s)

/-- PRESENCE_TOKEN. -/
def execPresenceToken (e : BitVec 6) (member : BitVec 12) (s : State) : Outcome :=
  let l := s.link e.toNat
  .next (if s.masters e.toNat
    then s.setLink e.toNat { l with absent := l.absent.filter (fun m => m ≠ member.toNat) } else s)

/-- BARRIER_TIMEOUT: the master's timeout has run out, or the master has told a member so (14 R361). -/
def execBarrierTimeout (e : BitVec 6) (s : State) : Outcome :=
  let l := s.link e.toNat
  .next (if s.follows e.toNat then s.linkExpire e.toNat
    else if s.masters e.toNat && l.timeout ≠ 0 && !l.arrived.isEmpty && l.absent.isEmpty && l.timeout ≤ l.waited
    then s.linkExpire e.toNat
    else s)

/-! ### The register window (14 R344, Tables 14.1 to 14.3, 14.6, 14.8; 12 Table 12.7) -/

def State.crossbar (s : State) (die : Nat) : Crossbar := Tab.get Crossbar.reset s.crossbars die
def State.setCrossbar (s : State) (die : Nat) (x : Crossbar) : State :=
  { s with crossbars := Tab.set Crossbar.reset s.crossbars die x }

/-- Crossbar partition registers of a die; what is written takes effect later (14 R347). -/
def State.writeCrossbar (s : State) (die off : Nat) (v : Reg) : State :=
  let x := s.crossbar die
  if 4 ≤ die then s
  else if off = 0 then s.setCrossbar die { x with strict := v.getLsbD 0 }
  else if off = 8 then s.setCrossbar die { x with ptab := v }
  else if 0x10 ≤ off && off < 0x30 then s.setCrossbar die { x with clpart := x.clpart.set ((off - 0x10) / 8) v }
  else s

/-- A half of a link entry; reserved bits stay zero. A write of VALID and the object links or unlinks: nothing of the former
link is left (14 R359). -/
def State.writeLinkHalf (s : State) (off : Nat) (v : Reg) : State :=
  let e := off / 16
  let l := s.link e
  if 64 ≤ e then s
  else
    let hi : Reg := if off % 16 = 8 then v &&& 0xFFFFFFFFFFFFFF00#64 else l.raw.extractLsb' 64 64
    let lo : Reg := if off % 16 = 0 then v &&& 0x800000000003FFFF#64 else l.raw.extractLsb' 0 64
    s.setLink e { (if off % 16 = 0 then Link.reset else l) with raw := hi ++ lo }

/-- Entries of a fault-address queue from one index up to another, consumed (12 R319). -/
def consumeFaq (faq : Tab Reg) (head : Nat) : Nat → Tab Reg
  | 0 => faq
  | n + 1 => consumeFaq (Tab.set 0 faq head (Tab.get 0 faq head &&& 0x7FFFFFFFFFFFFFFF#64)) ((head + 1) % 256) n

/-- Base-die registers of a stack. -/
def State.writeStack (s : State) (k off : Nat) (v : Reg) : State :=
  let d := s.stack k
  let n := v.toNat
  if 8 ≤ k then s
  else if off = 0 then
    let goal := n % 256
    s.setStack k { d with faq := consumeFaq d.faq d.head ((goal + 256 - d.head) % 256), head := goal }
  else if off = 8 then if v.getLsbD 63 then s.setStack k { d with ovf := false } else s
  else if off = 0x10 then s.retirePage k (n % 2 ^ 25)
  else if off = 0x20 then if d.logsz = 0 && n ≤ 64 then s.setStack k { d with pool := v } else s
  else if off = 0x28 then if n ≤ 256 then s.setStack k { d with logsz := v } else s
  else if off = 0x38 then s.setStack k { d with lowwm := v }
  else s

/-- An Ngamon block. A write of LCQBASE begins the first pass over the completion ring (14 R352). -/
def State.writeNgamon (s : State) (vf : BitVec 9) (off : Nat) (v : Reg) : State :=
  let n := s.ngamon vf
  if off = 0x08 then s.selectVersion vf (v.setWidth 16)
  else if off = 0x10 then s.setNgamon vf { n with lsqbase := v }
  else if off = 0x18 then s.setNgamon vf { n with lsqsz := v.setWidth 16 }
  else if off = 0x20 then s.doorbell vf (v.setWidth 16)
  else if off = 0x30 then s.setNgamon vf { n with lcqbase := v, done := 0 }
  else if off = 0x38 then s.setNgamon vf { n with lcqsz := v.setWidth 16 }
  else if off = 0x40 then s.setNgamon vf { n with lcqhead := v.setWidth 16 }
  else if off = 0x48 then s.setNgamon vf { n with pubbase := v }
  else if off = 0x50 then s.setNgamon vf { n with pubver := v }
  else s

/-- Registers as they are read (14 Tables 14.2, 14.3, 14.6, 14.8; 12 Table 12.7): one that is not listed, or is only
written, reads zero. -/
def State.readCrossbar (s : State) (die off : Nat) : Reg :=
  let x := s.crossbar die
  if 4 ≤ die then 0
  else if off = 0 then (BitVec.ofBool x.strict).setWidth 64
  else if off = 8 then x.ptab
  else if 0x10 ≤ off && off < 0x30 then x.clpart.getD ((off - 0x10) / 8) 0
  else 0
def State.readPort (s : State) (k off : Nat) : Reg :=
  let x := s.port k
  if off = 0 then BitVec.ofNat 64 ((if x.up then 2 ^ 63 else 0) + x.txact.toNat * 2 ^ 16 + x.rxact.toNat * 2 ^ 8 + x.retired.toNat)
  else if off = 8 then x.ver.setWidth 64
  else if 0x10 ≤ off && off < 0x50 then (Tab.get 0 x.bercnt ((off - 0x10) / 8)).setWidth 64
  else if 0x50 ≤ off && off < 0x90 then (x.threshold ((off - 0x50) / 8)).setWidth 64
  else if off = 0x90 then x.replays.setWidth 64
  else if off = 0x98 then x.retrains.setWidth 64
  else 0
def State.readLinkHalf (s : State) (off : Nat) : Reg :=
  if 64 ≤ off / 16 then 0 else (s.link (off / 16)).raw.extractLsb' (if off % 16 = 8 then 64 else 0) 64
def State.readStack (s : State) (k off : Nat) : Reg :=
  let d := s.stack k
  if 8 ≤ k then 0
  else if off = 0 then BitVec.ofNat 64 d.head
  else if off = 8 then BitVec.ofNat 64 ((if d.ovf then 2 ^ 63 else 0) + d.tail)
  else if off = 0x18 then BitVec.ofNat 64 d.retired.length
  else if off = 0x20 then d.pool
  else if off = 0x28 then d.logsz
  else if off = 0x30 then BitVec.ofNat 64 (s.freeSectors k)
  else if off = 0x38 then d.lowwm
  else if 0x800 ≤ off && off < 0x1000 then Tab.get 0 d.faq ((off - 0x800) / 8)
  else 0
def State.readNgamon (s : State) (vf : BitVec 9) (off : Nat) : Reg :=
  let n := s.ngamon vf
  if off = 0 then 0x01020100
  else if off = 0x08 then n.sel.setWidth 64
  else if off = 0x10 then n.lsqbase
  else if off = 0x18 then n.lsqsz.setWidth 64
  else if off = 0x28 then n.head.setWidth 64
  else if off = 0x30 then n.lcqbase
  else if off = 0x38 then n.lcqsz.setWidth 64
  else if off = 0x40 then n.lcqhead.setWidth 64
  else if off = 0x48 then n.pubbase
  else if off = 0x50 then n.pubver
  else 0

/-- A read of the window: by the physical function or the secure world, or by a virtual function, whose window is its
Ngamon block. An access that is not of 8 aligned bytes reads zero, and so does the capability list until bring-up is
complete (14 R344, 16 R389, R391). -/
def State.readRegister (s : State) (fn : Option (BitVec 9)) (sec : Bool) (off size : Nat) : Reg :=
  let unit := off % 2 ^ 16 / 2 ^ 12
  let reg := off % 2 ^ 12
  if size ≠ 8 || off % 8 ≠ 0 then 0
  else match fn with
  | some vf => if off < 2 ^ 16 then s.readNgamon vf off else 0
  | none =>
    if off < 2 ^ 16 then (if s.booted then s.capability (off / 8) else 0)
    else if off / 2 ^ 16 = 1 then s.readCrossbar unit reg
    else if off / 2 ^ 16 = 2 then s.readPort unit reg
    else if off / 2 ^ 16 = 3 then if sec then s.readLinkHalf (off % 2 ^ 16) else 0
    else if off / 2 ^ 16 = 4 then s.readStack unit reg
    else if 0x100000 ≤ off && off < 0x108000 then (Tab.get (0 : BitVec 16) s.routes ((off - 0x100000) / 8)).setWidth 64
    else if 0x200000 ≤ off && off < 0x2200000 && !sec then
      s.readNgamon (BitVec.ofNat 9 ((off - 0x200000) / 2 ^ 16)) (off % 2 ^ 16)
    else 0

/-- A write of 8 bytes to the window by the physical function or by the secure world. -/
def State.writeRegister (s : State) (sec : Bool) (off : Nat) (v : Reg) : State :=
  let unit := off % 2 ^ 16 / 2 ^ 12
  let reg := off % 2 ^ 12
  if off % 8 ≠ 0 then s
  else if off / 2 ^ 16 = 1 then s.writeCrossbar unit reg v
  else if off / 2 ^ 16 = 2 then
    let x := s.port unit
    if 0x50 ≤ reg && reg < 0x90 then s.setPort unit { x with berthr := Tab.set 0x1000 x.berthr ((reg - 0x50) / 8) (v.setWidth 32) }
    else s
  else if off / 2 ^ 16 = 3 then if sec then s.writeLinkHalf (off % 2 ^ 16) v else s
  else if off / 2 ^ 16 = 4 then s.writeStack unit reg v
  else if 0x100000 ≤ off && off < 0x108000 then
    { s with routes := Tab.set 0 s.routes ((off - 0x100000) / 8) (v.setWidth 16) }
  else if 0x200000 ≤ off && off < 0x2200000 && !sec then
    s.writeNgamon (BitVec.ofNat 9 ((off - 0x200000) / 2 ^ 16)) (off % 2 ^ 16) v
  else s

/-- A virtual function's host writes 8 bytes of the window of its own BAR0, its Ngamon block (14 R344). -/
def State.registerWriteVf (s : State) (vf : BitVec 9) (off : Nat) (v : Reg) : State :=
  if off % 8 = 0 && off < 2 ^ 16 then s.writeNgamon vf off v else s

/-- REGISTER_WRITE. -/
def execRegisterWrite (sec : Bool) (off : BitVec 32) (v : BitVec 64) (s : State) : Outcome :=
  .next (s.writeRegister sec off.toNat v)

/-- PARTITION_SWITCH: the first round of slot 0 after a write (14 R347). -/
def execPartitionSwitch (die : BitVec 2) (s : State) : Outcome :=
  let x := s.crossbar die.toNat
  .next (s.setCrossbar die.toNat { x with strictNow := x.strict, ptabNow := x.ptab, clpartNow := x.clpart })

/-! ### Islands and power (16 R385 to R389; 12 R320) -/

def State.island (s : State) (k : Nat) : Island := Tab.get Island.reset s.islands k
def State.setIsland (s : State) (k : Nat) (x : Island) : State := { s with islands := Tab.set Island.reset s.islands k x }

/-- THROTTLE: one level down, as far as level 5 (16 R386, Table 16.2). -/
def execThrottle (island : BitVec 10) (s : State) : Outcome :=
  let x := s.island island.toNat
  .next (if x.level < 5 then s.setIsland island.toNat { level := x.level + 1, downs := bump x.downs } else s)

/-- RECOVERY: one level up. -/
def execRecovery (island : BitVec 10) (s : State) : Outcome :=
  let x := s.island island.toNat
  .next (if x.level = 0 then s else s.setIsland island.toNat { x with level := x.level - 1 })

/-- The package without its state. The lists of retired pages are non-volatile (12 R320); the memory of the host
and of other packages is not the package's. -/
def State.lost (s : State) (p : Power) : State :=
  { State.reset with
    cur := s.cur, agenda := s.agenda, free := s.free, stamp := s.stamp, power := p
    mem := s.mem.filter (fun b => storeOf b.1 = .host || storeOf b.1 = .remote)
    baseDies := (List.range 8).filterMap (fun k => if (s.stack k).retired = [] then none
      else some (k, { Stack.reset with retired := (s.stack k).retired })) }

/-- TRIP: every island stops at once, and all state is lost; the host is told by the physical function's interrupt (16
R386). -/
def execTrip (s : State) : Outcome := .next ({ s.lost .tripped with irq := s.irq }.raise 512)

/-- LOSS_OF_POWER. -/
def execLossOfPower (s : State) : Outcome := .next (s.lost .off)

/-- The secure firmware of bring-up ends: the tables it has built in the system area are those that the walkers have, and
bring-up is complete (16 R389; log 3). -/
def State.firmware (s : State) (pkg : BitVec 12) (area : Memory) : State :=
  let put (m : Memory) : Memory := (area.filter (fun b => b.1 < 0x4000000)).foldl (fun m b => Tab.set Memory.blank m b.1 b.2) m
  if s.booted then s
  else { s with package := pkg, booted := true, mem := put s.mem, tables := put s.tables }

/-- The host writes its own memory (14 R352). -/
def State.hostWrite (s : State) (pa : Nat) (bs : List Byte) : State :=
  if (List.range bs.length).all (fun i => storeOf (pa + i) = .host) then s.poke pa bs else s

/-- POWER_ON: bring-up, from a slot without power. Whether a stack fails its training is not the package's to
say (16 R389, log 3). -/
def execPowerOn (s : State) : Outcome :=
  .next (if s.power = .off then
    let d := (s.lost .on).choose 2
    { d.2 with broken := decide (d.1 = 1) }
  else s)

/-! ### Snapshots (15 R383, R384; log 16) -/

/-- How a record names an instruction: by its major opcode and bits 30:22 of its word, which hold the selectors. -/
def snapName (w : Word) : Nat := w.toNat % 128 + 128 * (w.toNat / 2 ^ 22 % 512)

/-- A slot's part of a core's record: 16 bytes. The state is 0 free, 1 issuing, 2 parked, 3 stalled, for a line from memory
too; a parked or stalled slot gives the name of the instruction that waits. -/
def slotSnap (x : Slot) : List Byte :=
  let fills := match x.wait with
    | .fill _ _ => true
    | _ => false
  let state := if x.task.isNone then 0 else if fills then 3 else if x.parked then 2 else if x.latched.isSome then 3 else 1
  bytesOfNat 8 x.pc.toNat ++ bytesOfNat 4 x.budget.toNat ++ bytesOfNat 1 x.xcause.toNat ++ bytesOfNat 1 state
    ++ bytesOfNat 2 (match x.latched with
      | some l => snapName (wordOfInstr l.instr)
      | none => 0)

/-- The record of a core. -/
def State.coreSnap (s : State) (c : Nat) : List Byte :=
  let x := s.core c
  (List.range 8).flatMap (fun k => slotSnap (x.slot k)) ++ bytesOfNat 2 x.mrseq.toNat ++ bytesOfNat 2 x.mixq.length
    ++ bytesOfNat 2 x.drseq.toNat ++ bytesOfNat 2 x.dataq.length ++ bytesOfNat 2 x.ready.length
    ++ bytesOfNat 2 x.deque.length ++ bytesOfNat 2 (match s.rootAt c with
      | some e => e.2.top.rid.toNat
      | none => 0) ++ bytesOfNat 114 0

/-- The record of a cluster. -/
def State.clusterSnap (s : State) (cl : Nat) : List Byte :=
  bytesOfNat 4 (s.counters.filter (fun e => cellarCluster e.1 = cl)).length
    ++ bytesOfNat 4 (s.bars.filter (fun e => e.1 / 1024 = cl && e.2.n != 0)).length
    ++ bytesOfNat 4 ((s.cores.filter (fun e => clusterOf e.1 = cl)).map (fun e => e.2.inbox.length)).sum
    ++ bytesOfNat 52 0

/-- The record of a slice. -/
def State.sliceSnap (s : State) (k : Nat) : List Byte :=
  bytesOfNat 4 (Nat.min Config.missRegisters (s.misses.filter (fun m => m.slice = k)).length)
    ++ bytesOfNat 4 (s.claims.filter (fun q => q.recorded && q.unit = k)).length
    ++ bytesOfNat 4 (s.waystations.filter (fun e => e.slice = k)).length
    ++ bytesOfNat 4 (Tab.get (0 : BitVec 16) s.attic k).toNat ++ bytesOfNat 16 0

/-- The record of a port: the fields of Table 14.6. A threshold has 16 bits here, for want of room, and stays at its
largest value. -/
def State.portSnap (s : State) (k : Nat) : List Byte :=
  let x := s.port k
  bytesOfNat 4 ((if x.up then 2 ^ 31 else 0) + x.txact.toNat * 2 ^ 16 + x.rxact.toNat * 2 ^ 8 + x.retired.toNat)
    ++ bytesOfNat 2 x.ver.toNat ++ packWords 4 8 (fun w => (Tab.get 0 x.bercnt w).toNat)
    ++ packWords 2 8 (fun w => Nat.min 0xFFFF (x.threshold w).toNat)
    ++ bytesOfNat 4 x.replays.toNat ++ bytesOfNat 4 x.retrains.toNat ++ bytesOfNat 2 0

/-- The record of a base die. -/
def State.stackSnap (s : State) (k : Nat) : List Byte :=
  let d := s.stack k
  bytesOfNat 8 d.head ++ bytesOfNat 8 d.tail ++ bytesOfNat 8 (s.freeSectors k) ++ bytesOfNat 8 d.retired.length
    ++ bytesOfNat 32 0

/-- Whether a core, and whether a cluster, belongs to the secure world (15 Table 15.6). -/
def State.secureCore (s : State) (c : Nat) : Bool := match s.rootAt c with
  | some e => e.2.top.secure
  | none => false
def State.secureCluster (s : State) (cl : Nat) : Bool :=
  s.clusterWorld cl = some true

/-- The records in the order of Table 15.10, each with whether its block is secure. DESIGN CHOICE (log 123): slices, ports and
base dies, to which Table 15.6 gives no world, are not. -/
def State.snapRecords (s : State) : List (Bool × List Byte) :=
  (List.range 4096).map (fun c => (s.secureCore c, s.coreSnap c))
    ++ (List.range 256).map (fun cl => (s.secureCluster cl, s.clusterSnap cl))
    ++ (List.range 2048).map (fun k => (false, s.sliceSnap k))
    ++ (List.range 16).map (fun k => (false, s.portSnap k))
    ++ (List.range 8).map (fun k => (false, s.stackSnap k))

/-- The bytes that are not zero, from an offset on. -/
def nonZero (off : Nat) : List Byte → Tab Byte
  | [] => []
  | b :: t => if b = 0 then nonZero (off + 1) t else (off, b) :: nonZero (off + 1) t

/-- A record's bytes as the buffer of a world shows them. -/
def shown (buffer : Bool) (r : Bool × List Byte) : List Byte :=
  if r.1 == buffer then r.2
  else if r.1 then bytesOfNat r.2.length 1
  else bytesOfNat r.2.length 0

/-- SNAPSHOT_LATCH: every block latches (15 R383). -/
def execSnapshotLatch (s : State) : Outcome :=
  .next (if s.latchDue then
    let rs := s.snapRecords
    { s with
      latchDue := false
      snapshot := some { count := s.triggers, secure := nonZero 8 (rs.flatMap (shown true))
                         open' := nonZero 8 (rs.flatMap (shown false)) } }
  else s)

/-- The bytes of all records. -/
def snapBytes : Nat := 4096 * 256 + 256 * 64 + 2048 * 32 + 16 * 64 + 8 * 64

/-- One buffer written: its records, then the trigger count. -/
def State.writeSnap (s : State) (base : Nat) (count : Word) (t : Tab Byte) : State :=
  (s.devWrite (base + 8) ((List.range snapBytes).map (fun i => Tab.get 0 t (8 + i)))).devPutNat base 8 count.toNat

/-- Whether the buffers wait at their homes (06 R150, 12 R307). -/
def State.snapWaits (s : State) : Bool :=
  s.runWaits (.plain 0x1C00000) (snapBytes + 8) || s.runWaits (.plain 0x3000000) (snapBytes + 8)

/-- SNAPSHOT_COPY: the records go to the buffer of each world, and the count is written last (15 R384). -/
def execSnapshotCopy (s : State) : Outcome :=
  .next (match s.snapshot with
  | none => s
  | some x => if s.snapWaits then s else { (s.writeSnap 0x1C00000 x.count x.secure).writeSnap 0x3000000 x.count x.open' with snapshot := none })

end Sys2Proof.Machine
end

