-- ==== Sys2Proof/Machine/Locks.lean ====
section
/-! DEFINITION. The lock manager (10 R261 to R275). -/

namespace Sys2Proof.Machine

/-- The modes of the parent that cover a request in a mode: .is 0, .ii 1, .ix 2, .s 3, .inc 4, .x 5 (10 R264). -/
def covers (parent mode : BitVec 3) : Bool :=
  match mode.toNat with
  | 0 | 3 => parent = 0 || parent = 2 || parent = 3 || parent = 5
  | 1 | 4 => parent = 1 || parent = 2 || parent = 4 || parent = 5
  | _ => parent = 2 || parent = 5

/-- Mode changes (10 Table 10.8). -/
def mayRaise (held mode : BitVec 3) : Bool :=
  match held.toNat with
  | 0 => mode = 2 || mode = 3 || mode = 5
  | 1 => mode = 2 || mode = 4 || mode = 5
  | 2 | 3 | 4 => mode = 5
  | _ => false
def mayLower (held mode : BitVec 3) : Bool :=
  match held.toNat with
  | 2 => mode = 0 || mode = 1
  | 3 => mode = 0
  | 4 => mode = 1
  | 5 => mode ≤ 4
  | _ => false

/-- The lock of a name for the running slot's function and world. -/
def State.myLock (s : State) (name : Reg) : Lock := s.lockAt s.region.vf s.secure name

/-- The locks that the running task holds, in its function and world. -/
def State.myLocks (s : State) : List Lock :=
  s.locks.filter (fun l => l.vf == s.region.vf && l.secure == s.secure
    && l.holders.any (fun h => h.uid = s.uid))

/-- A request in a mode satisfies the hierarchy rule (10 R264). -/
def State.covered (s : State) (name : Reg) (mode : BitVec 3) : Bool :=
  !(lockLevel name = 2 && mode ≤ 2) &&
    (lockLevel name = 0 || match (s.myLock (lockParent name)).modeOf s.uid with
      | some m => covers m mode
      | none => false)

/-- The held children of a name are covered by a mode; by none if it is released (10 R269, R272). -/
def State.childrenCovered (s : State) (name : Reg) (mode : Option (BitVec 3)) : Bool :=
  s.myLocks.all (fun l => !(lockLevel l.name ≠ 0 && lockParent l.name == name) ||
    match mode, l.modeOf s.uid with
    | some m, some c => covers m c
    | _, _ => false)

/-- The requests of the unit that keeps a name, held and waiting, and how many names it keeps (10 R262). -/
def State.unitLocks (s : State) (name : Reg) : List Lock :=
  s.locks.filter (fun l => lockTensor l.name % 2 ^ 11 = lockTensor name % 2 ^ 11)
def State.unitFull (s : State) (name : Reg) : Bool :=
  Config.lockRequests ≤ ((s.unitLocks name).map (fun l => l.holders.length + l.waiters.length)).sum

/-- The locks that the running task holds, in either world (10 R262). -/
def State.taskLocks (s : State) : Nat := (s.locks.filter (fun l => l.holders.any (fun h => h.uid = s.uid))).length

/-- No room for a new request (10 R262). -/
def State.noRoom (s : State) (name : Reg) : Bool :=
  let l := s.myLock name
  let new := l.holders.isEmpty && l.waiters.isEmpty
  s.unitFull name || (new && Config.lockNames ≤ (s.unitLocks name).length)
    || Config.locksPerTask ≤ s.taskLocks

/-- The name that a lock instruction gives. -/
def Act.lockName (x : Reg) : Act Unit := if lockNameOk x then Act.crossing else Act.trap Cause.data x

/-- Status 6: the notice of a revocation, which it clears (10 R269). -/
def Act.notice (d : BitVec 5) (rest : Act Unit) : Act Unit := do
  let s ← get
  if s.me.revoked then do
    set (s.setMe { s.me with revoked := false })
    Act.result d 6
  else rest

/-- The end of a request: a grant acquires (10 R270, R275). -/
def Act.lockEnd (d : BitVec 5) (status : Reg) : Act Unit := do
  if status = 0 then Act.acquire 3
  Act.result d status

/-- A request of the running task in a mode. -/
def State.lockUser (s : State) (mode : BitVec 3) : LockUser :=
  { uid := s.uid, age := s.ageOf s.cur.core s.cur.slot, mode := mode }

/-- A request at its unit: granted at once, or, where it may wait, placed among the waiters (10 R266, R267). -/
def Act.requestLock (d : BitVec 5) (name : Reg) (mode : BitVec 3) (waits : Bool) (full : Bool) : Act Unit := do
  let s ← get
  let l := s.myLock name
  let u := s.lockUser mode
  if grantable (s.matrix l.vf) l u then do
    set (s.lockChanged (l.grant u))
    Act.lockEnd d 0
  else if !waits then Act.result d 4
  else if full then Act.result d 3
  else do
    let l := { l with waiters := insertWaiter u l.waiters }
    set ((s.setLock l).woundFor l u)
    Act.park (.lock name)

/-- The work of LKREQ and LKTRY: statuses 6, 2, 1, 3 and, for LKTRY, 4. -/
def newLock (d a : BitVec 5) (mode : BitVec 3) (waits : Bool) : Act Unit := do
  let s ← get
  let name := s.g a
  Act.lockName name
  Act.notice d (
    if ((s.myLock name).modeOf s.uid).isSome then Act.result d 2
    else if !s.covered name mode then Act.result d 1
    else if s.noRoom name then Act.result d 3
    else Act.requestLock d name mode waits false)

/-- LKREQ (10 R270). -/
def execLkreq (d a : BitVec 5) (m : BitVec 3) (s : State) : Outcome :=
  runWith (.lkreq d a m) (fun woken => match woken with
    | some v => Act.lockEnd d v
    | none => newLock d a m true) s

/-- LKTRY (10 R270). -/
def execLktry (d a : BitVec 5) (m : BitVec 3) (s : State) : Outcome :=
  run (.lktry d a m) (newLock d a m false) s

/-- LKUP: statuses 6, 5, 1, 3. Only an upgrade that has to wait is one more request (10 R262, R271). -/
def execLkup (d a : BitVec 5) (m : BitVec 3) (s : State) : Outcome :=
  runWith (.lkup d a m) (fun woken => match woken with
    | some v => Act.lockEnd d v
    | none => do
      let s ← get
      let name := s.g a
      Act.lockName name
      Act.notice d (match (s.myLock name).modeOf s.uid with
        | none => Act.result d 5
        | some held =>
          if !mayRaise held m then Act.result d 5
          else if !s.covered name m then Act.result d 1
          else Act.requestLock d name m true (s.unitFull name))) s

/-- The running task's mode lowered. A waiting request with which a younger holder's mode now conflicts wounds it: the
matrix of LKTAB need not be monotone (10 R267, R271, R274). -/
def State.lowerLock (s : State) (name : Reg) (u : LockUser) : State :=
  let t := s.lockChanged ((s.myLock name).grant u)
  (t.myLock name).waiters.foldl (fun t w => t.woundFor (t.myLock name) w) t

/-- LKDN: statuses 6, 5, 1 (10 R271). -/
def execLkdn (d a : BitVec 5) (m : BitVec 3) (s : State) : Outcome :=
  run (.lkdn d a m) (do
    let s ← get
    let name := s.g a
    Act.lockName name
    Act.release 3
    Act.notice d (match (s.myLock name).modeOf s.uid with
      | none => Act.result d 5
      | some held =>
        if !mayLower held m then Act.result d 5
        else if !s.childrenCovered name (some m) then Act.result d 1
        else do
          modify (fun s => s.lowerLock name (s.lockUser m))
          Act.result d 0)) s

/-- LKREL: statuses 6, 5, 1; with field 0 every lock of the task goes (10 R272). -/
def execLkrel (d a : BitVec 5) (s : State) : Outcome :=
  run (.lkrel d a) (do
    let s ← get
    let name := s.g a
    if a ≠ 0 then Act.lockName name else Act.crossing
    Act.release 3
    Act.notice d (
      if a = 0 then do
        modify (fun s => s.dropLocks s.uid)
        Act.result d 0
      else if ((s.myLock name).modeOf s.uid).isNone then Act.result d 5
      else if !s.childrenCovered name none then Act.result d 1
      else do
        modify (fun s => s.dropLock s.uid (s.myLock name))
        Act.result d 0)) s

/-- The state of a name (10 Table 10.9). -/
def State.lockState (s : State) (name : Reg) : Reg :=
  let l := s.myLock name
  let mine := match l.modeOf s.uid with
    | some m => 2 ^ 63 + m.toNat * 2 ^ 60
    | none => 0
  let modes := ((List.range 6).map (fun m =>
    if l.holders.any (fun h => h.mode.toNat = m) then 2 ^ (54 + m) else 0)).sum
  let head := match l.waiters with
    | w :: _ => 2 ^ 35 + w.mode.toNat * 2 ^ 32
    | [] => 0
  BitVec.ofNat 64 (mine + modes + Nat.min 255 l.holders.length * 2 ^ 44
    + Nat.min 255 l.waiters.length * 2 ^ 36 + head)

/-- LKQ (10 R273). -/
def execLkq (d a : BitVec 5) (s : State) : Outcome :=
  run (.lkq d a) (do
    let s ← get
    Act.lockName (s.g a)
    Act.result d (s.lockState (s.g a))) s

/-- A value that is no compatibility matrix: bits above 35, or not symmetric (10 R274). -/
def matrixBad (x : Reg) : Bool :=
  2 ^ 36 ≤ x.toNat || (List.range 6).any (fun r => (List.range 6).any (fun c =>
    x.getLsbD (6 * r + c) != x.getLsbD (6 * c + r)))

/-- LKTAB: what it sets or asks of the lock units leaves by the crossbar (10 R274, 14 R347). -/
def execLktab (d a : BitVec 5) (s : State) : Outcome :=
  run (.lktab d a) (do
    let s ← get
    let vf := s.region.vf
    let old : Reg := (s.matrix vf).setWidth 64
    if a = 0 then Act.result d old
    else if matrixBad (s.g a) then Act.result d (old ||| 0x8000000000000000#64)
    else do
      Act.crossing
      if s.locks.any (fun l => l.vf == vf) then Act.result d (old ||| 0x4000000000000000#64)
      else do
        let x := Tab.get Ngamon.reset s.vfs vf.toNat
        set { s with vfs := Tab.set Ngamon.reset s.vfs vf.toNat { x with matrix := (s.g a).setWidth 36 } }
        Act.result d old) s

/-! ### Events -/

/-- A task's locks are revoked: a request that waits ends with status 6, which clears the notice; every
lock held is dropped, and the fault domain is told (10 R267). -/
def State.revokeLocks (s : State) (uid : Nat) (name : Reg) : State :=
  let slots := s.allSlots.filter (fun e => e.2.2.runId = uid)
  let drop := s.lockDrops.find? (fun e => e.uid = uid)
  let s := match slots, drop with
    | (c, k, _) :: _, _ => s.report (slotReport s c k 0x08 Cause.wound name 0 0)
    | [], some e => s.report (regionReport s e.root e.rid 0x08 Cause.wound (8 * e.core + e.slot) name 0 0)
    | [], none => s
  let s := s.mapSlots (fun _ _ x =>
    if x.runId = uid then
      match x.wait with
      | .lock _ => { x with wait := .woken 6 }
      | _ => { x with revoked := true }
    else x)
  (s.withdraw uid).dropLocks uid

/-- LOCK_REVOCATION: a clock that has run 2,048 cycles and whose victim still blocks the request (10 R267). -/
def execLockRevocation (k : Nat) (s : State) : Outcome :=
  match s.revokes[k]? with
  | none => .next s
  | some r =>
    if r.age < Config.revokeAfter then .next s
    else
      let l := s.lockAt r.vf r.secure r.name
      let blocks := match l.modeOf r.victim, l.waiters.find? (fun w => w.uid = r.wounder) with
        | some held, some w => !compatible (s.matrix r.vf) held w.mode
        | _, _ => false
      let s := { s with revokes := s.revokes.eraseIdx k }
      .next (if blocks then s.revokeLocks r.victim r.name else s)

/-- LOCK_DROP_AT_END: the last write of the ended task is acknowledged (10 R272). -/
def execLockDropAtEnd (k : Nat) (s : State) : Outcome :=
  match s.lockDrops[k]? with
  | none => .next s
  | some e =>
    if (s.core e.core).sb.any (fun b => b.uid = e.uid) then .next s
    else .next ({ s with lockDrops := s.lockDrops.eraseIdx k }.dropLocks e.uid)

end Sys2Proof.Machine
end

