-- ==== Sys2Proof/Machine/Scalar.lean ====
section
/-! DEFINITION. Scalar integer instructions (05 R103 to R111, 03 R79). -/

namespace Sys2Proof.Machine

/-! ### The operations -/

/-- A register operation of two operands (05 Table 5.2). -/
def regOp (i : Instr) (d a b : BitVec 5) (f : Reg → Reg → Reg) (s : State) : Outcome :=
  simple i (fun s => s.setG d (f (s.g a) (s.g b))) s

/-- An operation of one operand, of a register and an immediate. -/
def immOp (i : Instr) (d a : BitVec 5) (f : Reg → Reg) (s : State) : Outcome :=
  simple i (fun s => s.setG d (f (s.g a))) s

/-- The shift count: bits above 5 are ignored. -/
def shiftCount (b : Reg) : Nat := b.toNat % 64

def minS (a b : Reg) : Reg := if a.slt b then a else b
def maxS (a b : Reg) : Reg := if a.slt b then b else a
def minU (a b : Reg) : Reg := if a < b then a else b
def maxU (a b : Reg) : Reg := if a < b then b else a

/-- The high half of a product (05 R104). -/
def mulHigh (a b : Reg) : Reg := BitVec.ofInt 64 (a.toInt * b.toInt / 2 ^ 64)
def mulHighU (a b : Reg) : Reg := BitVec.ofNat 64 (a.toNat * b.toNat / 2 ^ 64)

/-- Quotients and remainders, with a divisor of 0 (05 R104). The one signed overflow wraps to the
dividend, with remainder 0. -/
def divS (a b : Reg) : Reg := if b = 0 then BitVec.allOnes 64 else BitVec.ofInt 64 (a.toInt.tdiv b.toInt)
def divU (a b : Reg) : Reg := if b = 0 then BitVec.allOnes 64 else BitVec.ofNat 64 (a.toNat / b.toNat)
def remS (a b : Reg) : Reg := if b = 0 then a else BitVec.ofInt 64 (a.toInt.tmod b.toInt)
def remU (a b : Reg) : Reg := if b = 0 then a else BitVec.ofNat 64 (a.toNat % b.toNat)

/-- Zero bits above the highest, and below the lowest, of n bits; set bits; the order reversed
(05 R105). -/
def countLead (a : Reg) : Nat := ((List.range 64).find? (fun i => a.getLsbD (63 - i))).getD 64
def countTrail (a : Reg) : Nat := ((List.range 64).find? (fun i => a.getLsbD i)).getD 64
def countOnes {n : Nat} (a : BitVec n) : Nat := ((List.range n).filter (fun i => a.getLsbD i)).length
def revBits (a : Reg) : Reg := a.reverse

/-- A field of len bits from bit pos, and the mask of its place (05 R106). -/
def fieldMask (pos len : Nat) : Reg := BitVec.ofNat 64 ((2 ^ len - 1) * 2 ^ pos)
def fieldOf (a : Reg) (pos len : Nat) : Nat := a.toNat / 2 ^ pos % 2 ^ len
def insertField (old a : Reg) (pos len : Nat) : Reg :=
  (old &&& ~~~ fieldMask pos len) ||| ((a <<< pos) &&& fieldMask pos len)

/-! ### The instructions -/

/-- ADD: the sum modulo 2^64 (05 R103). -/
def execAdd (d a b : BitVec 5) (s : State) : Outcome :=
  regOp (.add d a b) d a b (fun x y => x + y) s

/-- SUB: the difference modulo 2^64 (05 R103). -/
def execSub (d a b : BitVec 5) (s : State) : Outcome :=
  regOp (.sub d a b) d a b (fun x y => x - y) s

/-- AND (05 R103). -/
def execAnd (d a b : BitVec 5) (s : State) : Outcome :=
  regOp (.and d a b) d a b (fun x y => x &&& y) s

/-- OR (05 R103). -/
def execOr (d a b : BitVec 5) (s : State) : Outcome :=
  regOp (.or d a b) d a b (fun x y => x ||| y) s

/-- XOR (05 R103). -/
def execXor (d a b : BitVec 5) (s : State) : Outcome :=
  regOp (.xor d a b) d a b (fun x y => x ^^^ y) s

/-- SHL: zeros shifted in (05 R103). -/
def execShl (d a b : BitVec 5) (s : State) : Outcome :=
  regOp (.shl d a b) d a b (fun x y => x <<< shiftCount y) s

/-- SHR: zeros shifted in (05 R103). -/
def execShr (d a b : BitVec 5) (s : State) : Outcome :=
  regOp (.shr d a b) d a b (fun x y => x >>> shiftCount y) s

/-- SHA: copies of the sign shifted in (05 R103). -/
def execSha (d a b : BitVec 5) (s : State) : Outcome :=
  regOp (.sha d a b) d a b (fun x y => x.sshiftRight (shiftCount y)) s

/-- MIN, of signed values (05 R103). -/
def execMin (d a b : BitVec 5) (s : State) : Outcome :=
  regOp (.min d a b) d a b (minS) s

/-- MAX, of signed values (05 R103). -/
def execMax (d a b : BitVec 5) (s : State) : Outcome :=
  regOp (.max d a b) d a b (maxS) s

/-- MINU, of unsigned values (05 R103). -/
def execMinu (d a b : BitVec 5) (s : State) : Outcome :=
  regOp (.minu d a b) d a b (minU) s

/-- MAXU, of unsigned values (05 R103). -/
def execMaxu (d a b : BitVec 5) (s : State) : Outcome :=
  regOp (.maxu d a b) d a b (maxU) s

/-- SLT (05 R103). -/
def execSlt (d a b : BitVec 5) (s : State) : Outcome :=
  regOp (.slt d a b) d a b (fun x y => flag (x.slt y)) s

/-- SLTU (05 R103). -/
def execSltu (d a b : BitVec 5) (s : State) : Outcome :=
  regOp (.sltu d a b) d a b (fun x y => flag (decide (x < y))) s

/-- SEL: the condition is the register that is written (05 R103). -/
def execSel (d a b : BitVec 5) (s : State) : Outcome :=
  simple (.sel d a b) (fun s => s.setG d (if s.g d ≠ 0 then s.g a else s.g b)) s

/-- A hint word does nothing (03 R79). -/
def execHint (d a b : BitVec 5) (h : BitVec 6) (s : State) : Outcome :=
  simple (.hint d a b h) (fun s => s) s

/-- MUL: the low half (05 R104). -/
def execMul (d a b : BitVec 5) (s : State) : Outcome :=
  regOp (.mul d a b) d a b (fun x y => x * y) s

/-- MULH: the high half of the signed product (05 R104). -/
def execMulh (d a b : BitVec 5) (s : State) : Outcome :=
  regOp (.mulh d a b) d a b (mulHigh) s

/-- MULHU: the high half of the unsigned product (05 R104). -/
def execMulhu (d a b : BitVec 5) (s : State) : Outcome :=
  regOp (.mulhu d a b) d a b (mulHighU) s

/-- DIV: truncated toward zero (05 R104). -/
def execDiv (d a b : BitVec 5) (s : State) : Outcome :=
  regOp (.div d a b) d a b (divS) s

/-- DIVU (05 R104). -/
def execDivu (d a b : BitVec 5) (s : State) : Outcome :=
  regOp (.divu d a b) d a b (divU) s

/-- REM: the sign of the dividend (05 R104). -/
def execRem (d a b : BitVec 5) (s : State) : Outcome :=
  regOp (.rem d a b) d a b (remS) s

/-- REMU (05 R104). -/
def execRemu (d a b : BitVec 5) (s : State) : Outcome :=
  regOp (.remu d a b) d a b (remU) s

/-- CLZ: 64 for zero (05 R105). -/
def execClz (d a : BitVec 5) (s : State) : Outcome :=
  immOp (.clz d a) d a (fun x => BitVec.ofNat 64 (countLead x)) s

/-- CTZ: 64 for zero (05 R105). -/
def execCtz (d a : BitVec 5) (s : State) : Outcome :=
  immOp (.ctz d a) d a (fun x => BitVec.ofNat 64 (countTrail x)) s

/-- POPC (05 R105). -/
def execPopc (d a : BitVec 5) (s : State) : Outcome :=
  immOp (.popc d a) d a (fun x => BitVec.ofNat 64 (countOnes x)) s

/-- BREV: bit i goes to bit 63 - i (05 R105). -/
def execBrev (d a : BitVec 5) (s : State) : Outcome :=
  immOp (.brev d a) d a (revBits) s

/-- BFX: the field, zero-extended (05 R106). -/
def execBfx (d a : BitVec 5) (p l : BitVec 6) (s : State) : Outcome :=
  immOp (.bfx d a p l) d a (fun x => zext64 (l.toNat + 1) (fieldOf x p.toNat (l.toNat + 1))) s

/-- BFXS: the field, sign-extended (05 R106). -/
def execBfxs (d a : BitVec 5) (p l : BitVec 6) (s : State) : Outcome :=
  immOp (.bfxs d a p l) d a (fun x => sext64 (l.toNat + 1) (fieldOf x p.toNat (l.toNat + 1))) s

/-- BFI: other bits of the destination are kept (05 R106). -/
def execBfi (d a : BitVec 5) (p l : BitVec 6) (s : State) : Outcome :=
  regOp (.bfi d a p l) d d a (fun old x => insertField old x p.toNat (l.toNat + 1)) s

/-- ADDI (05 R107). -/
def execAddi (d a : BitVec 5) (i : BitVec 15) (s : State) : Outcome :=
  immOp (.addi d a i) d a (fun x => x + sx i) s

/-- ANDI (05 R107). -/
def execAndi (d a : BitVec 5) (i : BitVec 15) (s : State) : Outcome :=
  immOp (.andi d a i) d a (fun x => x &&& sx i) s

/-- ORI (05 R107). -/
def execOri (d a : BitVec 5) (i : BitVec 15) (s : State) : Outcome :=
  immOp (.ori d a i) d a (fun x => x ||| sx i) s

/-- XORI (05 R107). -/
def execXori (d a : BitVec 5) (i : BitVec 15) (s : State) : Outcome :=
  immOp (.xori d a i) d a (fun x => x ^^^ sx i) s

/-- SLTI (05 R107). -/
def execSlti (d a : BitVec 5) (i : BitVec 15) (s : State) : Outcome :=
  immOp (.slti d a i) d a (fun x => flag (x.slt (sx i))) s

/-- SLTUI: unsigned, with the immediate sign-extended (05 R107). -/
def execSltui (d a : BitVec 5) (i : BitVec 15) (s : State) : Outcome :=
  immOp (.sltui d a i) d a (fun x => flag (decide (x < sx i))) s

/-- SHLI (05 R108). -/
def execShli (d a : BitVec 5) (n : BitVec 6) (s : State) : Outcome :=
  immOp (.shli d a n) d a (fun x => x <<< n.toNat) s

/-- SHRI (05 R108). -/
def execShri (d a : BitVec 5) (n : BitVec 6) (s : State) : Outcome :=
  immOp (.shri d a n) d a (fun x => x >>> n.toNat) s

/-- SHAI (05 R108). -/
def execShai (d a : BitVec 5) (n : BitVec 6) (s : State) : Outcome :=
  immOp (.shai d a n) d a (fun x => x.sshiftRight n.toNat) s

/-- LEA: base, scaled index and small offset (05 R109). -/
def execLea (d a b : BitVec 5) (k : BitVec 2) (e : BitVec 8) (s : State) : Outcome :=
  regOp (.lea d a b k e) d a b (fun x y => x + (y <<< k.toNat) + sx e) s

/-- LUI: the immediate in bits 31:12, sign-extended (05 R110). -/
def execLui (d : BitVec 5) (i : BitVec 20) (s : State) : Outcome :=
  simple (.lui d i) (fun s => s.setG d (sx (i ++ (0 : BitVec 12)))) s

/-- ADDPC: from the address of the instruction itself (05 R111). -/
def execAddpc (d : BitVec 5) (i : BitVec 20) (s : State) : Outcome :=
  simple (.addpc d i) (fun s => s.setG d (s.base + sx (i ++ (0 : BitVec 12)))) s

end Sys2Proof.Machine
end

