-- ==== Sys2Proof/Machine/ScalarFp.lean ====
section
/-! DEFINITION. Scalar floating-point instructions (05 R112 to R116). -/

namespace Sys2Proof.Machine

/-- The type that the d bit selects: .f32 or .f64 (05 R112). -/
def fpType (f : BitVec 1) : BitVec 5 := if f = 0 then 10 else 11

/-- A register as an operand of a type: bits above its width are ignored (01 R13). -/
def fpArg (t : BitVec 5) (x : Reg) : Nat := x.toNat % 2 ^ typeWidth t

/-- A floating-point result and what it does to FSTAT and the LFSR; bits above its width are zero. -/
def State.setFp (s : State) (d : BitVec 5) (r : Nat × Fp) : State :=
  (s.settle r.2).setG d (BitVec.ofNat 64 r.1)

/-- An operation of two operands. -/
def fpOp (i : Instr) (d a b : BitVec 5) (f : BitVec 1) (op : BitVec 5 → Nat → Nat → Fp → Nat × Fp)
    (s : State) : Outcome :=
  simple i (fun s => s.setFp d
    (op (fpType f) (fpArg (fpType f) (s.g a)) (fpArg (fpType f) (s.g b)) s.fp)) s

/-- FADD (05 R113). -/
def execFadd (d a b : BitVec 5) (f : BitVec 1) (m : BitVec 3) (s : State) : Outcome :=
  fpOp (.fadd d a b f m) d a b f (fun t x y => fadd t m x y) s

/-- FSUB (05 R113). -/
def execFsub (d a b : BitVec 5) (f : BitVec 1) (m : BitVec 3) (s : State) : Outcome :=
  fpOp (.fsub d a b f m) d a b f (fun t x y => fsub t m x y) s

/-- FMUL (05 R113). -/
def execFmul (d a b : BitVec 5) (f : BitVec 1) (m : BitVec 3) (s : State) : Outcome :=
  fpOp (.fmul d a b f m) d a b f (fun t x y => fmul t m x y) s

/-- FFMA: a·b + c rounded once, c read from the destination before the write (05 R113). -/
def execFfma (d a b : BitVec 5) (f : BitVec 1) (m : BitVec 3) (s : State) : Outcome :=
  simple (.ffma d a b f m) (fun s => s.setFp d
    (ffma (fpType f) m false (fpArg (fpType f) (s.g a)) (fpArg (fpType f) (s.g b))
      (fpArg (fpType f) (s.g d)) s.fp)) s

/-- FDIV (05 R113). -/
def execFdiv (d a b : BitVec 5) (f : BitVec 1) (m : BitVec 3) (s : State) : Outcome :=
  fpOp (.fdiv d a b f m) d a b f (fun t x y => fdiv t m x y) s

/-- FSQRT (05 R113). -/
def execFsqrt (d a : BitVec 5) (f : BitVec 1) (m : BitVec 3) (s : State) : Outcome :=
  fpOp (.fsqrt d a f m) d a a f (fun t x _ => fsqrt t m x) s

/-- FMIN (05 R113, 02 R48). -/
def execFmin (d a b : BitVec 5) (f : BitVec 1) (s : State) : Outcome :=
  fpOp (.fmin d a b f) d a b f (fun t x y => fminmax t false x y) s

/-- FMAX (05 R113, 02 R48). -/
def execFmax (d a b : BitVec 5) (f : BitVec 1) (s : State) : Outcome :=
  fpOp (.fmax d a b f) d a b f (fun t x y => fminmax t true x y) s

/-- The number of a scalar condition in Table 3.6: .eq, .lt, .le and .un (05 R114). -/
def condOf (c : BitVec 3) : Nat :=
  match c.toNat with
  | 0 => 0
  | 1 => 2
  | 2 => 3
  | _ => 6

/-- A condition of two values: whether it holds and whether it raises NV (02 R48, 05 R114). -/
def fpCond (c : Nat) (t : BitVec 5) (x y : Nat) : Bool × Bool := fcond c (val t x) (val t y)

/-- FCMP: 1 where the condition holds, else 0 (05 R114). -/
def execFcmp (d a b : BitVec 5) (f : BitVec 1) (c : BitVec 3) (s : State) : Outcome :=
  fpOp (.fcmp d a b f c) d a b f (fun t x y fp =>
    ((fpCond (condOf c) t x y).1.toNat, fp.raiseIf (fpCond (condOf c) t x y).2 flagNV)) s

/-- A converted value as a register holds it: signed integers sign-extended, all else zero-extended. -/
def convReg (t : BitVec 5) (x : Nat) : Reg :=
  if isInt t && isSigned t then sext64 (typeWidth t) x else zext64 (typeWidth t) x

/-- FCVT (05 R116). -/
def execFcvt (d a t : BitVec 5) (m : BitVec 3) (src : BitVec 5) (s : State) : Outcome :=
  simple (.fcvt d a t m src) (fun s =>
    let r := cvtElem src t m (fpArg src (s.g a)) s.fp
    (s.settle r.2).setG d (convReg t r.1)) s

end Sys2Proof.Machine
end

