-- ==== Sys2Proof/Machine/Inner.lean ====
section
/-! DEFINITION. Instructions that run inside another operation: the word that a dictionary code expands to
(03 R66), and the handler that a message brings (09 R229 to R232). -/

namespace Sys2Proof.Machine

/-- A word's instruction, run by the slot that the state names. Dictionary codes, engine commands and the
operations without bits are no words. -/
def execWord (i : Instr) (s : State) : Outcome :=
  match i with
  | .add d a b => execAdd d a b s
  | .sub d a b => execSub d a b s
  | .and d a b => execAnd d a b s
  | .or d a b => execOr d a b s
  | .xor d a b => execXor d a b s
  | .shl d a b => execShl d a b s
  | .shr d a b => execShr d a b s
  | .sha d a b => execSha d a b s
  | .min d a b => execMin d a b s
  | .max d a b => execMax d a b s
  | .minu d a b => execMinu d a b s
  | .maxu d a b => execMaxu d a b s
  | .slt d a b => execSlt d a b s
  | .sltu d a b => execSltu d a b s
  | .sel d a b => execSel d a b s
  | .hint d a b h => execHint d a b h s
  | .mul d a b => execMul d a b s
  | .mulh d a b => execMulh d a b s
  | .mulhu d a b => execMulhu d a b s
  | .div d a b => execDiv d a b s
  | .divu d a b => execDivu d a b s
  | .rem d a b => execRem d a b s
  | .remu d a b => execRemu d a b s
  | .clz d a => execClz d a s
  | .ctz d a => execCtz d a s
  | .popc d a => execPopc d a s
  | .brev d a => execBrev d a s
  | .bfx d a p l => execBfx d a p l s
  | .bfxs d a p l => execBfxs d a p l s
  | .bfi d a p l => execBfi d a p l s
  | .addi d a im => execAddi d a im s
  | .andi d a im => execAndi d a im s
  | .ori d a im => execOri d a im s
  | .xori d a im => execXori d a im s
  | .slti d a im => execSlti d a im s
  | .sltui d a im => execSltui d a im s
  | .shli d a n => execShli d a n s
  | .shri d a n => execShri d a n s
  | .shai d a n => execShai d a n s
  | .lea d a b k e => execLea d a b k e s
  | .lui d im => execLui d im s
  | .addpc d im => execAddpc d im s
  | .fadd d a b f m => execFadd d a b f m s
  | .fsub d a b f m => execFsub d a b f m s
  | .fmul d a b f m => execFmul d a b f m s
  | .ffma d a b f m => execFfma d a b f m s
  | .fdiv d a b f m => execFdiv d a b f m s
  | .fsqrt d a f m => execFsqrt d a f m s
  | .fmin d a b f => execFmin d a b f s
  | .fmax d a b f => execFmax d a b f s
  | .fcmp d a b f c => execFcmp d a b f c s
  | .fcvt d a t m sz => execFcvt d a t m sz s
  | .beq p a b o => execBeq p a b o s
  | .bne p a b o => execBne p a b o s
  | .blt p a b o => execBlt p a b o s
  | .bge p a b o => execBge p a b o s
  | .bltu p a b o => execBltu p a b o s
  | .bgeu p a b o => execBgeu p a b o s
  | .jal d o => execJal d o s
  | .jalr d a im => execJalr d a im s
  | .loop p a o => execLoop p a o s
  | .ld d a sz im => execLd d a sz im s
  | .ldf d a sz im => execLdf d a sz im s
  | .st j a b sz im => execSt j a b sz im s
  | .pf k a im => execPf k a im s
  | .amo d a b sz w o => execAmo d a b sz w o s
  | .cas d a b sz w => execCas d a b sz w s
  | .amof d a b sz t o => execAmof d a b sz t o s
  | .redAdd d a b p t => execRedAdd d a b p t s
  | .acq sz => execAcq sz s
  | .rel sz => execRel sz s
  | .fence k => execFence k s
  | .barInit a b => execBarInit a b s
  | .barArr d a => execBarArr d a s
  | .barWait d a b => execBarWait d a b s
  | .barInfo d a => execBarInfo d a s
  | .barFree a => execBarFree a s
  | .cntInit d a b => execCntInit d a b s
  | .cntSig a => execCntSig a s
  | .cntWait d a => execCntWait d a s
  | .cntAdd d a b => execCntAdd d a b s
  | .publish d a => execPublish d a s
  | .redDecl d a b => execRedDecl d a b s
  | .vld v a p t im => execVld v a p t im s
  | .vst v a p t im => execVst v a p t im s
  | .vldx d a b p t k => execVldx d a b p t k s
  | .vstx d a b p t k => execVstx d a b p t k s
  | .vadd d a b p t m => execVadd d a b p t m s
  | .vsub d a b p t m => execVsub d a b p t m s
  | .vmul d a b p t m => execVmul d a b p t m s
  | .vfma d a b p t m => execVfma d a b p t m s
  | .vfms d a b p t m => execVfms d a b p t m s
  | .vrcp d a p t m => execVrcp d a p t m s
  | .vrsq d a p t m => execVrsq d a p t m s
  | .vexp2 d a p t m => execVexp2 d a p t m s
  | .vlog2 d a p t m => execVlog2 d a p t m s
  | .vabs d a p t m => execVabs d a p t m s
  | .vneg d a p t m => execVneg d a p t m s
  | .vcvt d a t p sz m => execVcvt d a t p sz m s
  | .vred d a o p t m => execVred d a o p t m s
  | .vscan d a o p t m => execVscan d a o p t m s
  | .vdot d a b p t m => execVdot d a b p t m s
  | .vmin d a b p t => execVmin d a b p t s
  | .vmax d a b p t => execVmax d a b p t s
  | .vand d a b p t => execVand d a b p t s
  | .vor d a b p t => execVor d a b p t s
  | .vxor d a b p t => execVxor d a b p t s
  | .vshl d a b p t => execVshl d a b p t s
  | .vshr d a b p t => execVshr d a b p t s
  | .vsha d a b p t => execVsha d a b p t s
  | .vcmp q e a b p t c => execVcmp q e a b p t c s
  | .vsel d a b p t => execVsel d a b p t s
  | .vperm d a b p t => execVperm d a b p t s
  | .vpack d a b t => execVpack d a b t s
  | .vunpk d a h t => execVunpk d a h t s
  | .vbcast d a p t => execVbcast d a p t s
  | .vmovg d a b t => execVmovg d a b t s
  | .vlut d a h => execVlut d a h s
  | .vlutset a => execVlutset a s
  | .pand d a b => execPand d a b s
  | .por d a b => execPor d a b s
  | .pxor d a b => execPxor d a b s
  | .pnot d a => execPnot d a s
  | .ppop d a => execPpop d a s
  | .ewait d a => execEwait d a s
  | .qcfg d a q => execQcfg d a q s
  | .qput d b q => execQput d b q s
  | .qpop d b q => execQpop d b q s
  | .qwait d b q => execQwait d b q s
  | .qstat d q => execQstat d q s
  | .skrd d a => execSkrd d a s
  | .skwr a b => execSkwr a b s
  | .srw d a sz => execSrw d a sz s
  | .msg d a b c => execMsg d a b c s
  | .msgh d a b c => execMsgh d a b c s
  | .cntBind d a b => execCntBind d a b s
  | .spawn d a => execSpawn d a s
  | .tend => execTend s
  | .tself d => execTself d s
  | .nput v e => execNput v e s
  | .nget v e => execNget v e s
  | .npeek d e => execNpeek d e s
  | .ncfg d a => execNcfg d a s
  | .convOpen d b => execConvOpen d b s
  | .convPut a v => execConvPut a v s
  | .convClose d a => execConvClose d a s
  | .meet d a => execMeet d a s
  | .depart d => execDepart d s
  | .split d a b => execSplit d a b s
  | .gate d => execGate d s
  | .mbld a => execMbld a s
  | .mbst a => execMbst a s
  | .mband => execMband s
  | .mbor => execMbor s
  | .mbandn => execMbandn s
  | .mbpop d => execMbpop d s
  | .mbfst d => execMbfst d s
  | .mbnxt d a => execMbnxt d a s
  | .mtset a h k => execMtset a h k s
  | .mfld v a b k => execMfld v a b k s
  | .mfst v a b k => execMfst v a b k s
  | .mfadd v a b k => execMfadd v a b k s
  | .lkreq d a m => execLkreq d a m s
  | .lktry d a m => execLktry d a m s
  | .lkup d a m => execLkup d a m s
  | .lkdn d a m => execLkdn d a m s
  | .lkrel d a => execLkrel d a s
  | .lkq d a => execLkq d a s
  | .lktab d a => execLktab d a s
  | .xret => execXret s
  | .halt => execHalt s
  | .dict a b => execDict a b s
  | .tlbi a b => execTlbi a b s
  | .l1inv a b => execL1inv a b s
  | .wbr a b => execWbr a b s
  | .invr a b => execInvr a b s
  | .domset d a b => execDomset d a b s
  | .attset d a b => execAttset d a b s
  | .waymask d a b => execWaymask d a b s
  | .snap d => execSnap d s
  | .caprd d a => execCaprd d a s
  | .smc a => execSmc a s
  | .keydel d a => execKeydel d a s
  | .budgetRead d => execBudgetRead d s
  | .yield a => execYield a s
  | .sysrd d n => execSysrd d n s
  | .syswr a n => execSyswr a n s
  | .trap n => execTrap n s
  | _ => .next (s.illegal i)

/-! ### Dictionary codes (01 R21, 03 R66) -/

/-- The code of an index and a substitute. -/
def dictCode (sub : BitVec 5) (n : BitVec 10) : BitVec 16 := n ++ sub ++ (1 : BitVec 1)

/-- DICTIONARY_CODE: the word executes with length 2 at the code's address (03 R66). -/
def execDictionaryCode (sz : BitVec 5) (im : BitVec 10) (s : State) : Outcome :=
  let code := dictCode sz im
  let s := { s with cur := { s.cur with len := 2, code := some code } }
  match Tab.find s.here.dict im.toNat with
  | none => .next (s.trapHere Cause.dictMiss (illegalXval (some code) 0 0))
  | some entry =>
    let w := dictExpand entry sz
    if w.getLsbD 0 || w.extractLsb' 1 6 = 0x3F then
      .next (s.trapHere Cause.illegal (illegalXval (some code) w 0))
    else match decodeWord w with
      | .ok i => execWord i s
      | .error _ => .next (s.trapHere Cause.illegal (illegalXval (some code) w 0))

/-! ### Message handlers (09 R231, R232) -/

/-- The instructions that a handler may use, and of those the transfers of control. -/
def handlerBranch : Instr → Bool
  | .beq .. | .bne .. | .blt .. | .bge .. | .bltu .. | .bgeu .. | .jal .. => true
  | _ => false
def handlerMay : Instr → Bool
  | .add .. | .sub .. | .and .. | .or .. | .xor .. | .shl .. | .shr .. | .sha .. | .min .. | .max ..
  | .minu .. | .maxu .. | .slt .. | .sltu .. | .sel .. | .hint .. | .mul .. | .mulh .. | .mulhu ..
  | .div .. | .divu .. | .rem .. | .remu .. | .clz .. | .ctz .. | .popc .. | .brev .. | .bfx ..
  | .bfxs .. | .bfi .. | .addi .. | .andi .. | .ori .. | .xori .. | .slti .. | .sltui .. | .shli ..
  | .shri .. | .shai .. | .lea .. | .lui .. | .addpc .. | .fadd .. | .fsub .. | .fmul .. | .ffma ..
  | .fdiv .. | .fsqrt .. | .fmin .. | .fmax .. | .fcmp .. | .fcvt .. | .beq .. | .bne .. | .blt ..
  | .bge .. | .bltu .. | .bgeu .. | .jal .. | .ld .. | .ldf .. | .st .. | .amo .. | .cas ..
  | .amof .. | .cntSig .. | .cntAdd .. | .acq .. | .rel .. | .fence .. | .tend => true
  | _ => false

/-- The region in which a core's handler context runs: that of the root placed on it. -/
def State.coreRegion (s : State) (c : Nat) : Option (Nat × Region) := (s.rootAt c).map (fun e => (e.1, e.2.top))

/-- How a handler goes on. -/
inductive HandlerStep where
  /-- With its next instruction, or, where this one waits, with it again. -/
  | goesOn (s : State)
  | ended (s : State)
  | fault (s : State) (cause : Cause) (off : Nat)

/-- The next instruction of a core's handler. DESIGN CHOICE (log 73): a forward jump past offset 64 ends it as reaching that
offset does. What the handler's context has done ahead it loses with the handler. -/
def State.handlerStep (s : State) (c : Nat) (code : List Byte) : HandlerStep :=
  let x := s.slotAt c 8
  let pc := x.pc.toNat
  if x.budgetDue then .fault s Cause.budget pc
  else if 64 ≤ pc then .ended s
  else if 64 < pc + 4 then .fault s Cause.codeEnd pc
  else match decode ((code.drop pc).take 4) with
    | .error _ => .fault s Cause.illegal pc
    | .ok (i, _) =>
      if !handlerMay i then .fault s Cause.illegal pc
      else if x.owes i then .goesOn s
      else
        let u := ({ s with cur := { core := c, slot := 8, len := 4, code := none } } : State).setSlotAt c 8 { x with latched := none }
        match execWord i (u.past c 8 i x.latched.isSome) with
        | .next t =>
          let y := t.slotAt c 8
          if y.task.isNone then .ended t
          else if y.hnd then .fault (t.setSlotAt c 8 { s.slotAt c 8 with xcause := 0 }) (y.xcause.setWidth 8) pc
          else if handlerBranch i && (y.pc.toNat ≤ pc || decide (2 ^ 63 ≤ y.pc.toNat)) then
            .fault s Cause.illegal pc
          else .goesOn t
        | _ => .fault s Cause.illegal pc

/-- The handler context at the start of a handler (09 R231). -/
def handlerSlot (m : Message) (root : Nat) (r : Region) (uid : Nat) : Slot :=
  let va := windowBase + (if m.dwin then 2 ^ 32 else 0) + m.doff
  let x := { Slot.reset with
    budget := r.cycles
    task := some { root := root, rid := r.rid, ts := 0, flags := 0, addr := 0, uid := uid } }
  let pkg : Nat := (m.pkg.map (·.toNat)).getD 0
  ((x.setG 4 (BitVec.ofNat 64 va)).setG 5 (BitVec.ofNat 64 m.payload.length)).setG 6
    (BitVec.ofNat 64 ((htid m.src m.slot).toNat + pkg * 2 ^ 16))

/-- What befalls a message is told to its sender's fault domain; that of another package is told there (15 R381). -/
def State.tellSender (s : State) (m : Message) (reason : Reg) : State :=
  if m.pkg.isSome then s
  else s.report (regionReport s m.root m.rid 0x05 0 (8 * m.src + m.slot) m.header reason 0)

/-- The oldest message of an inbox is done: the counter it names is updated, and the message leaves. -/
def State.finishMessage (s : State) (c : Nat) (m : Message) (or' : BitVec 32) : State :=
  let dead := match m.ctr with
    | some off => !s.live (cellarAt (clusterOf c) off)
    | none => false
  let s := s.signalAt c m.ctr or'
  let s := if dead then s.tellSender m 2 else s
  s.setCore c { s.core c with inbox := (s.core c).inbox.drop 1, delivery := .idle }

/-- A message discarded whole, with the reason that the report to its sender's domain gives. -/
def State.discardMessage (s : State) (c : Nat) (m : Message) (reason : Reg) : State :=
  let s := s.tellSender m reason
  s.setCore c { s.core c with inbox := (s.core c).inbox.drop 1 }

/-- A handler goes on, and ends or faults (09 R232). -/
def State.goOnHandler (s : State) (c : Nat) (code : List Byte) : State :=
  let finish (s : State) (fault : Bool) : State :=
    let s := (s.dropEarly c 8).setSlotAt c 8 Slot.reset
    s.setCore c { s.core c with delivery := .ended fault }
  match s.handlerStep c code with
  | .goesOn t => t
  | .ended t => finish t false
  | .fault t cause off =>
    let rep := match t.coreRegion c with
      | some (root, r) => regionReport t root r.rid 0x06 cause c (BitVec.ofNat 64 off) 0 0
      | none => packageReport t 0x06 cause c (BitVec.ofNat 64 off) 0
    finish (t.report rep) true

/-- MESSAGE_DELIVERY: one move of the oldest message of a core's inbox. Its payload is written; its handler runs, an
instruction in a move; and once the handler's writes are acknowledged the counter is updated (09 R229). -/
def execMessageDelivery (core : BitVec 12) (s : State) : Outcome :=
  let c := core.toNat
  match (s.core c).inbox with
  | [] => .next s
  | m :: _ =>
    match (s.core c).delivery with
    | .running => .next (s.goOnHandler c (m.code.getD []))
    | .ended fault =>
      if (s.core c).sb.any (fun e => e.slot = 8) || s.posted.any (fun p => p.src = c && p.slot = 8) then .next s
      else .next (s.finishMessage c m (if fault then statusErr else 0))
    | .idle =>
      let p := if m.dwin then cellarAt (clusterOf c) m.doff else larderAt c m.doff
      match s.coreRegion c with
      | none => .next (s.discardMessage c m 0)
      | some (root, r) =>
        if r.tenant ≠ m.tenant || r.secure != m.secure then .next (s.discardMessage c m 0)
        else if m.payload ≠ [] && s.coversCounter p m.payload.length then .next (s.discardMessage c m 3)
        else
          let s := s.poke p m.payload
          match m.code with
          | none => .next (s.finishMessage c m 0)
          | some _ =>
            let num := s.tick
            let t := num.2.setSlotAt c 8 (handlerSlot m root r num.1)
            let t := t.setCore c { t.core c with delivery := .running }
            .next t

end Sys2Proof.Machine
end

