-- ==== Sys2Proof/Machine/Dispatch.lean ====
section
/-! DEFINITION. The meaning of each instruction: one arm per constructor. -/

namespace Sys2Proof.Machine
open Sys2Proof

/-- One instruction, run by the slot that the state names, or one operation of the package. -/
def exec (i : Instr) (s : State) : Host.Outcome State Fault Refusal :=
  match i with
  | .add d a b => Sys2Proof.Machine.execAdd d a b s
  | .sub d a b => Sys2Proof.Machine.execSub d a b s
  | .and d a b => Sys2Proof.Machine.execAnd d a b s
  | .or d a b => Sys2Proof.Machine.execOr d a b s
  | .xor d a b => Sys2Proof.Machine.execXor d a b s
  | .shl d a b => Sys2Proof.Machine.execShl d a b s
  | .shr d a b => Sys2Proof.Machine.execShr d a b s
  | .sha d a b => Sys2Proof.Machine.execSha d a b s
  | .min d a b => Sys2Proof.Machine.execMin d a b s
  | .max d a b => Sys2Proof.Machine.execMax d a b s
  | .minu d a b => Sys2Proof.Machine.execMinu d a b s
  | .maxu d a b => Sys2Proof.Machine.execMaxu d a b s
  | .slt d a b => Sys2Proof.Machine.execSlt d a b s
  | .sltu d a b => Sys2Proof.Machine.execSltu d a b s
  | .sel d a b => Sys2Proof.Machine.execSel d a b s
  | .hint d a b h => Sys2Proof.Machine.execHint d a b h s
  | .mul d a b => Sys2Proof.Machine.execMul d a b s
  | .mulh d a b => Sys2Proof.Machine.execMulh d a b s
  | .mulhu d a b => Sys2Proof.Machine.execMulhu d a b s
  | .div d a b => Sys2Proof.Machine.execDiv d a b s
  | .divu d a b => Sys2Proof.Machine.execDivu d a b s
  | .rem d a b => Sys2Proof.Machine.execRem d a b s
  | .remu d a b => Sys2Proof.Machine.execRemu d a b s
  | .clz d a => Sys2Proof.Machine.execClz d a s
  | .ctz d a => Sys2Proof.Machine.execCtz d a s
  | .popc d a => Sys2Proof.Machine.execPopc d a s
  | .brev d a => Sys2Proof.Machine.execBrev d a s
  | .bfx d a p l => Sys2Proof.Machine.execBfx d a p l s
  | .bfxs d a p l => Sys2Proof.Machine.execBfxs d a p l s
  | .bfi d a p l => Sys2Proof.Machine.execBfi d a p l s
  | .addi d a im => Sys2Proof.Machine.execAddi d a im s
  | .andi d a im => Sys2Proof.Machine.execAndi d a im s
  | .ori d a im => Sys2Proof.Machine.execOri d a im s
  | .xori d a im => Sys2Proof.Machine.execXori d a im s
  | .slti d a im => Sys2Proof.Machine.execSlti d a im s
  | .sltui d a im => Sys2Proof.Machine.execSltui d a im s
  | .shli d a n => Sys2Proof.Machine.execShli d a n s
  | .shri d a n => Sys2Proof.Machine.execShri d a n s
  | .shai d a n => Sys2Proof.Machine.execShai d a n s
  | .lea d a b k e => Sys2Proof.Machine.execLea d a b k e s
  | .lui d im => Sys2Proof.Machine.execLui d im s
  | .addpc d im => Sys2Proof.Machine.execAddpc d im s
  | .fadd d a b f m => Sys2Proof.Machine.execFadd d a b f m s
  | .fsub d a b f m => Sys2Proof.Machine.execFsub d a b f m s
  | .fmul d a b f m => Sys2Proof.Machine.execFmul d a b f m s
  | .ffma d a b f m => Sys2Proof.Machine.execFfma d a b f m s
  | .fdiv d a b f m => Sys2Proof.Machine.execFdiv d a b f m s
  | .fsqrt d a f m => Sys2Proof.Machine.execFsqrt d a f m s
  | .fmin d a b f => Sys2Proof.Machine.execFmin d a b f s
  | .fmax d a b f => Sys2Proof.Machine.execFmax d a b f s
  | .fcmp d a b f c => Sys2Proof.Machine.execFcmp d a b f c s
  | .fcvt d a t m sz => Sys2Proof.Machine.execFcvt d a t m sz s
  | .beq p a b o => Sys2Proof.Machine.execBeq p a b o s
  | .bne p a b o => Sys2Proof.Machine.execBne p a b o s
  | .blt p a b o => Sys2Proof.Machine.execBlt p a b o s
  | .bge p a b o => Sys2Proof.Machine.execBge p a b o s
  | .bltu p a b o => Sys2Proof.Machine.execBltu p a b o s
  | .bgeu p a b o => Sys2Proof.Machine.execBgeu p a b o s
  | .jal d o => Sys2Proof.Machine.execJal d o s
  | .jalr d a im => Sys2Proof.Machine.execJalr d a im s
  | .loop p a o => Sys2Proof.Machine.execLoop p a o s
  | .dictionaryCode sz im => Sys2Proof.Machine.execDictionaryCode sz im s
  | .ld d a sz im => Sys2Proof.Machine.execLd d a sz im s
  | .ldf d a sz im => Sys2Proof.Machine.execLdf d a sz im s
  | .st j a b sz im => Sys2Proof.Machine.execSt j a b sz im s
  | .pf k a im => Sys2Proof.Machine.execPf k a im s
  | .amo d a b sz w o => Sys2Proof.Machine.execAmo d a b sz w o s
  | .cas d a b sz w => Sys2Proof.Machine.execCas d a b sz w s
  | .amof d a b sz t o => Sys2Proof.Machine.execAmof d a b sz t o s
  | .redAdd d a b p t => Sys2Proof.Machine.execRedAdd d a b p t s
  | .acq sz => Sys2Proof.Machine.execAcq sz s
  | .rel sz => Sys2Proof.Machine.execRel sz s
  | .fence k => Sys2Proof.Machine.execFence k s
  | .barInit a b => Sys2Proof.Machine.execBarInit a b s
  | .barArr d a => Sys2Proof.Machine.execBarArr d a s
  | .barWait d a b => Sys2Proof.Machine.execBarWait d a b s
  | .barInfo d a => Sys2Proof.Machine.execBarInfo d a s
  | .barFree a => Sys2Proof.Machine.execBarFree a s
  | .cntInit d a b => Sys2Proof.Machine.execCntInit d a b s
  | .cntSig a => Sys2Proof.Machine.execCntSig a s
  | .cntWait d a => Sys2Proof.Machine.execCntWait d a s
  | .cntAdd d a b => Sys2Proof.Machine.execCntAdd d a b s
  | .publish d a => Sys2Proof.Machine.execPublish d a s
  | .redDecl d a b => Sys2Proof.Machine.execRedDecl d a b s
  | .vld v a p t im => Sys2Proof.Machine.execVld v a p t im s
  | .vst v a p t im => Sys2Proof.Machine.execVst v a p t im s
  | .vldx d a b p t k => Sys2Proof.Machine.execVldx d a b p t k s
  | .vstx d a b p t k => Sys2Proof.Machine.execVstx d a b p t k s
  | .vadd d a b p t m => Sys2Proof.Machine.execVadd d a b p t m s
  | .vsub d a b p t m => Sys2Proof.Machine.execVsub d a b p t m s
  | .vmul d a b p t m => Sys2Proof.Machine.execVmul d a b p t m s
  | .vfma d a b p t m => Sys2Proof.Machine.execVfma d a b p t m s
  | .vfms d a b p t m => Sys2Proof.Machine.execVfms d a b p t m s
  | .vrcp d a p t m => Sys2Proof.Machine.execVrcp d a p t m s
  | .vrsq d a p t m => Sys2Proof.Machine.execVrsq d a p t m s
  | .vexp2 d a p t m => Sys2Proof.Machine.execVexp2 d a p t m s
  | .vlog2 d a p t m => Sys2Proof.Machine.execVlog2 d a p t m s
  | .vabs d a p t m => Sys2Proof.Machine.execVabs d a p t m s
  | .vneg d a p t m => Sys2Proof.Machine.execVneg d a p t m s
  | .vcvt d a t p sz m => Sys2Proof.Machine.execVcvt d a t p sz m s
  | .vred d a o p t m => Sys2Proof.Machine.execVred d a o p t m s
  | .vscan d a o p t m => Sys2Proof.Machine.execVscan d a o p t m s
  | .vdot d a b p t m => Sys2Proof.Machine.execVdot d a b p t m s
  | .vmin d a b p t => Sys2Proof.Machine.execVmin d a b p t s
  | .vmax d a b p t => Sys2Proof.Machine.execVmax d a b p t s
  | .vand d a b p t => Sys2Proof.Machine.execVand d a b p t s
  | .vor d a b p t => Sys2Proof.Machine.execVor d a b p t s
  | .vxor d a b p t => Sys2Proof.Machine.execVxor d a b p t s
  | .vshl d a b p t => Sys2Proof.Machine.execVshl d a b p t s
  | .vshr d a b p t => Sys2Proof.Machine.execVshr d a b p t s
  | .vsha d a b p t => Sys2Proof.Machine.execVsha d a b p t s
  | .vcmp q e a b p t c => Sys2Proof.Machine.execVcmp q e a b p t c s
  | .vsel d a b p t => Sys2Proof.Machine.execVsel d a b p t s
  | .vperm d a b p t => Sys2Proof.Machine.execVperm d a b p t s
  | .vpack d a b t => Sys2Proof.Machine.execVpack d a b t s
  | .vunpk d a h t => Sys2Proof.Machine.execVunpk d a h t s
  | .vbcast d a p t => Sys2Proof.Machine.execVbcast d a p t s
  | .vmovg d a b t => Sys2Proof.Machine.execVmovg d a b t s
  | .vlut d a h => Sys2Proof.Machine.execVlut d a h s
  | .vlutset a => Sys2Proof.Machine.execVlutset a s
  | .pand d a b => Sys2Proof.Machine.execPand d a b s
  | .por d a b => Sys2Proof.Machine.execPor d a b s
  | .pxor d a b => Sys2Proof.Machine.execPxor d a b s
  | .pnot d a => Sys2Proof.Machine.execPnot d a s
  | .ppop d a => Sys2Proof.Machine.execPpop d a s
  | .ewait d a => Sys2Proof.Machine.execEwait d a s
  | .qcfg d a q => Sys2Proof.Machine.execQcfg d a q s
  | .qput d b q => Sys2Proof.Machine.execQput d b q s
  | .qpop d b q => Sys2Proof.Machine.execQpop d b q s
  | .qwait d b q => Sys2Proof.Machine.execQwait d b q s
  | .qstat d q => Sys2Proof.Machine.execQstat d q s
  | .skrd d a => Sys2Proof.Machine.execSkrd d a s
  | .skwr a b => Sys2Proof.Machine.execSkwr a b s
  | .srw d a sz => Sys2Proof.Machine.execSrw d a sz s
  | .engineQueueEntry h w1 w2 w3 w4 w5 w6 w7 => Sys2Proof.Machine.execEngineQueueEntry h w1 w2 w3 w4 w5 w6 w7 s
  | .mma core => Sys2Proof.Machine.execMma core s
  | .bfly core => Sys2Proof.Machine.execBfly core s
  | .bflyc core => Sys2Proof.Machine.execBflyc core s
  | .scan core => Sys2Proof.Machine.execScan core s
  | .tsig core => Sys2Proof.Machine.execTsig core s
  | .tskip core => Sys2Proof.Machine.execTskip core s
  | .tld core => Sys2Proof.Machine.execTld core s
  | .tst core => Sys2Proof.Machine.execTst core s
  | .tzero core => Sys2Proof.Machine.execTzero core s
  | .tcvt core => Sys2Proof.Machine.execTcvt core s
  | .ecfgClr core => Sys2Proof.Machine.execEcfgClr core s
  | .ecfgSet core => Sys2Proof.Machine.execEcfgSet core s
  | .ecfgLd core => Sys2Proof.Machine.execEcfgLd core s
  | .ecfgSt core => Sys2Proof.Machine.execEcfgSt core s
  | .cpy core => Sys2Proof.Machine.execCpy core s
  | .gth core => Sys2Proof.Machine.execGth core s
  | .sct core => Sys2Proof.Machine.execSct core s
  | .coll core => Sys2Proof.Machine.execColl core s
  | .engineStallTimeout core data => Sys2Proof.Machine.execEngineStallTimeout core data s
  | .msg d a b c => Sys2Proof.Machine.execMsg d a b c s
  | .msgh d a b c => Sys2Proof.Machine.execMsgh d a b c s
  | .messageDelivery core => Sys2Proof.Machine.execMessageDelivery core s
  | .cntBind d a b => Sys2Proof.Machine.execCntBind d a b s
  | .boundTaskReady k => Sys2Proof.Machine.execBoundTaskReady k s
  | .spawn d a => Sys2Proof.Machine.execSpawn d a s
  | .tend => Sys2Proof.Machine.execTend s
  | .tself d => Sys2Proof.Machine.execTself d s
  | .nput v e => Sys2Proof.Machine.execNput v e s
  | .mailboxEntryArrival k => Sys2Proof.Machine.execMailboxEntryArrival k s
  | .nget v e => Sys2Proof.Machine.execNget v e s
  | .npeek d e => Sys2Proof.Machine.execNpeek d e s
  | .ncfg d a => Sys2Proof.Machine.execNcfg d a s
  | .convOpen d b => Sys2Proof.Machine.execConvOpen d b s
  | .convPut a v => Sys2Proof.Machine.execConvPut a v s
  | .convClose d a => Sys2Proof.Machine.execConvClose d a s
  | .convoyFlitArrival k => Sys2Proof.Machine.execConvoyFlitArrival k s
  | .meet d a => Sys2Proof.Machine.execMeet d a s
  | .depart d => Sys2Proof.Machine.execDepart d s
  | .split d a b => Sys2Proof.Machine.execSplit d a b s
  | .gate d => Sys2Proof.Machine.execGate d s
  | .mbld a => Sys2Proof.Machine.execMbld a s
  | .mbst a => Sys2Proof.Machine.execMbst a s
  | .mband => Sys2Proof.Machine.execMband s
  | .mbor => Sys2Proof.Machine.execMbor s
  | .mbandn => Sys2Proof.Machine.execMbandn s
  | .mbpop d => Sys2Proof.Machine.execMbpop d s
  | .mbfst d => Sys2Proof.Machine.execMbfst d s
  | .mbnxt d a => Sys2Proof.Machine.execMbnxt d a s
  | .mtset a h k => Sys2Proof.Machine.execMtset a h k s
  | .mfld v a b k => Sys2Proof.Machine.execMfld v a b k s
  | .mfst v a b k => Sys2Proof.Machine.execMfst v a b k s
  | .mfadd v a b k => Sys2Proof.Machine.execMfadd v a b k s
  | .lkreq d a m => Sys2Proof.Machine.execLkreq d a m s
  | .lktry d a m => Sys2Proof.Machine.execLktry d a m s
  | .lkup d a m => Sys2Proof.Machine.execLkup d a m s
  | .lkdn d a m => Sys2Proof.Machine.execLkdn d a m s
  | .lkrel d a => Sys2Proof.Machine.execLkrel d a s
  | .lkq d a => Sys2Proof.Machine.execLkq d a s
  | .lktab d a => Sys2Proof.Machine.execLktab d a s
  | .lockRevocation k => Sys2Proof.Machine.execLockRevocation k s
  | .lockDropAtEnd k => Sys2Proof.Machine.execLockDropAtEnd k s
  | .xret => Sys2Proof.Machine.execXret s
  | .halt => Sys2Proof.Machine.execHalt s
  | .dict a b => Sys2Proof.Machine.execDict a b s
  | .tlbi a b => Sys2Proof.Machine.execTlbi a b s
  | .l1inv a b => Sys2Proof.Machine.execL1inv a b s
  | .wbr a b => Sys2Proof.Machine.execWbr a b s
  | .invr a b => Sys2Proof.Machine.execInvr a b s
  | .domset d a b => Sys2Proof.Machine.execDomset d a b s
  | .attset d a b => Sys2Proof.Machine.execAttset d a b s
  | .waymask d a b => Sys2Proof.Machine.execWaymask d a b s
  | .snap d => Sys2Proof.Machine.execSnap d s
  | .caprd d a => Sys2Proof.Machine.execCaprd d a s
  | .smc a => Sys2Proof.Machine.execSmc a s
  | .keydel d a => Sys2Proof.Machine.execKeydel d a s
  | .budgetRead d => Sys2Proof.Machine.execBudgetRead d s
  | .yield a => Sys2Proof.Machine.execYield a s
  | .sysrd d n => Sys2Proof.Machine.execSysrd d n s
  | .syswr a n => Sys2Proof.Machine.execSyswr a n s
  | .trap n => Sys2Proof.Machine.execTrap n s
  | .budgetTrap core slot => Sys2Proof.Machine.execBudgetTrap core slot s
  | .woundTrap core slot => Sys2Proof.Machine.execWoundTrap core slot s
  | .kill core slot => Sys2Proof.Machine.execKill core slot s
  | .storeBufferDrain core k => Sys2Proof.Machine.execStoreBufferDrain core k s
  | .claimRecord k => Sys2Proof.Machine.execClaimRecord k s
  | .l2Fill k => Sys2Proof.Machine.execL2Fill k s
  | .pageWalk die k => Sys2Proof.Machine.execPageWalk die k s
  | .taskDispatch core slot => Sys2Proof.Machine.execTaskDispatch core slot s
  | .steal core dir => Sys2Proof.Machine.execSteal core dir s
  | .hostMemAccess write keep lg pa data => Sys2Proof.Machine.execHostMemAccess write keep lg pa data s
  | .publicationAdvance vf => Sys2Proof.Machine.execPublicationAdvance vf s
  | .lsqtail vf tail => Sys2Proof.Machine.execLsqtail vf tail s
  | .launch vf => Sys2Proof.Machine.execLaunch vf s
  | .launchComplete root => Sys2Proof.Machine.execLaunchComplete root s
  | .preempt vf => Sys2Proof.Machine.execPreempt vf s
  | .preemptSave root => Sys2Proof.Machine.execPreemptSave root s
  | .restore vf => Sys2Proof.Machine.execRestore vf s
  | .nop vf => Sys2Proof.Machine.execNop vf s
  | .ngsel vf v => Sys2Proof.Machine.execNgsel vf v s
  | .retadd stack page => Sys2Proof.Machine.execRetadd stack page s
  | .keyInstall => Sys2Proof.Machine.execKeyInstall s
  | .registerWrite sec off v => Sys2Proof.Machine.execRegisterWrite sec off v s
  | .partitionSwitch die => Sys2Proof.Machine.execPartitionSwitch die s
  | .crcReplay port => Sys2Proof.Machine.execCrcReplay port s
  | .retrainStart port tx w count => Sys2Proof.Machine.execRetrainStart port tx w count s
  | .retrainEnd port tx w ok => Sys2Proof.Machine.execRetrainEnd port tx w ok s
  | .portTraining port lanes lo hi => Sys2Proof.Machine.execPortTraining port lanes lo hi s
  | .arrivalToken e member => Sys2Proof.Machine.execArrivalToken e member s
  | .releaseToken e => Sys2Proof.Machine.execReleaseToken e s
  | .proxyAbsenceToken e member => Sys2Proof.Machine.execProxyAbsenceToken e member s
  | .presenceToken e member => Sys2Proof.Machine.execPresenceToken e member s
  | .barrierTimeout e => Sys2Proof.Machine.execBarrierTimeout e s
  | .throttle island => Sys2Proof.Machine.execThrottle island s
  | .recovery island => Sys2Proof.Machine.execRecovery island s
  | .trip => Sys2Proof.Machine.execTrip s
  | .powerOn => Sys2Proof.Machine.execPowerOn s
  | .snapshotLatch => Sys2Proof.Machine.execSnapshotLatch s
  | .snapshotCopy => Sys2Proof.Machine.execSnapshotCopy s
  | .fetchFault cause xval => Sys2Proof.Machine.execFetchFault cause xval s
  | .illegalInstruction word idx => Sys2Proof.Machine.execIllegalInstruction word idx s
  | .lossOfPower => Sys2Proof.Machine.execLossOfPower s
  | .remoteAccessArrival op sub lg sec pa data => Sys2Proof.Machine.execRemoteAccessArrival op sub lg sec pa data s

end Sys2Proof.Machine
end

