-- ==== Sys2Proof/Machine/Moves.lean ====
section
/-! DEFINITION. The moves of the package: what a turn names to be executed, and the state in which it is.
Step.lean only takes the turn and runs what is named. -/

namespace Sys2Proof.Machine

/-- The moves that an agenda may name as an event: the operations that are no instruction of a slot. -/
def isEvent : Instr → Bool
  | .mma .. | .bfly .. | .bflyc .. | .scan .. | .tsig .. | .tskip .. | .tld .. | .tst .. | .tzero ..
  | .tcvt .. | .ecfgClr .. | .ecfgSet .. | .ecfgLd .. | .ecfgSt .. | .cpy .. | .gth .. | .sct .. | .coll ..
  | .engineStallTimeout .. | .messageDelivery .. | .boundTaskReady .. | .mailboxEntryArrival ..
  | .convoyFlitArrival .. | .lockRevocation .. | .lockDropAtEnd .. | .budgetTrap .. | .woundTrap .. | .kill ..
  | .storeBufferDrain .. | .claimRecord .. | .l2Fill .. | .pageWalk .. | .taskDispatch .. | .steal ..
  | .hostMemAccess .. | .publicationAdvance .. | .lsqtail .. | .launch .. | .launchComplete .. | .preempt ..
  | .preemptSave .. | .restore .. | .nop .. | .ngsel .. | .retadd .. | .keyInstall | .registerWrite ..
  | .partitionSwitch .. | .crcReplay .. | .retrainStart .. | .retrainEnd .. | .portTraining ..
  | .arrivalToken .. | .releaseToken .. | .proxyAbsenceToken .. | .presenceToken .. | .barrierTimeout ..
  | .throttle .. | .recovery .. | .trip | .powerOn | .snapshotLatch | .snapshotCopy | .lossOfPower
  | .remoteAccessArrival .. => true
  | _ => false

/-- A line of code enters a core's instruction cache, of 32 KiB (12 R304); one with an error is not kept. -/
def State.keepCode (s : State) (c : Nat) (l : Loc) : State :=
  let line := l.place / 128
  let at0 := { l with place := line * 128 }
  match l1Find (s.core c).l1i line l.sec with
  | some _ => s
  | none =>
    if s.homeBad at0 128 then s
    else
      let x : L1Line := { line := line, bytes := s.homeBytes at0 128, ro := l.ro, secure := l.sec }
      let d := (s.useHome at0).choose 256
      let ls := (d.2.core c).l1i
      d.2.setCore c { d.2.core c with l1i := x :: (if ls.length < 256 then ls else ls.eraseIdx d.1) }

/-- The fields of an illegal-instruction trap of the fetched bytes: the word that was decoded. -/
def fetchedWord (bs : List Byte) : Word := (wordsOf bs).headD 0

/-- A slot fetches: the instruction at its pc, and the state in which it runs. The page of an SMC's handler is secure (11
R290). -/
def State.fetchTurn (s : State) (c k : Nat) : Option Instr × State :=
  match s.fetch c k (s.slotFind c k) with
  | .wait a => (none, if (s.slotFind c k a).isNone then s.askWalk c k a true else s)
  | .held l => (none, if s.waits l 2 || s.mute c l.place then s else s.missLine c k l)
  | .fault cause xval => (some (.fetchFault cause xval), s)
  | .ok bytes locs =>
    let pc := (s.slotAt c k).pc.toNat
    let open' := (s.slotAt c k).entering = some Cause.smc && !(locs.all (·.sec))
    let s := locs.foldl (fun s l => s.keepCode c l) ((s.keepTlb c k pc).keepTlb c k (pc + bytes.length - 1))
    let s := { s with cur := { s.cur with len := bytes.length } }
    if open' then (some (.fetchFault Cause.fetch (BitVec.ofNat 64 pc)), s)
    else
    let s := if (s.slotAt c k).entering = none then s else s.setSlotAt c k { s.slotAt c k with entering := none }
    match decode bytes with
    | .ok (i, _) => (some i, s)
    | .error _ => (some (.illegalInstruction (fetchedWord bytes) 0), s)

/-- What a turn runs, with what stays of what the slot has done ahead. -/
def State.andEarly (c k : Nat) (again : Bool) (r : Option Instr × State) : Option Instr × State :=
  match r.1 with
  | some i => (some i, r.2.past c k i again)
  | none => r

/-- The instruction that a slot has decoded, or is to fetch, with the cursor of it; none where its fetch waits or faults, or
the bytes are no instruction. -/
def State.nextInstr (s : State) (c k : Nat) : Option (Instr × Cursor) :=
  match (s.slotAt c k).latched with
  | some l => some (l.instr, { core := c, slot := k, len := l.len, code := l.code })
  | none =>
    match s.fetch c k (s.slotFind c k) with
    | .ok bytes _ => match decode bytes with
      | .ok (i, _) => some (i, { core := c, slot := k, len := bytes.length, code := none })
      | .error _ => none
    | _ => none

/-- Whether the stall rule of an instruction's entry holds it back (13 R336): tried now it would neither complete nor
park. -/
def State.stallsAt (s : State) (i : Instr) (at' : Cursor) : Bool :=
  let u : State := { s with cur := at' }
  let u := u.setMe { u.me with latched := none }
  let tried := match s.codeInstr at'.core i with
    | .engineQueueEntry h w1 w2 w3 w4 w5 w6 w7 => execEngineQueueEntry h w1 w2 w3 w4 w5 w6 w7 u
    | j => execWord j u
  match tried with
  | .next t => (t.slotAt at'.core at'.slot).latched.isSome && (t.slotAt at'.core at'.slot).wait == .none
  | _ => false

/-- Whether a slot may be chosen: it holds a task, is not parked, its next instruction has been fetched and its operands
are there, and no stall rule holds that instruction back. An instruction that has issued is not chosen again. -/
def State.eligible (s : State) (c k : Nat) : Bool :=
  let x := s.slotAt c k
  x.task.isSome && x.wait == .none && (x.latched.isSome || !s.fetchWaits c k)
    && match s.nextInstr c k with
      | none => true
      | some (i, at') =>
        !x.owes (s.codeInstr c i) && (if waitsIssued (s.codeInstr c i) then x.latched.isNone else !s.stallsAt i at')

/-- The slot that the issue stage chooses, and the slot that last won a tie afterwards. -/
def State.issueSlot (s : State) (c : Nat) : Option (Nat × Nat) :=
  let x := s.core c
  let able (k : Nat) : Bool := s.eligible c k
  let g := x.cycle % 8
  let t (k : Nat) : Reg := (s.ageOf c k).t
  if able g then some (g, x.lastTie)
  else
    let all := (List.range 8).filter able
    let oldest := all.filter (fun k => all.all (fun j => decide (t k ≤ t j)))
    match oldest with
    | [] => none
    | [k] => some (k, x.lastTie)
    | _ =>
      let order := (List.range 8).map (fun i => (x.lastTie + 1 + i) % 8)
      (order.find? (fun k => oldest.contains k)).map (fun k => (k, k))

/-- A slot's turn: it is killed, or takes a trap that is due, or stays parked, or goes on with the instruction that
it has decoded, or fetches (01 R21; 11 R279, R282, R283; 13 R336). -/
def State.slotWork (s : State) (c k : Nat) : Option Instr × State :=
  let s := { s with cur := { core := c, slot := k, len := 4, code := none } }
  let x := s.slotAt c k
  if x.task.isNone then (none, s)
  else if Config.killGrace ≤ x.overrun then (some (.kill (BitVec.ofNat 12 c) (BitVec.ofNat 3 k)), s)
  else if s.takesPending c k && x.budgetDue then (some (.budgetTrap (BitVec.ofNat 12 c) (BitVec.ofNat 3 k)), s)
  else if s.takesPending c k && x.wound.isSome then (some (.woundTrap (BitVec.ofNat 12 c) (BitVec.ofNat 3 k)), s)
  else if x.parked then (none, s)
  else match x.latched with
    | some l =>
      if x.owes (s.codeInstr c l.instr) then (none, s)
      else (some l.instr, { s with cur := { core := c, slot := k, len := l.len, code := l.code } }.setSlotAt c k
        { x with latched := none })
    | none =>
      if (s.nextInstr c k).any (fun i => x.owes (s.codeInstr c i.1)) then (none, s) else s.fetchTurn c k
def State.slotTurn (s : State) (c k : Nat) : Option Instr × State :=
  State.andEarly c k (s.slotAt c k).latched.isSome (s.slotWork c k)

/-- Whether a slot has something to go on with that is no issue: a trap or the kill is due, or it is not eligible. -/
def State.goesOn (s : State) (c k : Nat) : Bool :=
  let x := s.slotAt c k
  decide (Config.killGrace ≤ x.overrun) || (s.takesPending c k && (x.budgetDue || x.wound.isSome)) || !s.eligible c k

/-- The message at a place of the network arrives: in its target's inbox, if that has room and no earlier one
of its channel is on the way; or, for another package, it leaves, or is lost where no link is up (09 R229,
R230; 14 R358). Places count the messages for this package first. -/
def State.arrive (s : State) (k : Nat) : State :=
  match s.net[k]? with
  | some m =>
    let x := s.core m.dst
    if (s.net.take k).any (fun e => e.src = m.src && e.dst = m.dst && e.chan == m.chan && e.pkg == m.pkg)
      || (m.pkg.isNone && s.fenceHolds m.src m.slot m.fence) || Config.inboxSize ≤ x.inbox.length then s
    else { s with net := s.net.eraseIdx k }.setCore m.dst { x with inbox := x.inbox ++ [m] }
  | none =>
    let j := k - s.net.length
    match s.remote[j]? with
    | none => s
    | some m =>
      if (s.remote.take j).any (fun e => e.src = m.src && e.package = m.package && e.chan == m.chan)
        || s.fenceHolds m.src m.slot m.fence then s
      else
        let t := { s with remote := s.remote.eraseIdx j }
        if (s.routePort m).isSome then t
        else t.messageLost m

/-- A message comes from another package, and waits for room in its target's inbox like any other (09 R229). -/
def State.packageMessage (s : State) (m : Message) : State :=
  if m.pkg.isSome && m.dst < Config.cores then { s with net := s.net ++ [m] } else s

/-- A line of an L1 cache with a parity error is dropped, and the error is reported as corrected (12 R306). -/
def State.parity (s : State) (c : Nat) (instr : Bool) (k : Nat) : State :=
  let x := s.core c
  match (if instr then x.l1i else x.l1)[k]? with
  | none => s
  | some l =>
    let y := if instr then { x with l1i := x.l1i.eraseIdx k } else { x with l1 := x.l1.eraseIdx k }
    (s.setCore c y).cacheReport c instr (l.line * 128)

/-- A slot carries out its L1INV, with these operands, ahead of the loads before it (11 R293). -/
def State.invAhead (s : State) (c k : Nat) (addr ctl : Reg) : State :=
  let line : Option (Option Nat) :=
    if ctl.getLsbD 2 || 2 ^ 52 ≤ addr.toNat then some none
    else if windowBase ≤ addr.toNat then some (atticLine c addr)
    else match s.slotFind c k addr.toNat with
      | some (.ok t) => some (some ((t.loc addr.toNat).place / 128))
      | _ => none
  match line with
  | none => s
  | some l =>
    if (s.slotAt c k).task.isNone || 8 ≤ ctl.toNat || s.early.any (fun e => e.core = c && e.slot = k && e.inv.isSome) then s
    else
      let t := s.l1Drop c ctl l
      { t with early := t.early ++ [{ core := c, slot := k, place := 0, secure := false, bytes := [], ldf := false, l1 := false
                                      ro := false, since := { regs := [], loads := false }, inv := some (addr, ctl)
                                      route := 0, lost := false }] }

/-- A slot fetches the code of an address ahead: its line enters the instruction cache (11 R293, R294). -/
def State.fetchAhead (s : State) (c k va : Nat) : State :=
  match s.parcelAt c k (s.slotFind c k) va with
  | some (.ok (l, _)) => if (s.slotAt c k).task.isNone || s.codeWaits c k l then s else s.keepCode c l
  | _ => s

/-- A turn: what is to be executed, if anything, and the state in which. -/
def State.turn (s : State) : Turn → Option Instr × State
  | .issue c =>
    match (if c < Config.cores then s.issueSlot c else none) with
    | none => (none, s)
    | some (k, tie) => (s.setCore c { s.core c with lastTie := tie }).slotTurn c k
  | .slot c k => if c < Config.cores && k < 8 && s.goesOn c k then s.slotTurn c k else (none, s)
  | .clock c n => (none, if c < Config.cores then s.coreClock c n else s)
  | .uncore n => (none, s.uncoreClock n)
  | .event i => if isEvent i then (some i, s) else (none, s)
  | .arrive k => (none, s.arrive k)
  | .parity c instr k => (none, s.parity c instr k)
  | .dropL1 c k => (none, s.setCore c { s.core c with l1 := (s.core c).l1.eraseIdx k })
  | .dropL1i c k => (none, s.setCore c { s.core c with l1i := (s.core c).l1i.eraseIdx k })
  | .dropTlb c k => (none, s.setCore c ((s.core c).dropTlb (fun t => some t == (s.core c).tlbs[k]?)))
  | .dropL2Tlb cl k => (none, { s with l2tlb := Tab.set [] s.l2tlb cl ((Tab.get [] s.l2tlb cl).eraseIdx k) })
  | .readAhead c k va n ldf => (none, if c < Config.cores && k < 9 then s.readAhead c k va n ldf else s)
  | .invAhead c k addr ctl => (none, if c < Config.cores && k < 8 then s.invAhead c k addr ctl else s)
  | .fetchAhead c k va => (none, if c < Config.cores && k < 8 then s.fetchAhead c k va.toNat else s)
  | .slotAhead c data q k off n => (none, s.slotAhead c data q k off n)
  | .post k => (none, s.performPosted k)
  | .reportDue k => (none, s.reportDue k)
  | .engineWrite c d k => (none, s.engineWrite c d k)
  | .packetLost c => (none, s.packetLost c)
  | .collArrive x => (none, { s with collIn := s.collIn ++ [x] })
  | .poison w slice => (none, s.poison w slice)
  | .corrected w slice => (none, s.corrected w slice)
  | .pubLine k => (none, s.pubLine k)
  | .packageMessage m => (none, s.packageMessage m)
  | .hostWrite pa bs => (none, s.hostWrite pa bs)
  | .hostIrq fn => (none, { s with irq := s.irq.filter (fun x => x ≠ fn) })
  | .registerRead fn sec off n => (none, { s with answer := s.readRegister fn sec off n })
  | .registerWriteVf vf off v => (none, s.registerWriteVf vf off v)
  | .secureLaunch vf desc => (none, s.secureLaunch vf desc)
  | .securePreempt root image => (none, s.securePreempt root image)
  | .firmware pkg area => (none, s.firmware pkg area)

/-- Whether a turn can be taken while the package has no power: the slot's power, and what the host does by itself. -/
def Turn.powers : Turn → Bool
  | .event .powerOn | .event .lossOfPower | .hostWrite .. | .hostIrq .. => true
  | _ => false

/-- The next turn, and the state in which it has been taken from the agenda. With an empty agenda the core that `cur`
names issues, or where no slot of it can, the slot that `cur` names goes on (log 4). -/
def State.takeTurn (s : State) : Turn × State :=
  match s.agenda with
  | [] => (if (s.issueSlot s.cur.core).isSome then .issue s.cur.core else .slot s.cur.core s.cur.slot, s)
  | t :: rest => (t, { s with agenda := rest })

/-! ### A program placed from outside (log 21) -/

/-- The page that a placed program is mapped through, and where its code lies: plain memory of stack 0, above
the system area. -/
def placedVa : Nat := 0x10000
def placedPa : Nat := 0x4000000

/-- The translation of that page. -/
def placedTlb : Tlb :=
  { vf := 0, secure := false, lg := 12, vpage := placedVa / 4096, pa := placedPa, ro := false, ms := false,
    sec := false, cmp := false, key := 0 }

/-- The task that runs it, on slot 0 of core 0. -/
def placedTask : Task := { root := 0, rid := 0, ts := 0, flags := 0, addr := 0, uid := 1 }

/-- The state in which the next step fetches from the placed page, with these bytes there. -/
def State.placeCode (s : State) (bs : List Byte) : State :=
  let x := s.core 0
  let y := x.slot 0
  let y : Slot := { y with task := some placedTask, pc := BitVec.ofNat 64 placedVa, wait := .none, latched := none, walkFault := none, entering := none
                           overrun := 0, budgetDue := false, wound := none, smc := false, xcause := 0 }
  let s := s.setCore 0 { x with
    slots := Tab.put x.slots 0 y
    codelo := BitVec.ofNat 64 placedVa
    codehi := BitVec.ofNat 64 (placedVa + 4096)
    l1i := [{ line := placedPa / 128, bytes := bs ++ List.replicate (128 - bs.length) 0, ro := false, secure := false }]
    tlb := [(Config.tlbSet 12 placedTlb.vpage % 48,
      { vbase := placedVa / 2 ^ 28, pbase := placedPa / 2 ^ 32, ways := [(placedTlb, none)] })] }
  { s with
    cur := { core := 0, slot := 0, len := 4, code := none }
    agenda := []
    power := .on
    roots := Tab.erase s.roots 0
    l2 := s.l2.filter (fun l => l.line ≠ placedPa / 128)
    claims := s.claims.filter (fun q => q.line ≠ placedPa / 128)
    epochs := s.epochs.filter (fun e => !(e.base < placedPa + 128 && placedPa < e.base + e.bytes))
    poisoned := s.poisoned.filter (fun w => w / 16 ≠ placedPa / 128)
    writtenUnder := Tab.set none s.writtenUnder (placedPa / 128) none
    mem := pokeMem s.mem placedPa bs }

end Sys2Proof.Machine
end

