-- ==== Sys2Proof/Machine/Step.lean ====
section
/-! DEFINITION. One step of the package: the next turn is taken, and what it names is executed. -/

namespace Sys2Proof.Machine

/-- A turn run. -/
def runTurn (t : Turn) (s : State) : Host.Outcome State Fault Refusal :=
  match s.turn t with
  | (some i, u) => exec i u
  | (none, u) => .next u

/-- One step. -/
def step (s : State) : Host.Outcome State Fault Refusal :=
  let t := s.takeTurn
  if s.power = .on || t.1.powers then runTurn t.1 t.2 else .fault .unpowered

/-- The state with an instruction stored where the next step fetches (log 21). -/
def State.withFetchWord (s : State) (nbits w : Nat) : State :=
  s.placeCode (bytesOfNat 32 (w % 2 ^ (8 * ((nbits + 7) / 8))))

end Sys2Proof.Machine
end

