-- ==== Sys2Proof/Safety.lean ====
section
/-! DEFINITION. The terms of the statements: that an instruction completes, what it leaves unchanged, and what
counts as a safe run. -/

namespace Sys2Proof.Safety

open Sys2Proof.Machine

/-- An instruction answers a next state, of which something holds. -/
def Completes (i : Instr) (s : State) (P : State → Prop) : Prop := ∃ t, exec i s = .next t ∧ P t

/-! ### Words laid out as the formats of 03 Table 3.3 -/

/-- The REG layout: operation, a zero modifier, rs2, rs1, rd, major (05 R103). -/
def regWord (op : BitVec 6) (b a d : BitVec 5) (major : BitVec 6) : Word :=
  op ++ (0 : BitVec 4) ++ b ++ a ++ d ++ major ++ (0 : BitVec 1)

/-- The IMM format: a 15-bit immediate, rs1, rd, major. -/
def immWord (i : BitVec 15) (a d : BitVec 5) (major : BitVec 6) : Word := i ++ a ++ d ++ major ++ (0 : BitVec 1)

/-- The BRA format: off bits 15:6, rs2, rs1, off bits 5:1, major. -/
def braWord (hi : BitVec 10) (b a lo : BitVec 5) (major : BitVec 6) : Word :=
  hi ++ b ++ a ++ lo ++ major ++ (0 : BitVec 1)

/-- The UPI and JMP formats: a 20-bit field, rd, major. -/
def upiWord (u : BitVec 20) (d : BitVec 5) (major : BitVec 6) : Word := u ++ d ++ major ++ (0 : BitVec 1)

/-- A step that neither faults nor is refused. -/
def Goes (o : Host.Outcome State Fault Refusal) : Prop := ∃ t, o = .next t

/-- The memory keeps its canonical form: places rising, no blank byte listed. -/
def MemoryOk (s : State) : Prop := Memory.wf s.mem = true

/-! ### Frames -/

/-- Every byte of memory reads as before. -/
def SameBytes (s t : State) : Prop := ∀ p, t.byte p = s.byte p

/-- Outside the slots nothing of a core has changed. -/
def SameCore (s t : State) (c : Nat) : Prop := { t.core c with slots := [] } = { s.core c with slots := [] }

/-- Outside the cores nothing has changed: memory, caches, objects, rings, tables, the fabric. -/
def SamePackage (s t : State) : Prop := { t with cores := [] } = { s with cores := [] }

/-- Every slot but the running one is as it was. -/
def OtherSlots (s t : State) : Prop :=
  ∀ c k, (c ≠ s.cur.core ∨ k ≠ s.cur.slot) → t.slotAt c k = s.slotAt c k

/-- Nothing outside the running slot has changed. -/
def OnlyMe (s t : State) : Prop :=
  SamePackage s t ∧ SameBytes s t ∧ (∀ c, SameCore s t c) ∧ OtherSlots s t

/-- The general registers are as they were but for one, which holds a value; g0 reads zero (01 R12). -/
def WritesG (s t : State) (d : BitVec 5) (v : Reg) : Prop :=
  ∀ r, t.g r = if r = d ∧ r ≠ 0 then v else s.g r

/-- The vector registers are as they were but for one, which holds a value. -/
def WritesV (s t : State) (d : BitVec 5) (v : Vec) : Prop := ∀ r, t.v r = if r = d then v else s.v r

/-- The mask registers are as they were but for one, which holds a value; p0 reads all ones (01 R15). -/
def WritesP (s t : State) (d : Nat) (v : Reg) : Prop := ∀ r, t.p r = if r = d ∧ r ≠ 0 then v else s.p r

/-- Of the running slot nothing has changed but general registers and the pc. -/
def SameSlotButG (s t : State) : Prop := { t.me with g := [], pc := 0 } = { s.me with g := [], pc := 0 }

/-- Of the running slot nothing has changed but vector registers and the pc. -/
def SameSlotButV (s t : State) : Prop := { t.me with v := [], pc := 0 } = { s.me with v := [], pc := 0 }

/-- Of the running slot nothing has changed but mask registers and the pc. -/
def SameSlotButP (s t : State) : Prop := { t.me with p := [], pc := 0 } = { s.me with p := [], pc := 0 }

/-- Of the running slot nothing has changed but the pc. -/
def SameSlotButPc (s t : State) : Prop := { t.me with pc := 0 } = { s.me with pc := 0 }

/-- The slot goes on at its next instruction. -/
def Advanced (s t : State) : Prop := t.base = s.after

/-- An instruction's whole effect is a result in a general register: the slot goes on, and nothing else changes. -/
def Gives (s t : State) (d : BitVec 5) (v : Reg) : Prop :=
  WritesG s t d v ∧ Advanced s t ∧ SameSlotButG s t ∧ OnlyMe s t

/-- An instruction's whole effect is to go on at an address. -/
def GoesTo (s t : State) (pc : Reg) : Prop := t.base = pc ∧ SameSlotButPc s t ∧ OnlyMe s t

/-- A result in a general register with sticky flags raised and the rounding source moved on (02 R52, R53). -/
def GivesFp (s t : State) (d : BitVec 5) (v : Reg) (f : Fp) : Prop :=
  WritesG s t d v ∧ Advanced s t
    ∧ t.me.fstat = s.me.fstat ||| f.flags ∧ t.here.lfsr = f.lfsr
    ∧ { t.me with g := [], pc := 0, fstat := 0 } = { s.me with g := [], pc := 0, fstat := 0 }
    ∧ SamePackage s t ∧ SameBytes s t ∧ OtherSlots s t
    ∧ ∀ c, { t.core c with slots := [], lfsr := 0 } = { s.core c with slots := [], lfsr := 0 }

/-- The same for a result in a vector register. -/
def GivesFpV (s t : State) (d : BitVec 5) (v : Vec) (f : Fp) : Prop :=
  WritesV s t d v ∧ Advanced s t
    ∧ t.me.fstat = s.me.fstat ||| f.flags ∧ t.here.lfsr = f.lfsr
    ∧ { t.me with v := [], pc := 0, fstat := 0 } = { s.me with v := [], pc := 0, fstat := 0 }
    ∧ SamePackage s t ∧ SameBytes s t ∧ OtherSlots s t
    ∧ ∀ c, { t.core c with slots := [], lfsr := 0 } = { s.core c with slots := [], lfsr := 0 }

/-- An instruction's whole effect is a result in a vector register. -/
def GivesV (s t : State) (d : BitVec 5) (v : Vec) : Prop :=
  WritesV s t d v ∧ Advanced s t ∧ SameSlotButV s t ∧ OnlyMe s t

/-- An instruction's whole effect is a result in a mask register. -/
def GivesP (s t : State) (d : Nat) (v : Reg) : Prop :=
  WritesP s t d v ∧ Advanced s t ∧ SameSlotButP s t ∧ OnlyMe s t

/-- The running slot is neither parked nor woken: its instruction begins. -/
def Ready (s : State) : Prop := s.me.wait = .none

/-- An instruction's whole effect is on the lanes of a vector register that a mask selects: each has the value
given, and the others keep theirs (01 R15). -/
def GivesLanes (s t : State) (d : BitVec 5) (w : Nat) (sel : Nat → Bool) (f : Nat → Nat) : Prop :=
  (∀ i, i < 512 / w → lane w (t.v d) i = if sel i then f i else lane w (s.v d) i)
    ∧ (∀ r, r ≠ d → t.v r = s.v r) ∧ Advanced s t ∧ SameSlotButV s t ∧ OnlyMe s t

/-! ### Addresses -/

/-- What an address names for the slot that runs is one location (06 Table 6.1, rows 1 to 6). -/
def Names (s : State) (use : Use) (va : Reg) (n al : Nat) (l : Loc) : Prop :=
  s.check (s.who s.cur.core s.cur.slot)
    (if s.cur.slot < 8 then s.slotFind s.cur.core s.cur.slot else s.nowFind s.cur.core s.cur.slot)
    use va n al = some (.ok (.at' l))

/-- The same, for a place of the decoding windows 2 to 5. -/
def Decodes (s : State) (va : Reg) (n al win off : Nat) : Prop :=
  s.check (s.who s.cur.core s.cur.slot)
    (if s.cur.slot < 8 then s.slotFind s.cur.core s.cur.slot else s.nowFind s.cur.core s.cur.slot)
    .load va n al = some (.ok (.decoded win off))

/-- The package once the slot's address is translated (15 R372). -/
abbrev Resolved (s : State) (va : Reg) : State := s.resolved s.cur.core s.cur.slot va.toNat

/-- Nothing at its home holds back an access to a location, and its bytes can be read without an error. -/
def Open (s : State) (l : Loc) (n : Nat) : Prop :=
  s.waits l n = false ∧ s.mute s.cur.core l.place = false ∧ s.readable s.cur.core (.at' l) n = .ok ()
    ∧ s.mustFill s.region.tenant l n = false

/-- The running slot has read no word ahead that a load of it has still to take (06 R124, R129; log 5). -/
abbrev NothingAhead (s : State) : Prop := ∀ e ∈ s.early, ¬(e.core = s.cur.core ∧ e.slot = s.cur.slot)

/-- An address lies in the own larder, below the spill area, with n bytes that are not poisoned, that no counter
covers, that no store of the slot waits for and that it has not read ahead. -/
def InLarder (s : State) (va : Reg) (n : Nat) : Prop :=
  s.cur.core < 4096 ∧ NothingAhead s ∧ windowBase ≤ va.toNat ∧ va.toNat + n ≤ windowBase + 0xF000
    ∧ (∀ i, i < n → s.bad (larderAt s.cur.core (va.toNat - windowBase) + i) = false)
    ∧ s.coversCounter (larderAt s.cur.core (va.toNat - windowBase)) n = false
    ∧ ∀ e ∈ s.here.sb, e.slot = s.cur.slot → e.block < larderAt s.cur.core 0 / 64

/-- The number that n bytes of the own larder hold, lowest first. -/
def larderNat (s : State) (va : Reg) (n : Nat) : Nat :=
  leNat (s.peek (larderAt s.cur.core (va.toNat - windowBase)) n)

/-- A slot other than the running one is as it was, or was woken. -/
def OtherSlotsOrWoken (s t : State) : Prop :=
  ∀ c k, (c ≠ s.cur.core ∨ k ≠ s.cur.slot) →
    t.slotAt c k = s.slotAt c k ∨ ∃ v, t.slotAt c k = { s.slotAt c k with wait := .woken v }

/-- A slot takes a trap (11 R276 to R279): XCAUSE takes HND, PHND, NSRET, the counts and the cause; XVAL, XPC and
XSTAT what Tables 11.1 and 11.3 say; it goes on at the handler's address. -/
def Traps (s t : State) (cause : Cause) (xval xpc : Reg) : Prop :=
  t.me.xcause.getLsbD 63 = true ∧ t.me.xcause.getLsbD 62 = s.me.xcause.getLsbD 63
    ∧ t.me.xcause.getLsbD 61 = decide (cause = 0x11)
    ∧ t.me.xcause.extractLsb' 0 8 = cause ∧ t.me.xcause.extractLsb' 8 8 = 0
    ∧ t.me.xcause.extractLsb' 48 5 = BitVec.ofNat 5 (pending s.here.mixq s.cur.slot s.uid)
    ∧ t.me.xcause.extractLsb' 40 5 = BitVec.ofNat 5 (pending s.here.dataq s.cur.slot s.uid)
    ∧ t.me.xval = xval ∧ t.me.xpc = xpc &&& 0x000FFFFFFFFFFFFE#64
    ∧ t.me.xstat = s.me.mqseq ++ s.here.mrseq ++ s.me.dqseq ++ s.here.drseq
    ∧ t.base = (if cause = 0x11 then s.here.smcbase else s.here.xbase)
    ∧ (∀ r, t.g r = s.g r) ∧ (∀ r, t.v r = s.v r) ∧ (∀ r, t.p r = s.p r)
    ∧ t.me.fstat = s.me.fstat ∧ t.me.budget = s.me.budget ∧ t.me.mb = s.me.mb ∧ t.me.mt = s.me.mt
    ∧ t.me.task = s.me.task

/-- A trap can be taken that is no trap in the fetch of a handler's first instruction, as far as that fetch has come
(11 R280). -/
def TrapReady (s : State) (cause : Cause) (xval xpc : Reg) : Prop :=
  s.cur.slot < 8 ∧
    (((s.noteFault s.cur.core s.cur.slot cause xval).abandon s.cur.core s.cur.slot).setMe
      (trapSlot s.me s.here s.cur.slot cause xval xpc)).handlerFaults s.cur.core s.cur.slot cause ≠ some true

/-- Every slot but the running one is as it was, but those that wait for something, which are woken with a status. -/
def Wakes (s t : State) (w : Wait) (v : Reg) : Prop :=
  ∀ c k, (c ≠ s.cur.core ∨ k ≠ s.cur.slot) → t.slotAt c k =
    if (s.slotAt c k).wait = w then { s.slotAt c k with wait := .woken v } else s.slotAt c k

/-- The running slot parks at its instruction, which it keeps, and nothing else changes. -/
def Parks (s t : State) (w : Wait) : Prop :=
  t.me.wait = w ∧ t.base = s.base ∧ t.me.latched.isSome = true
    ∧ { t.me with wait := .none, parkedAt := 0, latched := none } = { s.me with wait := .none, parkedAt := 0, latched := none }
    ∧ SameBytes s t ∧ OtherSlots s t

/-- What is read ahead after an acquire of the running slot: nothing of its own, and at cluster scope or wider nothing
that a slot of its core took from an L1 line that the acquire drops (06 R137). -/
def Reread (s t : State) (wide : Bool) : Prop :=
  t.early = s.early.filter (fun e => e.core ≠ s.cur.core
    || (e.slot ≠ s.cur.slot && !(wide && e.l1 && !(e.ro && storeOf e.place ≠ .attic))))

/-- The L1 after an acquire at cluster scope or wider: only lines of read-only pages stay, and the slot reads afresh
(06 R137). -/
def Acquired (s t : State) : Prop :=
  t.here.l1 = s.here.l1.filter (fun x => x.ro && storeOf (x.line * 128) ≠ .attic) ∧ Reread s t true

/-- What is left of the package when the named parts are blanked is as it was. -/
def SameBut (blank : State → State) (s t : State) : Prop := blank t = blank s

/-- Outside the slots, nothing of any core has changed. -/
def SameCores (s t : State) : Prop := ∀ c, SameCore s t c

/-- The command m of an operation stands at the head of an engine's queue, its rings hold what it needs, its common
checks pass, and no claim holds it back (08 R193, R198; 12 R307). -/
def AtHead (s : State) (c : Nat) (data : Bool) (op : Nat) (m : Cmd) : Prop :=
  (∃ rest, (s.core c).queue data = m :: rest) ∧ m.op = op
    ∧ m.progress.ended = false ∧ s.ringsWrong c m = false ∧ s.ringsReady c m = true ∧ s.commonReason c m = none
    ∧ ∀ q ∈ s.claims, q.core = c → q.data = data → q.seq = m.seq → q.recorded = true

/-- The accesses that a command makes next may be made: nothing holds them back at their homes, and the lines that they
read are there (06 R128; 12 R307, R308). -/
def Gated (s : State) (c : Nat) (data : Bool) (m : Cmd) (xs : List (Use × Reg × Nat)) (ls : List Loc) : Prop :=
  s.walkGate (s.whoCmd c m) m.runs = .go [] ∧ s.engGate c data m (some xs) = .go ls

/-- An engine has carried out a piece of the command at its head, with what its work left (08 R197, R198). -/
def Carries (s : State) (i : Instr) (c : Nat) (data : Bool) (m : Cmd) (w : Work) : Prop :=
  exec i s = .next (w.s.carry c data m w)

/-- The 64 bytes of a record in the own larder, and whether the record is one that a task of the running region may
name (09 R233). -/
def recordAt (s : State) (va : Reg) : Record := recordOf (s.peek (larderAt s.cur.core (va.toNat - windowBase)) 64)
def RecordOk (s : State) (va : Reg) (x : Task) : Prop :=
  InLarder s va 64 ∧ va.toNat % 64 = 0 ∧ s.me.task = some x ∧ (recordAt s va).clean = true
    ∧ s.below x.root x.rid (recordAt s va).rid = true

/-- Every slot that waits for something is woken with a status, and the others are as they were. -/
def AllWake (s t : State) (w : Wait) (v : Reg) : Prop :=
  ∀ c k, t.slotAt c k = if (s.slotAt c k).wait = w then { s.slotAt c k with wait := .woken v } else s.slotAt c k

/-- A completion stands in its place of a function's completion ring, with the phase of its pass, and is counted
(14 Table 14.5). -/
def Completed (s t : State) (vf : BitVec 9) (tag : Word) (status kind root : Nat) : Prop :=
  let n := s.ngamon vf
  let size := n.lcqsz.toNat + 1
  let phase := if n.done / size % 2 = 0 then 1 else 0
  leNat (t.peek (hostAt n.lcqbase + 16 * (n.done % size)) 16)
      = tag.toNat + status % 2 ^ 16 * 2 ^ 32 + kind % 256 * 2 ^ 48 + phase * 2 ^ 56 + root % 2 ^ 32 * 2 ^ 64
    ∧ (t.ngamon vf).done = n.done + 1

/-- The next entry of a function's submission ring names an operation, and a version that the function selects
(14 Table 14.4). -/
def Submits (s : State) (vf : BitVec 9) (op : Nat) (e : Submission) : Prop :=
  s.booted = true ∧ s.submission vf = some e ∧ e.op = op ∧ e.ver ≤ (s.ngamon vf).sel.toNat

/-- The device has taken the entry: HEAD has moved on. -/
def Taken (s t : State) (vf : BitVec 9) : Prop :=
  (t.ngamon vf).head = BitVec.ofNat 16 (((s.ngamon vf).head.toNat + 1) % ((s.ngamon vf).lsqsz.toNat + 1))

/-- Of the optical ports only one has changed. -/
def OtherPorts (s t : State) (k : Nat) : Prop := ∀ j, j ≠ k → t.port j = s.port j

/-- A link entry is in use, by this package as master or as a member, for an object whose region is here. -/
def Linked (s : State) (e : Nat) (master : Bool) : Prop :=
  (s.link e).valid = true ∧ decide ((s.link e).master = s.package.toNat) = master ∧ (s.link e).saved = none

end Sys2Proof.Safety
end

