-- ==== Sys2Proof/Certificates/Slice0/Obligations.lean ====
section
/-! DEFINITION. The statements for the provers. -/

section Statements

open Sys2Proof Sys2Proof.Machine Sys2Proof.Safety

/-! ### Scalar integer instructions (file 05) -/

/-- R103, Table 5.2. Every two-operand integer operation, for every state and every register, g0 included: the
register that Table 5.2 gives, and nothing else, changes. R104. Products, quotients and remainders, with a divisor
of 0 and the one signed overflow. Each is the word of its major and op; the other ops of the two majors are no
instruction, but for the hint space, and a word that is none takes an illegal-instruction trap. -/
def Obligations.IntegerArithmetic : Prop :=
  (
    ∀ (s : State) (d a b : BitVec 5),
      Completes (.add d a b) s (fun t => Gives s t d (s.g a + s.g b))
      ∧ Completes (.sub d a b) s (fun t => Gives s t d (s.g a - s.g b))
      ∧ Completes (.and d a b) s (fun t => Gives s t d (s.g a &&& s.g b))
      ∧ Completes (.or d a b) s (fun t => Gives s t d (s.g a ||| s.g b))
      ∧ Completes (.xor d a b) s (fun t => Gives s t d (s.g a ^^^ s.g b))
      ∧ Completes (.shl d a b) s (fun t => Gives s t d (s.g a <<< ((s.g b).extractLsb' 0 6).toNat))
      ∧ Completes (.shr d a b) s (fun t => Gives s t d (s.g a >>> ((s.g b).extractLsb' 0 6).toNat))
      ∧ Completes (.sha d a b) s (fun t => Gives s t d ((s.g a).sshiftRight ((s.g b).extractLsb' 0 6).toNat))
      ∧ Completes (.min d a b) s (fun t => Gives s t d (if (s.g a).toInt ≤ (s.g b).toInt then s.g a else s.g b))
      ∧ Completes (.max d a b) s (fun t => Gives s t d (if (s.g a).toInt ≤ (s.g b).toInt then s.g b else s.g a))
      ∧ Completes (.minu d a b) s (fun t => Gives s t d (if (s.g a).toNat ≤ (s.g b).toNat then s.g a else s.g b))
      ∧ Completes (.maxu d a b) s (fun t => Gives s t d (if (s.g a).toNat ≤ (s.g b).toNat then s.g b else s.g a))
      ∧ Completes (.slt d a b) s (fun t => Gives s t d (if (s.g a).toInt < (s.g b).toInt then 1 else 0))
      ∧ Completes (.sltu d a b) s (fun t => Gives s t d (if (s.g a).toNat < (s.g b).toNat then 1 else 0))
      ∧ Completes (.sel d a b) s (fun t => Gives s t d (if s.g d ≠ 0 then s.g a else s.g b)))
  ∧ (
    ∀ (s : State) (d a b : BitVec 5),
      let x := s.g a
      let y := s.g b
      let ovf := x = 0x8000000000000000#64 ∧ y = 0xFFFFFFFFFFFFFFFF#64
      Completes (.mul d a b) s (fun t => Gives s t d (x * y))
      ∧ Completes (.mulh d a b) s (fun t => Gives s t d ((x.signExtend 128 * y.signExtend 128).extractLsb' 64 64))
      ∧ Completes (.mulhu d a b) s (fun t => Gives s t d ((x.setWidth 128 * y.setWidth 128).extractLsb' 64 64))
      ∧ Completes (.div d a b) s (fun t => Gives s t d
          (if y = 0 then 0xFFFFFFFFFFFFFFFF#64 else if ovf then x else BitVec.ofInt 64 (x.toInt.tdiv y.toInt)))
      ∧ Completes (.divu d a b) s (fun t => Gives s t d (if y = 0 then 0xFFFFFFFFFFFFFFFF#64 else x / y))
      ∧ Completes (.rem d a b) s (fun t => Gives s t d
          (if y = 0 then x else if ovf then 0 else x - y * BitVec.ofInt 64 (x.toInt.tdiv y.toInt)))
      ∧ Completes (.remu d a b) s (fun t => Gives s t d (if y = 0 then x else x - y * (x / y))))
  ∧ (
    ∀ (d a b : BitVec 5) (h : BitVec 6),
      decodeWord (regWord 0 b a d 1) = .ok (.add d a b)
      ∧ decodeWord (regWord 1 b a d 1) = .ok (.sub d a b)
      ∧ decodeWord (regWord 2 b a d 1) = .ok (.and d a b)
      ∧ decodeWord (regWord 3 b a d 1) = .ok (.or d a b)
      ∧ decodeWord (regWord 4 b a d 1) = .ok (.xor d a b)
      ∧ decodeWord (regWord 5 b a d 1) = .ok (.shl d a b)
      ∧ decodeWord (regWord 6 b a d 1) = .ok (.shr d a b)
      ∧ decodeWord (regWord 7 b a d 1) = .ok (.sha d a b)
      ∧ decodeWord (regWord 8 b a d 1) = .ok (.min d a b)
      ∧ decodeWord (regWord 9 b a d 1) = .ok (.max d a b)
      ∧ decodeWord (regWord 10 b a d 1) = .ok (.minu d a b)
      ∧ decodeWord (regWord 11 b a d 1) = .ok (.maxu d a b)
      ∧ decodeWord (regWord 12 b a d 1) = .ok (.slt d a b)
      ∧ decodeWord (regWord 13 b a d 1) = .ok (.sltu d a b)
      ∧ decodeWord (regWord 14 b a d 1) = .ok (.sel d a b)
      ∧ decodeWord (regWord 0 b a d 2) = .ok (.mul d a b)
      ∧ decodeWord (regWord 1 b a d 2) = .ok (.mulh d a b)
      ∧ decodeWord (regWord 2 b a d 2) = .ok (.mulhu d a b)
      ∧ decodeWord (regWord 3 b a d 2) = .ok (.div d a b)
      ∧ decodeWord (regWord 4 b a d 2) = .ok (.divu d a b)
      ∧ decodeWord (regWord 5 b a d 2) = .ok (.rem d a b)
      ∧ decodeWord (regWord 6 b a d 2) = .ok (.remu d a b)
      ∧ decodeWord ((0xF : BitVec 4) ++ h ++ b ++ a ++ d ++ (1 : BitVec 6) ++ (0 : BitVec 1)) = .ok (.hint d a b h)
      ∧ (∀ n, n < 45 → ∃ e, decodeWord (regWord (BitVec.ofNat 6 (15 + n)) b a d 1) = .error e)
      ∧ ∀ n, n < 57 → ∃ e, decodeWord (regWord (BitVec.ofNat 6 (7 + n)) b a d 2) = .error e)
  ∧ (
    ∀ (s : State) (word : BitVec 32), Ready s → TrapReady s 0x01 (word.setWidth 64) s.base →
      Completes (.illegalInstruction word 0) s (fun t => Traps s t 0x01 (word.setWidth 64) s.base))

/-- R105, R106. Counts of bits, said by which bits are set, bits reversed, and bit fields. A field that runs past
bit 63 is an illegal instruction. R107 to R111. Operations with an immediate, addresses and constants formed in
registers, with the words of R107 and R109 to R111, and the hint words of R79, which do nothing. -/
def Obligations.BitAndImmediateOps : Prop :=
  (
    ∀ (s : State) (d a : BitVec 5) (p l : BitVec 6),
      (∃ n : Nat, Completes (.clz d a) s (fun t => Gives s t d (BitVec.ofNat 64 n)) ∧ n ≤ 64
        ∧ (∀ i, i < n → (s.g a).getLsbD (63 - i) = false) ∧ (n < 64 → (s.g a).getLsbD (63 - n) = true))
      ∧ (∃ n : Nat, Completes (.ctz d a) s (fun t => Gives s t d (BitVec.ofNat 64 n)) ∧ n ≤ 64
        ∧ (∀ i, i < n → (s.g a).getLsbD i = false) ∧ (n < 64 → (s.g a).getLsbD n = true))
      ∧ Completes (.popc d a) s (fun t => Gives s t d
          (BitVec.ofNat 64 ((List.range 64).filter (fun i => (s.g a).getLsbD i)).length))
      ∧ (∃ v : Reg, Completes (.brev d a) s (fun t => Gives s t d v)
        ∧ ∀ i, i < 64 → v.getLsbD i = (s.g a).getLsbD (63 - i))
      ∧ (p.toNat + (l.toNat + 1) ≤ 64 →
        Completes (.bfx d a p l) s (fun t => Gives s t d (((s.g a).extractLsb' p.toNat (l.toNat + 1)).setWidth 64))
        ∧ Completes (.bfxs d a p l) s (fun t => Gives s t d
            (((s.g a).extractLsb' p.toNat (l.toNat + 1)).signExtend 64))
        ∧ ∃ v : Reg, Completes (.bfi d a p l) s (fun t => Gives s t d v)
          ∧ ∀ i, i < 64 → v.getLsbD i =
              if p.toNat ≤ i ∧ i < p.toNat + (l.toNat + 1) then (s.g a).getLsbD (i - p.toNat) else (s.g d).getLsbD i)
      ∧ (64 < p.toNat + (l.toNat + 1) → Ready s → ∀ i ∈ ([.bfx d a p l, .bfxs d a p l, .bfi d a p l] : List Instr),
        let x := illegalXval s.cur.code (wordOfInstr i) 0
        TrapReady s 0x01 x s.base → Completes i s (fun t => Traps s t 0x01 x s.base ∧ SameBytes s t ∧ OtherSlots s t)))
  ∧ (
    ∀ (s : State) (d a b : BitVec 5) (i : BitVec 15) (n h : BitVec 6) (k : BitVec 2) (e : BitVec 8) (u : BitVec 20),
      let x := s.g a
      let y : Reg := i.signExtend 64
      Completes (.addi d a i) s (fun t => Gives s t d (x + y))
      ∧ Completes (.andi d a i) s (fun t => Gives s t d (x &&& y))
      ∧ Completes (.ori d a i) s (fun t => Gives s t d (x ||| y))
      ∧ Completes (.xori d a i) s (fun t => Gives s t d (x ^^^ y))
      ∧ Completes (.slti d a i) s (fun t => Gives s t d (if x.toInt < y.toInt then 1 else 0))
      ∧ Completes (.sltui d a i) s (fun t => Gives s t d (if x.toNat < y.toNat then 1 else 0))
      ∧ Completes (.shli d a n) s (fun t => Gives s t d (x <<< n.toNat))
      ∧ Completes (.shri d a n) s (fun t => Gives s t d (x >>> n.toNat))
      ∧ Completes (.shai d a n) s (fun t => Gives s t d (x.sshiftRight n.toNat))
      ∧ Completes (.lea d a b k e) s (fun t => Gives s t d (x + (s.g b <<< k.toNat) + e.signExtend 64))
      ∧ Completes (.lui d u) s (fun t => Gives s t d (((u.setWidth 32 <<< 12) : BitVec 32).signExtend 64))
      ∧ Completes (.addpc d u) s (fun t => Gives s t d (s.base + ((u.setWidth 32 <<< 12) : BitVec 32).signExtend 64))
      ∧ Completes (.hint d a b h) s (fun t => GoesTo s t s.after))
  ∧ (
    ∀ (d a b : BitVec 5) (i : BitVec 15) (k : BitVec 2) (e : BitVec 8) (u : BitVec 20),
      decodeWord (immWord i a d 5) = .ok (.addi d a i)
      ∧ decodeWord (immWord i a d 6) = .ok (.andi d a i)
      ∧ decodeWord (immWord i a d 7) = .ok (.ori d a i)
      ∧ decodeWord (immWord i a d 8) = .ok (.xori d a i)
      ∧ decodeWord (immWord i a d 9) = .ok (.slti d a i)
      ∧ decodeWord (immWord i a d 10) = .ok (.sltui d a i)
      ∧ decodeWord (e ++ k ++ b ++ a ++ d ++ (0x0C : BitVec 6) ++ (0 : BitVec 1)) = .ok (.lea d a b k e)
      ∧ decodeWord (upiWord u d 0x0D) = .ok (.lui d u)
      ∧ decodeWord (upiWord u d 0x0E) = .ok (.addpc d u))

/-! ### Control transfer (file 05) -/

/-- R117. A branch goes to base + sext(off, 16) where its condition holds, and to the next instruction where it does
not; it writes no register. The offset is even, its bits 5:1 in one field and 15:6 in the other. R118, R119. LOOP
writes the count less one and branches while that is not zero; of g0 it always branches. JAL and JALR write the
address after them and go to their target, JALR reading its register first and clearing bit 0. Their words. -/
def Obligations.ControlTransfer : Prop :=
  (
    ∀ (s : State) (p a b : BitVec 5) (o : BitVec 10),
      let x := s.g a
      let y := s.g b
      let there := s.base + ((o ++ p ++ (0 : BitVec 1)) : BitVec 16).signExtend 64
      Completes (.beq p a b o) s (fun t => GoesTo s t (if x = y then there else s.after))
      ∧ Completes (.bne p a b o) s (fun t => GoesTo s t (if x ≠ y then there else s.after))
      ∧ Completes (.blt p a b o) s (fun t => GoesTo s t (if x.toInt < y.toInt then there else s.after))
      ∧ Completes (.bge p a b o) s (fun t => GoesTo s t (if y.toInt ≤ x.toInt then there else s.after))
      ∧ Completes (.bltu p a b o) s (fun t => GoesTo s t (if x.toNat < y.toNat then there else s.after))
      ∧ Completes (.bgeu p a b o) s (fun t => GoesTo s t (if y.toNat ≤ x.toNat then there else s.after)))
  ∧ (
    ∀ (s : State) (p d a : BitVec 5) (o : BitVec 10) (j : BitVec 20) (i : BitVec 15),
      Completes (.loop p a o) s (fun t =>
        WritesG s t a (s.g a - 1) ∧ SameSlotButG s t ∧ OnlyMe s t
        ∧ t.base = if s.g a ≠ 1 then s.base + ((o ++ p ++ (0 : BitVec 1)) : BitVec 16).signExtend 64 else s.after)
      ∧ Completes (.jal d j) s (fun t =>
        WritesG s t d s.after ∧ SameSlotButG s t ∧ OnlyMe s t
        ∧ t.base = s.base + ((j ++ (0 : BitVec 1)) : BitVec 21).signExtend 64)
      ∧ Completes (.jalr d a i) s (fun t =>
        WritesG s t d s.after ∧ SameSlotButG s t ∧ OnlyMe s t
        ∧ t.base = (s.g a + i.signExtend 64) &&& ~~~1#64))
  ∧ (
    ∀ (p d a b : BitVec 5) (o : BitVec 10) (j : BitVec 20) (i : BitVec 15),
      decodeWord (braWord o b a p 0x11) = .ok (.beq p a b o)
      ∧ decodeWord (braWord o b a p 0x12) = .ok (.bne p a b o)
      ∧ decodeWord (braWord o b a p 0x13) = .ok (.blt p a b o)
      ∧ decodeWord (braWord o b a p 0x14) = .ok (.bge p a b o)
      ∧ decodeWord (braWord o b a p 0x15) = .ok (.bltu p a b o)
      ∧ decodeWord (braWord o b a p 0x16) = .ok (.bgeu p a b o)
      ∧ decodeWord (upiWord j d 0x17) = .ok (.jal d j)
      ∧ decodeWord (immWord i a d 0x18) = .ok (.jalr d a i)
      ∧ decodeWord (braWord o 0 a p 0x19) = .ok (.loop p a o))

/-! ### Scalar floating point (file 05) -/

/-- R112 to R115. A scalar floating-point operation writes the rounded result of its type, ors the flags it raises
into FSTAT, and moves the core's LFSR on where it rounds stochastically. R114, R116. FCMP writes 1 or 0, raising NV
only; FCVT writes the converted value, sign-extended for a signed integer type and zero-extended for any other. The
model's readings or choices that it rests on: log 85. -/
def Obligations.ScalarFloat : Prop :=
  (
    ∀ (s : State) (d a b : BitVec 5) (f : BitVec 1) (m : BitVec 3), m ≤ 5 →
      let ty : BitVec 5 := if f = 0 then 10 else 11
      let arg (r : BitVec 5) : Nat := (s.g r).toNat % 2 ^ typeWidth ty
      let fp : Fp := { flags := 0, lfsr := s.here.lfsr }
      let gives (t : State) (r : Nat × Fp) : Prop := GivesFp s t d (BitVec.ofNat 64 r.1) r.2
      Completes (.fadd d a b f m) s (fun t => gives t (fadd ty m (arg a) (arg b) fp))
      ∧ Completes (.fsub d a b f m) s (fun t => gives t (fsub ty m (arg a) (arg b) fp))
      ∧ Completes (.fmul d a b f m) s (fun t => gives t (fmul ty m (arg a) (arg b) fp))
      ∧ Completes (.ffma d a b f m) s (fun t => gives t (ffma ty m false (arg a) (arg b) (arg d) fp))
      ∧ Completes (.fdiv d a b f m) s (fun t => gives t (fdiv ty m (arg a) (arg b) fp))
      ∧ Completes (.fsqrt d a f m) s (fun t => gives t (fsqrt ty m (arg a) fp))
      ∧ Completes (.fmin d a b f) s (fun t => gives t (fminmax ty false (arg a) (arg b) fp))
      ∧ Completes (.fmax d a b f) s (fun t => gives t (fminmax ty true (arg a) (arg b) fp)))
  ∧ (
    ∀ (s : State) (d a b : BitVec 5) (f : BitVec 1) (c : BitVec 3) (src dst : BitVec 5) (m : BitVec 3),
      let ty : BitVec 5 := if f = 0 then 10 else 11
      let x := val ty ((s.g a).toNat % 2 ^ typeWidth ty)
      let y := val ty ((s.g b).toNat % 2 ^ typeWidth ty)
      let cond := if c = 0 then 0 else if c = 1 then 2 else if c = 2 then 3 else 6
      let fp : Fp := { flags := 0, lfsr := s.here.lfsr }
      (c < 4 → Completes (.fcmp d a b f c) s (fun t => GivesFp s t d (if (fcond cond x y).1 then 1 else 0)
        { fp with flags := if (fcond cond x y).2 then flagNV else 0 }))
      ∧ (legal (.fcvt d a dst m src) = true →
        let r := cvtElem src dst m ((s.g a).toNat % 2 ^ typeWidth src) fp
        Completes (.fcvt d a dst m src) s (fun t => GivesFp s t d
          (if isInt dst && isSigned dst then (BitVec.ofNat (typeWidth dst) r.1).signExtend 64
           else BitVec.ofNat 64 (r.1 % 2 ^ typeWidth dst)) r.2)))

/-! ### Vector registers (file 07) -/

/-- R165, R173 to R175, R39. On integer types a lane operation gives each selected lane the exact result of its
lanes, wrapped, or saturated under .sat; lanes that the mask leaves out keep their value, and no flag is raised.
R175. The two-operand lane operations without a rounding field, on integer types: minimum and maximum by the
signedness of the type, bit by bit operations, and shifts by the low bits of the second lane. R175. VAND, VOR and
VXOR work bit by bit on the lanes of any type. -/
def Obligations.VectorIntegerOps : Prop :=
  (
    ∀ (s : State) (d a b : BitVec 5) (p : BitVec 2) (ty : BitVec 5) (m : BitVec 3), ty ≤ 7 → m ≤ 1 →
      let w := typeWidth ty
      let x (i : Nat) : Int := laneInt ty (lane w (s.v a) i)
      let y (i : Nat) : Int := laneInt ty (lane w (s.v b) i)
      let z (i : Nat) : Int := laneInt ty (lane w (s.v d) i)
      let fit (v : Int) : Nat := if m = 0 then (v % 2 ^ w).toNat
        else ((max (if isSigned ty then -2 ^ (w - 1) else 0)
          (min (if isSigned ty then 2 ^ (w - 1) - 1 else 2 ^ w - 1) v)) % 2 ^ w).toNat
      let gives (f : Nat → Nat) (t : State) : Prop := GivesLanes s t d w (s.p p.toNat).getLsbD f
      Completes (.vadd d a b p ty m) s (gives (fun i => fit (x i + y i)))
      ∧ Completes (.vsub d a b p ty m) s (gives (fun i => fit (x i - y i)))
      ∧ Completes (.vmul d a b p ty m) s (gives (fun i => fit (x i * y i)))
      ∧ Completes (.vfma d a b p ty m) s (gives (fun i => fit (x i * y i + z i)))
      ∧ Completes (.vfms d a b p ty m) s (gives (fun i => fit (x i * y i - z i)))
      ∧ (isSigned ty → Completes (.vabs d a p ty m) s (gives (fun i => fit (x i).natAbs)))
      ∧ (isSigned ty → Completes (.vneg d a p ty m) s (gives (fun i => fit (-x i)))))
  ∧ (
    ∀ (s : State) (d a b : BitVec 5) (p : BitVec 3) (ty : BitVec 5), ty ≤ 7 →
      let w := typeWidth ty
      let x (i : Nat) : Nat := lane w (s.v a) i
      let y (i : Nat) : Nat := lane w (s.v b) i
      let gives (f : Nat → Nat) (t : State) : Prop := GivesLanes s t d w (s.p p.toNat).getLsbD f
      Completes (.vmin d a b p ty) s (gives (fun i => if laneInt ty (x i) ≤ laneInt ty (y i) then x i else y i))
      ∧ Completes (.vmax d a b p ty) s (gives (fun i => if laneInt ty (x i) ≤ laneInt ty (y i) then y i else x i))
      ∧ Completes (.vshl d a b p ty) s (gives (fun i => x i * 2 ^ (y i % w) % 2 ^ w))
      ∧ Completes (.vshr d a b p ty) s (gives (fun i => x i / 2 ^ (y i % w)))
      ∧ Completes (.vsha d a b p ty) s (gives (fun i => ((intOf true w (x i) / 2 ^ (y i % w)) % 2 ^ w).toNat)))
  ∧ (
    ∀ (s : State) (d a b : BitVec 5) (p : BitVec 3) (ty : BitVec 5), ty ≤ 13 →
      let w := typeWidth ty
      let gives (f : Nat → Nat) (t : State) : Prop := GivesLanes s t d w (s.p p.toNat).getLsbD f
      Completes (.vand d a b p ty) s (gives (fun i => lane w (s.v a) i &&& lane w (s.v b) i))
      ∧ Completes (.vor d a b p ty) s (gives (fun i => lane w (s.v a) i ||| lane w (s.v b) i))
      ∧ Completes (.vxor d a b p ty) s (gives (fun i => lane w (s.v a) i ^^^ lane w (s.v b) i)))

/-- R165, R173 to R175. On floating types every selected lane, in ascending order, is the rounded result of its
lanes; the flags of all of them are ored into FSTAT, and the LFSR moves on from lane to lane. The model's readings
or choices that it rests on: log 12. -/
def Obligations.VectorFloatLanes : Prop :=
  ∀ (s : State) (d a b : BitVec 5) (p : BitVec 2) (q : BitVec 3) (ty : BitVec 5) (m : BitVec 3), 8 ≤ ty → ty ≤ 11 →
    m ≤ 5 →
    let w := typeWidth ty
    let fp : Fp := { flags := 0, lfsr := s.here.lfsr }
    let each (f : Nat → Nat → Nat → Fp → Nat × Fp) (mask : Reg) : Vec × Fp :=
      overLanes w mask (s.v d) (fun i => f (lane w (s.v a) i) (lane w (s.v b) i) (lane w (s.v d) i)) fp
    let gives (f : Nat → Nat → Nat → Fp → Nat × Fp) (t : State) : Prop :=
      GivesFpV s t d (each f (s.p p.toNat)).1 (each f (s.p p.toNat)).2
    let givesQ (f : Nat → Nat → Nat → Fp → Nat × Fp) (t : State) : Prop :=
      GivesFpV s t d (each f (s.p q.toNat)).1 (each f (s.p q.toNat)).2
    Completes (.vadd d a b p ty m) s (gives (fun x y _ => fadd ty m x y))
    ∧ Completes (.vsub d a b p ty m) s (gives (fun x y _ => fsub ty m x y))
    ∧ Completes (.vmul d a b p ty m) s (gives (fun x y _ => fmul ty m x y))
    ∧ Completes (.vfma d a b p ty m) s (gives (fun x y z => ffma ty m false x y z))
    ∧ Completes (.vfms d a b p ty m) s (gives (fun x y z => ffma ty m true x y z))
    ∧ (ty ≤ 10 → Completes (.vrcp d a p ty m) s (gives (fun x _ _ => funary 0 ty m x)))
    ∧ (ty ≤ 10 → Completes (.vrsq d a p ty m) s (gives (fun x _ _ => funary 1 ty m x)))
    ∧ (ty ≤ 10 → Completes (.vexp2 d a p ty m) s (gives (fun x _ _ => funary 2 ty m x)))
    ∧ (ty ≤ 10 → Completes (.vlog2 d a p ty m) s (gives (fun x _ _ => funary 3 ty m x)))
    ∧ Completes (.vabs d a p ty 0) s (fun t =>
        GivesLanes s t d w (s.p p.toNat).getLsbD (fun i => lane w (s.v a) i % 2 ^ (w - 1)))
    ∧ Completes (.vneg d a p ty 0) s (fun t =>
        GivesLanes s t d w (s.p p.toNat).getLsbD (fun i => lane w (s.v a) i ^^^ 2 ^ (w - 1)))
    ∧ Completes (.vmin d a b q ty) s (givesQ (fun x y _ => fminmax ty false x y))
    ∧ Completes (.vmax d a b q ty) s (givesQ (fun x y _ => fminmax ty true x y))

/-- R177, R178, R180, R181. Lanes moved: VSEL takes each lane by the mask, VPERM by an index, VPACK and VUNPK by
halves, VBCAST and VMOVG to and from a general register, VLUT through the core's table, which VLUTSET writes. R176.
VCMP writes the mask bits of the selected lanes by its condition, keeps the others, and clears the bits above the
lanes; on floating types NaN operands raise NV as Table 3.6 says. R179, R54. VCVT converts the selected elements in
ascending order, and a NaN of E4M3 or E5M2 becomes the canonical one (R47); where the result is narrower than its
source, the bits above its elements are cleared. R184, R15. The mask instructions work on all 64 bits; a result for
p0 is discarded. The model's readings or choices that it rests on: log 10, 85. -/
def Obligations.VectorMovesAndMasks : Prop :=
  (
    ∀ (s : State) (d a b h : BitVec 5) (p : BitVec 3) (ty : BitVec 5),
      let w := typeWidth ty
      (ty ≤ 13 →
        Completes (.vsel d a b p ty) s (fun t => GivesLanes s t d w (fun _ => true)
          (fun i => if (s.p p.toNat).getLsbD i then lane w (s.v a) i else lane w (s.v b) i))
        ∧ Completes (.vperm d a b p ty) s (fun t => GivesLanes s t d w (s.p p.toNat).getLsbD
          (fun i => lane w (s.v a) (lane w (s.v b) i % (512 / w))))
        ∧ Completes (.vbcast d a p ty) s (fun t => GivesLanes s t d w (s.p p.toNat).getLsbD (fun _ => (s.g a).toNat % 2 ^ w))
        ∧ Completes (.vmovg d a b ty) s (fun t => Gives s t d
          (if 512 / w ≤ (s.g b).toNat then 0
           else if isInt ty && isSigned ty then BitVec.ofInt 64 (intOf true w (lane w (s.v a) (s.g b).toNat))
           else BitVec.ofNat 64 (lane w (s.v a) (s.g b).toNat))))
      ∧ (ty ≤ 5 ∨ ty = 16 ∨ ty = 17 →
        Completes (.vpack d a b ty) s (fun t => GivesLanes s t d w (fun _ => true)
          (fun i => if i < 256 / w then lane (2 * w) (s.v a) i % 2 ^ w else lane (2 * w) (s.v b) (i - 256 / w) % 2 ^ w))
        ∧ (h ≤ 1 → Completes (.vunpk d a h ty) s (fun t => GivesLanes s t d (2 * w) (fun _ => true)
          (fun i => (intOf (isSigned ty) w (lane w (s.v a) (h.toNat * (256 / w) + i)) % 2 ^ (2 * w)).toNat))))
      ∧ (h ≤ 1 → Completes (.vlut d a h) s (fun t => GivesLanes s t d 8 (fun _ => true)
          (fun i => (s.here.lut.extractLsb' (8 * lane 4 (s.v a) (64 * h.toNat + i)) 8).toNat)))
      ∧ Completes (.vlutset a) s (fun t => t.here.lut = (s.v a).setWidth 128 ∧ Advanced s t ∧ SameSlotButPc s t
          ∧ SamePackage s t ∧ SameBytes s t ∧ OtherSlots s t
          ∧ ∀ c, { t.core c with slots := [], lut := 0 } = { s.core c with slots := [], lut := 0 }))
  ∧ (
    ∀ (s : State) (q : BitVec 3) (e c : BitVec 2) (a b : BitVec 5) (p : BitVec 3) (ty : BitVec 5),
      okVcmp ty c e = true →
      let w := typeWidth ty
      let h (i : Nat) : Bool × Bool :=
        fcond (c.toNat * 4 + e.toNat) (val ty (lane w (s.v a) i)) (val ty (lane w (s.v b) i))
      let sel (i : Nat) : Bool := (s.p p.toNat).getLsbD i
      Completes (.vcmp q e a b p ty c) s (fun t =>
        (q ≠ 0 → ∀ i, i < 64 → (t.p q.toNat).getLsbD i =
          (decide (i < 512 / w) && if sel i then (h i).1 else (s.p q.toNat).getLsbD i))
        ∧ (∀ r, r ≠ q.toNat → t.p r = s.p r)
        ∧ t.me.fstat = s.me.fstat ||| (if (List.range (512 / w)).any (fun i => sel i && (h i).2) then flagNV else 0)
        ∧ { t.me with p := [], pc := 0, fstat := 0 } = { s.me with p := [], pc := 0, fstat := 0 }
        ∧ Advanced s t ∧ OnlyMe s t))
  ∧ (
    ∀ (s : State) (d a ty : BitVec 5) (p : BitVec 2) (src : BitVec 5) (m : BitVec 3),
      legal (.vcvt d a ty p src m) = true →
      let ws := typeWidth src
      let wd := typeWidth ty
      let r := eachLane (fun i fp =>
        if (s.p p.toNat).getLsbD i then cvtElem src ty m (lane ws (s.v a) i) fp else (lane wd (s.v d) i, fp))
        (List.range (512 / max ws wd)) { flags := 0, lfsr := s.here.lfsr }
      Completes (.vcvt d a ty p src m) s (fun t =>
        GivesFpV s t d (t.v d) r.2
        ∧ (∀ i, i < 512 / max ws wd → lane wd (t.v d) i = r.1.getD i 0 % 2 ^ wd)
        ∧ (∀ i, 512 / max ws wd ≤ i → i < 512 / wd → lane wd (t.v d) i = 0)))
  ∧ (
    ∀ (s : State) (d a b g : BitVec 5), d < 8 → a < 8 → b < 8 →
      Completes (.pand d a b) s (fun t => GivesP s t d.toNat (s.p a.toNat &&& s.p b.toNat))
      ∧ Completes (.por d a b) s (fun t => GivesP s t d.toNat (s.p a.toNat ||| s.p b.toNat))
      ∧ Completes (.pxor d a b) s (fun t => GivesP s t d.toNat (s.p a.toNat ^^^ s.p b.toNat))
      ∧ Completes (.pnot d a) s (fun t => GivesP s t d.toNat (~~~s.p a.toNat))
      ∧ Completes (.ppop g a) s (fun t => Gives s t g
          (BitVec.ofNat 64 ((List.range 64).countP (fun i => (s.p a.toNat).getLsbD i)))))

/-- R183, R60. VRED folds the lanes of its source in the tree of R60, with identities for the lanes that the mask
leaves out, and zeroes every lane above the first. R183, R59, on integer types. Lane n of VSCAN.add holds the sum of
the selected lanes 0 to n, wrapped or saturated; lanes that the mask leaves out keep their value. R183, R59, for
every operator and type: the levels of R59 over the lanes as they enter. R182. Lane j of VDOT adds to its
accumulator the products of the k source elements that feed it: exactly on integer types, wrapped or saturated at 32
bits; on 8-bit floating types by the tree of R60 in FP32. The model's readings or choices that it rests on: log 11,
87, 88. -/
def Obligations.VectorReductions : Prop :=
  (
    ∀ (s : State) (d a : BitVec 5) (o : BitVec 4) (p : BitVec 2) (ty : BitVec 5) (m : BitVec 3),
      okReduce o ty m = true →
      let w := typeWidth ty
      let fp : Fp := { flags := 0, lfsr := s.here.lfsr }
      Completes (.vred d a o p ty m) s (fun t =>
        (∀ i, 1 ≤ i → i < 512 / w → lane w (t.v d) i = 0)
        ∧ (isInt ty → WritesV s t d (t.v d) ∧ Advanced s t ∧ SameSlotButV s t ∧ OnlyMe s t
          ∧ lane w (t.v d) 0 = redIntOut o ty m
              (treeOf (redIntNode o) (redIntUnit o ty) 7 (redIntLoad o ty (s.p p.toNat) (s.v a)) fp).1)
        ∧ (isFloat ty →
          let x := redLoad o ty (s.p p.toNat) (s.v a) fp
          let r := treeOf (redNode o ty) (redUnit o ty) 7 x.1 x.2
          let z := redOut o ty m r.1 r.2
          GivesFpV s t d (t.v d) z.2 ∧ lane w (t.v d) 0 = z.1 % 2 ^ w)))
  ∧ (
    ∀ (s : State) (d a : BitVec 5) (p : BitVec 2) (ty : BitVec 5) (m : BitVec 3), ty ≤ 7 → m ≤ 1 →
      let w := typeWidth ty
      let x (i : Nat) : Int := if (s.p p.toNat).getLsbD i then laneInt ty (lane w (s.v a) i) else 0
      Completes (.vscan d a 0 p ty m) s (fun t => GivesLanes s t d w (s.p p.toNat).getLsbD (fun n =>
        fitInt (m = 1) ty (((List.range (n + 1)).map x).sum))))
  ∧ (
    ∀ (s : State) (d a : BitVec 5) (o : BitVec 4) (p : BitVec 2) (ty : BitVec 5) (m : BitVec 3),
      okReduce o ty m = true →
      let w := typeWidth ty
      let fp : Fp := { flags := 0, lfsr := s.here.lfsr }
      let steps := [1, 2, 4, 8, 16, 32]
      (isInt ty → Completes (.vscan d a o p ty m) s (fun t => GivesLanes s t d w (s.p p.toNat).getLsbD (fun n =>
        redIntOut o ty m ((scanLevels (redIntNode o) (redIntUnit o ty) steps
          (redIntLoad o ty (s.p p.toNat) (s.v a)) fp).1.getD n 0))))
      ∧ (isFloat ty →
        let x := redLoad o ty (s.p p.toNat) (s.v a) fp
        let r := scanLevels (redNode o ty) (redUnit o ty) steps x.1 x.2
        let v := overLanes w (s.p p.toNat) (s.v d) (fun n => redOut o ty m (r.1.getD n 0)) r.2
        Completes (.vscan d a o p ty m) s (fun t => GivesFpV s t d v.1 v.2)))
  ∧ (
    ∀ (s : State) (d a b : BitVec 5) (p : BitVec 2) (ty : BitVec 5) (m : BitVec 3), okDot ty m = true →
      let w := typeWidth ty
      let k := 32 / w
      let elem (v : Vec) (n : Nat) : Int :=
        if ty = 15 then (s.here.lut.extractLsb' (8 * lane w v n) 8).toInt else intOf (isSigned ty) w (lane w v n)
      (isFloat ty = false → Completes (.vdot d a b p ty m) s (fun t => GivesLanes s t d 32 (s.p p.toNat).getLsbD (fun j =>
        let exact := intOf true 32 (lane 32 (s.v d) j)
          + ((List.range k).map (fun i => elem (s.v a) (k * j + i) * elem (s.v b) (k * j + i))).sum
        if m = 1 then (max (-2 ^ 31) (min (2 ^ 31 - 1) exact) % 2 ^ 32).toNat else (exact % 2 ^ 32).toNat)))
      ∧ (isFloat ty →
        let v := overLanes 32 (s.p p.toNat) (s.v d) (fun j => dotLane s.here.lut ty m (lane 32 (s.v d) j)
          ((List.range k).map (fun i => (lane w (s.v a) (k * j + i), lane w (s.v b) (k * j + i)))))
          { flags := 0, lfsr := s.here.lfsr }
        Completes (.vdot d a b p ty m) s (fun t => GivesFpV s t d v.1 v.2)))

/-! ### Loads, stores, atomics and order (file 06) -/

/-- R125 to R127, R129. A load completes when its address names a location that nothing holds back and memory need
not be waited for: its bytes are those that the L1 holds, for LD, or else those of the home, with the slot's own
buffered stores over them; the register gets them extended by their size, and no byte of memory changes. A load
whose word the slot has read ahead for it gives the bytes read then, where they have not been lost on their way. In
host memory the bytes of the home lie under those that the function's publication buffer holds (the model's reading,
log 36). R31, R35, R36. A load from a decoding window gives the decoded bytes. The model's readings or choices that
it rests on: log 5, 36. -/
def Obligations.Loads : Prop :=
  (
    ∀ (s : State) (d a : BitVec 5) (sz : BitVec 3) (i : BitVec 12) (l : Loc), Ready s → sz ≤ 6 →
      let va := s.g a + i.signExtend 64
      let n := if sz ≤ 1 then 1 else if sz ≤ 3 then 2 else if sz ≤ 5 then 4 else 8
      let reg (bs : List Byte) : Reg := if sz.toNat % 2 = 0 then BitVec.ofInt 64 (intOf true (8 * n) (leNat bs))
        else BitVec.ofNat 64 (leNat bs)
      let c := s.cur.core
      let k := s.cur.slot
      let own (bs : List Byte) : List Byte := forward (s.core c).sb k l.place bs
      let u := (Resolved s va).useHome l
      let home := let bs := u.homeBytes l n
        if storeOf l.place = .host then u.overPub (s.regionOf c k).vf l.place bs else bs
      let gives (t : State) (bs : List Byte) : Prop :=
        WritesG s t d (reg (own bs)) ∧ Advanced s t ∧ SameSlotButG s t ∧ OtherSlots s t
          ∧ (l.ms = false → SameBytes s t)
      let dropped (t : State) : Prop := l.cacheable = true → l1Find t.here.l1 (l.place / 128) l.sec = none
      Names s .load va n n l → s.lostAhead c k l.place n = false →
      (∀ bs, s.ahead c k l n true = some bs → Completes (.ld d a sz i) s (fun t => gives t bs))
      ∧ (∀ bs, s.ahead c k l n false = some bs → Completes (.ldf d a sz i) s (fun t => gives t bs ∧ dropped t))
      ∧ (s.ahead c k l n true = none → ∀ x, l1Find (s.core c).l1 (l.place / 128) l.sec = some x → l.cacheable = true →
        Completes (.ld d a sz i) s (fun t => gives t ((x.bytes.drop (l.place % 128)).take n)))
      ∧ (Open (Resolved s va) l n →
        (s.ahead c k l n true = none → (l1Find (s.core c).l1 (l.place / 128) l.sec = none ∨ l.cacheable = false) →
          Completes (.ld d a sz i) s (fun t => gives t home))
        ∧ (s.ahead c k l n false = none → Completes (.ldf d a sz i) s (fun t => gives t home ∧ dropped t))))
  ∧ (
    ∀ (s : State) (d a : BitVec 5) (sz : BitVec 3) (i : BitVec 12) (win off : Nat), Ready s → sz ≤ 6 →
      let va := s.g a + i.signExtend 64
      let n := if sz ≤ 1 then 1 else if sz ≤ 3 then 2 else if sz ≤ 5 then 4 else 8
      let v := leNat ((List.range n).map (fun j => s.aliasByte s.cur.core (some s.cur.slot) s.here.lut win (off + j)))
      let r : Reg := if sz.toNat % 2 = 0 then BitVec.ofInt 64 (intOf true (8 * n) v) else BitVec.ofNat 64 v
      Decodes s va n n win off → NothingAhead s →
      (∀ j, j < n → s.aliasBad s.cur.core win (off + j) = false) →
      Completes (.ld d a sz i) s (fun t => Gives s t d r) ∧ Completes (.ldf d a sz i) s (fun t => Gives s t d r))

/-- R131, R132. A store completes when its address names a location and the store buffer has room. In the own larder
its bytes are written at once, and no other byte changes; anywhere else no byte of memory changes yet, and the
slot's own loads see what it stored. No register changes. R134, R79. A prefetch changes no register; one of an
unlisted kind does nothing at all. The model's readings or choices that it rests on: log 37. -/
def Obligations.Stores : Prop :=
  (
    ∀ (s : State) (j a b : BitVec 5) (sz : BitVec 3) (i : BitVec 7) (l : Loc), Ready s → sz ≤ 3 →
      let va := s.g a + ((i ++ j : BitVec 12)).signExtend 64
      let n := 2 ^ sz.toNat
      let v := bytesOfNat n (s.g b).toNat
      Names s .store va n n l → s.here.sb.length < 32 → (storeOf l.place ≠ .larder → l.place % n = 0) →
      Completes (.st j a b sz i) s (fun t =>
        SameSlotButPc s t ∧ Advanced s t ∧ OtherSlots s t
        ∧ (storeOf l.place = .larder →
            (∀ p, t.byte p = if l.place ≤ p ∧ p < l.place + n then v.getD (p - l.place) 0 else s.byte p)
            ∧ t.here.sb = s.here.sb)
        ∧ (storeOf l.place ≠ .larder → SameBytes s t
            ∧ ∀ bs, bs.length = n → forward t.here.sb s.cur.slot l.place bs = v)))
  ∧ (
    ∀ (s : State) (kind a : BitVec 5) (i : BitVec 15), Ready s →
      let va := s.g a + i.signExtend 64
      va.toNat < 2 ^ 52 →
      (kind ≠ 2 ∨ va.toNat < 0xFFF0200000000 ∨ 0xFFF0600000000 ≤ va.toNat →
        Completes (.pf kind a i) s (fun t => SameSlotButPc s t ∧ Advanced s t ∧ OtherSlots s t))
      ∧ (3 ≤ kind → Completes (.pf kind a i) s (fun t => GoesTo s t s.after)))

/-- Table 6.1, rows 1 and 2. Loads, stores and atomics trap on an address with one of bits 63:52 set, with cause
0x07, and on one that is not a multiple of its size, with cause 0x06; XVAL is the address, and nothing is stored. -/
def Obligations.AddressTraps : Prop :=
  ∀ (s : State) (d a b : BitVec 5) (sz : BitVec 3) (i : BitVec 12) (sc : BitVec 3) (w : BitVec 2) (o : BitVec 4),
    Ready s → sz ≤ 6 → sc ≤ 4 → w ≤ 1 → o ≤ 8 →
    let n := if sz ≤ 1 then 1 else if sz ≤ 3 then 2 else if sz ≤ 5 then 4 else 8
    let m := if w = 0 then 4 else 8
    let bad (va : Reg) (n : Nat) (e : Cause) : Prop :=
      (2 ^ 52 ≤ va.toNat ∧ e = 0x07) ∨ (va.toNat < 2 ^ 52 ∧ va.toNat % n ≠ 0 ∧ e = 0x06)
    ∀ (e : Cause),
      let traps (va : Reg) (t : State) : Prop := Traps s t e va s.base ∧ SameBytes s t
      (let va := s.g a + i.signExtend 64
       bad va n e → TrapReady s e va s.base →
        Completes (.ld d a sz i) s (traps va) ∧ Completes (.ldf d a sz i) s (traps va))
      ∧ (let va := s.g a + ((i.extractLsb' 5 7 ++ i.extractLsb' 0 5 : BitVec 12)).signExtend 64
         sz ≤ 3 → bad va (2 ^ sz.toNat) e → TrapReady s e va s.base →
          Completes (.st (i.extractLsb' 0 5) a b sz (i.extractLsb' 5 7)) s (traps va))
      ∧ (bad (s.g a) m e → TrapReady s e (s.g a) s.base →
          Completes (.amo d a b sc w o) s (traps (s.g a)) ∧ Completes (.cas d a b sc w) s (traps (s.g a))
          ∧ (o ≤ 2 → Completes (.amof d a b sc w o) s (traps (s.g a))))

/-- R140 to R144. An atomic on a location that nothing holds back, after a release at its scope: the register gets
the old value, sign-extended for AMO and CAS; the home gets the new one, in one step; and an acquire follows. AMOF
also raises the flags of its operation. In host memory the old value is the function's buffered one, if it is
buffered. The model's readings or choices that it rests on: log 27, 89. -/
def Obligations.Atomics : Prop :=
  ∀ (s : State) (d a b : BitVec 5) (sc : BitVec 3) (w : BitVec 2) (o : BitVec 4) (l : Loc) (wide : Bool),
    Ready s → sc ≤ 4 → w = (if wide then 1 else 0) →
    let n := if wide then 8 else 4
    let c := s.cur.core
    let r := Resolved s (s.g a)
    let u := r.useHome l
    let vf := (u.regionOf c s.cur.slot).vf
    let host := decide (storeOf l.place = .host)
    let old := leNat (if host then u.overPub vf l.place (u.homeBytes l n) else u.homeBytes l n)
    let x := (s.g b).toNat % 2 ^ (8 * n)
    let want := (s.g d).toNat % 2 ^ (8 * n)
    let put (new : Nat) : State :=
      (((if host then u.unbuffer vf l.place n else u).homeWrite l (u.regionOf c s.cur.slot).tenant (bytesOfNat n new)).dropLine c
        (l.place / 128)).acquire c s.cur.slot sc.toNat
    let kept : State := (u.dropLine c (l.place / 128)).acquire c s.cur.slot sc.toNat
    let sext (v : Nat) : Reg := BitVec.ofInt 64 (intOf true (8 * n) v)
    Names s .atomic (s.g a) n n l → r.released c s.cur.slot sc.toNat = true → Open r l n →
    s.lostAhead c s.cur.slot l.place n = false →
    (∀ e ∈ s.here.sb, e.slot = s.cur.slot → e.block ≠ l.place / 64) →
    r.fenceHoldsAt c s.cur.slot s.fence l.place = false →
    (o ≤ 8 → exec (.amo d a b sc w o) s = .next (((put (
        let so := intOf true (8 * n) old
        let sx := intOf true (8 * n) x
        if o = 0 then (old + x) % 2 ^ (8 * n) else if o = 1 then old &&& x else if o = 2 then old ||| x
        else if o = 3 then old ^^^ x else if o = 4 then (if so ≤ sx then old else x)
        else if o = 5 then (if so ≤ sx then x else old) else if o = 6 then min old x
        else if o = 7 then max old x else x)).setG d (sext old)).adv))
    ∧ exec (.cas d a b sc w) s = .next (((if old = want then put x else kept).setG d (sext old)).adv)
    ∧ (o ≤ 2 →
      let ty : BitVec 5 := if wide then 11 else 10
      let z := if o = 0 then fadd ty 0 old x s.fp else fminmax ty (o == 2) old x s.fp
      exec (.amof d a b sc w o) s = .next ((((put z.1).settle z.2).setG d (BitVec.ofNat 64 old)).adv))

/-- R136 to R139. ACQ drops what the slot has read ahead, and at cluster scope or wider the L1 lines of writable
pages and of the attic, with what any slot of the core has read ahead from them; REL and the fences complete once
what they wait for is performed. FENCE.net numbers the network writes after it. Nothing else changes. What a slot
has read ahead, which an acquire drops, is the model's device of log 5. The model's readings or choices that it
rests on: log 5. -/
def Obligations.Fences : Prop :=
  ∀ (s : State) (sc : BitVec 3), Ready s → sc ≤ 4 →
    let numbers (t : State) : Prop := Advanced s t ∧ t.fence = s.fence + 1 ∧ SameSlotButPc s t
      ∧ (∀ c k, (c ≠ s.cur.core ∨ k ≠ s.cur.slot) → t.fenceOf c k = s.fenceOf c k)
      ∧ SamePackage s t ∧ SameBytes s t ∧ OtherSlots s t
      ∧ ∀ c, { t.core c with slots := [], fences := [] } = { s.core c with slots := [], fences := [] }
    Completes (.acq sc) s (fun t => Advanced s t ∧ SameSlotButPc s t ∧ OtherSlots s t
      ∧ SamePackage { s with early := t.early } t ∧ Reread s t (decide (sc ≠ 0)) ∧ SameBytes s t
      ∧ (∀ c, { t.core c with slots := [], l1 := [] } = { s.core c with slots := [], l1 := [] })
      ∧ t.here.l1 = if sc = 0 then s.here.l1
          else s.here.l1.filter (fun x => x.ro && storeOf (x.line * 128) ≠ .attic))
    ∧ (s.released s.cur.core s.cur.slot sc.toNat = true → Completes (.rel sc) s (fun t => GoesTo s t s.after))
    ∧ ((∀ e ∈ s.here.sb, e.slot ≠ s.cur.slot) → Completes (.fence 0) s (fun t => GoesTo s t s.after))
    ∧ ((∀ m ∈ s.here.mixq ++ s.here.dataq, m.slot ≠ s.cur.slot) → Completes (.fence 2) s (fun t => GoesTo s t s.after))
    ∧ Completes (.fence 1) s numbers
    ∧ ((∀ e ∈ s.here.sb, e.slot ≠ s.cur.slot) → (∀ m ∈ s.here.mixq ++ s.here.dataq, m.slot ≠ s.cur.slot) →
        Completes (.fence 3) s numbers)

/-! ### Vector loads and stores (file 07) -/

/-- R168 to R172. VLD, VST, VLDX and VSTX on lanes that all lie in the own larder: each selected lane moves its own
element, a lane that the mask leaves out neither moves nor is checked, and of two lanes stored to the same bytes the
higher is the later. The model's readings or choices that it rests on: log 23. -/
def Obligations.VectorMemory : Prop :=
  ∀ (s : State) (d a b : BitVec 5) (p : BitVec 3) (ty : BitVec 5) (i : BitVec 7) (k : BitVec 2),
    Ready s → s.here.sb.length ≤ 32 →
    let w := typeWidth ty
    let n := w / 8
    let sel (j : Nat) : Bool := (s.p p.toNat).getLsbD j
    let base := s.g a + i.signExtend 64 * 64
    let at1 (j : Nat) : Reg := base + BitVec.ofNat 64 (n * j)
    let at2 (j : Nat) : Reg := s.g a + (BitVec.ofNat 64 (lane 32 (s.v b) j) <<< k.toNat)
    let okay (f : Nat → Reg) : Prop := ∀ j, j < 512 / w → sel j = true → InLarder s (f j) n ∧ (f j).toNat % n = 0
    let loads (f : Nat → Reg) (t : State) : Prop := GivesLanes s t d w sel (fun j => larderNat s (f j) n)
    let stores (f : Nat → Reg) (t : State) : Prop :=
      GoesTo { s with mem := t.mem, poisoned := t.poisoned } t s.after
        ∧ (∀ q, (∀ j, j < 512 / w → sel j = true →
            ¬(larderAt s.cur.core ((f j).toNat - windowBase) ≤ q ∧ q < larderAt s.cur.core ((f j).toNat - windowBase) + n))
          → t.byte q = s.byte q)
        ∧ ∀ j, j < 512 / w → sel j = true →
          (∀ j', j < j' → j' < 512 / w → sel j' = true → f j' ≠ f j) → larderNat t (f j) n = lane w (s.v d) j
    (ty ≤ 13 → base.toNat < 2 ^ 52 → base.toNat % n = 0 → okay at1 →
      Completes (.vld d a p ty i) s (loads at1) ∧ Completes (.vst d a p ty i) s (stores at1))
    ∧ (isWide ty = true → okay at2 →
      Completes (.vldx d a b p ty k) s (loads at2) ∧ Completes (.vstx d a b p ty k) s (stores at2))

/-! ### Reduction epochs, barriers, counters, publication (file 06) -/

/-- R146, R147. RED.DECL on an address of plain memory, with every status of R147: the first declaration opens an
epoch and gives status 0, another core's joins it, a core's close is noted and the last one applies the epoch; a
close with P = 0 abandons it. A third epoch at one home gives status 1; a control word with a reserved bit set or a
type not listed, a declaration with P out of range, a mismatch with the open epoch, and a range that leaves its page
or overlaps another epoch give status 2; a declaration twice or past P, a close by a core that has not declared or
has closed, and a close where no epoch is open give status 3. On a status other than 0 nothing else changes. A close
while one of the core's RED.ADDs is on its way stalls, and so does the last one while a line that it rewrites must
be waited for. R148. RED.ADD with every selected lane in one epoch that the core has declared and not closed: the
epoch takes one contribution, which gives each element that a lane names the tree over all lanes, with the identity
in place of the lanes that do not name it, at once or, while the interface holds it or an earlier one of the core
back, later; no byte of memory changes yet; without a selected lane it does nothing. R149, R61. The epoch that
applies, with its lines in their slices: each element that a lane contributed to gets the old value summed with the
fold, in ascending die number, of the trees over the declared cores of each die in ascending order, where a core's
own contributions are folded in its program order; the other elements keep their value, and the epoch is gone. The
model's readings or choices that it rests on: log 33, 90. -/
def Obligations.ReductionEpochs : Prop :=
  (
    ∀ (s : State) (d a b : BitVec 5) (l : Loc), Ready s →
      let va := s.g a
      let x := s.g b
      let u := Resolved s va
      let c := s.cur.core
      let page := u.pageSize c s.cur.slot va.toNat
      let ty : BitVec 5 := x.extractLsb' 16 5
      let n := x.toNat % 2 ^ 12 + 1
      let p := x.toNat / 2 ^ 32 % 2 ^ 13
      let close := x.getLsbD 63
      let clean := x.toNat / 2 ^ 45 % 2 ^ 18 = 0 ∧ x.toNat / 2 ^ 21 % 2 ^ 11 = 0 ∧ x.toNat / 2 ^ 12 % 2 ^ 4 = 0
        ∧ isWide ty = true ∧ va.toNat % page + n * (typeWidth ty / 8) ≤ page ∧ (close = false → 1 ≤ p ∧ p ≤ 4096)
      let gives (v : Nat) : Prop := exec (.redDecl d a b) s = .next ((u.setG d (BitVec.ofNat 64 v)).adv)
      let flying := ∃ q ∈ u.posted, q.src = c ∧ q.op.adds = true
      let late := ∃ e ∈ u.epochs, e.base = l.place ∧ e.lastClose c = true ∧ u.applyWaits e = true
      let root := (s.me.task.map (·.root)).getD 0
      let there := u.epochs.find? (fun e => e.base = l.place)
      Names s .load va 1 128 l → va.toNat < windowBase → storeOf l.place = .hbm → u.mute c l.place = false →
      (close = true → flying ∨ late → exec (.redDecl d a b) s = .next (u.latch (.redDecl d a b)))
      ∧ ((close = true → ¬(flying ∨ late)) →
      (clean → close = false → there = none →
        (u.epochs.filter (fun e => u.epochHome e.base e.ms = u.epochHome l.place l.ms)).length < 2 →
        u.inEpoch l.place (n * (typeWidth ty / 8)) = false →
        exec (.redDecl d a b) s = .next (({ u with epochs := u.epochs ++
          [{ base := l.place, type := ty, n := n, p := p, declared := [c], closed := [], contributions := [],
             root := root, ms := l.ms, key := l.key, secure := l.sec }] } : State).setG d 0).adv)
      ∧ (clean → close = false → ∀ e, there = some e → e.n = n → e.type = ty → e.p = p →
        e.declared.contains c = false → e.declared.length < p →
        exec (.redDecl d a b) s = .next (({ u with epochs := u.epochs.map (fun y =>
          if y.base = e.base then { e with declared := e.declared ++ [c] } else y) } : State).setG d 0).adv)
      ∧ (clean → close = true → 1 ≤ p → ∀ e, there = some e → e.n = n → e.type = ty → e.p = p →
        e.declared.contains c = true → e.closed.contains c = false →
        let e' : Epoch := { e with closed := e.closed ++ [c] }
        let v : State := { u with epochs := u.epochs.map (fun y => if y.base = e.base then e' else y) }
        exec (.redDecl d a b) s = .next (((if e.declared.length = p ∧ e.closed.length + 1 = p
          then v.applyEpoch e' else v).setG d 0).adv))
      ∧ (clean → close = true → p = 0 → ∀ e, there = some e → e.n = n → e.type = ty →
        exec (.redDecl d a b) s = .next (({ u with epochs := u.epochs.filter (fun y => y.base ≠ e.base) } : State).setG d 0).adv)
      ∧ (¬clean → gives 2)
      ∧ (clean → ∀ e, there = some e → e.n ≠ n ∨ e.type ≠ ty ∨ (e.p ≠ p ∧ ¬(close = true ∧ p = 0)) → gives 2)
      ∧ (clean → close = false → there = none →
        let many := (u.epochs.filter (fun e => u.epochHome e.base e.ms = u.epochHome l.place l.ms)).length
        (2 ≤ many → gives 1) ∧ (many < 2 → u.inEpoch l.place (n * (typeWidth ty / 8)) = true → gives 2))
      ∧ (clean → close = false → ∀ e, there = some e → e.n = n → e.type = ty → e.p = p →
        e.declared.contains c = true ∨ p ≤ e.declared.length → gives 3)
      ∧ (clean → close = true → 1 ≤ p → ∀ e, there = some e → e.n = n → e.type = ty → e.p = p →
        e.declared.contains c = false ∨ e.closed.contains c = true → gives 3)
      ∧ (clean → close = true → there = none → gives 3)))
  ∧ (
    ∀ (s : State) (d a b : BitVec 5) (p : BitVec 3) (ty : BitVec 5) (f : Nat → Loc) (e : Epoch), Ready s →
      isWide ty = true →
      let w := typeWidth ty
      let sel (j : Nat) : Bool := (s.p p.toNat).getLsbD j
      let va (j : Nat) : Reg := s.g a + BitVec.ofNat 64 (lane 32 (s.v b) j)
      let elem (j : Nat) : Nat := ((f j).place - e.base) / (w / 8)
      let mine := (List.range (512 / w)).filter sel
      (mine = [] → exec (.redAdd d a b p ty) s = .next s.adv)
      ∧ (mine ≠ [] →
      (∀ j ∈ mine, Names s .atomic (va j) (w / 8) (w / 8) (f j) ∧ Resolved s (va j) = s
        ∧ s.epochFor s.cur.core (f j).place = some e) →
      e.type = ty →
      let parts := ((mine.map elem).eraseDups).map (fun k =>
        (k, BitVec.ofNat 64 (sumTree ty ((List.range (512 / w)).map (fun i =>
          if sel i && elem i = k then lane w (s.v d) i else sumIdentity ty)))))
      let q : Contribution := { core := s.cur.core, parts := parts }
      let held := s.fenceHoldsAt s.cur.core s.cur.slot s.fence e.base || s.mute s.cur.core e.base
        || s.posted.any (fun y => y.before s.cur.core e.base (.add e.base q))
      (held = false → exec (.redAdd d a b p ty) s = .next ({ s with epochs := s.epochs.map (fun y =>
        if y.base = e.base then { y with contributions := y.contributions ++ [q] } else y) } : State).adv)
      ∧ (held = true → exec (.redAdd d a b p ty) s = .next ({ s with posted := s.posted ++
        [{ src := s.cur.core, slot := s.cur.slot, uid := s.uid, fence := s.fence, place := e.base, op := .add e.base q
           va := va (mine.headD 0), vf := s.region.vf }] }
        : State).adv)))
  ∧ (
    ∀ (s : State) (e : Epoch), isWide e.type = true → e.base % 128 = 0 → e.ms = false → s.keyGone e.key = false →
      e.declared.Nodup →
      (∀ c ∈ e.declared, c < 4096) →
      let w := typeWidth e.type / 8
      (∀ i, i < e.n → storeOf (e.loc i).place = .hbm
        ∧ (e.touched i = true → (s.l2Hit ((e.loc i).place / 128) e.secure).isSome ∧ s.homeBad (e.loc i) w = false)) →
      let sum (x y : Nat) : Nat := (sumNode e.type x y { flags := 0, lfsr := 1 }).1
      let core (i c : Nat) : Nat :=
        let xs := (e.contributions.filter (fun q => q.core = c)).flatMap (fun q =>
          (q.parts.filter (fun x => x.1 = i)).map (fun x => x.2.toNat))
        match xs with
        | [] => sumIdentity e.type
        | x :: t => t.foldl sum x
      let die (i k : Nat) : Nat := sumTree e.type (((List.range 4096).filter (fun c =>
        c / 1024 = k && e.declared.contains c)).map (core i))
      let read (t : State) (i : Nat) : Nat := leNat (t.homeBytes (e.loc i) w)
      let t := s.applyEpoch e
      (∀ i, i < e.n → read t i =
        if e.touched i then sum (read s i) (sum (sum (sum (die i 0) (die i 1)) (die i 2)) (die i 3)) % 2 ^ (8 * w)
        else read s i)
      ∧ t.epochs = s.epochs.filter (fun y => y.base ≠ e.base))

/-- R151, R152, R156. BAR.INIT sets an object's participants and clears its count and generation, BAR.FREE frees it,
both waking its waiters with status 1; BAR.INFO reads all three fields. R153. BAR.ARR, once its release is complete,
gives the generation and counts one arrival; the arrival that makes A equal to N clears A, advances G by 1, and
completes every waiter with status 0. On an object linked to a master in another package A is cleared, and nothing
completes here. R154, R155. BAR.WAIT completes with 0 and an acquire when the generation is no longer the one it is
given, and parks while it is; woken by a completion it writes 0, and by a reset 1, or traps with cause 0x0C where
its destination is g0. The model's readings or choices that it rests on: log 81. -/
def Obligations.Barriers : Prop :=
  (
    ∀ (s : State) (d a b : BitVec 5) (o : Nat), Ready s → s.barAt s.cur.core s.cur.slot (s.g a) = .ok o →
      Completes (.barInfo d a) s (fun t => Gives s t d ((s.bar o).gen ++ (s.bar o).a ++ (s.bar o).n))
      ∧ (s.linkOf o = none →
        (1 ≤ (s.g b).toNat → (s.g b).toNat < 2 ^ 16 → Completes (.barInit a b) s (fun t =>
          t.bar o = { n := (s.g b).setWidth 16, a := 0, gen := 0 } ∧ (∀ o', o' ≠ o → t.bar o' = s.bar o')
          ∧ Wakes s t (.barrier o) 1 ∧ Advanced s t ∧ SameSlotButPc s t
          ∧ SameBut (fun s => { s with cores := [], bars := [] }) s t ∧ SameCores s t))
        ∧ Completes (.barFree a) s (fun t =>
          t.bar o = { n := 0, a := 0, gen := 0 } ∧ (∀ o', o' ≠ o → t.bar o' = s.bar o')
          ∧ Wakes s t (.barrier o) 1 ∧ Advanced s t ∧ SameSlotButPc s t
          ∧ SameBut (fun s => { s with cores := [], bars := [] }) s t ∧ SameCores s t)))
  ∧ (
    ∀ (s : State) (d a : BitVec 5) (o : Nat), Ready s → s.barAt s.cur.core s.cur.slot (s.g a) = .ok o →
      (s.bar o).n ≠ 0 →
      let x := s.bar o
      let gives (t : State) : Prop := WritesG s t d (x.gen.setWidth 64) ∧ Advanced s t ∧ SameSlotButG s t
        ∧ SameBut (fun s => { s with cores := [], bars := [] }) s t ∧ SameCores s t
        ∧ ∀ o', o' ≠ o → t.bar o' = s.bar o'
      (s.linkOf o = none → s.released s.cur.core s.cur.slot 3 = true → Completes (.barArr d a) s (fun t => gives t
        ∧ (x.a + 1 = x.n → t.bar o = { n := x.n, a := 0, gen := x.gen + 1 } ∧ Wakes s t (.barrier o) 0)
        ∧ (x.a + 1 ≠ x.n → t.bar o = { n := x.n, a := x.a + 1, gen := x.gen } ∧ OtherSlots s t)))
      ∧ (∀ e, s.linkOf o = some e → (s.link e).master ≠ s.package.toNat → s.released s.cur.core s.cur.slot 4 = true →
        Completes (.barArr d a) s (fun t => gives t ∧ OtherSlots s t
          ∧ t.bar o = { n := x.n, a := if x.a + 1 = x.n then 0 else x.a + 1, gen := x.gen })))
  ∧ (
    ∀ (s : State) (d a b : BitVec 5) (o : Nat), s.barAt s.cur.core s.cur.slot (s.g a) = .ok o →
      let gives (v : Reg) (t : State) : Prop := WritesG s t d v ∧ Advanced s t ∧ OtherSlots s t ∧ SameBytes s t
      (Ready s → (s.bar o).n ≠ 0 →
        ((s.bar o).gen ≠ (s.g b).setWidth 32 → Completes (.barWait d a b) s (fun t => gives 0 t ∧ Acquired s t))
        ∧ ((s.bar o).gen = (s.g b).setWidth 32 → Completes (.barWait d a b) s (fun t => Parks s t (.barrier o))))
      ∧ (s.me.wait = .woken 0 → Completes (.barWait d a b) s (fun t => gives 0 t ∧ Acquired s t ∧ t.me.wait = .none))
      ∧ (s.me.wait = .woken 1 → d ≠ 0 → Completes (.barWait d a b) s (fun t => gives 1 t ∧ t.me.wait = .none))
      ∧ (s.me.wait = .woken 1 → d = 0 → TrapReady s.unpark 0x0C (s.g a) s.base →
        Completes (.barWait d a b) s (fun t => Traps s.unpark t 0x0C (s.g a) s.base)))

/-- R157, R159. CNT.INIT makes a counter live with a value, a zero status and no binding, as long as its cluster has
fewer than 512 live ones, else it gives 1; with bit 32 of its operand it retires a live one, and of one that is not
live it takes a data fault; an operand with one of bits 63:33 set gives 2. Waiters of a counter that was live are
woken with its status and RESET. R160, R161. CNT.SIG takes 1 from a live counter, once its release is complete, and
CNT.ADD adds a signed amount, held to the range of the counter; CNT.ADD gives the old value. One of CNT.INIT,
CNT.SIG and CNT.ADD that the interface holds back is done later: the slot goes on, and owes the register that the
reply of CNT.INIT or CNT.ADD fills. An update that takes the value from above zero to zero or below fires the
counter: its waiters get its status, and its binding, if it has one, is cleared and read. R161. CNT.WAIT gives the
status of a counter at zero or below, with an acquire, and parks while it is above; woken, it gives the status that
it was woken with. SIG, ADD and WAIT of a counter that is not live take a data fault. The model's readings or
choices that it rests on: log 25, 30, 33, 83, 100. -/
def Obligations.Counters : Prop :=
  let holds (s t : State) (d : BitVec 5) (va : Reg) (p : Nat) (op : PostedOp) : Prop :=
    t.posted = s.posted ++ [{ src := s.cur.core, slot := s.cur.slot, uid := s.uid, fence := s.fence, place := p,
                              op := op, va := va, vf := s.region.vf }]
      ∧ t.me.owed = s.me.owed ++ (if d = 0 then [] else [d])
      ∧ { t.me with owed := [], pc := 0 } = { s.me with owed := [], pc := 0 } ∧ Advanced s t ∧ OtherSlots s t
      ∧ SameBytes s t ∧ SameCores s t ∧ SameBut (fun s => { s with cores := [], posted := [] }) s t
  (
    ∀ (s : State) (d a b : BitVec 5) (p : Nat), Ready s → s.cntAt s.cur.core s.secure (s.g a) = .ok p →
      let x := s.g b
      let many := (s.counters.filter (fun e => cellarCluster e.1 = cellarCluster p)).length
      let reset := ((s.cntStatus p ||| 0x400).setWidth 64 : Reg)
      let init : PostedOp := .cntInit d x s.counterOwner
      let held := s.fenceHoldsAt s.cur.core s.cur.slot s.fence p || s.mute s.cur.core p
        || s.posted.any (fun y => y.before s.cur.core p init)
      (x.toNat < 2 ^ 32 → (s.live p = false ∧ many < 512 ∨ s.live p = true ∧ s.bad p = false) → held = false →
        Completes (.cntInit d a b) s (fun t => WritesG s t d 0 ∧ Advanced s t
          ∧ t.live p = true ∧ t.cntValue p = x.setWidth 32 ∧ t.cntStatus p = 0 ∧ t.cntBind p = 0
          ∧ (∀ q, ¬(p ≤ q ∧ q < p + 16) → t.byte q = s.byte q)
          ∧ SameBut (fun s => { s with cores := [], mem := [], poisoned := [], counters := [] }) s t ∧ SameCores s t
          ∧ (s.live p = true → Wakes s t (.counter p) reset) ∧ (s.live p = false → OtherSlots s t)))
      ∧ (2 ^ 32 ≤ x.toNat → x.toNat < 2 ^ 33 → s.live p = true → s.bad p = false → held = false →
        Completes (.cntInit d a b) s (fun t =>
          WritesG s t d 0 ∧ Advanced s t ∧ SameBytes s t ∧ Wakes s t (.counter p) reset
          ∧ t.counters = Tab.erase s.counters p))
      ∧ (2 ^ 32 ≤ x.toNat → x.toNat < 2 ^ 33 → s.live p = false → TrapReady s 0x06 (s.g a) s.base →
        Completes (.cntInit d a b) s (fun t => Traps s t 0x06 (s.g a) s.base ∧ SameBytes s t ∧ t.counters = s.counters))
      ∧ (x.toNat < 2 ^ 32 → s.live p = false → 512 ≤ many → held = false → Completes (.cntInit d a b) s (fun t => Gives s t d 1))
      ∧ (2 ^ 33 ≤ x.toNat → s.live p = false ∨ s.bad p = false → Completes (.cntInit d a b) s (fun t => Gives s t d 2))
      ∧ (x.toNat < 2 ^ 33 → (x.toNat < 2 ^ 32 ∧ s.live p = false) ∨ (s.live p = true ∧ s.bad p = false) → held = true →
        Completes (.cntInit d a b) s (fun t => holds s t d (s.g a) p init)))
  ∧ (
    ∀ (s : State) (d a b : BitVec 5) (p : Nat) (who : Counter), Ready s → s.cntAt s.cur.core s.secure (s.g a) = .ok p →
      Tab.find s.counters p = some who → s.bad p = false → s.bad (p + 8) = false →
      let add : PostedOp := .cntAdd d (s.g b)
      let held (op : PostedOp) : Bool := s.fenceHoldsAt s.cur.core s.cur.slot s.fence p || s.mute s.cur.core p
        || s.posted.any (fun y => y.before s.cur.core p op)
      let old := (s.cntValue p).toInt
      let new (add : Int) : Int := max (-2 ^ 31) (min (2 ^ 31 - 1) (old + add))
      let fires (add : Int) : Prop := 0 < old ∧ new add ≤ 0
      let updated (u : State) (add : Int) : Prop :=
        u.cntValue p = BitVec.ofInt 32 (new add) ∧ u.cntStatus p = s.cntStatus p ∧ u.me = s.me
          ∧ (∀ q, ¬(p ≤ q ∧ q < p + 16) → u.byte q = s.byte q)
          ∧ SameBut (fun s => { s with cores := [], mem := [], poisoned := [] }) s u ∧ SameCores s u
          ∧ (fires add → Wakes s u (.counter p) ((s.cntStatus p).setWidth 64) ∧ u.cntBind p = 0)
          ∧ (¬fires add → OtherSlots s u ∧ u.cntBind p = s.cntBind p)
      let after (u : State) (add : Int) (t : State) : Prop :=
        (fires add → s.cntBind p ≠ 0 → t = u.bound { record := s.cntBind p, who := who })
          ∧ (¬(fires add ∧ s.cntBind p ≠ 0) → t = u)
      (s.released s.cur.core s.cur.slot 3 = true →
        (held .sig = false → ∃ u t, updated u (-1) ∧ after u (-1) t ∧ exec (.cntSig a) s = .next t.adv)
        ∧ (held .sig = true → exec (.cntSig a) s = .next ({ s with posted := s.posted ++
            [{ src := s.cur.core, slot := s.cur.slot, uid := s.uid, fence := s.fence, place := p, op := .sig
               va := s.g a, vf := s.region.vf }] }
            : State).adv))
      ∧ (held add = false →
        let n := intOf true 32 (s.g b).toNat
        ∃ u t, updated u n ∧ after u n t
          ∧ exec (.cntAdd d a b) s = .next ((t.setG d ((s.cntValue p).signExtend 64)).adv))
      ∧ (held add = true → Completes (.cntAdd d a b) s (fun t => holds s t d (s.g a) p add)))
  ∧ (
    ∀ (s : State) (d a b : BitVec 5) (p : Nat),
      let gives (v : Reg) (t : State) : Prop := WritesG s t d v ∧ Advanced s t ∧ OtherSlots s t ∧ SameBytes s t ∧ Acquired s t
      let traps (t : State) : Prop := Traps s t 0x06 (s.g a) s.base ∧ SameBytes s t ∧ t.counters = s.counters
      (Ready s → s.cntAt s.cur.core s.secure (s.g a) = .ok p →
        (s.live p = true → s.bad p = false → s.bad (p + 8) = false →
          ((s.cntValue p).toInt ≤ 0 → Completes (.cntWait d a) s (gives ((s.cntStatus p).setWidth 64)))
          ∧ (0 < (s.cntValue p).toInt → Completes (.cntWait d a) s (fun t => Parks s t (.counter p))))
        ∧ (s.live p = false → TrapReady s 0x06 (s.g a) s.base → s.released s.cur.core s.cur.slot 3 = true →
          Completes (.cntSig a) s traps ∧ Completes (.cntAdd d a b) s traps ∧ Completes (.cntWait d a) s traps))
      ∧ (∀ v, s.me.wait = .woken v → Completes (.cntWait d a) s (gives v)))

/-- R162, 14 R353. PUBLISH with the address that PUBVER holds, once its release at system scope is complete. With no
line of its function in the publication buffer, the version word advances by 1 and the register gets the new
version. With lines there, each becomes due to be written, and the slot stays; a line that is due is written to host
memory, every byte of it at its place and no other, and leaves the buffer; and once no line is due, PUBLISH goes on:
the version word advances by 1, and the register gets the new version. Any other address takes a data fault, and
nothing is written. The model's readings or choices that it rests on: log 35. -/
def Obligations.Publish : Prop :=
  (
    ∀ (s : State) (d a : BitVec 5),
      let vf := s.region.vf
      let ver := (Tab.get Ngamon.reset s.vfs vf.toNat).pubver
      let p := 2 ^ 52 + ver.toNat % 2 ^ 48
      let old := leNat (s.peek p 8)
      let mine := ∃ e ∈ s.pub, e.vf = vf
      let waiting := ∃ e ∈ s.pub, e.vf = vf ∧ e.due = true
      let advances (t : State) : Prop := WritesG s t d (BitVec.ofNat 64 (old + 1)) ∧ leNat (t.peek p 8) = (old + 1) % 2 ^ 64
        ∧ (∀ q, ¬(p ≤ q ∧ q < p + 8) → t.byte q = s.byte q) ∧ t.pub = s.pub ∧ Advanced s t ∧ OtherSlots s t
        ∧ SameBut (fun s => { s with cores := [], mem := [], poisoned := [] }) s t
        ∧ { t.me with g := [], pc := 0, wait := .none } = { s.me with g := [], pc := 0, wait := .none } ∧ t.me.wait = .none
      let stays (t : State) : Prop := t.me.wait = .publishing ∧ t.base = s.base ∧ t.me.latched.isSome = true
        ∧ (∀ r, t.g r = s.g r) ∧ SameBytes s t ∧ OtherSlots s t
      s.g a = ver → ver.toNat < 2 ^ 52 →
      (Ready s → s.released s.cur.core s.cur.slot 4 = true →
        (¬mine → Completes (.publish d a) s advances)
        ∧ (mine → Completes (.publish d a) s (fun t => stays t
          ∧ t.pub = s.pub.map (fun e => if e.vf = vf then { e with due := true } else e))))
      ∧ (s.me.wait = .publishing →
        (¬waiting → Completes (.publish d a) s advances)
        ∧ (waiting → Completes (.publish d a) s (fun t => stays t ∧ t.pub = s.pub))))
  ∧ (
    ∀ (s : State) (k : Nat) (e : PubLine), s.pub[k]? = some e → e.due = true → Tab.sorted e.bytes = true →
      (∀ b ∈ e.bytes, b.1 < 128) →
      let t := s.pubLine k
      (∀ q, t.byte q = if q / 128 = e.line then (Tab.find e.bytes (q % 128)).getD (s.byte q) else s.byte q)
        ∧ t.pub = s.pub.eraseIdx k ∧ t.cores = s.cores)
  ∧ (
    ∀ (s : State) (d a : BitVec 5), Ready s → (s.g a).toNat < 2 ^ 52 →
      s.g a ≠ (Tab.get Ngamon.reset s.vfs s.region.vf.toNat).pubver → TrapReady s 0x06 (s.g a) s.base →
      Completes (.publish d a) s (fun t => Traps s t 0x06 (s.g a) s.base ∧ SameBytes s t ∧ t.pub = s.pub))

/-! ### Rings and the queues of the engines (file 08) -/

/-- R189. QCFG with g0 closes a handle, and with a descriptor that the larder holds and that R189 accepts opens it
empty; a handle that a queued command names gives 1, whatever the descriptor is (which of the two statuses comes
first is the model's choice, log 109), and a descriptor with a reserved bit set gives 2. QWAITs parked on the handle
end with a fault. R190. QPUT and QPOP on an open handle that no queued command names, nor an open convoy (which is
open until its marker comes, or until it is aborted: log 101): k slots are filled at the tail, or freed at the head,
and the register gets 0; without the room or the slots it gets 1, for a count that is 0 or more than the ring has 2,
and on a closed handle 4. QWAITs that now find their slots are woken. R191, R192. QWAIT gives the address of the
slot at the tail, or at the head, once k slots are free, or filled; it parks until then, goes on with the address
that it was given, acquiring at the scope of the ring it waited for, and ends with a data fault where its handle was
opened anew or closed while it was parked. QSTAT reports the handle. The model's readings or choices that it rests
on: log 101, 109. -/
def Obligations.Rings : Prop :=
  (
    ∀ (s : State) (d a : BitVec 5) (q : BitVec 4), Ready s →
      let c := s.cur.core
      let busy := s.here.asSource q.toNat || s.here.asDest q.toNat
      let n := larderNat s (s.g a) 16
      let gone (t : State) : Prop := ∀ c' k, (c' ≠ c ∨ k ≠ s.cur.slot) → t.slotAt c' k =
        match (s.slotAt c' k).wait with
        | .ring q' _ _ => if c' = c && q' == q then { s.slotAt c' k with wait := .ringGone } else s.slotAt c' k
        | _ => s.slotAt c' k
      let rest (t : State) : Prop := SamePackage s t ∧ SameSlotButG s t ∧ Advanced s t ∧ gone t
        ∧ (∀ q', q' ≠ q.toNat → t.here.ring q' = s.here.ring q')
        ∧ ∀ c', { t.core c' with slots := [], q := [] } = { s.core c' with slots := [], q := [] }
      (a = 0 → busy = false → Completes (.qcfg d a q) s (fun t => WritesG s t d 0 ∧ t.here.ring q.toNat = none ∧ rest t))
      ∧ (a = 0 → busy = true → Completes (.qcfg d a q) s (fun t => Gives s t d 1))
      ∧ (a ≠ 0 → InLarder s (s.g a) 16 → (s.g a).toNat % 16 = 0 →
        (busy = false → s.descBad c n = false → Completes (.qcfg d a q) s (fun t => WritesG s t d 0
          ∧ t.here.ring q.toNat = some { desc := ringDescOf n, head := 0, tail := 0, filled := 0 } ∧ rest t))
        ∧ (busy = false → n / 2 ^ 80 ≠ 0 → Completes (.qcfg d a q) s (fun t => Gives s t d 2))
        ∧ (busy = true → Completes (.qcfg d a q) s (fun t => Gives s t d 1))))
  ∧ (
    ∀ (s : State) (d b : BitVec 5) (q : BitVec 4), Ready s →
      let k := (s.g b).toNat
      (s.here.ring q.toNat = none → Completes (.qput d b q) s (fun t => Gives s t d 4)
        ∧ Completes (.qpop d b q) s (fun t => Gives s t d 4))
      ∧ (∀ r, s.here.ring q.toNat = some r →
        let n := r.desc.slots.toNat + 1
        let put (r' : Ring) (t : State) : Prop := WritesG s t d 0 ∧ t.here.ring q.toNat = some r' ∧ Advanced s t
          ∧ (∀ q', q' ≠ q.toNat → t.here.ring q' = s.here.ring q')
          ∧ SamePackage s t ∧ SameSlotButG s t
          ∧ (∀ c', { t.core c' with slots := [], q := [] } = { s.core c' with slots := [], q := [] })
          ∧ ∀ c' j, (c' ≠ s.cur.core ∨ j ≠ s.cur.slot) → t.slotAt c' j =
            match (s.slotAt c' j).wait with
            | .ring q' m f => if c' = s.cur.core && q' == q && ringReady r' m f
                then { s.slotAt c' j with wait := .ringWoken (ringAddr r' f) (min r.desc.win.toNat 2) } else s.slotAt c' j
            | _ => s.slotAt c' j
        (s.released s.cur.core s.cur.slot (min r.desc.win.toNat 2) = true →
          (k = 0 ∨ n < k → Completes (.qput d b q) s (fun t => Gives s t d 2))
          ∧ (1 ≤ k → k ≤ n → s.here.asDest q.toNat = false → s.here.convoyInto q.toNat = false →
            (k ≤ n - r.filled → Completes (.qput d b q) s
              (put { r with tail := (r.tail + k) % n, filled := r.filled + k }))
            ∧ (n - r.filled < k → Completes (.qput d b q) s (fun t => Gives s t d 1))))
        ∧ (k = 0 ∨ n < k → Completes (.qpop d b q) s (fun t => Gives s t d 2))
        ∧ (1 ≤ k → k ≤ n → s.here.asSource q.toNat = false →
          (k ≤ r.filled → Completes (.qpop d b q) s
            (put { r with head := (r.head + k) % n, filled := r.filled - k }))
          ∧ (r.filled < k → Completes (.qpop d b q) s (fun t => Gives s t d 1)))))
  ∧ (
    ∀ (s : State) (d b : BitVec 5) (q : BitVec 4) (r : Ring), s.here.ring q.toNat = some r →
      let k := (s.g b).toNat % 2 ^ 9
      let free := (s.g b).getLsbD 63
      let n := r.desc.slots.toNat + 1
      let slot := if free then r.tail else r.head
      let window : Nat := if r.desc.win = 0 then 0 else if r.desc.win = 1 then 1 else 8
      let addr : Reg := BitVec.ofNat 64 (0xFFF0000000000 + window * 2 ^ 32 + r.desc.offset.toNat
        + slot * ((r.desc.slotsz.toNat + 1) * 64))
      let gives (v : Reg) (t : State) : Prop := WritesG s t d v ∧ Advanced s t ∧ OtherSlots s t ∧ SameBytes s t
        ∧ (free = false → r.desc.win ≠ 0 → Acquired s t)
      (Ready s → 1 ≤ k → k ≤ n →
        (k ≤ (if free then n - r.filled else r.filled) → Completes (.qwait d b q) s (gives addr))
        ∧ ((if free then n - r.filled else r.filled) < k → Completes (.qwait d b q) s (fun t => Parks s t (.ring q k free))))
      ∧ (∀ v sc, s.me.wait = .ringWoken v sc → Completes (.qwait d b q) s (fun t => WritesG s t d v ∧ Advanced s t
          ∧ OtherSlots s t ∧ SameBytes s t ∧ (free = false → sc ≠ 0 → Acquired s t)))
      ∧ (s.me.wait = .ringGone → TrapReady s.unpark 0x06 (s.g b) s.base →
        Completes (.qwait d b q) s (fun t => Traps s.unpark t 0x06 (s.g b) s.base))
      ∧ Completes (.qstat d q) s (fun t => Gives s t d (BitVec.ofNat 64 (2 ^ 63
          + (s.here.asSource q.toNat).toNat * 2 ^ 62
          + (s.here.asDest q.toNat || s.here.convoyInto q.toNat).toNat * 2 ^ 61
          + r.filled * 2 ^ 32 + r.head * 2 ^ 24 + r.tail * 2 ^ 16 + r.desc.slots.toNat * 2 ^ 8
          + r.desc.win.toNat * 2 ^ 6 + r.desc.slotsz.toNat))))

/-- R212, R216. SKRD and SKWR move one word of the skip map; SRW gives a stride and, unless rs1 is g0, sets it.
R200. EWAIT gives the sticky status of the slot for an engine and clears it, once all its commands there have
retired or at once under NOWAIT; else it parks. The model's readings or choices that it rests on: log 34. -/
def Obligations.EngineRegisters : Prop :=
  (
    ∀ (s : State) (d a b : BitVec 5) (n : BitVec 3),
      let k := (s.g a).toNat % 64
      let stride (t : State) (j : Nat) : BitVec 16 := Tab.get 0 t.here.s j
      Completes (.skrd d a) s (fun t => Gives s t d (s.here.skip.extractLsb' (64 * k) 64))
      ∧ Completes (.skwr a b) s (fun t =>
        (∀ i, i < 4096 → t.here.skip.getLsbD i =
          if 64 * k ≤ i ∧ i < 64 * k + 64 then (s.g b).getLsbD (i - 64 * k) else s.here.skip.getLsbD i)
        ∧ SameSlotButPc s t ∧ Advanced s t ∧ OtherSlots s t ∧ SamePackage s t
        ∧ ∀ c, { t.core c with slots := [], skip := 0 } = { s.core c with slots := [], skip := 0 })
      ∧ Completes (.srw d a n) s (fun t => WritesG s t d ((stride s n.toNat).setWidth 64)
        ∧ (∀ j, stride t j = if a ≠ 0 ∧ j = n.toNat then (s.g a).setWidth 16 else stride s j)
        ∧ SameSlotButG s t ∧ Advanced s t ∧ OtherSlots s t ∧ SamePackage s t
        ∧ ∀ c, { t.core c with slots := [], s := [] } = { s.core c with slots := [], s := [] }))
  ∧ (
    ∀ (s : State) (d a : BitVec 5), Ready s →
      let data := (s.g a).getLsbD 0
      let queue := if data then s.here.dataq else s.here.mixq
      let pend := queue.any (fun m => m.slot = s.cur.slot && m.uid = s.uid)
      let y := if data then s.me.dsticky else s.me.msticky
      let word : Reg := BitVec.ofNat 64 (pend.toNat * 2 ^ 63
        + (if data then s.here.drseq else s.here.mrseq).toNat * 2 ^ 32
        + (if data then s.me.dqseq else s.me.mqseq).toNat * 2 ^ 16
        + y.reason.toNat * 2 ^ 12 + y.err.toNat * 2 ^ 8 + y.flags.toNat)
      (pend = false ∨ (s.g a).getLsbD 1 = true → Completes (.ewait d a) s (fun t => WritesG s t d word ∧ Advanced s t
        ∧ t.me.dsticky = (if data then { flags := 0, err := false, reason := 0 } else s.me.dsticky)
        ∧ t.me.msticky = (if data then s.me.msticky else { flags := 0, err := false, reason := 0 })
        ∧ { t.me with g := [], pc := 0, dsticky := .reset, msticky := .reset }
          = { s.me with g := [], pc := 0, dsticky := .reset, msticky := .reset }
        ∧ OnlyMe s t))
      ∧ (pend = true → (s.g a).getLsbD 1 = false → Completes (.ewait d a) s (fun t => Parks s t (.engine data))))

/-- R20, R76, R78, R197. A legal command (which bits of CPY, GTH, SCT and COLL must be zero is log 40) enters the
queue of its engine, when that has room and no walk, nor a line that such a walk reads, has to be waited for (that
the slot stays meanwhile is log 20), with the next sequence number, and with what R20 and R197 capture: its words,
the counter, the descriptors of its ring handles, the strides, SKTHR, the VLUT table, the LFSR, the base registers,
the region and the world. R52. Under .rsr the LFSR moves on by one step for each element that the command will
write. R128. The lines of global memory that it writes are claimed, not yet recorded at their homes. The slot goes
on past its 32 bytes; while the queue is full the slot stays. The model's readings or choices that it rests on: log
20, 40. -/
def Obligations.CommandEntry : Prop :=
  ∀ (s : State) (h : BitVec 25) (w1 w2 w3 w4 w5 w6 w7 : BitVec 32), Ready s →
    let i : Instr := .engineQueueEntry h w1 w2 w3 w4 w5 w6 w7
    let op := bits (cmdHeader h) 10 7
    let data := decide (11 ≤ op)
    let queue (t : State) : List Cmd := if data then t.here.dataq else t.here.mixq
    let seq := (if data then s.here.dseq else s.here.mseq) + 1
    let ring (hi lo : Nat) : Option RingDesc := (s.here.ring (bits (cmdHeader h) hi lo)).map (fun r => r.desc)
    let m : Cmd :=
      { header := cmdHeader h, w1 := w1, w2 := w2, w3 := w3, w4 := w4, w5 := w5, w6 := w6, w7 := w7, seq := seq,
        ctr := if bits (cmdHeader h) 30 26 = 0 then none else some (s.g (BitVec.ofNat 5 (bits (cmdHeader h) 30 26))),
        ringA := ring 14 11, ringB := ring 18 15, ringD := ring 22 19,
        strides := (List.range 8).map (fun j => Tab.get 0 s.here.s j), skthr := s.here.skthr, lut := s.here.lut,
        lfsr := s.here.lfsr, base1 := s.g (w2.extractLsb' 0 5), base2 := s.g (w2.extractLsb' 8 5), slot := s.cur.slot,
        uid := s.uid, root := (s.me.task.map (·.root)).getD 0, rid := (s.me.task.map (·.rid)).getD 0,
        secure := s.secure, limit := s.region.cycles.toNat, waited := 0, since := none, carry := [], prog := none, lost := false }
    let w := s.whoCmd s.cur.core m
    let gate := s.walkGate w (m.runs.filter (fun x => x.1.writes))
    legal i = true →
    ((queue s).length < 16 → gate = .go [] → Completes i s (fun t =>
      queue t = queue s ++ [m]
      ∧ (if data then t.here.mixq = s.here.mixq else t.here.dataq = s.here.dataq)
      ∧ (if data then t.here.dseq else t.here.mseq) = seq ∧ (if data then t.me.dqseq else t.me.mqseq) = seq
      ∧ t.here.lfsr = (if w1.extractLsb' 15 3 = 5 then lfsrSteps m.draws s.here.lfsr else s.here.lfsr)
      ∧ t.claims = s.claims ++ (s.claimLines w m).map (fun e =>
          { line := e.1, unit := e.2, core := s.cur.core, data := data, seq := seq, slot := s.cur.slot, recorded := false })
      ∧ (∀ r, t.g r = s.g r) ∧ Advanced s t ∧ SameBytes s t ∧ OtherSlots s t))
    ∧ (16 ≤ (queue s).length ∨ gate = .wait → exec i s = .next (s.latch i))

/-! ### Engine commands (files 08 and 09) -/

/-- R198, R200. A command that retires, with a counter or without, leaves its queue, its sequence number is the last
retired one, its claims are gone, and its flags and its first error enter the sticky status of the slot that queued
it. Its counter is updated by -1, and takes its flags and error (of a command with a live counter that is not
bound). With no error its source slots are freed and its destination slots filled. R193, R198. A command at the head
of a queue whose rings are closed, too small or named twice retires with reason 1, before any other reason (log
102), and without effect; one whose rings do not hold what it needs yet waits. R199. A command that waits at the
head of its queue for longer than its region's budget fails with reason 5, also where it waits for claims, epochs,
walks or lines (log 107) or as a SCAN for entries (log 92); one that has not waited so long stays. The model's
readings or choices that it rests on: log 9, 92, 102, 107. -/
def Obligations.CommandQueues : Prop :=
  (
    ∀ (s : State) (c : Nat) (data : Bool) (m : Cmd) (rest : List Cmd) (flags : BitVec 5) (reason : Nat),
      (s.core c).queue data = m :: rest → s.ringsWrong c m = false → m.ctr = none → reason < 16 →
      let t := s.retire c data m flags reason
      let x := s.slotAt c m.slot
      let y := t.slotAt c m.slot
      (t.core c).queue data = rest ∧ (t.core c).queue (!data) = (s.core c).queue (!data)
      ∧ (if data then (t.core c).drseq else (t.core c).mrseq) = m.seq
      ∧ (∀ q ∈ t.claims, ¬(q.core = c ∧ q.data = data ∧ q.seq = m.seq)) ∧ SameBytes s t
      ∧ (x.runId = m.uid → m.uid ≠ 0 →
        let a := if data then x.dsticky else x.msticky
        (if data then y.dsticky else y.msticky) = { flags := a.flags ||| flags, err := a.err || decide (reason ≠ 0),
                                                    reason := if a.err then a.reason else BitVec.ofNat 4 reason })
      ∧ (reason = 0 → (∀ e ∈ m.pushes, ∀ r, (s.core c).ring e.1 = some r → (t.core c).ring e.1 =
          some { r with tail := (r.tail + e.2) % (r.desc.slots.toNat + 1), filled := r.filled + e.2 })
        ∧ ∀ e ∈ m.pops, ∀ r, (s.core c).ring e.1 = some r → (t.core c).ring e.1 =
          some { r with head := (r.head + e.2) % (r.desc.slots.toNat + 1), filled := r.filled - e.2 })
      ∧ (reason ∈ [1, 2, 3, 5, 6, 7, 11] → ∀ q, (t.core c).ring q = (s.core c).ring q))
  ∧ (
    ∀ (s : State) (c : Nat) (data : Bool) (m : Cmd) (rest : List Cmd) (flags : BitVec 5) (reason p : Nat),
      (s.core c).queue data = m :: rest → s.ringsWrong c m = false → s.cmdCounter c m = some p → s.live p = true →
      s.cntBad p = false → s.cntBind p = 0 → p % 16 = 0 → reason < 16 →
      let t := s.retire c data m flags reason
      let err : BitVec 32 := if reason = 0 then 0 else 0x100
      let part : BitVec 32 := if data = true ∧ reason ∈ [4, 9, 10, 12] then 0x200 else 0
      (t.core c).queue data = rest
      ∧ t.cntValue p = BitVec.ofInt 32 (max (-2 ^ 31) ((s.cntValue p).toInt - 1))
      ∧ t.cntStatus p = s.cntStatus p ||| (flags.setWidth 32 ||| err ||| part)
      ∧ ∀ q, ¬(p ≤ q ∧ q < p + 8) → t.byte q = s.byte q)
  ∧ (
    ∀ (s : State) (core : BitVec 12) (m : Cmd) (rest : List Cmd),
      let c := core.toNat
      let is : List (Bool × Nat × Instr) :=
        [(false, 0, .mma core), (false, 1, .bfly core), (false, 2, .bflyc core), (false, 3, .scan core),
         (false, 4, .tsig core), (false, 5, .tskip core), (false, 6, .tld core), (false, 7, .tst core),
         (false, 8, .tzero core), (false, 9, .tcvt core), (true, 11, .cpy core), (true, 12, .gth core),
         (true, 13, .sct core)]
      ∀ e ∈ is, (s.core c).queue e.1 = m :: rest → m.op = e.2.1 → m.prog = none →
        (s.ringsWrong c m = true → exec e.2.2 s = .next (s.retire c e.1 m 0 1))
        ∧ (s.ringsWrong c m = false → s.ringsReady c m = false → exec e.2.2 s = .next s))
  ∧ (
    ∀ (s : State) (core : BitVec 12) (data : Bool) (m : Cmd) (rest : List Cmd),
      let c := core.toNat
      (s.core c).queue data = m :: rest →
      (m.limit < m.waited → s.headWaits c data m = true →
        exec (.engineStallTimeout core data) s = .next (s.retire c data m 0 5))
      ∧ (m.waited ≤ m.limit → exec (.engineStallTimeout core data) s = .next s))

/-- R203 to R208. MMA, BFLY, BFLYC and SCAN run when their rings, their claims and their own parameters allow it,
SCAN once it has the entries that it takes and there is room for the one that it sends next. R203, R212. An MMA
leaves in its accumulator tile the sum, one tile after another, of the products of its source tiles, from zeros
under ZACC; with its skip bit set it leaves the accumulator as it was. No other tile changes. The model's readings
or choices that it rests on: log 9. -/
def Obligations.ComputeCommands : Prop :=
  (
    ∀ (s : State) (core : BitVec 12) (m : Cmd),
      let c := core.toNat
      let ready := Gated s c false m [] []
      (AtHead s c false 0 m → ready → Carries s (.mma core) c false m (mmaWork s c m))
      ∧ (AtHead s c false 1 m → ready → bflyReason s c m = none → Carries s (.bfly core) c false m (bflyWork s c m))
      ∧ (AtHead s c false 2 m → ready → bflyReason s c m = none → Carries s (.bflyc core) c false m (bflyWork s c m))
      ∧ (AtHead s c false 3 m → ready → scanReason s c m = none → scanNext s c m = some [] →
          Carries s (.scan core) c false m (scanWork s c m)))
  ∧ (
    ∀ (s : State) (c : Nat) (m : Cmd), m.op = 0 → m.acc < 8 →
      let n := m.w2.toNat % 256 + 1
      let t := (mmaWork s c m).s
      let start : Array Nat := if m.opt 1 then Array.replicate 1024 0 else (s.core c).accTile m.acc
      let r := (List.range n).foldl (fun (y : Array Nat × Fp) k =>
        let x := tileNums m.ta m.lut (s.srcSlot c false m.qa k (tileSize m.ta)) y.2
        let z := tileNums m.tb m.lut (s.srcSlot c false m.qb k (tileSize m.tb)) x.2
        mmaTile y.1 x.1 z.1 (m.opt 0) z.2) (start, { flags := 0, lfsr := 1 })
      (m.sg = true → (s.core c).skip.getLsbD m.tslot = true → t = s)
      ∧ ((m.sg && (s.core c).skip.getLsbD m.tslot) = false →
        (∀ e, e < 1024 → (Tab.get (0 : Word) (t.core c).acc (1024 * m.acc + e)).toNat = r.1.getD e 0 % 2 ^ 32)
        ∧ (∀ j, (j < 1024 * m.acc ∨ 1024 * m.acc + 1024 ≤ j) →
            Tab.get (0 : Word) (t.core c).acc j = Tab.get (0 : Word) (s.core c).acc j)
        ∧ (mmaWork s c m).flags = r.2.flags ∧ (s.sourceReason c m = 0 → SameBytes s t)))

/-- R209 to R211. TSIG, TSKIP and the four ECFGs run when their ranges and their slots are large enough. R211.
ECFG.clr clears the skip bits and the references of its range, ECFG.set sets the bits; both leave the rest of the
map as it was. The model's readings or choices that it rests on: log 9. -/
def Obligations.SkipCommands : Prop :=
  (
    ∀ (s : State) (core : BitVec 12) (m : Cmd),
      let c := core.toNat
      let ready := Gated s c false m [] []
      (AtHead s c false 4 m → ready → tsigReason s c m = none → Carries s (.tsig core) c false m (tsigWork s c m))
      ∧ (AtHead s c false 5 m → ready → tskipReason s c m = none → Carries s (.tskip core) c false m (tskipWork s c m))
      ∧ (AtHead s c false 10 m → ready → ecfgReason s c m = none →
        (bits m.w2 1 0 = 0 → Carries s (.ecfgClr core) c false m (ecfgWork s c m))
        ∧ (bits m.w2 1 0 = 1 → Carries s (.ecfgSet core) c false m (ecfgWork s c m))
        ∧ (bits m.w2 1 0 = 2 → Carries s (.ecfgLd core) c false m (ecfgWork s c m))
        ∧ (bits m.w2 1 0 = 3 → Carries s (.ecfgSt core) c false m (ecfgWork s c m))))
  ∧ (
    ∀ (s : State) (c : Nat) (m : Cmd), m.tslot + (m.w4.toNat % 8192 + 1) ≤ 4096 →
      let n := m.w4.toNat % 8192 + 1
      let t := (ecfgWork s c m).s
      let inRange (j : Nat) : Bool := m.tslot ≤ j && j < m.tslot + n
      (bits m.w2 1 0 = 0 →
        (∀ j, j < 4096 → (t.core c).skip.getLsbD j = (!inRange j && (s.core c).skip.getLsbD j))
        ∧ ∀ k, Tab.get (0 : Word) (t.core c).refs k = if inRange (k / 16) then 0 else Tab.get (0 : Word) (s.core c).refs k)
      ∧ (bits m.w2 1 0 = 1 →
        (∀ j, j < 4096 → (t.core c).skip.getLsbD j = (inRange j || (s.core c).skip.getLsbD j))
        ∧ (t.core c).refs = (s.core c).refs))

/-- R213 to R215. TLD and TST run when every row's address passes and no home holds back what they read next; TZERO
and TCVT run. R222, R223. CPY, GTH and SCT run when their rows or their slots pass and no home holds back their next
row or element. R222. The writes of a CPY of one row from the larder into the larder, once they are performed, have
moved its bytes, and no other byte has changed. The model's readings or choices that it rests on: log 9. -/
def Obligations.TransferCommands : Prop :=
  (
    ∀ (s : State) (core : BitVec 12) (m : Cmd),
      let c := core.toNat
      let ready := Gated s c false m [] []
      (∀ xs ls, AtHead s c false 6 m → tileReason .engineRead s c m = none → tldNext s c m = some xs →
        Gated s c false m xs ls → Carries s (.tld core) c false m (tldWork (ls.foldl State.useHome s) c m))
      ∧ (∀ ls, AtHead s c false 7 m → tileReason .engineWrite s c m = none → Gated s c false m [] ls →
        Carries s (.tst core) c false m (tstWork (ls.foldl State.useHome s) c m))
      ∧ (AtHead s c false 8 m → ready → (s.core c).mixw = [] → Completes (.tzero core) s (fun t =>
        (∀ e, e < 1024 → Tab.get (0 : Word) (t.core c).acc (1024 * m.acc + e) = 0)
        ∧ (∀ j, (j < 1024 * m.acc ∨ 1024 * m.acc + 1024 ≤ j) →
            Tab.get (0 : Word) (t.core c).acc j = Tab.get (0 : Word) (s.core c).acc j)
        ∧ (t.core c).mixq = (s.core c).mixq.drop 1 ∧ (t.core c).mrseq = m.seq))
      ∧ (AtHead s c false 9 m → ready → tcvtReason s c m = none → Carries s (.tcvt core) c false m (tcvtWork s c m)))
  ∧ (
    ∀ (s : State) (core : BitVec 12) (m : Cmd),
      let c := core.toNat
      (∀ xs ls, AtHead s c true 11 m → cpyReason s c m = none → cpyNext s c m = some xs → Gated s c true m xs ls →
        Carries s (.cpy core) c true m (cpyWork (ls.foldl State.useHome s) c m))
      ∧ (∀ xs ls, AtHead s c true 12 m → elemReason s c m = none → elemNext s c m = some xs → Gated s c true m xs ls →
        Carries s (.gth core) c true m (elemWork (ls.foldl State.useHome s) c m))
      ∧ (∀ xs ls, AtHead s c true 13 m → elemReason s c m = none → elemNext s c m = some xs → Gated s c true m xs ls →
        Carries s (.sct core) c true m (elemWork (ls.foldl State.useHome s) c m)))
  ∧ (
    ∀ (s : State) (c : Nat) (m : Cmd), m.op = 11 → m.opt 0 = false → m.opt 1 = false → m.cpyRows = 1 → m.prog = none →
      c < 4096 → (s.core c).dataw = [] →
      let n := m.cpyBytes
      let src := m.cpySrc 0
      let dst := m.cpyDst 0
      let inLarder (va : Reg) : Prop := windowBase ≤ va.toNat ∧ va.toNat + n ≤ windowBase + 0xF000
      let place (va : Reg) : Nat := larderAt c (va.toNat - windowBase)
      inLarder src → inLarder dst → (∀ i, i < n → s.bad (place src + i) = false) →
      let t := (cpyWork s c m).s
      let u := (t.core c).dataw.foldl (fun u x => u.performStaged c x) t
      (cpyWork s c m).reason = 0 ∧ (cpyWork s c m).rest = none ∧ SameBytes s t
      ∧ ∀ p, u.byte p = if place dst ≤ p ∧ p < place dst + n then s.byte (place src + (p - place dst)) else s.byte p)

/-- R224, R225. A COLL whose members are all cores of this package, ready, alike and ranked without repetition, with
member tables that can be read and that nothing holds back, is carried out at all of them: each member's command
retires with no error but that of its own slot, and the member's destination slot receives, by kind, the elements of
rank 0, one after another those of every rank, or for each element the combination of that of every rank, which for
an integer type is their sum, greatest or least, wrapped to the type. One whose parameters differ between members
fails at all of them: each member's command retires with reason 11, and no ring, slot or byte of memory has changed.
The model's readings or choices that it rests on: log 9, 42, 96. -/
def Obligations.Collectives : Prop :=
  ∀ (s : State) (core : BitVec 12) (m : Cmd) (rest : List Cmd) (ranks : List Nat) (ls us : List Loc),
    let c := core.toNat
    let u1 := ls.foldl State.useHome s
    let u := us.foldl State.useHome u1
    (s.core c).dataq = m :: rest → m.op = 14 → (s.core c).collFailed.contains m.tag = false →
    s.walkGate (s.whoCmd c m) m.runs = .go [] → s.collBegins c m = none → s.ringsReady c m = true →
    s.engGate c true m (collNext s c m) = .go ls → u1.collRanks c m = some (ranks.map Member.local') →
    u1.collGate c m.tag (ranks.map Member.local') = .go us →
    u.collRanks c m = some (ranks.map Member.local') → c ∈ ranks → ranks.Nodup → (∀ d ∈ ranks, d < 4096) →
    (∀ x ∈ u.collIn, x.tag ≠ m.tag) →
    (∀ d ∈ ranks, ∃ y, u.collHead d m.tag = some y ∧ u.collFails d y = none ∧ u.ringsReady d y = true
      ∧ u.collRanks d y = some (ranks.map Member.local') ∧ (u.collTable d y).2 = []) →
    let n := m.collN
    let w := m.collW
    let share (d : Nat) : List Byte := match u.collHead d m.tag with
      | some y => u.srcSlot d true y.qa 0 (n * w)
      | none => []
    let elem (d j : Nat) : Nat := leNat (((share d).drop (w * j)).take w)
    let noted (t : State) (d : Nat) (y : Cmd) (flags : BitVec 5) (reason : BitVec 4) : Prop :=
      (u.slotAt d y.slot).runId = y.uid → y.uid ≠ 0 →
      let a := (u.slotAt d y.slot).dsticky
      (t.slotAt d y.slot).dsticky = { flags := a.flags ||| flags, err := a.err || decide (reason ≠ 0),
                                      reason := if a.err then a.reason else reason }
    ((∀ d ∈ ranks, ∀ y, u.collHead d m.tag = some y → collSame m y = true ∧ y.prog = none ∧ y.lost = false) →
      Completes (.coll core) s (fun t => t = u.collRun (ranks.map Member.local') m
        ∧ ∀ d ∈ ranks, ∀ y, u.collHead d m.tag = some y →
          (t.core d).dataq = (u.core d).dataq.drop 1
          ∧ ((∀ e ∈ ranks, ∀ z, u.collHead e m.tag = some z → z.ctr = none) →
            noted t d y (collOut m (ranks.map (fun e => some (share e)))).2 (if u.srcBad d y.qa 0 (n * w) then 4 else 0)
            ∧ ∀ r, (u.core d).ring y.qd = some r → (∀ e ∈ ranks, ∀ z q, u.collHead e m.tag = some z →
                (u.core e).ring z.qd = some q → q.desc.win = 0 ∧ q.desc.offset.toNat + q.desc.count * q.desc.size ≤ 0xF000) →
              let got (j : Nat) : Nat := leNat (t.peek (r.desc.place d (r.tail % r.desc.count) + w * j) w)
              (m.collKind = 0 → ∀ j, j < n → got j = elem (ranks.headD 0) j)
              ∧ (m.collKind = 4 → ∀ k e j, ranks[k]? = some e → j < n → got (k * n + j) = elem e j)
              ∧ (1 ≤ m.collKind → m.collKind ≤ 3 → isInt m.td = true → ∀ j, j < n →
                let xs := ranks.map (fun e => laneInt m.td (elem e j))
                got j = (((if m.collKind = 1 then xs.sum else if m.collKind = 2 then xs.foldl max (xs.headD 0)
                  else xs.foldl min (xs.headD 0)) % 2 ^ (8 * w)).toNat))
              ∧ (1 ≤ m.collKind → m.collKind ≤ 3 → isFloat m.td = true → ∀ j, j < n →
                got j = ((eachLane (collElem m (ranks.map (fun e => some (share e)))) (List.range n)
                  { flags := 0, lfsr := 1 }).1.getD j 0) % 2 ^ (8 * w)))))
    ∧ ((∃ d ∈ ranks, ∃ y, u.collHead d m.tag = some y ∧ collSame m y = false) →
      Completes (.coll core) s (fun t => ∀ d ∈ ranks, ∀ y, u.collHead d m.tag = some y →
        (t.core d).dataq = (u.core d).dataq.drop 1
        ∧ ((∀ e ∈ ranks, ∀ z, u.collHead e m.tag = some z → z.ctr = none) →
          noted t d y 0 11 ∧ SameBytes u t ∧ ∀ q, (t.core d).ring q = (u.core d).ring q)))

/-! ### Messages, tasks, neighbours and convoys (file 09) -/

/-- R227, R228. MSG and MSGH with a header and a delivery word that R228 takes, and a source in the own larder: one
message leaves, with the bytes of the source as its code and payload, and nothing else changes. R228. A header with
a reserved bit set, or that names a ring, sends nothing: a data fault whose XVAL is the header. The model's readings
or choices that it rests on: log 62, 95. -/
def Obligations.Messages : Prop :=
  (
    ∀ (s : State) (d a b : BitVec 5) (ch : BitVec 2) (dst : Nat), Ready s →
      let h := s.g b
      let w := s.g d
      let len := w.toNat / 2 ^ 18 % 64
      let away := h.getLsbD 63 && h.toNat / 2 ^ 51 % 2 ^ 12 ≠ s.package.toNat
      let sent (n : Nat) (code : Option (List Byte)) (payload : List Byte) (t : State) : Prop :=
        (∃ m : Message, (if away then t.remote = s.remote ++ [m] ∧ t.net = s.net
            else t.net = s.net ++ [m] ∧ t.remote = s.remote)
          ∧ m.src = s.cur.core ∧ m.slot = s.cur.slot ∧ m.uid = s.uid ∧ m.dst = dst ∧ m.chan = ch ∧ m.code = code
          ∧ m.payload = payload ∧ m.payload.length = n ∧ m.dwin = w.getLsbD 17 ∧ m.doff = 8 * (w.toNat % 2 ^ 17)
          ∧ m.ctr = hdrCtr h ∧ m.header = h ∧ m.tenant = s.region.tenant ∧ m.secure = s.secure ∧ m.pkg = none
          ∧ m.fence = s.fence)
        ∧ SameBut (fun s => { s with cores := [], net := [], remote := [] }) s t ∧ SameCores s t ∧ OtherSlots s t
        ∧ SameSlotButPc s t ∧ Advanced s t
      let bytes (n : Nat) : List Byte := s.peek (larderAt s.cur.core ((s.g a).toNat - windowBase)) n
      hdrBad h = false → hdrQh h = 0 → hdrTarget s.cur.core h = some dst → dwBad w = false →
      (len = 0 ∨ (InLarder s (s.g a) (8 * len) ∧ (s.g a).toNat % 8 = 0) →
        Completes (.msg d a b ch) s (sent (8 * len) none (bytes (8 * len))))
      ∧ (InLarder s (s.g a) (8 * len + 64) → (s.g a).toNat % 8 = 0 →
        Completes (.msgh d a b ch) s
          (sent (8 * len) (some ((bytes (8 * len + 64)).take 64)) ((bytes (8 * len + 64)).drop 64))))
  ∧ (
    ∀ (s : State) (d a b : BitVec 5) (ch : BitVec 2), Ready s → (hdrBad (s.g b) = true ∨ hdrQh (s.g b) ≠ 0) →
      TrapReady s 0x06 (s.g b) s.base →
      Completes (.msg d a b ch) s (fun t => Traps s t 0x06 (s.g b) s.base ∧ t.net = s.net ∧ t.remote = s.remote)
      ∧ Completes (.msgh d a b ch) s (fun t => Traps s t 0x06 (s.g b) s.base ∧ t.net = s.net ∧ t.remote = s.remote))

/-- R229. The oldest message of an inbox whose tenant and world the core runs: its payload is written at its offset
of the larder or the cellar, and without a handler the message leaves the inbox; the counter that it names, if one,
is then updated as by CNT.SIG. R231, R232. With a handler its context takes the payload's address, its length and
the sender, and every other register at zero, and the message stays. The handler runs its next instruction in a
move; at a TEND, or once it reaches offset 64, it ends; a word that it may not use, or that is none, and a budget
that is spent are a handler fault; and the message leaves with a later move, once every write of the handler is
performed: that the moves are these rests on the model's step, and the causes of a handler fault on its reading (log
73). A message of another tenant is discarded, with no byte of a larder or a cellar changed. The model's readings or
choices that it rests on: log 73. -/
def Obligations.MessageDelivered : Prop :=
  (
    ∀ (s : State) (core : BitVec 12) (m : Message) (rest : List Message) (root : Nat) (r : Region),
    let c := core.toNat
    let p := if m.dwin then cellarAt (clusterOf c) m.doff else larderAt c m.doff
    let landed (t : State) : Prop := ∀ q, t.byte q =
      if p ≤ q ∧ q < p + m.payload.length then m.payload.getD (q - p) 0 else s.byte q
    (s.core c).inbox = m :: rest → (s.core c).delivery = .idle → s.coreRegion c = some (root, r) →
    (r.tenant = m.tenant → r.secure = m.secure → s.coversCounter p m.payload.length = false →
      (m.code = none → m.ctr = none → Completes (.messageDelivery core) s (fun t =>
        landed t ∧ (t.core c).inbox = rest ∧ (t.core c).delivery = .idle ∧ ∀ c' k, t.slotAt c' k = s.slotAt c' k))
      ∧ (∀ off, m.code = none → m.ctr = some off →
        let k := cellarAt (clusterOf c) off
        let old := (s.cntValue k).toInt
        s.live k = true → s.cntBad k = false → s.cntBind k = 0 → k % 16 = 0 → Completes (.messageDelivery core) s (fun t =>
          (t.core c).inbox = rest ∧ (t.core c).delivery = .idle
          ∧ t.cntValue k = BitVec.ofInt 32 (max (-2 ^ 31) (old - 1)) ∧ t.cntStatus k = s.cntStatus k
          ∧ (∀ q, ¬(k ≤ q ∧ q < k + 8) → t.byte q = if p ≤ q ∧ q < p + m.payload.length then m.payload.getD (q - p) 0
              else s.byte q)
          ∧ (old = 1 → AllWake s t (.counter k) ((s.cntStatus k).setWidth 64))
          ∧ (old ≠ 1 → ∀ c' k', t.slotAt c' k' = s.slotAt c' k')))
      ∧ (∀ code, m.code = some code →
        Completes (.messageDelivery core) s (fun t => landed t ∧ (t.core c).inbox = m :: rest
          ∧ (t.core c).delivery = .running
          ∧ (let x := t.slotAt c 8
            x.pc = 0 ∧ x.fstat = 0 ∧ x.wait = .none ∧ x.budget = r.cycles
            ∧ ∀ i, x.gReg i =
              if i = 4 then BitVec.ofNat 64 (windowBase + (if m.dwin then 2 ^ 32 else 0) + m.doff)
              else if i = 5 then BitVec.ofNat 64 m.payload.length
              else if i = 6 then BitVec.ofNat 64 ((htid m.src m.slot).toNat + (m.pkg.elim 0 (·.toNat)) * 2 ^ 16) else 0)
          ∧ ∀ c' k, (c' ≠ c ∨ k ≠ 8) → t.slotAt c' k = s.slotAt c' k)))
    ∧ (r.tenant ≠ m.tenant ∨ r.secure ≠ m.secure → Completes (.messageDelivery core) s (fun t =>
        (t.core c).inbox = rest ∧ ∀ q, 2 ^ 56 ≤ q → q < 2 ^ 58 → t.byte q = s.byte q)))
  ∧ (
    ∀ (s : State) (core : BitVec 12) (m : Message) (rest : List Message) (code : List Byte),
      let c := core.toNat
      let x := s.slotAt c 8
      let word := decode ((code.drop x.pc.toNat).take 4)
      let u := (({ s with cur := { core := c, slot := 8, len := 4, code := none } } : State).setSlotAt c 8
        { x with latched := none })
      let ends (fault : Bool) (t : State) : Prop := (t.core c).inbox = m :: rest ∧ (t.core c).delivery = .ended fault
        ∧ t.slotAt c 8 = Slot.reset
      c < 4096 → (s.core c).inbox = m :: rest → (s.core c).delivery = .running → m.code = some code →
      (x.budgetDue = true → Completes (.messageDelivery core) s (ends true))
      ∧ (x.budgetDue = false →
        (64 ≤ x.pc.toNat → Completes (.messageDelivery core) s (ends false))
        ∧ (x.pc.toNat + 4 ≤ 64 →
          (((∃ e, word = .error e) ∨ ∃ i n, word = .ok (i, n) ∧ handlerMay i = false) →
            Completes (.messageDelivery core) s (ends true))
          ∧ (word = .ok (.tend, 4) → Completes (.messageDelivery core) s (ends false))
          ∧ ∀ i n t, word = .ok (i, n) → handlerMay i = true → handlerBranch i = false → x.owes i = false →
            execWord i (u.past c 8 i x.latched.isSome) = .next t → (t.slotAt c 8).task.isSome = true →
            (t.slotAt c 8).hnd = false → exec (.messageDelivery core) s = .next t)))
  ∧ (
    ∀ (s : State) (core : BitVec 12) (m : Message) (rest : List Message) (fault : Bool),
      let c := core.toNat
      let due := (∃ e ∈ (s.core c).sb, e.slot = 8) ∨ ∃ q ∈ s.posted, q.src = c ∧ q.slot = 8
      (s.core c).inbox = m :: rest → (s.core c).delivery = .ended fault →
      (due → exec (.messageDelivery core) s = .next s)
      ∧ (¬due → Completes (.messageDelivery core) s (fun t => (t.core c).inbox = rest ∧ (t.core c).delivery = .idle
        ∧ (m.ctr = none → SameBytes s t ∧ ∀ c' k, t.slotAt c' k = s.slotAt c' k)
        ∧ ∀ off, m.ctr = some off →
          let k := cellarAt (clusterOf c) off
          s.live k = true → s.cntBad k = false → s.cntBind k = 0 → k % 16 = 0 →
            t.cntValue k = BitVec.ofInt 32 (max (-2 ^ 31) ((s.cntValue k).toInt - 1))
            ∧ t.cntStatus k = if fault then s.cntStatus k ||| 0x100 else s.cntStatus k)))

/-- R233. SPAWN of a record in the own larder, once its release is complete, pushes an entry at the newest end of
the deque and gives 1; on a full deque it gives 0 and pushes nothing. Until its release is complete the slot stays,
with the copy of the record that it took at issue, and that copy is what it pushes. R236, R237. TEND leaves its slot
at reset, with none of its convoy ports open and none of its lock requests waiting; TSELF gives the identity of the
running task. -/
def Obligations.Tasks : Prop :=
  (
    ∀ (s : State) (d a : BitVec 5) (x : Task), Ready s → s.me.task = some x →
      let released := s.released s.cur.core s.cur.slot 3
      let pushes (r : Record) (t : State) : Prop := WritesG s t d 1
        ∧ (∃ e : Entry, t.here.deque = s.here.deque ++ [e] ∧ e.record = r ∧ e.addr = s.g a ∧ e.root = x.root
          ∧ e.origin = .package)
        ∧ Advanced s t ∧ OtherSlots s t ∧ t.me.copied = none
        ∧ { t.me with g := [], pc := 0, copied := none } = { s.me with g := [], pc := 0, copied := none }
        ∧ SameBut (fun s => { s with cores := [], stamp := 0 }) s t
        ∧ ∀ c, { t.core c with slots := [], deque := [] } = { s.core c with slots := [], deque := [] }
      let stays (r : Record) (t : State) : Prop := t.me.copied = some r ∧ t.base = s.base ∧ t.me.latched.isSome = true
        ∧ (∀ r, t.g r = s.g r) ∧ t.here.deque = s.here.deque ∧ SameBytes s t ∧ OtherSlots s t
      (s.me.copied = none → RecordOk s (s.g a) x →
        (released = true →
          (s.here.deque.length < 64 → Completes (.spawn d a) s (pushes (recordAt s (s.g a))))
          ∧ (64 ≤ s.here.deque.length → Completes (.spawn d a) s (fun t => Gives s t d 0)))
        ∧ (released = false → Completes (.spawn d a) s (stays (recordAt s (s.g a)))))
      ∧ (∀ r, s.me.copied = some r →
        (released = true → s.here.deque.length < 64 → Completes (.spawn d a) s (pushes r))
        ∧ (released = false → Completes (.spawn d a) s (stays r))))
  ∧ (
    ∀ (s : State) (d : BitVec 5),
      let r := s.region
      Completes .tend s (fun t => t.me = Slot.reset
        ∧ (∀ e ∈ t.here.ports, ¬(e.2.slot = s.cur.slot ∧ e.2.uid = s.uid))
        ∧ (∀ l ∈ t.locks, ∀ w ∈ l.waiters, w.uid ≠ s.uid)
        ∧ (s.me.caravan = false → SameBytes s t ∧ t.bars = s.bars ∧ t.waystations = s.waystations))
      ∧ Completes (.tself d) s (fun t => Gives s t d (BitVec.ofNat 64
          ((match s.me.task with
            | some x => x.rid.toNat
            | none => 0) * 2 ^ 48 + (r.h - 1) % 64 * 2 ^ 42 + (r.w - 1) % 64 * 2 ^ 36
          + (yOf s.cur.core - r.y) % 64 * 2 ^ 30 + (xOf s.cur.core - r.x) % 64 * 2 ^ 24 + s.cur.slot % 8))))

/-- R234. CNT.BIND on a live counter: it keeps the record's address and gives 0 while the value is above zero; at
zero or below the task becomes ready at once; a counter that is bound already gives 1. The record of a fired binding
is read and its task placed in the ready queue of the core that bound it, or behind that while it is full; a read
that waits goes back, or asks for its line, and goes on with BOUND_TASK_READY (log 20); one that fails is reported
with event 0x0A and the record's address, and an error that its walk met in the fault queue as well (log 64), and no
task is made ready. A record in that core's larder is taken when it is clean and names a region at or below that of
the binder, and is else a failed check of cause 0x06. R332. Only the spill area of the larder changes with a ready
queue. The model's readings or choices that it rests on: log 20, 30, 64, 83. -/
def Obligations.Bindings : Prop :=
  (
    ∀ (s : State) (d a b : BitVec 5) (p : Nat) (x : Task), Ready s →
      s.cntAt s.cur.core s.secure (s.g a) = .ok p → s.live p = true → s.bad p = false → s.bad (p + 8) = false →
      RecordOk s (s.g b) x → s.released s.cur.core s.cur.slot 3 = true →
      let who : Counter := { core := s.cur.core, root := x.root, rid := x.rid, secure := s.secure }
      let spill (q : Nat) : Prop := larderAt s.cur.core 0xF000 ≤ q ∧ q < larderAt s.cur.core 0x10000
      (s.cntBind p = 0 → 0 < (s.cntValue p).toInt →
        s.fenceHoldsAt s.cur.core s.cur.slot s.fence p = false →
        (∀ y ∈ s.posted, y.before s.cur.core p .sig = false) → Completes (.cntBind d a b) s (fun t => WritesG s t d 0
        ∧ t.cntBind p = s.g b ∧ Tab.find t.counters p = some who ∧ Advanced s t ∧ SameSlotButG s t ∧ OtherSlots s t
        ∧ ∀ q, ¬(p + 8 ≤ q ∧ q < p + 16) → t.byte q = s.byte q))
      ∧ (s.cntBind p = 0 → (s.cntValue p).toInt ≤ 0 → s.here.ready.length < 80 →
        Completes (.cntBind d a b) s (fun t => WritesG s t d 0 ∧ Advanced s t ∧ OtherSlots s t
          ∧ (∀ q, ¬spill q → t.byte q = s.byte q)
          ∧ t.here.ready.length = s.here.ready.length + 1
          ∧ ∃ e ∈ t.here.ready, e.record = recordAt s (s.g b) ∧ e.addr = s.g b ∧ e.root = x.root))
      ∧ (s.cntBind p ≠ 0 → Completes (.cntBind d a b) s (fun t => Gives s t d 1)))
  ∧ (
    ∀ (s : State) (k : Nat) (f : Fired), s.fired[k]? = some f →
      exec (.boundTaskReady k) s = .next (({ s with fired := s.fired.eraseIdx k } : State).bound f))
  ∧ (
    ∀ (s : State) (f : Fired),
      let c := f.who.core
      let spill (q : Nat) : Prop := larderAt c 0xF000 ≤ q ∧ q < larderAt c 0x10000
      let is (e : Entry) (r : Record) : Prop := e.record = r ∧ e.addr = f.record ∧ e.root = f.who.root
      let t := s.bound f
      let vf := (s.regionBy f.who.root f.who.rid).vf
      let u := if s.walkNeeded c vf f.who.secure f.record.toNat
        then (s.walkLocs vf f.who.secure f.record.toNat).foldl State.useHome s else s
      let told (v : State) (e : Cause) : State :=
        v.report (regionReport v f.who.root f.who.rid 0x0A e (8 * c) f.record 0 0)
      (∀ r used, s.boundRead f = .ok r used → t.fired = s.fired ∧ (∀ c' j, t.slotAt c' j = s.slotAt c' j)
        ∧ ((∀ l, used = some l → l.ms = false) → ∀ q, ¬spill q → t.byte q = s.byte q)
        ∧ ((s.core c).ready.length < 80 → (t.core c).ready.length = (s.core c).ready.length + 1
            ∧ ∃ e ∈ (t.core c).ready, is e r)
        ∧ (80 ≤ (s.core c).ready.length → (t.core c).ready = (s.core c).ready
            ∧ ∃ e, (t.core c).waiting = (s.core c).waiting ++ [e] ∧ is e r))
      ∧ (s.boundRead f = .wait → t = { s with fired := s.fired ++ [f] })
      ∧ (∀ tenant l, s.boundRead f = .fill tenant l → t = { s.askLine tenant l with fired := s.fired ++ [f] })
      ∧ (∀ e, s.boundRead f = .fault e none → t = told u e)
      ∧ (∀ e l, s.boundRead f = .fault e (some l) →
          t = told (if e = 0x09 then u.faqAdd 5 l.place else u.noteError l) e)
      ∧ (let p := larderAt c (f.record.toNat - windowBase)
        let r := recordOf (s.peek p 64)
        c < 4096 → windowBase ≤ f.record.toNat → f.record.toNat + 64 ≤ windowBase + 0xF000 → f.record.toNat % 64 = 0 →
        (∀ i, i < 64 → s.bad (p + i) = false) → s.coversCounter p 64 = false → l1Find (s.core c).l1 (p / 128) false = none →
        let okay := r.clean = true ∧ s.below f.who.root f.who.rid r.rid = true
        (okay → ∃ l, s.boundRead f = .ok r (some l) ∧ l.place = p ∧ l.ms = false)
        ∧ (¬okay → s.boundRead f = .fault 0x06 none)))

/-- R238 to R241. NPUT sends an entry towards the mailbox of its neighbour's side, stays while that has no room, and
traps with the direction where there is none; NGET takes the oldest entry or parks, and goes on with the entry that
it was given while it was parked; NPEEK counts; NCFG gives the old setting and takes a new one. R239, R240, R208. An
entry arrives once those of its sender before it have, and every network write before the sender's last FENCE.net is
performed: the slot or the SCAN that has waited longest on the mailbox gets it, else it goes to the mailbox's end.
The model's readings or choices that it rests on: log 43. -/
def Obligations.Neighbours : Prop :=
  (
    ∀ (s : State) (d a v : BitVec 5) (e : BitVec 2), Ready s →
      let c := s.cur.core
      let box (t : State) : List Vec := t.mailbox c e.toNat
      (∀ n, s.neighbour e.toNat = some n → 1 ≤ s.mailRoom n ((e.toNat + 2) % 4) →
        let x : NEntry := { src := c, dst := n, dir := e + 2, slot := s.cur.slot, uid := s.uid, fence := s.fence,
                            data := s.v v }
        exec (.nput v e) s = .next ({ s with nnet := s.nnet ++ [x] } : State).adv)
      ∧ (∀ n, s.neighbour e.toNat = some n → s.mailRoom n ((e.toNat + 2) % 4) = 0 →
        exec (.nput v e) s = .next (s.latch (.nput v e)))
      ∧ (s.neighbour e.toNat = none → TrapReady s 0x06 (e.setWidth 64) s.base →
        Completes (.nput v e) s (fun t => Traps s t 0x06 (e.setWidth 64) s.base ∧ t.nnet = s.nnet))
      ∧ (∀ x rest, box s = x :: rest → Completes (.nget v e) s (fun t =>
          WritesV s t v x ∧ box t = rest ∧ Advanced s t ∧ SameSlotButV s t ∧ OtherSlots s t
          ∧ SamePackage s t ∧ ∀ c', { t.core c' with slots := [], mail := [] } = { s.core c' with slots := [], mail := [] }))
      ∧ (box s = [] → Completes (.nget v e) s (fun t => Parks s t (.mailbox e)))
      ∧ Completes (.npeek d e) s (fun t => Gives s t d (match s.neighbour e.toNat with
          | none => BitVec.ofNat 64 (2 ^ 63 + (box s).length % 8)
          | some n => BitVec.ofNat 64 (s.mailRoom n ((e.toNat + 2) % 4) % 8 * 2 ^ 8 + (box s).length % 8)))
      ∧ (a = 0 ∨ ncfgBad (s.g a) = false → Completes (.ncfg d a) s (fun t =>
          WritesG s t d (s.here.ncfg.setWidth 64) ∧ t.here.ncfg = (if a = 0 then s.here.ncfg else (s.g a).setWidth 8)
          ∧ Advanced s t ∧ SameSlotButG s t ∧ OtherSlots s t ∧ SamePackage s t
          ∧ ∀ c', { t.core c' with slots := [], ncfg := 0 } = { s.core c' with slots := [], ncfg := 0 })))
  ∧ (
    ∀ (s : State) (v : BitVec 5) (e : BitVec 2) (x : Vec), s.me.wait = .entry x →
      Completes (.nget v e) s (fun t => WritesV s t v x ∧ Advanced s t ∧ t.me.wait = .none ∧ SamePackage s t
        ∧ SameCores s t ∧ OtherSlots s t
        ∧ { t.me with v := [], pc := 0, wait := .none } = { s.me with v := [], pc := 0, wait := .none }))
  ∧ (
    ∀ (s : State) (k : Nat) (e : NEntry), s.nnet[k]? = some e →
      (∀ x ∈ s.nnet.take k, ¬(x.src = e.src ∧ x.dst = e.dst ∧ x.dir = e.dir)) →
      s.fenceHolds e.src e.slot e.fence = false →
      let box (t : State) : List Vec := t.mailbox e.dst e.dir.toNat
      let slot := oldestParked e.dir (s.core e.dst).slots
      let scan := s.scanWaiter e.dst e.dir.toNat
      Completes (.mailboxEntryArrival k) s (fun t => t.nnet = s.nnet.eraseIdx k ∧ SameBytes s t
        ∧ (slot = none → scan = none → box t = box s ++ [e.data] ∧ ∀ c j, t.slotAt c j = s.slotAt c j)
        ∧ (∀ j x, slot = some (j, x) → (∀ m at', scan = some (m, at') → x.parkedAt < at') → box t = box s
          ∧ t.slotAt e.dst j = { x with wait := .entry e.data }
          ∧ ∀ c i, (c ≠ e.dst ∨ i ≠ j) → t.slotAt c i = s.slotAt c i)
        ∧ (∀ m at', scan = some (m, at') → (∀ j x, slot = some (j, x) → at' ≤ x.parkedAt) → box t = box s
          ∧ (t.core e.dst).mixq.head?.map (·.carry) = some (m.carry ++ [e.data])
          ∧ ∀ c j, t.slotAt c j = s.slotAt c j)))

/-- R242 to R244. CONV.OPEN takes a free port and sends its opening flit, or gives all ones where none is free;
CONV.PUT sends the 64 bytes; CONV.CLOSE sends its marker and stays until the receiver has answered, then frees the
port and gives the answer. R242 to R244, R139. At its receiver, in issue order and behind the sender's FENCE.net, an
opening flit opens the stream; 64 bytes go to the tail slot of its ring, which is pushed with its last ones; the
closing flit ends the stream, and the sender learns that it was not aborted. A flit from the other world changes no
byte and no ring (15 R376; that the stream is taken as aborted is the model's choice, log 108). The model's readings
or choices that it rests on: log 59, 98, 108. -/
def Obligations.Convoys : Prop :=
  (
    ∀ (s : State) (d a b v : BitVec 5), Ready s →
      let h := s.g b
      let k := (s.g a).toNat
      let flit (port : Nat) (p : ConvPort) (f : Flit) : ConvFlit :=
        { src := s.cur.core, slot := s.cur.slot, uid := s.uid, port := port, serial := p.serial, dst := p.dst, qh := p.qh,
          ctr := p.ctr, flit := f, fence := s.fence, secure := s.secure }
      (∀ dst, hdrBad h = false → h.getLsbD 63 = false → hdrTarget s.cur.core h = some dst →
        ((∃ j, j < 4 ∧ Tab.find s.here.ports j = none) → Completes (.convOpen d b) s (fun t =>
          ∃ port p, port < 4 ∧ Tab.find s.here.ports port = none ∧ Tab.find t.here.ports port = some p
            ∧ p.slot = s.cur.slot ∧ p.uid = s.uid ∧ p.dst = dst ∧ p.qh = hdrQh h ∧ p.ctr = hdrCtr h
            ∧ p.closing = false ∧ p.answer = none ∧ t.cnet = s.cnet ++ [flit port p .opening]
            ∧ WritesG s t d (BitVec.ofNat 64 port) ∧ Advanced s t ∧ SameSlotButG s t ∧ OtherSlots s t ∧ SameBytes s t))
        ∧ ((∀ j, j < 4 → Tab.find s.here.ports j ≠ none) →
          Completes (.convOpen d b) s (fun t => Gives s t d 0xFFFFFFFFFFFFFFFF)))
      ∧ (∀ p, Tab.find s.here.ports k = some p → p.slot = s.cur.slot → p.uid = s.uid →
        ((s.cnet.filter (fun f => f.src = s.cur.core && f.port = k && f.serial = p.serial)).length ≤ Config.convoyCredit →
          exec (.convPut a v) s = .next ({ s with cnet := s.cnet ++ [flit k p (.data (s.v v))] } : State).adv)
        ∧ (p.answer = none → p.closing = false → Completes (.convClose d a) s (fun t =>
            t.cnet = s.cnet ++ [flit k p .closing] ∧ Tab.find t.here.ports k = some { p with closing := true }
            ∧ t.base = s.base ∧ t.me.latched.isSome = true ∧ ∀ r, t.g r = s.g r))
        ∧ (∀ aborted, p.answer = some aborted → Completes (.convClose d a) s (fun t =>
            WritesG s t d (if aborted then 1 else 0) ∧ Tab.find t.here.ports k = none ∧ t.cnet = s.cnet
            ∧ Advanced s t ∧ SameSlotButG s t ∧ OtherSlots s t ∧ SameBytes s t))))
  ∧ (
    ∀ (s : State) (k : Nat) (f : ConvFlit) (r : Ring), s.cnet[k]? = some f →
      (∀ x ∈ s.cnet.take k, ¬(x.src = f.src ∧ x.port = f.port ∧ x.serial = f.serial)) →
      s.fenceHolds f.src f.slot f.fence = false →
      let c := f.dst
      let same (x : ConvStream) : Bool := x.src = f.src && x.port = f.port && x.serial = f.serial
      let stream (t : State) : Option ConvStream := (t.core c).streams.find? same
      let foreign := s.clusterWorld (clusterOf c) = some (!f.secure)
      (foreign → Completes (.convoyFlitArrival k) s (fun t => t.cnet = s.cnet.eraseIdx k ∧ SameBytes s t
        ∧ (∀ c' q, (t.core c').ring q = (s.core c').ring q) ∧ t.counters = s.counters))
      ∧ (¬foreign → (f.flit = .opening → stream s = none → (s.core c).ring f.qh.toNat = some r → r.desc.win.toNat ≤ 1 →
        Completes (.convoyFlitArrival k) s (fun t => t.cnet = s.cnet.eraseIdx k ∧ SameBytes s t
          ∧ stream t = some { src := f.src, port := f.port, serial := f.serial, qh := f.qh, ctr := f.ctr, pos := 0,
                              aborted := false }))
      ∧ (∀ x, stream s = some x → x.aborted = false → (s.core c).ring x.qh.toNat = some r → r.desc.win.toNat ≤ 1 →
        (∀ v, f.flit = .data v → r.filled < r.desc.slots.toNat + 1 →
          let p := r.desc.place c r.tail + x.pos
          s.coversCounter p 64 = false →
          Completes (.convoyFlitArrival k) s (fun t => t.cnet = s.cnet.eraseIdx k
            ∧ (∀ q, t.byte q = if p ≤ q ∧ q < p + 64 then v.extractLsb' (8 * (q - p)) 8 else s.byte q)
            ∧ (if (r.desc.slotsz.toNat + 1) * 64 ≤ x.pos + 64
               then stream t = some { x with pos := 0 } ∧ (t.core c).ring x.qh.toNat = some (r.push 1)
               else stream t = some { x with pos := x.pos + 64 } ∧ (t.core c).ring x.qh.toNat = some r)))
        ∧ (f.flit = .closing → x.ctr = none → x.pos = 0 → Completes (.convoyFlitArrival k) s (fun t =>
            t.cnet = s.cnet.eraseIdx k ∧ stream t = none ∧ SameBytes s t
            ∧ ∀ p, Tab.find (s.core f.src).ports f.port = some p → p.serial = f.serial →
                Tab.find (t.core f.src).ports f.port = some { p with answer := some false })))))

/-! ### Caravans and the manifest (file 10) -/

/-- R245, R248, R249. MEET of a caravan that holds no place, at a node of plain memory, once its release is
complete: the first arrival at a waystation with room opens an entry and gives 0, a later one joins it and gives 1,
a closed entry gives 2; CVSTEP advances by 1, CVNODE is the node, and the triple is kept for the later steps. R245,
R250. DEPART of a caravan that holds a place: the leader, which is the opener or, at a gated group, the lowest
record, takes the gathered members, closes the entry, and gives 0 with an acquire; another gives 1 and has no
members left. MEET and DEPART outside a caravan are illegal instructions. R246, R253. GATE of a gated caravan after
its MEET arrives at the step gate of its group, once its release is complete: the last caravan to arrive completes
the phase and goes on with 0, another parks. Woken by a completion it goes on with 0. The model's readings or
choices that it rests on: log 61, 70. -/
def Obligations.CaravansMeet : Prop :=
  (
    ∀ (s : State) (d a : BitVec 5) (l : Loc), Ready s → s.me.caravan = true → s.me.atws = false → s.me.met = false →
      s.check (s.who s.cur.core s.cur.slot)
        (fun va => (s.slotFind s.cur.core s.cur.slot va).map (fun r => r.map (fun t => { t with key := 0 })))
        .load (s.g a) 1 1 = some (.ok (.at' l)) →
      l.ms = false → storeOf l.place = .hbm → s.silent s.cur.core = false →
      let u := s.keepTlb s.cur.core s.cur.slot (s.g a).toNat
      u.released s.cur.core s.cur.slot 3 = true →
      let step := s.me.cvstep + 1
      let triple : Triple := { vf := s.region.vf, secure := s.secure, group := s.me.cvgroup,
                               node := (s.g a).setWidth 52, step := step }
      let slice := u.homeSlice l.place
      let old (e : Waystation) : Bool := e.slice = slice && e.spent && e.triple.vf == triple.vf
        && e.triple.secure == triple.secure && e.triple.group == triple.group && e.triple.step < triple.step
      let left := u.waystations.filter (fun e => !old e)
      let there := left.find? (fun e => e.slice = slice && e.triple == triple)
      let met (status : Reg) (t : State) : Prop :=
        WritesG s t d status ∧ Advanced s t ∧ OtherSlots s t ∧ SameBytes s t
          ∧ t.me.cvstep = step ∧ t.me.cvnode = (s.g a).setWidth 52 ∧ t.me.triple = triple ∧ t.me.wslice = slice
          ∧ t.me.atws = decide (status ≤ 1) ∧ t.me.met = s.me.cvgroup.getLsbD 15 ∧ t.me.mb = s.me.mb
      let addr := match s.me.task with
        | some x => x.addr
        | none => 0
      (there = none → (left.filter (fun e => e.slice = slice)).length < 32 → Completes (.meet d a) s (fun t => met 0 t
        ∧ t.waystations = left ++ [{ slice := slice, triple := triple, members := s.me.mb, low := addr,
                                     opener := s.uid, held := 1, closed := false }]))
      ∧ (∀ e, there = some e → e.closed = false → Completes (.meet d a) s (fun t => met 1 t
        ∧ t.wayAt slice triple = some { e with members := e.members ||| s.me.mb
                                               low := if addr < e.low then addr else e.low, held := e.held + 1 }))
      ∧ (∀ e, there = some e → e.closed = true → Completes (.meet d a) s (fun t => met 2 t ∧ t.waystations = left)))
  ∧ (
    ∀ (s : State) (d a : BitVec 5), Ready s →
      (∀ e, s.me.caravan = true → s.me.atws = true → (s.me.triple.group.getLsbD 15 = false ∨ s.me.passed = true) →
        s.wayAt s.me.wslice s.me.triple = some e → s.silent s.cur.core = false →
        let addr := (s.me.task.map (·.addr)).getD 0
        let lead := if s.me.triple.group.getLsbD 15 then e.low == addr else decide (e.opener = s.uid)
        Completes (.depart d) s (fun t => WritesG s t d (if lead then 0 else 1) ∧ Advanced s t ∧ SameBytes s t
          ∧ t.me.atws = false ∧ t.me.mb = (if lead then e.members else 0) ∧ OtherSlots s t
          ∧ t.wayAt s.me.wslice s.me.triple = some { e with held := e.held - 1, closed := e.closed || lead }
          ∧ (lead = true → Acquired s t)))
      ∧ (s.me.caravan = false → ∀ x y, TrapReady s 0x01 x s.base → TrapReady s 0x01 y s.base →
        x = illegalXval s.cur.code (wordOfInstr (.meet d a)) 0 → y = illegalXval s.cur.code (wordOfInstr (.depart d)) 0 →
        Completes (.meet d a) s (fun t => Traps s t 0x01 x s.base)
        ∧ Completes (.depart d) s (fun t => Traps s t 0x01 y s.base)))
  ∧ (
    ∀ (s : State) (d : BitVec 5), s.me.caravan = true →
      let r := s.region
      let b := 1024 * clusterOf (coreAt r.x r.y) + s.me.triple.group.toNat % 1024
      let x := s.bar b
      let through (t : State) : Prop := WritesG s t d 0 ∧ Advanced s t ∧ Acquired s t ∧ t.me.met = false
        ∧ t.me.arrv = false ∧ t.me.passed = true
      (Ready s → s.me.cvgroup.getLsbD 15 = true → s.me.met = true → s.me.arrv = false → x.n ≠ 0 → s.linkOf b = none →
        s.released s.cur.core s.cur.slot 3 = true →
        (x.a + 1 = x.n → Completes (.gate d) s (fun t => through t
          ∧ t.bar b = { n := x.n, a := 0, gen := x.gen + 1 } ∧ Wakes s t (.barrier b) 0))
        ∧ (x.a + 1 ≠ x.n → Completes (.gate d) s (fun t => t.me.wait = .barrier b ∧ t.base = s.base
          ∧ t.bar b = { n := x.n, a := x.a + 1, gen := x.gen } ∧ t.me.arrv = true ∧ t.me.gtok = x.gen ∧ OtherSlots s t)))
      ∧ (s.me.wait = .woken 0 → Completes (.gate d) s (fun t => through t ∧ OtherSlots s t)))

/-- R257. SPLIT of a caravan whose members all stay pushes nothing, and gives 1, or 0 if it has none; with a full
deque it gives 4 and changes nothing. Else it writes the child's record: caravan, with NOSTEAL as in its own record,
the group, timestamp and region id of its task, the node and step it is at, the thread base of g31, and as
membership the members that the test leaves out. Once its release is complete the record is pushed at the newest end
of the deque, the gate of a gated group counts one caravan more, the membership is that of the members that stay,
the test is cleared, and the register gets 2, or 3 if members stay; until then the slot stays, and writes the record
no second time. -/
def Obligations.Split : Prop :=
  ∀ (s : State) (d a b : BitVec 5), s.me.caravan = true → s.me.atws = false → (s.g 31).toNat < 2 ^ 32 →
    let stay := s.me.mb &&& s.me.mt
    let go := s.me.mb &&& ~~~s.me.mt
    let status : Reg := (if go = 0 then 0 else 2) + (if stay = 0 then 0 else 1)
    let own := s.me.task.getD { root := 0, rid := 0, ts := 0, flags := 0, addr := 0, uid := 0 }
    let r : Record :=
      { entry := (s.g b).setWidth 32, flags := 1 ||| (own.flags &&& 2), group := s.me.cvgroup, ts := own.ts, rid := own.rid,
        args := [s.me.cvnode.setWidth 64, (s.g 31).extractLsb' 0 32 ++ s.me.cvstep, go.extractLsb' 0 64,
                 go.extractLsb' 64 64, go.extractLsb' 128 64, go.extractLsb' 192 64] }
    let p := larderAt s.cur.core ((s.g a).toNat - windowBase)
    let gate := 1024 * clusterOf (coreAt s.region.x s.region.y) + s.me.cvgroup.toNat % 1024
    let gated := s.me.cvgroup.getLsbD 15
    let written (t : State) : Prop :=
      ∀ q, t.byte q = if p ≤ q ∧ q < p + 64 then r.bytes.getD (q - p) 0 else s.byte q
    let pushes (t : State) : Prop := WritesG s t d status ∧ t.me.mb = stay ∧ t.me.mt = 0 ∧ t.me.wait = .none
      ∧ Advanced s t ∧ OtherSlots s t
      ∧ { t.me with g := [], pc := 0, mb := 0, mt := 0, wait := .none }
        = { s.me with g := [], pc := 0, mb := 0, mt := 0, wait := .none }
      ∧ (∃ e : Entry, t.here.deque = s.here.deque ++ [e] ∧ e.record = r ∧ e.addr = s.g a ∧ e.root = own.root
        ∧ e.origin = .package)
      ∧ t.bar gate = (if gated then { s.bar gate with n := (s.bar gate).n + 1 } else s.bar gate)
      ∧ ∀ o, o ≠ gate → t.bar o = s.bar o
    let free := s.here.deque.length < 64
    let open' := gated = true → (s.bar gate).n ≠ 0
    let released := s.released s.cur.core s.cur.slot 3
    (Ready s →
      (go = 0 → Completes (.split d a b) s (fun t => WritesG s t d status ∧ t.me.mb = stay ∧ t.me.mt = 0 ∧ Advanced s t
        ∧ OnlyMe s t))
      ∧ (go ≠ 0 → ¬free → Completes (.split d a b) s (fun t => Gives s t d 4))
      ∧ (go ≠ 0 → free → s.here.sb.length ≤ 32 → InLarder s (s.g a) 64 → (s.g a).toNat % 64 = 0 →
        (released = true → open' → Completes (.split d a b) s (fun t => pushes t ∧ written t))
        ∧ (released = false → Completes (.split d a b) s (fun t => written t ∧ t.me.wait = .split ∧ t.base = s.base
            ∧ (∀ r, t.g r = s.g r) ∧ t.here.deque = s.here.deque ∧ t.bars = s.bars))))
    ∧ (s.me.wait = .split → go ≠ 0 → released = true → free → open' →
      Completes (.split d a b) s (fun t => pushes t ∧ SameBytes s t))

/-- R258. The operations of memberships: a register of 256 members from and to memory, its set operations with the
test, its counts, and a mask taken as a piece of the test. R259, R260. MFLD, MFST and MFADD with a control word that
R259 takes and the fields of every member of the piece in the own larder, at addresses that differ: each member's
lane is read from, written to, or added to its field, row by row of the manifest. -/
def Obligations.Memberships : Prop :=
  (
    ∀ (s : State) (d a h : BitVec 5) (k : BitVec 3),
      let mine (t : State) : Prop := Advanced s t ∧ OnlyMe s t
        ∧ { t.me with mb := 0, mt := 0, pc := 0 } = { s.me with mb := 0, mt := 0, pc := 0 }
      let first (f : Nat → Bool) (v : Reg) : Prop :=
        (∃ i, i < 256 ∧ f i = true ∧ (∀ j, j < i → f j = false) ∧ v = BitVec.ofNat 64 i)
          ∨ ((∀ i, i < 256 → f i = false) ∧ v = 256)
      Completes .mband s (fun t => t.me.mb = s.me.mb &&& s.me.mt ∧ t.me.mt = s.me.mt ∧ mine t)
      ∧ Completes .mbor s (fun t => t.me.mb = s.me.mb ||| s.me.mt ∧ t.me.mt = s.me.mt ∧ mine t)
      ∧ Completes .mbandn s (fun t => t.me.mb = s.me.mb &&& ~~~s.me.mt ∧ t.me.mt = s.me.mt ∧ mine t)
      ∧ Completes (.mbpop d) s (fun t => Gives s t d
          (BitVec.ofNat 64 ((List.range 256).countP (fun i => s.me.mb.getLsbD i))))
      ∧ (∃ v, Completes (.mbfst d) s (fun t => Gives s t d v) ∧ first (fun i => s.me.mb.getLsbD i) v)
      ∧ (∃ v, Completes (.mbnxt d a) s (fun t => Gives s t d v)
          ∧ first (fun i => s.me.mb.getLsbD i && decide ((s.g a).toNat < i)) v)
      ∧ (a < 8 → h ≤ 2 → Completes (.mtset a h k) s (fun t => t.me.mb = s.me.mb ∧ mine t
          ∧ ∀ i, i < 256 →
            let lo := 32 * k.toNat + if h = 2 then 16 else 0
            let w := if h = 0 then 32 else 16
            t.me.mt.getLsbD i = if lo ≤ i ∧ i < lo + w then (s.p a.toNat).getLsbD (i - lo) && s.me.mb.getLsbD i
              else s.me.mt.getLsbD i))
      ∧ (Ready s → InLarder s (s.g a) 32 → (s.g a).toNat % 32 = 0 → s.here.sb.length ≤ 32 →
        Completes (.mbld a) s (fun t => t.me.mb = BitVec.ofNat 256 (larderNat s (s.g a) 32) ∧ t.me.mt = s.me.mt ∧ mine t)
        ∧ Completes (.mbst a) s (fun t => larderNat t (s.g a) 32 = s.me.mb.toNat ∧ SameSlotButPc s t ∧ Advanced s t
          ∧ OtherSlots s t
          ∧ ∀ q, ¬(larderAt s.cur.core ((s.g a).toNat - windowBase) ≤ q
              ∧ q < larderAt s.cur.core ((s.g a).toNat - windowBase) + 32) → t.byte q = s.byte q)))
  ∧ (
    ∀ (s : State) (v a b : BitVec 5) (k : BitVec 3), Ready s → s.here.sb.length ≤ 32 →
      let x := s.g b
      let ty : BitVec 5 := x.extractLsb' 32 5
      let half := x.getLsbD 40
      let w := typeWidth ty
      let n := w / 8
      let row := 4 * (x.toNat / 2 ^ 16 % 2 ^ 12)
      let col := x.toNat % 2 ^ 16
      let start := 32 * k.toNat + if half then 16 else 0
      let sel (i : Nat) : Bool := i < (if w = 32 then 16 else 32) && s.me.mb.getLsbD (start + i)
      let field (i : Nat) : Reg := s.g a + (s.g 31 + BitVec.ofNat 64 (start + i)) * BitVec.ofNat 64 row + BitVec.ofNat 64 col
      let place (i : Nat) : Nat := larderAt s.cur.core ((field i).toNat - windowBase)
      mfBad x = false →
      (∀ i, sel i = true → InLarder s (field i) n ∧ (field i).toNat % n = 0) →
      (∀ i j, sel i = true → sel j = true → field i = field j → i = j) →
      let written (f : Nat → Nat) (t : State) : Prop :=
        (∀ i, sel i = true → larderNat t (field i) n = f i)
        ∧ (∀ q, (∀ i, sel i = true → ¬(place i ≤ q ∧ q < place i + n)) → t.byte q = s.byte q)
        ∧ (∀ r, t.g r = s.g r) ∧ (∀ r, t.v r = s.v r) ∧ (∀ r, t.p r = s.p r) ∧ Advanced s t ∧ OtherSlots s t
      Completes (.mfld v a b k) s (fun t => GivesLanes s t v w sel (fun i => larderNat s (field i) n))
      ∧ Completes (.mfst v a b k) s (written (fun i => lane w (s.v v) i))
      ∧ (isInt ty = true → Completes (.mfadd v a b k) s
          (written (fun i => (larderNat s (field i) n + lane w (s.v v) i) % 2 ^ w)))
      ∧ (isFloat ty = true →
        let mine := (List.range 32).filter sel
        let r := eachLane (fun j fp => let i := mine.getD j 0
            fadd ty 0 (larderNat s (field i) n) (lane w (s.v v) i) fp) (List.range mine.length)
          { flags := 0, lfsr := s.here.lfsr }
        Completes (.mfadd v a b k) s (fun t => t.me.fstat = s.me.fstat ||| r.2.flags
          ∧ (∀ j, j < mine.length → larderNat t (field (mine.getD j 0)) n = r.1.getD j 0 % 2 ^ w) ∧ Advanced s t)))

/-! ### Locks (file 10) -/

/-- R264 to R270, R275. A request for a lock that satisfies the hierarchy rule and finds room: a grantable one makes
the task a holder and gives 0, with an acquire; LKTRY that is not grantable gives 4, and LKREQ parks as a waiter. A
request for a name held already gives 2, one that the parent does not cover 1; one for which no room is left gives
3. R269, R271. LKUP to a mode above the held one, grantable, and LKDN to one below it that still covers the
children, change the mode and give 0; neither is possible on a name that the task does not hold: 5. The notice of a
revocation ends any request with 6, and is cleared. The model's readings or choices that it rests on: log 71. -/
def Obligations.LockRequests : Prop :=
  (
    ∀ (s : State) (d a : BitVec 5) (m : BitVec 3), Ready s → m ≤ 5 → s.me.revoked = false → lockNameOk (s.g a) = true →
      s.silent s.cur.core = false →
      let name := s.g a
      let l := s.myLock name
      let u : LockUser := { uid := s.uid, age := s.ageOf s.cur.core s.cur.slot, mode := m }
      let both (P : State → Prop) : Prop := Completes (.lkreq d a m) s P ∧ Completes (.lktry d a m) s P
      ((l.modeOf s.uid).isSome = true → both (fun t => Gives s t d 2))
      ∧ (l.modeOf s.uid = none → s.covered name m = false → both (fun t => Gives s t d 1))
      ∧ (l.modeOf s.uid = none → s.covered name m = true → s.noRoom name = true → both (fun t => Gives s t d 3))
      ∧ (l.modeOf s.uid = none → s.covered name m = true → s.noRoom name = false →
        (grantable (s.matrix s.region.vf) l u = true → both (fun t => WritesG s t d 0 ∧ Advanced s t ∧ Acquired s t
          ∧ SameBytes s t ∧ (t.myLock name).modeOf s.uid = some m))
        ∧ (grantable (s.matrix s.region.vf) l u = false →
          Completes (.lktry d a m) s (fun t => Gives s t d 4)
          ∧ Completes (.lkreq d a m) s (fun t => t.me.wait = .lock name ∧ t.base = s.base ∧ SameBytes s t
            ∧ (∀ r, t.g r = s.g r)
            ∧ u ∈ (t.myLock name).waiters))))
  ∧ (
    ∀ (s : State) (d a : BitVec 5) (m : BitVec 3), Ready s → m ≤ 5 → lockNameOk (s.g a) = true → s.silent s.cur.core = false →
      let name := s.g a
      let l := s.myLock name
      let u : LockUser := { uid := s.uid, age := s.ageOf s.cur.core s.cur.slot, mode := m }
      let free := s.released s.cur.core s.cur.slot 3 = true
      (s.me.revoked = false → l.modeOf s.uid = none → Completes (.lkup d a m) s (fun t => Gives s t d 5)
        ∧ (free → Completes (.lkdn d a m) s (fun t => Gives s t d 5)))
      ∧ (∀ held, s.me.revoked = false → l.modeOf s.uid = some held →
        (mayRaise held m = true → s.covered name m = true → grantable (s.matrix s.region.vf) l u = true →
          Completes (.lkup d a m) s (fun t => WritesG s t d 0 ∧ Advanced s t ∧ Acquired s t
            ∧ (t.myLock name).modeOf s.uid = some m))
        ∧ (free → mayLower held m = true → s.childrenCovered name (some m) = true →
          Completes (.lkdn d a m) s (fun t => WritesG s t d 0 ∧ Advanced s t ∧ (t.myLock name).modeOf s.uid = some m)))
      ∧ (s.me.revoked = true →
        let noticed (t : State) : Prop := WritesG s t d 6 ∧ t.me.revoked = false ∧ Advanced s t ∧ OnlyMe s t
        Completes (.lkreq d a m) s noticed ∧ Completes (.lktry d a m) s noticed ∧ Completes (.lkup d a m) s noticed
        ∧ (free → Completes (.lkdn d a m) s noticed ∧ Completes (.lkrel d a) s noticed)))

/-- R272 to R274. LKREL drops a held name that has no held children, or with field 0 every lock of the task, and
gives 0; LKQ gives the state of a name; LKTAB gives the matrix and, while no lock of the function exists, takes a
symmetric one. R267, R272. A wound whose clock has run 2,048 cycles while its victim still blocks the request takes
every lock of the victim; the locks of an ended task go once its last write is acknowledged. -/
def Obligations.LockRelease : Prop :=
  (
    ∀ (s : State) (d a : BitVec 5), Ready s → s.silent s.cur.core = false →
      let name := s.g a
      let vf := s.region.vf
      let old : Reg := (s.matrix vf).setWidth 64
      (a ≠ 0 → lockNameOk name = true → s.me.revoked = false → s.released s.cur.core s.cur.slot 3 = true →
        ((s.myLock name).modeOf s.uid = none → Completes (.lkrel d a) s (fun t => Gives s t d 5))
        ∧ ((s.myLock name).modeOf s.uid ≠ none → (∀ w ∈ (s.myLock name).waiters, w.uid ≠ s.uid) →
          s.childrenCovered name none = true → Completes (.lkrel d a) s (fun t =>
            WritesG s t d 0 ∧ Advanced s t ∧ (t.myLock name).modeOf s.uid = none)))
      ∧ (a = 0 → s.me.revoked = false → s.released s.cur.core s.cur.slot 3 = true →
        exec (.lkrel d a) s = .next (((s.dropLocks s.uid).setG d 0).adv))
      ∧ (lockNameOk name = true → Completes (.lkq d a) s (fun t => Gives s t d (s.lockState name)))
      ∧ (a = 0 → Completes (.lktab d a) s (fun t => Gives s t d old))
      ∧ (a ≠ 0 → matrixBad name = false → (∀ l ∈ s.locks, l.vf ≠ vf) → Completes (.lktab d a) s (fun t =>
          WritesG s t d old ∧ t.matrix vf = name.setWidth 36 ∧ (∀ vf', vf' ≠ vf → t.matrix vf' = s.matrix vf')
          ∧ Advanced s t ∧ SameSlotButG s t ∧ OtherSlots s t ∧ SameBytes s t))
      ∧ (a ≠ 0 → matrixBad name = true → Completes (.lktab d a) s (fun t => Gives s t d (old ||| 0x8000000000000000#64))))
  ∧ (
    ∀ (s : State) (k : Nat),
      (∀ r, s.revokes[k]? = some r →
        (r.age < 2048 → exec (.lockRevocation k) s = .next s)
        ∧ (∀ h w, 2048 ≤ r.age → (s.lockAt r.vf r.secure r.name).modeOf r.victim = some h →
          (s.lockAt r.vf r.secure r.name).waiters.find? (fun w => w.uid = r.wounder) = some w →
          compatible (s.matrix r.vf) h w.mode = false →
          exec (.lockRevocation k) s =
            .next (({ s with revokes := s.revokes.eraseIdx k } : State).revokeLocks r.victim r.name)))
      ∧ (∀ e, s.lockDrops[k]? = some e →
        ((∀ b ∈ (s.core e.core).sb, b.uid ≠ e.uid) → exec (.lockDropAtEnd k) s =
            .next (({ s with lockDrops := s.lockDrops.eraseIdx k } : State).dropLocks e.uid))
        ∧ ((∃ b ∈ (s.core e.core).sb, b.uid = e.uid) → exec (.lockDropAtEnd k) s = .next s)))

/-! ### Traps, system registers and maintenance (file 11; 12; 16) -/

/-- R276 to R279, R288. TRAP takes a trap with cause 0x10, its number in XVAL, and XPC after it; SMC from the
non-secure world and outside a handler one with cause 0x11, its operand in XVAL, and the slot enters the secure
world. R288, R290. XRET in a handler goes on at XPC and clears HND, PHND and NSRET; where NSRET was set the slot
leaves the secure world that an SMC brought it into. Outside a handler it is an illegal instruction. R280. A trap
whose handler's first instruction cannot be fetched halts the slot: its task ends, and its fault domain is told,
with cause 0x0F. A trap also gives up the walks that the slot's accesses asked for (15 R374), and what the slot has
read ahead for instructions that it does not reach. R289. HALT ends the task with a report of event 0x02 and cause
0x12. The model's readings or choices that it rests on: log 26, 31, 32. -/
def Obligations.TrapsAndReturns : Prop :=
  (
    ∀ (s : State) (n : BitVec 12) (a : BitVec 5), Ready s →
      (TrapReady s 0x10 (n.setWidth 64) s.after →
        Completes (.trap n) s (fun t => Traps s t 0x10 (n.setWidth 64) s.after ∧ t.me.smc = s.me.smc ∧ SameBytes s t
          ∧ OtherSlots s t ∧ SamePackage (s.abandon s.cur.core s.cur.slot) t ∧ SameCores s t))
      ∧ (s.secure = false → s.me.xcause.getLsbD 63 = false → TrapReady s 0x11 (s.g a) s.after →
        Completes (.smc a) s (fun t => Traps s t 0x11 (s.g a) s.after ∧ t.me.smc = true ∧ t.secure = true ∧ SameBytes s t
          ∧ OtherSlots s t ∧ SamePackage (s.abandon s.cur.core s.cur.slot) t ∧ SameCores s t)))
  ∧ (
    ∀ (s : State),
      (s.me.xcause.getLsbD 63 = true → Completes .xret s (fun t => t.base = s.me.xpc
        ∧ (∀ i, i < 64 → t.me.xcause.getLsbD i = (s.me.xcause.getLsbD i && decide (i < 61)))
        ∧ t.me.smc = (s.me.smc && !s.me.xcause.getLsbD 61)
        ∧ { t.me with xcause := 0, smc := false, pc := 0 } = { s.me with xcause := 0, smc := false, pc := 0 } ∧ OnlyMe s t))
      ∧ (Ready s → s.me.xcause.getLsbD 63 = false → ∀ x, x = illegalXval s.cur.code (wordOfInstr .xret) 0 →
        TrapReady s 0x01 x s.base → Completes .xret s (fun t => Traps s t 0x01 x s.base)))
  ∧ (
    ∀ (s : State) (n : BitVec 12), Ready s → s.cur.slot < 8 →
      let c := s.cur.core
      let k := s.cur.slot
      let u := (s.abandon c k).setMe (trapSlot s.me s.here k 0x10 (n.setWidth 64) s.after)
      let v := u.setMe { u.me with xcause := u.me.xcause.extractLsb' 16 48 ++ (0x10 : Cause) ++ (0x0F : Cause) }
      u.handlerFaults c k 0x10 = some true →
      exec (.trap n) s = .next ((v.report (slotReport v c k 0x03 0x0F u.me.xpc 0x10 0)).endTask c k false)
      ∧ Completes (.trap n) s (fun t => t.me = Slot.reset))
  ∧ (
    ∀ (s : State), exec .halt s = .next ((s.report (slotReport s s.cur.core s.cur.slot 0x02 0x12 s.base 0 0)).endTask
        s.cur.core s.cur.slot false)
      ∧ Completes .halt s (fun t => t.me = Slot.reset))

/-- R279, R282, R283. A budget trap that is due is taken at a boundary outside a handler, before a wound trap; both
keep the pc in XPC. A slot that has run 4,096 cycles past its budget is killed. R64, R67, R80. A fetch that faults
traps with its cause and address, but that of a handler's first instruction halts the slot (R280); a word that is no
instruction with cause 0x01 and the word in XVAL. The model's readings or choices that it rests on: log 39. -/
def Obligations.PendingTraps : Prop :=
  (
    ∀ (s : State), Ready s → s.cur.core < 4096 → s.cur.slot < 8 → s.me.task.isSome = true →
      let core := BitVec.ofNat 12 s.cur.core
      let slot := BitVec.ofNat 3 s.cur.slot
      (s.takesPending s.cur.core s.cur.slot = true → s.me.budgetDue = true → TrapReady s 0x0A 0 s.base →
        Completes (.budgetTrap core slot) s (fun t => Traps s t 0x0A 0 s.base ∧ t.me.budgetDue = false
          ∧ t.me.wound = s.me.wound))
      ∧ (∀ w, s.takesPending s.cur.core s.cur.slot = true → s.me.budgetDue = false → s.me.wound = some w →
        TrapReady s 0x0B w.name s.base →
        Completes (.woundTrap core slot) s (fun t => Traps s t 0x0B w.name s.base ∧ t.me.wound = none))
      ∧ (s.me.budgetDue = true → exec (.woundTrap core slot) s = .next s)
      ∧ (4096 ≤ s.me.overrun → Completes (.kill core slot) s (fun t => t.me = Slot.reset))
      ∧ (s.me.overrun < 4096 → exec (.kill core slot) s = .next s))
  ∧ (
    ∀ (s : State) (cause : BitVec 8) (xval : BitVec 64) (word : BitVec 32), Ready s →
      (s.me.entering.isSome = true → Completes (.fetchFault cause xval) s (fun t => t.me = Slot.reset))
      ∧ (s.me.entering = none → cause ≠ 0x11 → TrapReady s cause xval s.base → Completes (.fetchFault cause xval) s (fun t => Traps s t cause xval s.base))
      ∧ (TrapReady s 0x01 (word.setWidth 64) s.base →
        Completes (.illegalInstruction word 0) s (fun t => Traps s t 0x01 (word.setWidth 64) s.base)))

/-- R286, R287, Table 11.6. SYSRD gives each system register its value, and SYSWR each writable one the bits that it
has; the registers of a caravan read zero, and are not written, outside one. R286, R287, Table 11.6. A read of
SMCBASE outside the secure world, a write of a register that is read only, and a write of CODELO or CODEHI outside
the secure world and a handler are illegal instructions: nothing is written. -/
def Obligations.SystemRegisters : Prop :=
  (
    ∀ (s : State) (d a : BitVec 5), Ready s →
      let v := s.g a
      let reads (n : BitVec 12) (x : Reg) : Prop := Completes (.sysrd d n) s (fun t => Gives s t d x)
      let cv (x : Reg) : Reg := if s.me.caravan then x else 0
      let keeps (f : Slot → Slot) (t : State) : Prop := f t.me = f s.me ∧ OnlyMe s t ∧ Advanced s t
      let mine (f : Core → Core) (t : State) : Prop :=
        SameSlotButPc s t ∧ OtherSlots s t ∧ SamePackage s t ∧ SameBytes s t ∧ Advanced s t ∧ ∀ c, f (t.core c) = f (s.core c)
      reads 0x001 s.me.xval ∧ reads 0x002 s.me.xpc ∧ reads 0x003 s.me.xstat ∧ reads 0x004 s.here.xbase
      ∧ reads 0x005 (s.me.fstat.setWidth 64) ∧ reads 0x006 (s.me.budget.setWidth 64)
      ∧ reads 0x007 s.here.codelo ∧ reads 0x008 s.here.codehi ∧ reads 0x009 s.region.tsbase
      ∧ reads 0x00A (BitVec.ofNat 64 s.cur.core)
      ∧ reads 0x00B ((BitVec.ofNat 15 (8 * s.cur.core + s.cur.slot)).setWidth 64)
      ∧ reads 0x00C (cv (s.me.cvgroup.setWidth 64)) ∧ reads 0x00D (cv (s.me.cvstep.setWidth 64))
      ∧ reads 0x00E (cv (s.me.cvnode.setWidth 64)) ∧ reads 0x00F (s.here.skthr.setWidth 64)
      ∧ reads 0x010 (s.here.lfsr.setWidth 64) ∧ reads 0x011 (s.here.alside.setWidth 64)
      ∧ reads 0x101 (s.region.fdom.setWidth 64)
      ∧ (∀ x, s.me.task = some x → reads 0x102 (x.rid.setWidth 64)) ∧ (s.me.task = none → reads 0x102 0)
      ∧ reads 0x103 ((Tab.get Island.reset s.islands (islandOf s.cur.core)).downs
          ++ (Tab.get Island.reset s.islands (islandOf s.cur.core)).level.setWidth 32)
      ∧ (s.secure = true → reads 0x100 s.here.smcbase)
      ∧ (s.me.xcause.getLsbD 63 = false → reads 0x000 s.me.xcause)
      ∧ Completes (.syswr a 0x000) s (fun t => (∀ i, i < 64 → t.me.xcause.getLsbD i =
          if i < 16 then v.getLsbD i else s.me.xcause.getLsbD i) ∧ keeps (fun x => { x with xcause := 0, pc := 0 }) t)
      ∧ Completes (.syswr a 0x001) s (fun t => t.me.xval = v ∧ keeps (fun x => { x with xval := 0, pc := 0 }) t)
      ∧ Completes (.syswr a 0x002) s (fun t => t.me.xpc = v &&& 0x000FFFFFFFFFFFFE#64
          ∧ keeps (fun x => { x with xpc := 0, pc := 0 }) t)
      ∧ Completes (.syswr a 0x003) s (fun t => t.me.xstat = v ∧ keeps (fun x => { x with xstat := 0, pc := 0 }) t)
      ∧ Completes (.syswr a 0x005) s (fun t => t.me.fstat = v.setWidth 5 ∧ keeps (fun x => { x with fstat := 0, pc := 0 }) t)
      ∧ Completes (.syswr a 0x00C) s (fun t => t.me.cvgroup = (if s.me.caravan then v.setWidth 16 else s.me.cvgroup)
          ∧ keeps (fun x => { x with cvgroup := 0, pc := 0 }) t)
      ∧ Completes (.syswr a 0x00D) s (fun t => t.me.cvstep = (if s.me.caravan then v.setWidth 32 else s.me.cvstep)
          ∧ keeps (fun x => { x with cvstep := 0, pc := 0 }) t)
      ∧ Completes (.syswr a 0x00E) s (fun t => t.me.cvnode = (if s.me.caravan then v.setWidth 52 else s.me.cvnode)
          ∧ keeps (fun x => { x with cvnode := 0, pc := 0 }) t)
      ∧ Completes (.syswr a 0x004) s (fun t => t.here.xbase = v &&& 0x000FFFFFFFFFFFFE#64
          ∧ mine (fun x => { x with slots := [], xbase := 0 }) t)
      ∧ Completes (.syswr a 0x00F) s (fun t => t.here.skthr = v.setWidth 32 ∧ mine (fun x => { x with slots := [], skthr := 0 }) t)
      ∧ Completes (.syswr a 0x010) s (fun t => t.here.lfsr = (if v.setWidth 32 = (0 : Word) then 1 else v.setWidth 32)
          ∧ mine (fun x => { x with slots := [], lfsr := 0 }) t)
      ∧ Completes (.syswr a 0x011) s (fun t => t.here.alside = v.setWidth 20 &&& 0xFFFFE#20
          ∧ mine (fun x => { x with slots := [], alside := 0 }) t)
      ∧ (s.secure = true ∨ s.me.xcause.getLsbD 63 = true →
        Completes (.syswr a 0x007) s (fun t => t.here.codelo = v &&& 0x000FFFFFFFFFFFFE#64
          ∧ mine (fun x => { x with slots := [], codelo := 0 }) t)
        ∧ Completes (.syswr a 0x008) s (fun t => t.here.codehi = v &&& 0x000FFFFFFFFFFFFE#64
          ∧ mine (fun x => { x with slots := [], codehi := 0 }) t))
      ∧ (s.secure = true → Completes (.syswr a 0x100) s (fun t => t.here.smcbase = v &&& 0x000FFFFFFFFFFFFE#64
          ∧ mine (fun x => { x with slots := [], smcbase := 0 }) t)))
  ∧ (
    ∀ (s : State) (d a : BitVec 5), Ready s → s.secure = false → s.me.xcause.getLsbD 63 = false →
      let traps (i : Instr) : Prop := ∀ x, x = illegalXval s.cur.code (wordOfInstr i) 0 → TrapReady s 0x01 x s.base →
        Completes i s (fun t => Traps s t 0x01 x s.base ∧ SameCores s t)
      traps (.sysrd d 0x100) ∧ ∀ n ∈ ([0x006, 0x007, 0x008, 0x009, 0x00A, 0x00B, 0x100, 0x101, 0x102, 0x103] : List (BitVec 12)),
        traps (.syswr a n))

/-- R282, R291, R332. BUDGET gives the budget; YIELD with a record in the own larder, outside a gathering, places it
in the ready queue and ends the task; one that finds the ready queue full waits to enter it. R331. Until its release
is complete the slot stays, with the copy of the record that it took at issue, and that copy is what it places. -/
def Obligations.BudgetAndYield : Prop :=
  ∀ (s : State) (d a : BitVec 5) (x : Task), Ready s →
    let released := s.released s.cur.core s.cur.slot 3
    let is (r : Record) (e : Entry) : Prop := e.record = r ∧ e.addr = s.g a ∧ e.root = x.root
    let places (r : Record) : Prop :=
      (s.here.ready.length < 80 → Completes (.yield a) s (fun t => t.me = Slot.reset
        ∧ t.here.ready.length = s.here.ready.length + 1 ∧ ∃ e ∈ t.here.ready, is r e))
      ∧ (80 ≤ s.here.ready.length → Completes (.yield a) s (fun t => t.me = Slot.reset ∧ t.here.ready = s.here.ready
        ∧ ∃ e, t.here.waiting = s.here.waiting ++ [e] ∧ is r e))
    let stays (r : Record) (t : State) : Prop := t.me.copied = some r ∧ t.base = s.base ∧ t.me.latched.isSome = true
      ∧ (∀ r, t.g r = s.g r) ∧ t.here.ready = s.here.ready ∧ SameBytes s t ∧ OtherSlots s t
    Completes (.budgetRead d) s (fun t => Gives s t d (s.me.budget.setWidth 64))
    ∧ (a ≠ 0 → s.me.task = some x → s.me.atws = false → s.me.met = false →
      (s.me.copied = none → RecordOk s (s.g a) x →
        (released = true → places (recordAt s (s.g a)))
        ∧ (released = false → Completes (.yield a) s (stays (recordAt s (s.g a)))))
      ∧ (∀ r, s.me.copied = some r → (released = true → places r)
        ∧ (released = false → Completes (.yield a) s (stays r))))

/-- R292. DICT with INV clears entries of the dictionary, and without it loads them from the own larder. R66. A
dictionary code runs the word that its entry expands to, as an instruction of 2 bytes at the code's address; an
entry that is not valid is a dictionary miss, with cause 0x02, and one that expands to no 32-bit word's instruction,
as a valid entry of zero does, an illegal instruction. -/
def Obligations.Dictionary : Prop :=
  (
    ∀ (s : State) (a b : BitVec 5), Ready s → dictBad (s.g b) = false →
      let x := s.g b
      let n := x.toNat / 2 ^ 10 % 2 ^ 11
      let first := x.toNat % 2 ^ 10
      let entry (t : State) (k : Nat) : Word := Tab.get 0 t.here.dict k
      let word (k : Nat) : Word := if x.getLsbD 31 then 0 else BitVec.ofNat 32 (larderNat s (s.g a + BitVec.ofNat 64 (4 * (k - first))) 4)
      (x.getLsbD 31 = true ∨ n = 0 ∨ (InLarder s (s.g a) (4 * n) ∧ (s.g a).toNat % 4 = 0)) →
      Completes (.dict a b) s (fun t => (∀ k, entry t k = if first ≤ k ∧ k < first + n then word k else entry s k)
        ∧ SameSlotButPc s t ∧ Advanced s t ∧ OtherSlots s t ∧ SamePackage s t
        ∧ ∀ c, { t.core c with slots := [], dict := [] } = { s.core c with slots := [], dict := [] }))
  ∧ (
    ∀ (s : State) (sub : BitVec 5) (n : BitVec 10),
      let valid := Tab.find s.here.dict n.toNat
      let entry : Word := valid.getD 0
      let w : Word := if sub = 0 then entry else (entry &&& 0xFFFFF07F#32) ||| (sub.setWidth 32 <<< 7)
      let code := n ++ sub ++ (1 : BitVec 1)
      let u : State := { s with cur := { s.cur with len := 2, code := some code } }
      (∀ i, valid ≠ none → w.getLsbD 0 = false → w.extractLsb' 1 6 ≠ 0x3F → decodeWord w = .ok i →
        ∃ t, exec (.dictionaryCode sub n) s = .next t ∧ exec i u = .next t)
      ∧ (valid ≠ none → w.getLsbD 0 = true ∨ w.extractLsb' 1 6 = 0x3F ∨ (∃ e, decodeWord w = .error e) → Ready s →
        ∀ x, x = BitVec.ofNat 64 (2 ^ 48 + code.toNat * 2 ^ 32 + w.toNat) → TrapReady u 0x01 x s.base →
        Completes (.dictionaryCode sub n) s (fun t => Traps s t 0x01 x s.base))
      ∧ (valid = none → Ready s → ∀ x, x = BitVec.ofNat 64 (2 ^ 48 + code.toNat * 2 ^ 32) → TrapReady u 0x02 x s.base →
        Completes (.dictionaryCode sub n) s (fun t => Traps s t 0x02 x s.base)))

/-- R293 to R295. L1INV drops lines of the L1 caches that its operand selects, all of them with bit 2, else the line
of its address, in global memory through its translation or in the attic; an address that names no line drops
nothing. What the core's slots have read ahead of a dropped data line goes with it, and one that the slot has
carried out ahead of the loads before it only goes on: both rest on the device of log 5. TLBI by a virtual function
drops its translations in the core's L1 TLB, once the writes that they gave are performed. R296. WBR and INVR of a
range of one line in a page whose translation the TLB holds: the copies of the line stay, clean, or go; the line's
bytes are written to memory, and INVR also drops the L1's copy. The model's readings or choices that it rests on:
log 5, 67, 68, 118. -/
def Obligations.CacheMaintenance : Prop :=
  (
    ∀ (s : State) (a b : BitVec 5), Ready s →
      let x := s.g b
      let done (e : Early) : Prop := e.core = s.cur.core ∧ e.slot = s.cur.slot ∧ e.inv = some (s.g a, x)
      let fresh := ∀ e ∈ s.early, ¬done e
      (x.toNat < 8 → ¬fresh → Completes (.l1inv a b) s (fun t => GoesTo { s with early := t.early } t s.after
        ∧ (∀ e, e ∈ t.early ↔ e ∈ s.early ∧ ¬done e)))
      ∧ (x.toNat < 8 → x.getLsbD 2 = true → fresh → Completes (.l1inv a b) s (fun t =>
        t.here.l1 = (if x.getLsbD 0 then [] else s.here.l1) ∧ t.here.l1i = (if x.getLsbD 1 then [] else s.here.l1i)
        ∧ t.early = s.early.filter (fun e => e.core ≠ s.cur.core || !x.getLsbD 0 || e.inv.isSome)
        ∧ SameSlotButPc s t ∧ Advanced s t ∧ OtherSlots s t ∧ SamePackage { s with early := t.early } t
        ∧ ∀ c, { t.core c with slots := [], l1 := [], l1i := [] } = { s.core c with slots := [], l1 := [], l1i := [] }))
      ∧ (x.toNat < 4 → fresh →
        let va := (s.g a).toNat
        let drops (line : Nat) (t : State) : Prop :=
          t.here.l1 = (if x.getLsbD 0 then s.here.l1.filter (fun y => y.line ≠ line) else s.here.l1)
          ∧ t.here.l1i = (if x.getLsbD 1 then s.here.l1i.filter (fun y => y.line ≠ line) else s.here.l1i)
          ∧ t.early = s.early.filter (fun e => e.core ≠ s.cur.core || !x.getLsbD 0 || e.inv.isSome || e.place / 128 ≠ line)
          ∧ SameSlotButPc s t ∧ Advanced s t ∧ OtherSlots s t ∧ SameBytes s t
        (∀ y, s.cur.slot < 8 → va < windowBase → s.slotFind s.cur.core s.cur.slot va = some (.ok y) →
          Completes (.l1inv a b) s (drops ((y.loc va).place / 128)))
        ∧ (windowBase ≤ va → va < 2 ^ 52 → (va - windowBase) / 2 ^ 32 = 8 →
          Completes (.l1inv a b) s (drops (atticAt (s.cur.core / 1024) (va % 2 ^ 32) / 128)))
        ∧ (2 ^ 52 ≤ va ∨ (windowBase ≤ va ∧ (va - windowBase) / 2 ^ 32 ≠ 8) →
          Completes (.l1inv a b) s (fun t => GoesTo s t s.after)))
      ∧ (let mine (va : Reg) (vf : BitVec 9) : Prop := va.toNat < windowBase ∧ vf = s.region.vf
        let due := (∃ q ∈ s.cores, q.1 = s.cur.core ∧ ((∃ e ∈ q.2.sb, mine e.va e.vf) ∨ ∃ y ∈ q.2.mixw ++ q.2.dataw, mine y.va y.vf))
          ∨ ∃ p ∈ s.posted, p.src = s.cur.core ∧ mine p.va p.vf
        x = 1 → s.released s.cur.core s.cur.slot 0 = true →
        (due → exec (.tlbi a b) s = .next (s.latch (.tlbi a b)))
        ∧ (¬due → Completes (.tlbi a b) s (fun t => (∀ y ∈ t.here.tlbs, y.vf ≠ s.region.vf)
          ∧ (∀ y ∈ s.here.tlbs, y.vf ≠ s.region.vf → y ∈ t.here.tlbs)
          ∧ (∀ c, c ≠ s.cur.core → (t.core c).tlb = (s.core c).tlb) ∧ (∀ k, Tab.get [] t.l2tlb k = Tab.get [] s.l2tlb k)
          ∧ SameSlotButPc s t ∧ Advanced s t ∧ OtherSlots s t ∧ SameBytes s t)))
      ∧ (x.toNat % 4 = 2 → x.toNat < 16 → s.secure = false → ∀ w, w = (wordOfInstr (.tlbi a b)).setWidth 64 →
        TrapReady s 0x0E w s.base → Completes (.tlbi a b) s (fun t => Traps s t 0x0E w s.base)))
  ∧ (
    ∀ (s : State) (a b : BitVec 5) (l : Loc), Ready s → 1 ≤ (s.g b).toNat →
      (s.g a).toNat % 128 + (s.g b).toNat ≤ 128 → (s.g a).toNat < windowBase →
      s.check (s.who s.cur.core s.cur.slot) (s.slotFind s.cur.core s.cur.slot) .load (s.g a) 1 1 = some (.ok (.at' l)) →
      l.ms = false → l.place % 4096 = (s.g a).toNat % 4096 →
      let u := s.keepTlb s.cur.core s.cur.slot (s.g a).toNat
      let line := l.place / 128
      (∀ e ∈ s.here.sb, e.slot = s.cur.slot → e.block / 2 ≠ line) → s.claimed line = false →
      s.inEpoch (line * 128) 128 = false → s.silent s.cur.core = false →
      Completes (.wbr a b) s (fun t => (∀ c ∈ t.l2, c.line = line → c.dirty = false)
        ∧ (isCmp l.place = false → ∀ c ∈ s.l2, if c.line = line then { c with dirty := false } ∈ t.l2 else c ∈ t.l2)
        ∧ SameSlotButPc s t ∧ Advanced s t
        ∧ t.mem = ((u.l2.filter (fun c => c.line = line)).foldl State.cleanCopy u).mem)
      ∧ Completes (.invr a b) s (fun t => (∀ c ∈ t.l2, c.line ≠ line) ∧ (∀ x ∈ t.here.l1, x.line ≠ line)
        ∧ (isCmp l.place = false → ∀ c ∈ s.l2, c.line ≠ line → c ∈ t.l2) ∧ (∀ x ∈ s.here.l1, x.line ≠ line → x ∈ t.here.l1)
        ∧ SameSlotButPc s t ∧ Advanced s t
        ∧ t.mem = ((u.l2.filter (fun c => c.line = line)).foldl State.cleanCopy u).mem))

/-- R297, R309, R312 to R314, R322. DOMSET, ATTSET, WAYMASK and KEYDEL in the secure world give the old value, or
the status, and set the mask of a domain, the attic ways of a slice, the ways of a tenant, or lose a key; ATTSET,
with the ways that enter in force at once, stays while a command that is executing works in a way that leaves, and
then frees those. R297. Outside the secure world the four take a secure violation, with their word in XVAL. The
model's readings or choices that it rests on: log 77, 78. -/
def Obligations.SecureSettings : Prop :=
  (
    ∀ (s : State) (d a b : BitVec 5), Ready s → s.secure = true → s.silent s.cur.core = false →
      let x := s.g a
      let y := s.g b
      let dom := s.cur.core / 1024 * 64 + x.toNat
      let slice := s.cur.core / 1024 * 512 + x.toNat
      (x.toNat < 64 → maskBad y = false → (∀ e ∈ s.epochs, domainOf e.base ≠ dom) →
        (∀ q ∈ s.claims, q.recorded = true → domainOf (q.line * 128) ≠ dom) → Completes (.domset d a b) s (fun t =>
          WritesG s t d (s.domainMask dom) ∧ t.domainMask dom = y ∧ (∀ e, e ≠ dom → t.domainMask e = s.domainMask e)
          ∧ Advanced s t ∧ SameBytes s t))
      ∧ (x.toNat < 512 → y.toNat < 2 ^ 16 →
        let old := Tab.get (0 : BitVec 16) s.attic slice
        let leave := old &&& ~~~(y.setWidth 16)
        let busy := ∃ q ∈ s.cores, q.1 / 1024 = s.cur.core / 1024 ∧ ((∃ m ∈ q.2.mixq.take 1, s.worksIn q.1 false m slice leave = true)
          ∨ ∃ m ∈ q.2.dataq.take 1, s.worksIn q.1 true m slice leave = true)
        (busy → Completes (.attset d a b) s (fun t => t.me.wait = .attset old ∧ t.me.latched.isSome = true
          ∧ t.base = s.base ∧ (∀ r, t.g r = s.g r) ∧ OtherSlots s t
          ∧ Tab.get (0 : BitVec 16) t.attic slice = old ||| y.setWidth 16
          ∧ ∀ e, e ≠ slice → Tab.get (0 : BitVec 16) t.attic e = Tab.get (0 : BitVec 16) s.attic e))
        ∧ (¬busy → Completes (.attset d a b) s (fun t =>
          WritesG s t d (old.setWidth 64)
          ∧ Tab.get (0 : BitVec 16) t.attic slice = y.setWidth 16
          ∧ (∀ e, e ≠ slice → Tab.get (0 : BitVec 16) t.attic e = Tab.get (0 : BitVec 16) s.attic e) ∧ Advanced s t)))
      ∧ (x.toNat < 1024 → y.toNat < 2 ^ 16 → Completes (.waymask d a b) s (fun t =>
          WritesG s t d ((Tab.get (0xFFFF : BitVec 16) s.tenantWays x.toNat).setWidth 64)
          ∧ Tab.get (0xFFFF : BitVec 16) t.tenantWays x.toNat = y.setWidth 16 ∧ Advanced s t
          ∧ ∀ c ∈ t.l2, (c.tenant.toNat = x.toNat ∨ ∃ w ∈ c.wrote, w.toNat = x.toNat) →
              (Tab.get (0xFFFF : BitVec 16) s.tenantWays x.toNat &&& ~~~(y.setWidth 16)).getLsbD c.way = false))
      ∧ (x.toNat < 4096 →
        (x ≠ 0 → Tab.find s.keys x.toNat ≠ none → Completes (.keydel d a) s (fun t => WritesG s t d 0
          ∧ Tab.find t.keys x.toNat = none ∧ (∀ j, j ≠ x.toNat → Tab.find t.keys j = Tab.find s.keys j) ∧ (∀ c ∈ t.l2, c.key.toNat ≠ x.toNat) ∧ Advanced s t ∧ SameBytes s t))
        ∧ (x = 0 ∨ Tab.find s.keys x.toNat = none → Completes (.keydel d a) s (fun t => Gives s t d 1))))
  ∧ (
    ∀ (s : State) (d a b : BitVec 5) (old : BitVec 16), s.me.wait = .attset old → s.secure = true →
      (s.g a).toNat < 512 → (s.g b).toNat < 2 ^ 16 →
      let slice := s.cur.core / 1024 * 512 + (s.g a).toNat
      let leave := old &&& ~~~((s.g b).setWidth 16)
      let busy := ∃ q ∈ s.cores, q.1 / 1024 = s.cur.core / 1024 ∧ ((∃ m ∈ q.2.mixq.take 1, s.worksIn q.1 false m slice leave = true)
        ∨ ∃ m ∈ q.2.dataq.take 1, s.worksIn q.1 true m slice leave = true)
      (busy → Completes (.attset d a b) s (fun t => t.me.wait = .attset old ∧ t.me.latched.isSome = true
        ∧ t.base = s.base ∧ (∀ r, t.g r = s.g r) ∧ OtherSlots s t ∧ t.attic = s.attic ∧ SameBytes s t))
      ∧ (¬busy → Completes (.attset d a b) s (fun t => WritesG s t d (old.setWidth 64) ∧ t.me.wait = .none
        ∧ Tab.get (0 : BitVec 16) t.attic slice = (s.g b).setWidth 16
        ∧ (∀ e, e ≠ slice → Tab.get (0 : BitVec 16) t.attic e = Tab.get (0 : BitVec 16) s.attic e) ∧ Advanced s t)))
  ∧ (
    ∀ (s : State) (d a b : BitVec 5), Ready s → s.secure = false →
      ∀ i ∈ ([.domset d a b, .attset d a b, .waymask d a b, .keydel d a] : List Instr),
        let w : Reg := (wordOfInstr i).setWidth 64
        TrapReady s 0x0E w s.base → Completes i s (fun t => Traps s t 0x0E w s.base ∧ t.domains = s.domains
          ∧ t.attic = s.attic ∧ t.tenantWays = s.tenantWays ∧ t.keys = s.keys))

/-- R298, R299. SNAP counts a trigger and gives the count, while no snapshot is held; CAPRD gives a record of the
capability list, and 0 past its end. R383, R384. A trigger's latch takes the count and the records of every block:
of the cores, the clusters, the slices, the ports and the base dies, each in its place, those of secure blocks into
the secure buffer and the others into the non-secure one, where a secure block shows only that it is one. The copy,
where nothing holds the buffers back, writes the records and the count to them, after which a trigger can fire
again. The model's readings or choices that it rests on: log 16. -/
def Obligations.SnapshotsAndCapabilities : Prop :=
  (
    ∀ (s : State) (d a : BitVec 5), Ready s →
      (s.latchDue = false → s.snapshot = none → Completes (.snap d) s (fun t =>
        WritesG s t d ((s.triggers + 1).setWidth 64) ∧ t.triggers = s.triggers + 1 ∧ t.latchDue = true
        ∧ SameBut (fun s => { s with cores := [], triggers := 0, latchDue := false }) s t ∧ Advanced s t ∧ SameSlotButG s t
        ∧ OtherSlots s t ∧ SameCores s t))
      ∧ (s.latchDue = true ∨ s.snapshot ≠ none → exec (.snap d) s = .next (s.latch (.snap d)))
      ∧ Completes (.caprd d a) s (fun t => Gives s t d (s.capability (s.g a).toNat))
      ∧ (10 ≤ (s.g a).toNat → s.capability (s.g a).toNat = 0))
  ∧ (
    ∀ (s : State),
      (s.latchDue = true → Completes .snapshotLatch s (fun t => t.latchDue = false
        ∧ (∃ x, t.snapshot = some x ∧ x.count = s.triggers
          ∧ (let holds (secure : Bool) (at' : Nat) (r : List Byte) (len : Nat) : Prop := ∀ j, j < len →
              Tab.get 0 x.open' (at' + j) = (if secure then (if j = 0 then 1 else 0) else r.getD j 0)
                ∧ Tab.get 0 x.secure (at' + j) = if secure then r.getD j 0 else 0
            (∀ c, c < 4096 → holds (s.secureCore c) (8 + 256 * c) (s.coreSnap c) 256)
            ∧ (∀ k, k < 256 → holds (s.secureCluster k) (0x100008 + 64 * k) (s.clusterSnap k) 64)
            ∧ (∀ k, k < 2048 → holds false (0x104008 + 32 * k) (s.sliceSnap k) 32)
            ∧ (∀ k, k < 16 → holds false (0x114008 + 64 * k) (s.portSnap k) 64)
            ∧ (∀ k, k < 8 → holds false (0x114408 + 64 * k) (s.stackSnap k) 64)))
        ∧ SameBut (fun s => { s with latchDue := false, snapshot := none }) s t))
      ∧ (s.latchDue = false → exec .snapshotLatch s = .next s)
      ∧ (∀ x, s.snapshot = some x → s.snapWaits = true → exec .snapshotCopy s = .next s)
      ∧ (∀ x, s.snapshot = some x → s.snapWaits = false → Completes .snapshotCopy s (fun t => t.snapshot = none
        ∧ t.devNat 0x1C00000 8 = x.count.toNat ∧ t.devNat 0x3000000 8 = x.count.toNat
        ∧ ∀ i, i < snapBytes → t.devByte (0x1C00008 + i) = Tab.get 0 x.secure (8 + i)
            ∧ t.devByte (0x3000008 + i) = Tab.get 0 x.open' (8 + i)))
      ∧ (s.snapshot = none → exec .snapshotCopy s = .next s))

/-! ### What the package does by itself (files 06, 11, 12, 14, 15) -/

/-- R132, R158. The next word of a store buffer that nothing holds back and that its home takes is performed: its
bytes are at the home, or in the publication buffer for a word of a publication window, the other bytes are as they
were, and the word has left the buffer. At a home in global memory its line has a copy in its slice, or none in any,
for which one is allocated, or memory takes the word, as for a memory-side line. A word that its home refuses has
left the buffer too, and is told to its fault domain. The model's readings or choices that it rests on: log 66, 99,
114. -/
def Obligations.StoreBufferDrain : Prop :=
  ∀ (s : State) (core : BitVec 12) (k i w : Nat) (e : SbEntry),
    let c := core.toNat
    let sb := (s.core c).sb
    let first := ((e.word w).headD (0, 0)).1
    let l : Loc := { place := e.block * 64 + first, ms := e.ms, ro := false, sec := e.secure, key := e.key }
    let inWord (q : Nat) : Bool := decide (e.block * 64 + 8 * w ≤ q ∧ q < e.block * 64 + 8 * w + 8)
    let new (q : Nat) (old : Byte) : Byte := if inWord q then (Tab.find e.bytes (q - e.block * 64)).getD old else old
    (sbWords sb)[k]? = some (i, w) → sb[i]? = some e → Tab.sorted e.bytes = true →
    (∀ x ∈ sb.take i, x.slot = e.slot → x.block = e.block → x.word w = []) →
    s.fenceHoldsAt c e.slot e.fence (e.block * 64) = false → s.waits { l with place := e.block * 64 + 8 * w } 8 = false →
    s.mute c l.place = false →
    (storeOf l.place = .host → s.inPub e.vf l.place 1 = true → s.pubRoom e.vf (l.place / 128) = true) →
    let left (t : State) : Prop :=
      (t.core c).sb = (sb.set i { e with bytes := e.bytes.filter (fun b => b.1 / 8 ≠ w) }).filter (fun x => x.bytes ≠ [])
    (∀ cause addr, s.refusedStore c e l = some (cause, addr) → Completes (.storeBufferDrain core k) s (fun t => left t
      ∧ (∀ c' j, t.slotAt c' j = s.slotAt c' j) ∧ ∃ v : State, v.mem = s.mem
          ∧ t = v.report (regionReport v e.root e.rid 0x04 cause (whereOf c e.slot) addr 0 0)))
    ∧ (s.refusedStore c e l = none → Completes (.storeBufferDrain core k) s (fun t => left t
      ∧ (storeOf l.place ≠ .hbm → storeOf l.place ≠ .host → ∀ q, t.byte q = new q (s.byte q))
      ∧ (storeOf l.place = .host → SameBytes s t ∧ (∀ x ∈ s.pub, x.vf ≠ e.vf ∨ x.line ≠ l.place / 128 → x ∈ t.pub)
        ∧ ∀ q b, q / 128 = l.place / 128 → t.overPub e.vf q [b] = [new q ((s.overPub e.vf q [b]).headD b)])
      ∧ (∀ x, storeOf l.place = .hbm → e.ms = false → s.l2Hit (l.place / 128) e.secure = some x →
          ∀ q, q / 128 = l.place / 128 → t.homeByte { l with place := q } = new q (s.homeByte { l with place := q }))
      ∧ (storeOf l.place = .hbm → (∀ x ∈ s.l2, x.line ≠ l.place / 128) →
          isCmp l.place = false ∨ (e.ms = false ∧ s.openWays e.tenant (s.homeSlice l.place) ≠ []) →
          ∀ q, q / 128 = l.place / 128 → t.homeByte { l with place := q } = new q (s.homeByte { l with place := q }))))

/-- R307, R308, R309. A claim that its unit has room for, each claim taking an entry of its own (log 110), is
recorded, behind those recorded before; one that it has no room for waits, as does one for a domain that a DOMSET
waits for, one behind another of its engine on the same line, and one that the crossbar holds (log 78). A fill of
one of the 48 lines that hold a miss register of their slice ends its miss: every slot that waited for the line goes
on, the line is in its slice with the bytes of memory where no copy held others, unless its key has gone or memory
cannot give it, which leaves the slices as they are, and a core whose prefetch asked for it has it in its L1 (log
93); one behind them waits. R368, R372, R373. One of the walks that the 16 walkers of a die serve, each for one
leaf, ends, unless a claim, an epoch or a line that must come from memory holds one of its reads: with a translation
every request that it covers is answered, and the TLBs of its core and cluster hold it; with a fault every request
for the page is answered with the fault. The model's readings or choices that it rests on: log 77, 78, 93, 110. -/
def Obligations.FillsAndWalks : Prop :=
  (
    ∀ (s : State) (k : Nat),
      (∀ q, s.claims[k]? = some q → q.recorded = false →
        let n := (s.claims.filter (fun x => x.recorded && x.unit = q.unit)).length
        let dom := domainOf (q.line * 128)
        let before : Prop := ∃ x ∈ s.claims.take k, x.line = q.line ∧ x.core = q.core ∧ x.data = q.data ∧ x.recorded = false
        (n < 128 → (∀ c j, (s.slotAt c j).wait ≠ .domset dom) → ¬before → s.silent q.core = false →
          exec (.claimRecord k) s = .next ({ s with
          claims := s.claims.eraseIdx k ++ [{ q with recorded := true }]
          snoop := s.snoop.filter (fun x => x ≠ q.line) } : State))
        ∧ (128 ≤ n ∨ (∃ c j, j ≤ 8 ∧ (s.slotAt c j).wait = .domset dom) ∨ before ∨ s.silent q.core = true →
          exec (.claimRecord k) s = .next s))
      ∧ (∀ m, s.misses[k]? = some m → 48 ≤ ((s.misses.take k).filter (fun x => x.slice = m.slice)).length →
        exec (.l2Fill k) s = .next s)
      ∧ (∀ m, s.misses[k]? = some m → ((s.misses.take k).filter (fun x => x.slice = m.slice)).length < 48 →
        Completes (.l2Fill k) s (fun t => t.misses = s.misses.eraseIdx k
          ∧ (∀ c j, t.slotAt c j = if (s.slotAt c j).wait = .fill m.slice m.line
              then { s.slotAt c j with wait := .none } else s.slotAt c j)
          ∧ (s.keyGone m.key = true ∨ s.backBad (m.line * 128) = true → m.keep = [] → t.l2 = s.l2)
          ∧ (s.keyGone m.key = false → s.backBad (m.line * 128) = false →
            s.l2Hit m.line m.secure = none → s.openWays m.tenant m.slice ≠ [] → m.slice = s.homeSlice (m.line * 128) →
            ∃ y ∈ t.l2, y.line = m.line ∧ y.slice = m.slice ∧ y.dirty = false ∧ y.way ∈ s.openWays m.tenant m.slice
              ∧ y.bad = []
              ∧ ∀ i, i < 128 → Tab.find y.bytes i = some (s.backByte m.key (m.line * 128 + i)))
          ∧ (m.keep = [] → ∀ c, (t.core c).l1 = (s.core c).l1)
          ∧ (∀ c ro x, m.keep = [(c, ro)] → s.keyGone m.key = false → s.backBad (m.line * 128) = false →
            s.l2Hit m.line m.secure = some x → x.bad = [] → Tab.sorted x.bytes = true →
            ∃ y ∈ (t.core c).l1, y.line = m.line ∧ y.secure = m.secure ∧ y.ro = ro)
          ∧ (∀ x, s.keyGone m.key = false → s.backBad (m.line * 128) = false →
            s.l2Hit m.line m.secure = some x → Tab.sorted x.bytes = true →
            ∃ y ∈ t.l2, y.line = x.line ∧ y.slice = x.slice ∧ y.dirty = x.dirty ∧ y.bad = x.bad
              ∧ ∀ i, i < 128 → Tab.find y.bytes i = some ((Tab.find x.bytes i).getD (s.backByte m.key (m.line * 128 + i)))))))
  ∧ (
    ∀ (s : State) (die : BitVec 2) (k : Nat) (r : WalkReq),
      let queue (t : State) (d : Nat) : List WalkReq := Tab.get [] t.walks d
      let d := die.toNat
      let va := r.page * 4096
      let others (t : State) : Prop := (∀ d', d' ≠ d → queue t d' = queue s d') ∧ SameBytes s t
      let same (x : WalkReq) : Prop := x.vf = r.vf ∧ x.secure = r.secure
      (s.walkers (queue s d))[k]? = some r →
      let tenant := (s.regionOf r.core r.slot).tenant
      let used := (s.walkReads r.vf r.secure va).foldl (fun u p => u.touchLine (p / 128)) s
      (s.walkWaits r.vf r.secure va = true → exec (.pageWalk die k) s = .next s)
      ∧ (∀ l, s.walkWaits r.vf r.secure va = false → s.walkMiss r.vf r.secure tenant va = some l →
        exec (.pageWalk die k) s = .next (s.askLine tenant l))
      ∧ (s.walkWaits r.vf r.secure va = false → s.walkMiss r.vf r.secure tenant va = none →
        (∀ x, used.walk r.vf r.secure va = .ok x → Completes (.pageWalk die k) s (fun t => others t
          ∧ (∀ c j, t.slotAt c j = s.slotAt c j)
          ∧ ∀ q ∈ queue s d, if same q ∧ q.page * 4096 / 2 ^ x.lg = x.vpage
              then q ∉ queue t d ∧ x ∈ (t.core q.core).tlbs ∧ x ∈ Tab.get [] t.l2tlb (clusterOf q.core)
              else q ∈ queue t d))
        ∧ (∀ e, used.walk r.vf r.secure va = .error e → Completes (.pageWalk die k) s (fun t => others t
          ∧ ∀ q ∈ queue s d, if same q ∧ q.page = r.page
              then q ∉ queue t d ∧ (t.slotAt q.core q.slot).walkFault = some (r.page, e)
              else q ∈ queue t d))))

/-- R351, R353, R358. Once bring-up is complete (before it none is served, log 3), an aligned access of the host to
a non-secure granule, or of another package to a granule of the world it carries (the world as the last TLBI of the
tables found it, log 82), is performed at its home, the base die for a memory-side line, a word of host or of
package by its operation, and the host gives up the line, or keeps it where it says so; a read waits for its line;
one to a granule of the other world does nothing; what meets an error is recorded. R353. A full share of the
publication buffer is written out: its lines fall due, and once all of them are in host memory (each is written as
the statement of PUBLISH says) the version word at the function's PUBVER address advances by 1. R320, R322, R379.
The key mailbox: a key is put in force in a context other than 0 that has none, with status 0; else the status says
1 or 2 and nothing is put in force. The key is erased from the mailbox, and the command cleared. A mailbox that
cannot be read is left, and the error recorded. RETADD lists a page once, as long as the list has room. The model's
readings or choices that it rests on: log 3, 20, 72, 82, 84, 94, 99, 111, 113. -/
def Obligations.OutsideAccesses : Prop :=
  (
    ∀ (s : State) (lg : BitVec 2) (pa : BitVec 56) (data cmp : BitVec 64) (sec keep : Bool) (sub : BitVec 4) (ty : BitVec 5),
      let p := pa.toNat
      let line := p / 128
      let n := 2 ^ lg.toNat
      let l : Loc := { Loc.plain p with ms := s.msLine p }
      let kept (u : State) : State :=
        let mine := u.snoop.filter (fun y => stackOf (y * 128) / 2 = stackOf (line * 128) / 2)
        let v := if mine.length < 65536 then u else u.backInvalidate (mine.headD 0)
        if keep then { v with snoop := v.snoop ++ [line] } else u
      (s.booted = true → storeOf p = .hbm → p % n = 0 → s.worldBit p = false → s.waits l n = false →
        exec (.hostMemAccess true keep lg pa data) s
          = .next (kept ((s.homeWrite l 0 (bytesOfNat n data.toNat)).backInvalidate line))
        ∧ (s.fillWaits 0 l n = true → exec (.hostMemAccess false keep lg pa data) s = .next s)
        ∧ (s.fillWaits 0 l n = false → s.homeBad l n = false → exec (.hostMemAccess false keep lg pa data) s
          = .next (kept ((({ s with answer := BitVec.ofNat 64 (leNat (s.homeBytes l n)) } : State).useRun 0 l n).backInvalidate line)))
        ∧ (s.fillWaits 0 l n = false → s.homeBad l n = true → exec (.hostMemAccess false keep lg pa data) s
          = .next (kept ((s.noteError l).backInvalidate line))))
      ∧ (s.worldBit p = true ∨ s.booted = false → ∀ w, exec (.hostMemAccess w keep lg pa data) s = .next s)
      ∧ (let at' : Loc := { Loc.plain p with sec := sec, ms := s.msLine p }
        let run := s.useRun 0 at' n
        let put (u : State) (v : Nat) : State := u.homeWrite at' 0 (bytesOfNat n v)
        let old := leNat (s.homeBytes at' n)
        let x := data.toNat % 2 ^ (8 * n)
        let remote (op : BitVec 3) (u : State) : Prop := exec (.remoteAccessArrival op (ty ++ sub) lg sec pa (cmp ++ data)) s = .next u
        (s.booted = true → p < 2 ^ 40 → p % n = 0 → s.worldBit p = sec → s.waits at' n = false →
          remote 1 (put s x)
          ∧ (sub = 0 → remote 6 (put s (sctOp 0 ty old x { flags := 0, lfsr := 1 }).1))
          ∧ (s.fillWaits 0 at' n = true → ∀ op ∈ ([0, 2, 3, 4, 5] : List (BitVec 3)), remote op s)
          ∧ (s.fillWaits 0 at' n = false → s.homeBad at' n = false → remote 0 run ∧ remote 3 run
            ∧ remote 2 (put run (amoOp sub (8 * n) old x))
            ∧ remote 4 (if old = cmp.toNat % 2 ^ (8 * n) then put run x else run)
            ∧ remote 5 (put run (amofOp sub ty old x { flags := 0, lfsr := 1 }).1)
            ∧ (sub ≠ 0 → remote 6 (put run (sctOp sub.toNat ty old x { flags := 0, lfsr := 1 }).1)))
          ∧ (s.fillWaits 0 at' n = false → s.homeBad at' n = true →
            ∀ op ∈ ([0, 2, 3, 4, 5] : List (BitVec 3)), remote op (s.noteError at')))
        ∧ (s.worldBit p = (!sec) ∨ s.booted = false → ∀ op, remote op s)))
  ∧ (
    ∀ (s : State) (vf : BitVec 9),
      let n := s.ngamon vf
      let full := 1024 ≤ (s.pub.filter (fun e => e.vf == vf)).length
      let word := 2 ^ 52 + n.pubver.toNat % 2 ^ 48
      let old := leNat (s.peek word 8)
      (n.advancing = false → ¬full → exec (.publicationAdvance vf) s = .next s)
      ∧ (n.advancing = false → full → Completes (.publicationAdvance vf) s (fun t =>
          t.pub = s.pub.map (fun e => if e.vf = vf then { e with due := true } else e)
          ∧ t.ngamon vf = { n with advancing := true } ∧ (∀ v, v ≠ vf → t.ngamon v = s.ngamon v)
          ∧ SameBut (fun s => { s with pub := [], vfs := [] }) s t))
      ∧ (n.advancing = true → (∃ e ∈ s.pub, e.vf = vf ∧ e.due = true) → exec (.publicationAdvance vf) s = .next s)
      ∧ (n.advancing = true → (∀ e ∈ s.pub, e.vf = vf → e.due = false) → Completes (.publicationAdvance vf) s (fun t =>
          leNat (t.peek word 8) = (old + 1) % 2 ^ 64 ∧ (∀ q, ¬(word ≤ q ∧ q < word + 8) → t.byte q = s.byte q)
          ∧ t.ngamon vf = { n with advancing := false } ∧ (∀ v, v ≠ vf → t.ngamon v = s.ngamon v)
          ∧ SameBut (fun s => { s with mem := [], poisoned := [], vfs := [] }) s t)))
  ∧ (
    ∀ (s : State) (stack : BitVec 3) (page : BitVec 25),
      let key := s.devNat 0x20020 8 % 4096
      let inForce (t : State) (j : Nat) : Option (BitVec 256) := Tab.find t.keys j
      let d := s.stack stack.toNat
      let box : Loc := { Loc.plain 0x20000 with ms := true, sec := true }
      (s.devNat 0x20028 8 = 1 → s.waits box 128 = false → s.homeBad box 128 = false → Completes .keyInstall s (fun t =>
        t.devNat 0x20000 32 = 0 ∧ t.devNat 0x20028 8 = 0
        ∧ t.devNat 0x20030 8 = (if key = 0 then 2 else if inForce s key ≠ none then 1 else 0)
        ∧ (∀ j, inForce t j = if key ≠ 0 ∧ inForce s key = none ∧ j = key then some (BitVec.ofNat 256 (s.devNat 0x20000 32)) else inForce s j)
        ∧ ∀ c, t.core c = s.core c))
      ∧ (s.waits box 128 = true ∨ (s.homeBad box 128 = false ∧ s.devNat 0x20028 8 ≠ 1) → exec .keyInstall s = .next s)
      ∧ (s.waits box 128 = false → s.homeBad box 128 = true → exec .keyInstall s = .next (s.noteError box))
      ∧ (page.toNat ∉ d.retired → d.retired.length < 4096 → exec (.retadd stack page) s =
          .next (s.setStack stack.toNat { d with retired := d.retired ++ [page.toNat] }))
      ∧ (page.toNat ∈ d.retired → exec (.retadd stack page) s = .next s)
      ∧ (page.toNat ∉ d.retired → 4096 ≤ d.retired.length → exec (.retadd stack page) s =
          .next (s.faqAdd 3 (stack.toNat * 2 ^ 37 + page.toNat * 4096))))

/-! ### The scheduler, launches and pre-emption (files 13 and 14) -/

/-- R26, R331 to R335. The entry that a core would dispatch enters a free slot: the slot is at reset but for what
R26 sets, the entry has left its queue, the ready queue or the deque, and the task begins with an acquire; entries
that waited for the ready queue may enter it. A core that is idle asks a neighbour for a region: the oldest entry of
that region in the neighbour's deque that may be stolen leaves it and is on its way. It is dispatched when it
arrives, or enters the ready queue where no slot may take it any more. The model's readings or choices that it rests
on: log 76. -/
def Obligations.DispatchAndSteal : Prop :=
  ∀ (s : State) (core : BitVec 12) (slot : BitVec 3) (e : Entry),
    let c := core.toNat
    let k := slot.toNat
    let r := e.record
    let starts (t : State) (k : Nat) : Prop :=
      let x := t.slotAt c k
      (∃ uid, x.task = some { root := e.root, rid := r.rid, ts := r.ts, flags := r.flags, addr := e.addr, uid := uid })
      ∧ x.pc = (s.core c).codelo + r.entry.setWidth 64
      ∧ x.budget = (s.regionBy e.root r.rid).cycles ∧ x.gReg 3 = e.addr
      ∧ (r.flags.getLsbD 0 = false → x.cvgroup = 0 ∧ x.mb = 0 ∧ ∀ j, j ≠ 3 → x.gReg j =
          if j = 4 then r.arg 0 else if j = 5 then r.arg 1 else if j = 6 then r.arg 2 else if j = 7 then r.arg 3 else 0)
      ∧ (r.flags.getLsbD 0 = true → x.cvgroup = r.group ∧ x.cvnode = (r.arg 0).setWidth 52
          ∧ x.cvstep = (r.arg 1).setWidth 32 ∧ x.mb = r.arg 5 ++ r.arg 4 ++ r.arg 3 ++ r.arg 2
          ∧ ∀ j, j ≠ 3 → x.gReg j = if j = 31 then (r.arg 1) >>> 32 else 0)
      ∧ x.v = [] ∧ x.p = [] ∧ x.mt = 0 ∧ x.fstat = 0 ∧ x.xcause = 0 ∧ x.wait = .none
      ∧ (t.core c).l1 = (s.core c).l1.filter (fun y => y.ro && storeOf (y.line * 128) ≠ .attic)
      ∧ (∀ y ∈ t.early, ¬(y.core = c ∧ y.slot = k))
      ∧ (t.core c).deque = (s.core c).deque.filter (fun y => y.arrival ≠ e.arrival)
      ∧ (∀ y ∈ (s.core c).ready, y.arrival ≠ e.arrival → y ∈ (t.core c).ready)
      ∧ (∀ y ∈ (t.core c).ready, (y ∈ (s.core c).ready ∧ y.arrival ≠ e.arrival) ∨ y ∈ (s.core c).waiting)
      ∧ ((s.core c).waiting = [] → (t.core c).ready = (s.core c).ready.filter (fun y => y.arrival ≠ e.arrival))
      ∧ (∀ c' k', (c' ≠ c ∨ k' ≠ k) → t.slotAt c' k' = s.slotAt c' k')
      ∧ ((s.core c).ready.length ≤ 80 → ∀ q, ¬(larderAt c 0xF000 ≤ q ∧ q < larderAt c 0x10000) → t.byte q = s.byte q)
    let idle : Prop := (s.core c).stolen = none ∧ (∃ j, j < 8 ∧ (s.slotAt c j).task = none) ∧ s.nextEntry c = none
    ((s.slotAt c k).task = none → s.nextEntry c = some e → Completes (.taskDispatch core slot) s (fun t => starts t k))
    ∧ ((s.slotAt c k).task ≠ none → exec (.taskDispatch core slot) s = .next s)
    ∧ (∀ d n, idle → s.stealFrom c = some (d, n) → Completes (.steal core (BitVec.ofNat 2 d)) s (fun t =>
        (∃ rg ∈ s.stealRegions c n, let wanted (y : Entry) : Bool := !y.record.noSteal && y.root = rg.1 && y.record.rid == rg.2
          (t.core c).stolen = (s.core n).deque.find? wanted
          ∧ ∀ y, (s.core n).deque.find? wanted = some y →
              (t.core n).deque = (s.core n).deque.filter (fun z => z.arrival ≠ y.arrival))
        ∧ (t.core c).askNext = BitVec.ofNat 2 (d + 1) ∧ (∀ c' k', t.slotAt c' k' = s.slotAt c' k') ∧ SameBytes s t))
    ∧ (let u := s.setCore c { s.core c with stolen := none }
      (s.core c).stolen = some e → ∀ dir, (s.core c).askNext = dir + 1 →
      (∀ j, (s.core c).free = some j → u.mayRun c e = true → Completes (.steal core dir) s (fun t => starts t j
        ∧ (t.core c).stolen = none))
      ∧ ((s.core c).free = none ∨ u.mayRun c e = false → Completes (.steal core dir) s (fun t => (t.core c).stolen = none
        ∧ (if (s.core c).ready.length < 80 then e ∈ (t.core c).ready ∧ (t.core c).ready.length = (s.core c).ready.length + 1
          else (t.core c).waiting = (s.core c).waiting ++ [e])
        ∧ ∀ c' k', t.slotAt c' k' = s.slotAt c' k')))

/-- R352, R389, R390. The doorbell moves TAIL, as far as the ring goes. No entry is taken before bring-up is
complete. Completions are written whether or not the ring has room (log 49). An entry of an unlisted operation
completes with status 0x80, one of a version above SEL with 0x81, and NOP with 0. SEL changes only inside NGVER and
while the ring is empty. R326 to R328. A launch whose descriptor fails its checks completes with that status, and
one whose rectangle is not free with status 5; one of which a read waits at its home stays in the ring. Else the
root is placed at its origin under the next handle; its cores begin at CODELO with cleared larders and empty
inboxes; its records enter the ready queues; and it completes with status 0 and the handle. R341. A tree of which no
task runs or waits, and nothing is outstanding, completes: its root is gone, and the launch that placed it completes
with KIND 1. One that still has work stays. The model's readings or choices that it rests on: log 3, 28, 44, 45, 47,
49. -/
def Obligations.Launches : Prop :=
  (
    ∀ (s : State) (vf : BitVec 9) (tail v : BitVec 16) (e : Submission),
      let n := s.ngamon vf
      (tail.toNat ≤ n.lsqsz.toNat → exec (.lsqtail vf tail) s = .next (s.setNgamon vf { n with tail := tail }))
      ∧ (n.head = n.tail ∨ s.booted = false → exec (.nop vf) s = .next s)
      ∧ (Submits s vf 4 e → Completes (.nop vf) s (fun t => Completed s t vf e.tag 0 0 0 ∧ Taken s t vf))
      ∧ (s.booted = true → s.submission vf = some e → e.op = 0 ∨ 4 < e.op → Completes (.nop vf) s (fun t =>
          Completed s t vf e.tag 0x80 0 0 ∧ Taken s t vf))
      ∧ (s.booted = true → s.submission vf = some e → 1 ≤ e.op → e.op ≤ 4 → n.sel.toNat < e.ver → Completes (.nop vf) s (fun t =>
          Completed s t vf e.tag 0x81 0 0 ∧ Taken s t vf))
      ∧ (exec (.ngsel vf v) s = .next (if n.head = n.tail ∧ 0x0100 ≤ v.toNat ∧ v.toNat ≤ 0x0102
          then s.setNgamon vf { n with sel := v } else s)))
  ∧ (
    ∀ (s : State) (vf : BitVec 9) (e : Submission), Submits s vf 1 e →
      let u := s.nextEntryRead vf
      let read := (u.readLaunch vf false e.arg0.toNat).1
      (∀ l, read = .error (0, l) → exec (.launch vf) s = .next s)
      ∧ (∀ st l, st ≠ 0 → read = .error (st, l) → Completes (.launch vf) s (fun t =>
        Completed s t vf e.tag st 0 0 ∧ Taken s t vf ∧ t.roots = s.roots))
      ∧ (∀ p x y, read = .ok p → p.origin = some (x, y) →
        let top := p.regions.headD Region.default
        (s.freeAt top x y = false → Completes (.launch vf) s (fun t =>
          Completed s t vf e.tag 5 0 0 ∧ Taken s t vf ∧ t.roots = s.roots))
        ∧ (s.freeAt top x y = true → Completes (.launch vf) s (fun t =>
          Completed s t vf e.tag 0 0 s.nextRoot ∧ Taken s t vf ∧ t.nextRoot = s.nextRoot + 1
          ∧ t.roots = Tab.put s.roots s.nextRoot { regions := moveTo x y p.regions, vf := vf, tag := some e.tag, clo := p.clo,
                                                   chi := p.chi, preempt := none }
          ∧ (∀ i ∈ p.initials, ∃ q ∈ (t.core (coreAt (x + i.x) (y + i.y))).ready, q.record = i.record ∧ q.addr = i.addr
              ∧ q.root = s.nextRoot ∧ q.origin = .system)
          ∧ ∀ c ∈ ((moveTo x y p.regions).headD Region.default).cores, (t.core c).codelo = p.clo &&& 0x000FFFFFFFFFFFFE#64
              ∧ (t.core c).codehi = p.chi &&& 0x000FFFFFFFFFFFFE#64 ∧ (t.core c).xbase = p.clo &&& 0x000FFFFFFFFFFFFE#64
              ∧ (t.core c).deque = [] ∧ (t.core c).inbox = [] ∧ ((∀ d, (p.initials.filter (fun i => coreAt (x + i.x) (y + i.y) = d)).length ≤ 80) →
                ∀ off, off < 0xF000 → t.byte (larderAt c off) = 0)))))
  ∧ (
    ∀ (s : State) (root : Nat) (r : Root), Tab.find s.roots root = some r → r.preempt = none →
      (s.noTasks root = true → s.noWork root r.top = true → (∀ f ∈ s.fired, f.who.root ≠ root) →
        Completes (.launchComplete root) s (fun t => t.roots = Tab.erase s.roots root
          ∧ ∀ tag, r.tag = some tag → Completed s t r.vf tag 0 1 0))
      ∧ (s.noTasks root = false ∨ s.noWork root r.top = false ∨ (∃ f ∈ s.fired, f.who.root = root) →
        exec (.launchComplete root) s = .next s))

/-- R337 to R340. Completions are written whether or not the ring has room (log 49). PREEMPT marks its root, of
which no task is dispatched from then on; a root that is not there, not the function's, or already asked for gives
1. Once the tree is drained the save frees the root, and where the host asked it completes with KIND 2; it waits for
what its image's homes hold back. RESTORE of an image that R339 accepts places a root with its regions at the given
origin. The model's readings or choices that it rests on: log 15, 24, 48, 49, 50, 52, 53. -/
def Obligations.Preemption : Prop :=
  ∀ (s : State) (vf : BitVec 9) (e : Submission) (root : Nat) (r : Root),
    (Submits s vf 2 e → root = e.arg0.toNat →
      (Tab.find s.roots root = some r → r.vf = vf → r.preempt = none → Completes (.preempt vf) s (fun t =>
        t.roots = Tab.put s.roots root { r with preempt := some { image := e.arg1, vf := vf, secure := false, tag := some e.tag } }
        ∧ (∀ c x, x.root = root → t.mayRun c x = false) ∧ Completed s t vf e.tag 0 0 0 ∧ Taken s t vf))
      ∧ (Tab.find s.roots root = some r → r.vf ≠ vf ∨ r.preempt ≠ none → Completes (.preempt vf) s (fun t =>
        t.roots = s.roots ∧ Completed s t vf e.tag 1 0 0 ∧ Taken s t vf))
      ∧ (Tab.find s.roots root = none → Completes (.preempt vf) s (fun t =>
        t.roots = s.roots ∧ Completed s t vf e.tag 1 0 0 ∧ Taken s t vf)))
    ∧ (∀ q, Tab.find s.roots root = some r → r.preempt = some q →
      let held (p : Nat × List Byte) : Bool :=
        s.vfHeld q.vf q.secure (q.image.toNat + p.1) p.2.length
      (s.drainedTree root r.top = true → (∀ p ∈ s.imagePieces root r, held p = false) →
        Completes (.preemptSave root) s (fun t => t.roots = Tab.erase s.roots root
          ∧ (∀ tag, q.tag = some tag → Completed s t q.vf tag 0 2 0)
          ∧ (∀ c ∈ r.top.cores, (t.core c).ready = [] ∧ (t.core c).waiting = [] ∧ (t.core c).deque = [])
          ∧ (∀ x ∈ t.counters, cellarCluster x.1 ∈ r.top.clusters → x.2.root ≠ root) ∧ ∀ x ∈ t.epochs, x.root ≠ root))
      ∧ (s.drainedTree root r.top = false ∨ (∃ p ∈ s.imagePieces root r, held p = true) →
        exec (.preemptSave root) s = .next s))
    ∧ (Submits s vf 3 e → e.arg1.toNat % 256 ≤ 63 → e.arg1.toNat / 256 ≤ 63 →
      let x := e.arg1.toNat % 256
      let y := e.arg1.toNat / 256
      let u := s.nextEntryRead vf
      let read := (u.readImage vf e.arg0.toNat).1
      (∀ l, read = .error (0, l) → exec (.restore vf) s = .next s)
      ∧ (∀ st l, st ≠ 0 → read = .error (st, l) → Completes (.restore vf) s (fun t =>
        t.roots = s.roots ∧ Completed s t vf e.tag st 0 0))
      ∧ (∀ h rs, read = .ok (h, rs) →
        let top := rs.headD Region.default
        let size := h.last e.arg0.toNat top - e.arg0.toNat
        let held := u.vfHeld vf false e.arg0.toNat size || u.vfFills vf false e.arg0.toNat size
        (held = true → exec (.restore vf) s = .next s)
        ∧ (held = false →
        (s.freeAt top x y = true → s.landsAt h top x y = true → Completes (.restore vf) s (fun t =>
          t.roots = Tab.put s.roots s.nextRoot { regions := moveTo x y rs, vf := vf, tag := some e.tag, clo := h.clo,
                                                 chi := h.chi, preempt := none }
          ∧ Completed s t vf e.tag 0 0 s.nextRoot))
        ∧ (s.freeAt top x y = true → s.landsAt h top x y = false → Completes (.restore vf) s (fun t =>
          t.roots = s.roots ∧ Completed s t vf e.tag 7 0 0))
        ∧ (s.freeAt top x y = false → Completes (.restore vf) s (fun t =>
          t.roots = s.roots ∧ Completed s t vf e.tag 5 0 0)))))

/-! ### Fabric, power and snapshots (files 14, 15 and 16) -/

/-- R344, R347, Tables 14.1 to 14.3. Writes of the register window: crossbar partitions, which take effect with the
switch; routes; Ngamon blocks, by the physical function only; and link halves, by the secure world only. R354, R356,
R357. A replay is counted. A wavelength whose error count passes its threshold leaves the active set and trains, one
for each fibre at a time, and another one waits for it; trained, it is readmitted; after a third failure in a row it
is retired. R358. Of what may be in flight on a port that goes down, messages, stores and words read of other
packages, some is lost, and what another port carries, or a FENCE.net holds, is not (which is lost is open, log
112). R344, R391. Reads of the window: the capability list once bring-up is complete, NGVER, routes and partitions;
an access that is not of 8 aligned bytes reads zero. Once bring-up is complete, and not before (log 3), a port that
is down takes the highest version of both ranges, and comes up while each fibre has a wavelength. R360, R361. The
master of a linked barrier counts each member's arrival once, and with the last one completes its own phase; a
member completes its phase on the release, which counts no arrival of the next phase away. Absences and presences
are noted at the master. A timeout ends the waits here with barrier reset and unlinks the entry. The model's
readings or choices that it rests on: log 3, 55, 56, 75, 78, 112. -/
def Obligations.Fabric : Prop :=
  (
    ∀ (s : State) (sec : Bool) (off : BitVec 32) (v : Reg) (die : BitVec 2) (pkg : BitVec 12) (vf : BitVec 9) (e : BitVec 6),
      let o := off.toNat
      let x := s.crossbar die.toNat
      let n := s.ngamon vf
      (o = 0x10000 + 0x1000 * die.toNat + 8 → exec (.registerWrite sec off v) s
        = .next (s.setCrossbar die.toNat { x with ptab := v }))
      ∧ exec (.partitionSwitch die) s = .next (s.setCrossbar die.toNat { x with
          strictNow := x.strict, ptabNow := x.ptab, clpartNow := x.clpart })
      ∧ (o = 0x100000 + 8 * pkg.toNat → Completes (.registerWrite sec off v) s (fun t =>
          (∀ q, Tab.get (0 : BitVec 16) t.routes q = if q = pkg.toNat then v.setWidth 16 else Tab.get (0 : BitVec 16) s.routes q)
          ∧ SameBut (fun s => { s with routes := [] }) s t))
      ∧ (o = 0x200000 + 0x10000 * vf.toNat + 0x10 →
        exec (.registerWrite false off v) s = .next (s.setNgamon vf { n with lsqbase := v })
        ∧ exec (.registerWrite true off v) s = .next s)
      ∧ (o = 0x200000 + 0x10000 * vf.toNat + 0x50 →
        exec (.registerWrite false off v) s = .next (s.setNgamon vf { n with pubver := v }))
      ∧ (o = 0x30000 + 16 * e.toNat →
        exec (.registerWrite false off v) s = .next s
        ∧ exec (.registerWrite true off v) s = .next (s.setLink e.toNat { Link.reset with
            raw := (s.link e.toNat).raw.extractLsb' 64 64 ++ (v &&& 0x800000000003FFFF#64) }))
      ∧ (off.toNat % 8 ≠ 0 → exec (.registerWrite sec off v) s = .next s)
      ∧ (∀ fn size, size ≠ 8 ∨ o % 8 ≠ 0 → s.readRegister fn sec o size = 0)
      ∧ (∀ i, i < 8192 → s.readRegister none sec (8 * i) 8 = if s.booted then s.capability i else 0)
      ∧ s.readRegister none false (0x200000 + 0x10000 * vf.toNat) 8 = 0x01020100 ∧ s.readRegister (some vf) sec 0 8 = 0x01020100
      ∧ s.readRegister none sec (0x100000 + 8 * pkg.toNat) 8 = (Tab.get (0 : BitVec 16) s.routes pkg.toNat).setWidth 64
      ∧ s.readRegister none sec (0x10000 + 0x1000 * die.toNat + 8) 8 = x.ptab)
  ∧ (
    ∀ (s : State) (port : BitVec 4) (tx ok : Bool) (w : BitVec 3) (count : Word) (lanes : BitVec 8) (lo hi : BitVec 16),
      let k := port.toNat
      let x := s.port k
      let act (p : Port) : BitVec 8 := if tx then p.txact else p.rxact
      let training (p : Port) : Option (BitVec 3) := if tx then p.txTraining else p.rxTraining
      let fails := Tab.get 0 x.fails ((if tx then 0 else 16) + w.toNat)
      let bit : BitVec 8 := BitVec.ofNat 8 (2 ^ w.toNat)
      let more (n : Word) : Word := if n = 0xFFFFFFFF then n else n + 1
      let up (p : Port) : Prop := p.up = true ↔ (p.ver ≠ 0 ∧ p.txact ≠ 0 ∧ p.rxact ≠ 0)
      let past := (Tab.get (0x1000 : Word) x.berthr w.toNat).toNat < count.toNat
      let counted : Port := { x with bercnt := Tab.set (0 : Word) x.bercnt w.toNat count }
      let next := (x.due.find? (fun d => d.1 == tx)).map (·.2)
      let bits (v : BitVec 3) : BitVec 8 := BitVec.ofNat 8 (2 ^ v.toNat)
      let goesOn (p : Port) (a : BitVec 8) : Prop := training p = next
        ∧ act p = match next with
          | some v => a &&& ~~~(bits v)
          | none => a
      (exec (.crcReplay port) s = .next (s.setPort k { x with replays := more x.replays }))
      ∧ (training x = none → (act x).getLsbD w.toNat = true → past →
        Completes (.retrainStart port tx w count) s (fun t => act (t.port k) = act x &&& ~~~bit
          ∧ training (t.port k) = some w ∧ (t.port k).retrains = more x.retrains
          ∧ Tab.get (0 : Word) (t.port k).bercnt w.toNat = count ∧ up (t.port k) ∧ OtherPorts s t k))
      ∧ ((act x).getLsbD w.toNat = true → ¬past → exec (.retrainStart port tx w count) s = .next (s.setPort k counted))
      ∧ ((act x).getLsbD w.toNat = true → past → training x ≠ none → exec (.retrainStart port tx w count) s
        = .next (s.setPort k { counted with due := if (tx, w) ∈ x.due then x.due else x.due ++ [(tx, w)] }))
      ∧ ((act x).getLsbD w.toNat = false → exec (.retrainStart port tx w count) s = .next s)
      ∧ (training x = some w →
        Completes (.retrainEnd port tx w true) s (fun t => goesOn (t.port k) (act x ||| bit) ∧ up (t.port k)
          ∧ OtherPorts s t k)
        ∧ (fails < 2 → Completes (.retrainEnd port tx w false) s (fun t => act (t.port k) = act x
          ∧ training (t.port k) = some w ∧ (t.port k).retired = x.retired ∧ OtherPorts s t k))
        ∧ (2 ≤ fails → Completes (.retrainEnd port tx w false) s (fun t => goesOn (t.port k) (act x)
          ∧ (t.port k).retired = x.retired ||| bit ∧ OtherPorts s t k)))
      ∧ (training x ≠ some w → exec (.retrainEnd port tx w ok) s = .next s)
      ∧ (s.booted = true → x.up = false → lo.toNat ≤ hi.toNat → 0x0102 ≤ hi.toNat → lo.toNat ≤ 0x0201 →
        Completes (.portTraining port lanes lo hi) s (fun t => (t.port k).ver = (if hi.toNat ≤ 0x0201 then hi else 0x0201)
          ∧ (t.port k).txact = lanes &&& ~~~x.retired ∧ (t.port k).rxact = lanes &&& ~~~x.retired ∧ up (t.port k)
          ∧ OtherPorts s t k))
      ∧ (hi.toNat < 0x0102 ∨ 0x0201 < lo.toNat ∨ s.booted = false → exec (.portTraining port lanes lo hi) s = .next s))
  ∧ (
    ∀ (s : State) (k : Nat),
      let t := s.portLost k
      (∀ m ∈ t.remote, m ∈ s.remote)
      ∧ (∀ m ∈ s.remote, s.routePort m ≠ some k ∨ s.fenceHolds m.src m.slot m.fence = true → m ∈ t.remote)
      ∧ (∀ c, (∀ e ∈ (t.core c).sb, e ∈ (s.core c).sb)
        ∧ ∀ e ∈ (s.core c).sb, e.route.getLsbD k = false ∨ s.fenceHoldsAt c e.slot e.fence (e.block * 64) = true →
            e ∈ (t.core c).sb)
      ∧ (t.early.map (fun e => { e with lost := false }) = s.early.map (fun e => { e with lost := false }))
      ∧ (∀ e ∈ s.early, e.route.getLsbD k = false → e ∈ t.early) ∧ ∀ c j, t.slotAt c j = s.slotAt c j)
  ∧ (
    ∀ (s : State) (e : BitVec 6) (member : BitVec 12),
      let l := s.link e.toNat
      let m := member.toNat
      let b := l.object
      let completed (t : State) : Prop := t.bar b = { s.bar b with gen := (s.bar b).gen + 1 } ∧ AllWake s t (.barrier b) 0
      let known := if m ∈ l.known then l.known else l.known ++ [m]
      (Linked s e.toNat true →
        (m ∈ l.arrived → exec (.arrivalToken e member) s = .next s)
        ∧ (m ∉ l.arrived → l.arrived.length + 1 ≠ l.members →
          exec (.arrivalToken e member) s = .next (s.setLink e.toNat { l with known := known, arrived := l.arrived ++ [m] }))
        ∧ (m ∉ l.arrived → l.arrived.length + 1 = l.members → Completes (.arrivalToken e member) s (fun t =>
          completed t ∧ t.link e.toNat = { l with known := known, arrived := [], waited := 0 }))
        ∧ (m ∉ l.absent → exec (.proxyAbsenceToken e member) s = .next (s.setLink e.toNat { l with absent := l.absent ++ [m] }))
        ∧ Completes (.presenceToken e member) s (fun t => m ∉ (t.link e.toNat).absent
          ∧ ∀ j, j ≠ m → (j ∈ (t.link e.toNat).absent ↔ j ∈ l.absent))
        ∧ (l.timeout ≠ 0 → l.arrived ≠ [] → l.absent = [] → l.timeout ≤ l.waited → Completes (.barrierTimeout e) s (fun t =>
          t.link e.toNat = Link.reset ∧ AllWake s t (.barrier b) 1))
        ∧ (l.waited < l.timeout ∨ l.timeout = 0 → exec (.barrierTimeout e) s = .next s))
      ∧ (Linked s e.toNat false →
        Completes (.releaseToken e) s (fun t => completed t)
        ∧ Completes (.barrierTimeout e) s (fun t => t.link e.toNat = Link.reset ∧ AllWake s t (.barrier b) 1)))

/-- R385, R386, R389. Throttling and recovery move an island by one level. A trip and a loss of power lose all state
but the lists of retired pages, and a trip tells the host by an interrupt; a package without power takes no step but
the one that powers it on or off, and the host's own writes of its memory. The model's readings or choices that it
rests on: log 3. -/
def Obligations.Power : Prop :=
  ∀ (s : State) (island : BitVec 10),
    let x := s.island island.toNat
    let gone (t : State) : Prop :=
      SameBut (fun s => { s with cur := State.reset.cur, agenda := [], free := 0, stamp := 0, power := .on, mem := []
                                 baseDies := [], irq := [], broken := false }) State.reset t
      ∧ (∀ q, (storeOf q = .host ∨ storeOf q = .remote) → t.byte q = s.byte q)
      ∧ (∀ q, storeOf q ≠ .host → storeOf q ≠ .remote → t.byte q = 0)
      ∧ (∀ k, k < 8 → (t.stack k).retired = (s.stack k).retired)
    (x.level.toNat < 5 → Completes (.throttle island) s (fun t => (t.island island.toNat).level = x.level + 1
      ∧ (∀ j, j ≠ island.toNat → t.island j = s.island j) ∧ SameBut (fun s => { s with islands := [] }) s t))
    ∧ (0 < x.level.toNat → Completes (.recovery island) s (fun t => t.island island.toNat = { x with level := x.level - 1 }
      ∧ (∀ j, j ≠ island.toNat → t.island j = s.island j) ∧ SameBut (fun s => { s with islands := [] }) s t))
    ∧ (x.level = 0 → exec (.recovery island) s = .next s)
    ∧ Completes .trip s (fun t => t.power = .tripped ∧ gone t ∧ 512 ∈ t.irq)
    ∧ Completes .lossOfPower s (fun t => t.power = .off ∧ gone t)
    ∧ (s.power = .off → Completes .powerOn s (fun t => t.power = .on ∧ gone t))
    ∧ (s.power ≠ .on → s.agenda = [] → step s = .fault .unpowered)
    ∧ (∀ x rest, s.power ≠ .on → s.agenda = x :: rest → x ≠ .event .powerOn → x ≠ .event .lossOfPower →
        (∀ pa bs, x ≠ .hostWrite pa bs) → (∀ fn, x ≠ .hostIrq fn) → step s = .fault .unpowered)
    ∧ (∀ pa bs rest, s.agenda = .hostWrite pa bs :: rest → (∀ i, i < bs.length → storeOf (pa + i) = .host) →
        step s = .next (({ s with agenda := rest } : State).poke pa bs))
    ∧ (∀ fn rest, s.agenda = .hostIrq fn :: rest → step s = .next { s with agenda := rest, irq := s.irq.filter (fun x => x ≠ fn) })

/-! ### The whole machine -/

/-- R63 to R65, R336. The issue stage of a core chooses a slot; where the bytes at its pc decode to an instruction,
the step runs that instruction, with the translations and the code lines that the fetch brought in, and what the
slot has done ahead stays only as far as the order behind the instruction lets it (log 5); where they decode to none
it is an illegal instruction, and a fetch that faults is a fetch fault. R21, R64. A slot that has stalled at an
instruction it has decoded goes on with that one, whatever its bytes are by now: where the issue stage chooses it,
or, where its instruction has issued or cannot issue yet, in its own turn. A slot without a task, a parked one, one
that only waits to issue, and one whose instruction names a register that a reply is still to fill does nothing. The
same step where the agenda is empty: the core that the state names issues, or else its slot goes on. The model's
readings or choices that it rests on: log 4, 5, 74. -/
def Obligations.StepRunsDecoded : Prop :=
  (
    ∀ (s : State) (c : Nat) (rest : List Turn), s.power = .on → s.agenda = .issue c :: rest → c < 4096 →
      let u : State := { s with agenda := rest }
      (u.issueSlot c = none → step s = .next u)
      ∧ (∀ k tie, u.issueSlot c = some (k, tie) →
        let x := s.slotAt c k
        let pc := x.pc.toNat
        let v : State := { u.setCore c { s.core c with lastTie := tie } with cur := { core := c, slot := k, len := 4, code := none } }
        let runs := x.latched = none ∧ x.overrun < 4096 ∧ (s.takesPending c k = false ∨ (x.budgetDue = false ∧ x.wound = none)) ∧ x.entering = none
        let fetched (bs : List Byte) (locs : List Loc) : State :=
          let v := locs.foldl (fun v l => v.keepCode c l) ((v.keepTlb c k pc).keepTlb c k (pc + bs.length - 1))
          { v with cur := { core := c, slot := k, len := bs.length, code := none } }
        runs →
        (∀ bs locs, v.fetch c k (v.slotFind c k) = .ok bs locs →
          (∀ i n, decode bs = .ok (i, n) → x.owes (s.codeInstr c i) = false →
            step s = exec i ((fetched bs locs).past c k i false))
          ∧ (∀ e, decode bs = .error e →
            let i : Instr := .illegalInstruction ((wordsOf bs).headD 0) 0
            step s = exec i ((fetched bs locs).past c k i false)))
        ∧ (∀ e w, v.fetch c k (v.slotFind c k) = .fault e w →
          step s = exec (.fetchFault e w) (v.past c k (.fetchFault e w) false)))
      ∧ ∀ k tie l, u.issueSlot c = some (k, tie) →
        let x := s.slotAt c k
        let w : State := ({ u.setCore c { s.core c with lastTie := tie } with
          cur := { core := c, slot := k, len := l.len, code := l.code } } : State).setSlotAt c k { x with latched := none }
        x.overrun < 4096 → (s.takesPending c k = false ∨ (x.budgetDue = false ∧ x.wound = none)) → x.latched = some l →
        x.owes (s.codeInstr c l.instr) = false → step s = exec l.instr (w.past c k l.instr true))
  ∧ (
    ∀ (s : State) (c k : Nat) (rest : List Turn), s.power = .on → s.agenda = .slot c k :: rest → c < 4096 → k < 8 →
      let u : State := { s with agenda := rest }
      let v : State := { u with cur := { core := c, slot := k, len := 4, code := none } }
      let x := s.slotAt c k
      let calm := x.overrun < 4096 ∧ (s.takesPending c k = false ∨ (x.budgetDue = false ∧ x.wound = none))
      (x.task = none → step s = .next v)
      ∧ (calm → x.task ≠ none → x.parked = true → step s = .next v)
      ∧ (calm → u.eligible c k = true → step s = .next u)
      ∧ (∀ l, calm → x.task ≠ none → x.parked = false → x.latched = some l → x.owes (s.codeInstr c l.instr) = true →
        step s = .next v)
      ∧ (∀ l, calm → x.task ≠ none → x.parked = false → x.latched = some l → x.owes (s.codeInstr c l.instr) = false →
        u.eligible c k = false →
        let w : State := { u with cur := { core := c, slot := k, len := l.len, code := l.code } }.setSlotAt c k { x with latched := none }
        step s = exec l.instr (w.past c k l.instr true)))
  ∧ (
    ∀ (s : State), s.power = .on → s.agenda = [] →
      step s = step { s with agenda := [if (s.issueSlot s.cur.core).isSome then .issue s.cur.core else .slot s.cur.core s.cur.slot] })

/-- R63 to R77. The worked encodings of file 03, byte by byte, and words written out field by field from Tables 3.3
to 3.6, one or two for each family, decode to the instructions that they stand for. The all-zero word and the
reserved majors decode to nothing. -/
def Obligations.DecodeWords : Prop :=
  decode [0x82, 0x62, 0x0E, 0x00] = .ok (.add 5 6 7, 4)
  ∧ decode [0x0A, 0x42, 0xFE, 0xFF] = .ok (.addi 4 4 0x7FFF, 4)
  ∧ decode [0xA4, 0x4E, 0xC0, 0xFF] = .ok (.bne 29 4 0 0x3FF, 4)
  ∧ decode [0x53, 0x09] = .ok (.dictionaryCode 9 37, 2)
  ∧ decode [0x02, 0x00, 0x00, 0xF0] = .ok (.hint 0 0 0 0, 4)
  ∧ decode (bytesOfNat 4 0b0_0_1_000111_000101_00010_00001_000100_0) = .ok (.bfi 1 2 5 7, 4)
  ∧ decode (bytesOfNat 4 0b01000_001_1_0_00011_00010_00001_001111_0) = .ok (.fcmp 1 2 3 1 1, 4)
  ∧ decode (bytesOfNat 4 0b11111111111111111110_00001_010111_0) = .ok (.jal 1 0xFFFFE, 4)
  ∧ decode (bytesOfNat 4 0b111111111000_110_00010_00100_011010_0) = .ok (.ld 4 2 6 0xFF8, 4)
  ∧ decode (bytesOfNat 4 0b0000001_010_00011_00010_00100_011100_0) = .ok (.st 4 2 3 2 1, 4)
  ∧ decode (bytesOfNat 4 0b1000_01_100_0_00011_00010_00001_011110_0) = .ok (.amo 1 2 3 4 1 8, 4)
  ∧ decode (bytesOfNat 4 0b000101_0000_00011_00010_00001_100010_0) = .ok (.barWait 1 2 3, 4)
  ∧ decode (bytesOfNat 4 0b1111111_01010_011_00010_00001_100011_0) = .ok (.vld 1 2 3 10 0x7F, 4)
  ∧ decode (bytesOfNat 4 0b010_01010_01_00011_00010_00001_101010_0) = .ok (.vfma 1 2 3 1 10 2, 4)
  ∧ decode (bytesOfNat 4 0b01_00011_010_00011_00010_01_101_110011_0) = .ok (.vcmp 5 1 2 3 2 3 1, 4)
  ∧ decode (bytesOfNat 4 0b000100_1001_00011_00000_00001_110111_0) = .ok (.qwait 1 3 9, 4)
  ∧ decode (bytesOfNat 4 0b000111_0011_00000_00000_00111_111000_0) = .ok (.nget 7 3, 4)
  ∧ decode (bytesOfNat 4 0b000000_0000_00000_00010_00001_111001_0) = .ok (.meet 1 2, 4)
  ∧ decode (bytesOfNat 4 0b000000_0101_00000_00010_00001_111010_0) = .ok (.lkreq 1 2 5, 4)
  ∧ decode (bytesOfNat 4 0b001010_0000_00000_00000_00001_111011_0) = .ok (.snap 1, 4)
  ∧ decode (bytesOfNat 4 0b000_000000010000_00000_00001_111100_0) = .ok (.sysrd 1 0x10, 4)
  ∧ decode (bytesOfNat 32 0b1_00101_011_1001_0010_0001_0000_111111_0)
      = .ok (.engineQueueEntry 0b1_00101_011_1001_0010_0001_0000 0 0 0 0 0 0 0, 32)
  ∧ ∀ w ∈ [0x00000000, 0x0000007A, 0x0000007C], ∃ e, decode (bytesOfNat 4 w) = .error e

/-- R389 and the reset columns of files 01, 12, 14 and 16: what the spec states of the package right after bring-up.
That one step stands for bring-up is log entry 3; that a byte nobody has written reads as 0 is the model's choice,
log entry 1. The canonical form of the memory holds at reset. The model's readings or choices that it rests on: log
1, 3. -/
def Obligations.ResetState : Prop :=
  (
    let s := State.reset
    s.power = .on ∧ (∀ c, (s.core c).lfsr = 1) ∧ (∀ c k, (s.slotAt c k).task = none)
      ∧ (∀ q, s.byte q = 0) ∧ (∀ d, s.domainMask d = 0x0000000000FF9200)
      ∧ (∀ vf, (s.ngamon vf).sel = 0x0100 ∧ s.matrix vf = 0x122475CF)
      ∧ (∀ c r, (s.core c).ring r = none) ∧ (∀ b, s.bar b = { n := 0, a := 0, gen := 0 })
      ∧ s.counters = [] ∧ (∀ e, (s.link e).valid = false) ∧ (∀ k, (s.port k).up = false)
      ∧ (∀ k, (s.island k).level = 0) ∧ (∀ t, Tab.get (0xFFFF : BitVec 16) s.tenantWays t = 0xFFFF))
  ∧ (
    MemoryOk State.reset)

/-- R63 to R80. Decoding the bytes that encode a well-formed instruction gives the instruction back, with its
length. -/
def Obligations.EncodeDecodeAgree : Prop :=
  ∀ (i : Instr), i.WellFormed → ∀ bs, encode i = some bs → decode bs = .ok (i, bs.length)

/-- R67, R80. An instruction with a field that its entry does not accept (for CPY, GTH, SCT and COLL as log 40 reads
them, and with SCAN's limit charged to word 2, log 41) takes an illegal-instruction trap, with its word in XVAL, and
has no other effect than that of taking the trap: the walks that the slot's accesses asked for are given up (15
R374), and what it has read ahead for instructions that it does not reach. The model's readings or choices that it
rests on: log 40, 41. -/
def Obligations.IllegalForms : Prop :=
  ∀ (s : State) (i : Instr), encode i ≠ none → legal i = false → Ready s →
    let x := illegalXval s.cur.code (wordOfInstr i) (illegalIndex i)
    TrapReady s 0x01 x s.base → Completes i s (fun t => Traps s t 0x01 x s.base ∧ SameBytes s t ∧ OtherSlots s t
      ∧ SamePackage (s.abandon s.cur.core s.cur.slot) t ∧ SameCores s t)

/-- The memory keeps its canonical form: places rising, no byte listed that equals what an unlisted place reads as
(0, the model's choice, log entry 1), whatever a step does. The model's readings or choices that it rests on: log 1. -/
def Obligations.MemoryStaysCanonical : Prop :=
  ∀ (s t : State), MemoryOk s → step s = .next t → MemoryOk t

/-- R297, R322. No instruction of a slot outside the secure world changes an interleave mask, the attic ways of a
slice, the ways of a tenant, or the keys in force. -/
def Obligations.OnlySecureWorldConfigures : Prop :=
  ∀ (s t : State) (i : Instr), encode i ≠ none → s.secure = false → exec i s = .next t →
    t.domains = s.domains ∧ t.attic = s.attic ∧ t.tenantWays = s.tenantWays ∧ t.keys = s.keys

end Statements
end

