-- ==== Sys2Proof/Laws/Tab.lean ====
section
/-! SUPPORT. Tables: what is read after a write, and that writes keep the canonical form. -/

namespace Sys2Proof.Laws

variable {α : Type}

theorem find_put (t : Tab α) (n m : Nat) (v : α) :
    Tab.find (Tab.put t n v) m = if n = m then some v else Tab.find t m := by
  induction t with
  | nil => simp [Tab.put, Tab.find, eq_comm]
  | cons e t ih =>
    obtain ⟨k, w⟩ := e
    by_cases h : n = m
    · subst h
      simp only [if_true] at ih ⊢
      simp only [Tab.put]
      split
      · simp [Tab.find]
      · split
        · simp [Tab.find]
        · simp only [Tab.find, ih]; split <;> simp_all
    · simp only [h, if_false] at ih ⊢
      have h' : ¬ m = n := fun e => h e.symm
      simp only [Tab.put]
      split
      · simp [Tab.find, h']
      · split
        · rename_i hk; subst hk; simp [Tab.find, h']
        · simp [Tab.find, ih]

theorem find_erase (t : Tab α) (n m : Nat) :
    Tab.find (Tab.erase t n) m = if n = m then none else Tab.find t m := by
  induction t with
  | nil => simp [Tab.erase, Tab.find]
  | cons e t ih =>
    obtain ⟨k, w⟩ := e
    simp only [Tab.erase]
    split
    · rename_i h; subst h
      rw [ih]
      split
      · rfl
      · rename_i h
        have h' : ¬ m = n := fun e => h e.symm
        simp [Tab.find, h']
    · rename_i h
      simp only [Tab.find, ih]
      split
      · rename_i h'; subst h'; simp [h]
      · rfl

@[simp] theorem get_nil (d : α) (n : Nat) : Tab.get d [] n = d := rfl

variable [DecidableEq α]

/-- A table read after one of its keys was set. -/
theorem get_set (d : α) (t : Tab α) (n m : Nat) (v : α) :
    Tab.get d (Tab.set d t n v) m = if n = m then v else Tab.get d t m := by
  unfold Tab.get Tab.set
  split
  · rename_i h; rw [find_erase]; split <;> simp_all
  · rw [find_put]; split <;> simp_all

@[simp] theorem get_set_self (d : α) (t : Tab α) (n : Nat) (v : α) : Tab.get d (Tab.set d t n v) n = v := by
  simp [get_set]

theorem get_set_ne (d : α) (t : Tab α) {n m : Nat} (v : α) (h : n ≠ m) :
    Tab.get d (Tab.set d t n v) m = Tab.get d t m := by
  simp [get_set, h]

/-! ### The canonical form -/

omit [DecidableEq α] in
/-- A list of keys in rising order, said of its head. -/
theorem sorted_cons (k : Nat) (w : α) (t : Tab α) :
    Tab.sorted ((k, w) :: t) = true ↔ (∀ e ∈ t, k < e.1) ∧ Tab.sorted t = true := by
  induction t generalizing k w with
  | nil => simp [Tab.sorted]
  | cons e t ih =>
    obtain ⟨j, x⟩ := e
    simp only [Tab.sorted, Bool.and_eq_true, decide_eq_true_eq]
    constructor
    · rintro ⟨h1, h2⟩
      refine ⟨?_, h2⟩
      intro e he
      rcases List.mem_cons.mp he with rfl | he
      · exact h1
      · exact Nat.lt_trans h1 (((ih j x).mp h2).1 e he)
    · rintro ⟨h1, h2⟩
      exact ⟨h1 (j, x) List.mem_cons_self, h2⟩

omit [DecidableEq α] in
theorem mem_put (t : Tab α) (n : Nat) (v : α) (e : Nat × α) (h : e ∈ Tab.put t n v) : e = (n, v) ∨ e ∈ t := by
  induction t with
  | nil => simpa [Tab.put] using h
  | cons x t ih =>
    obtain ⟨k, w⟩ := x
    simp only [Tab.put] at h
    split at h
    · rcases List.mem_cons.mp h with h | h
      · exact .inl h
      · exact .inr h
    · split at h
      · rcases List.mem_cons.mp h with h | h
        · exact .inl h
        · exact .inr (List.mem_cons_of_mem _ h)
      · rcases List.mem_cons.mp h with h | h
        · exact .inr (h ▸ List.mem_cons_self)
        · rcases ih h with h | h
          · exact .inl h
          · exact .inr (List.mem_cons_of_mem _ h)

omit [DecidableEq α] in
theorem sorted_put (t : Tab α) (n : Nat) (v : α) (h : Tab.sorted t = true) : Tab.sorted (Tab.put t n v) = true := by
  induction t with
  | nil => rfl
  | cons x t ih =>
    obtain ⟨k, w⟩ := x
    have hk := (sorted_cons k w t).mp h
    simp only [Tab.put]
    split
    · rename_i hn
      rw [sorted_cons]
      refine ⟨?_, h⟩
      intro e he
      rcases List.mem_cons.mp he with rfl | he
      · exact hn
      · exact Nat.lt_trans hn (hk.1 e he)
    · split
      · rename_i hn; subst hn
        rw [sorted_cons]; exact hk
      · rename_i h1 h2
        rw [sorted_cons]
        refine ⟨?_, ih hk.2⟩
        intro e he
        rcases mem_put t n v e he with rfl | he
        · simp only; omega
        · exact hk.1 e he

omit [DecidableEq α] in
theorem sorted_filter (t : Tab α) (p : Nat × α → Bool) (h : Tab.sorted t = true) : Tab.sorted (t.filter p) = true := by
  induction t with
  | nil => rfl
  | cons x t ih =>
    obtain ⟨k, w⟩ := x
    have hk := (sorted_cons k w t).mp h
    simp only [List.filter_cons]
    split
    · rw [sorted_cons]
      exact ⟨fun e he => hk.1 e (List.mem_filter.mp he).1, ih hk.2⟩
    · exact ih hk.2

omit [DecidableEq α] in
/-- Erasing a key is filtering it out. -/
theorem erase_eq_filter (t : Tab α) (n : Nat) : Tab.erase t n = t.filter (fun e => e.1 ≠ n) := by
  induction t with
  | nil => rfl
  | cons x t ih =>
    obtain ⟨k, w⟩ := x
    simp only [Tab.erase, List.filter_cons, ih]
    by_cases h : n = k
    · simp [h]
    · have h' : ¬ k = n := fun e => h e.symm
      simp [h, h']

theorem wf_iff (d : α) (t : Tab α) : Tab.wf d t = true ↔ Tab.sorted t = true ∧ ∀ e ∈ t, e.2 ≠ d := by
  simp [Tab.wf, List.all_eq_true]

theorem wf_nil (d : α) : Tab.wf d ([] : Tab α) = true := rfl

/-- Filtering keeps the canonical form. -/
theorem wf_filter (d : α) (t : Tab α) (p : Nat × α → Bool) (h : Tab.wf d t = true) : Tab.wf d (t.filter p) = true := by
  rw [wf_iff] at h ⊢
  exact ⟨sorted_filter t p h.1, fun e he => h.2 e (List.mem_filter.mp he).1⟩

/-- Setting a key keeps the canonical form. -/
theorem wf_set (d : α) (t : Tab α) (n : Nat) (v : α) (h : Tab.wf d t = true) : Tab.wf d (Tab.set d t n v) = true := by
  unfold Tab.set
  split
  · rw [erase_eq_filter]; exact wf_filter d t _ h
  · rename_i hv
    rw [wf_iff] at h ⊢
    refine ⟨sorted_put t n v h.1, ?_⟩
    intro e he
    rcases mem_put t n v e he with rfl | he
    · exact hv
    · exact h.2 e he

end Sys2Proof.Laws
end

