-- ==== Sys2Proof/Laws/State.lean ====
section
/-! SUPPORT. Records read after an update: one lemma per field and update, and what the running slot and the cores
read after a write. -/

namespace Sys2Proof.Machine

/-! ### A core or a slot replaced: the package's other fields -/

@[simp] theorem setCore_cur (s : State) (c : Nat) (x : Core) : (s.setCore c x).cur = s.cur := rfl
@[simp] theorem setCore_agenda (s : State) (c : Nat) (x : Core) : (s.setCore c x).agenda = s.agenda := rfl
@[simp] theorem setCore_free (s : State) (c : Nat) (x : Core) : (s.setCore c x).free = s.free := rfl
@[simp] theorem setCore_stamp (s : State) (c : Nat) (x : Core) : (s.setCore c x).stamp = s.stamp := rfl
@[simp] theorem setCore_power (s : State) (c : Nat) (x : Core) : (s.setCore c x).power = s.power := rfl
@[simp] theorem setCore_mem (s : State) (c : Nat) (x : Core) : (s.setCore c x).mem = s.mem := rfl
@[simp] theorem setCore_tables (s : State) (c : Nat) (x : Core) : (s.setCore c x).tables = s.tables := rfl
@[simp] theorem setCore_poisoned (s : State) (c : Nat) (x : Core) : (s.setCore c x).poisoned = s.poisoned := rfl
@[simp] theorem setCore_keys (s : State) (c : Nat) (x : Core) : (s.setCore c x).keys = s.keys := rfl
@[simp] theorem setCore_writtenUnder (s : State) (c : Nat) (x : Core) : (s.setCore c x).writtenUnder = s.writtenUnder := rfl
@[simp] theorem setCore_bars (s : State) (c : Nat) (x : Core) : (s.setCore c x).bars = s.bars := rfl
@[simp] theorem setCore_counters (s : State) (c : Nat) (x : Core) : (s.setCore c x).counters = s.counters := rfl
@[simp] theorem setCore_l2tlb (s : State) (c : Nat) (x : Core) : (s.setCore c x).l2tlb = s.l2tlb := rfl
@[simp] theorem setCore_domains (s : State) (c : Nat) (x : Core) : (s.setCore c x).domains = s.domains := rfl
@[simp] theorem setCore_walks (s : State) (c : Nat) (x : Core) : (s.setCore c x).walks = s.walks := rfl
@[simp] theorem setCore_attic (s : State) (c : Nat) (x : Core) : (s.setCore c x).attic = s.attic := rfl
@[simp] theorem setCore_tenantWays (s : State) (c : Nat) (x : Core) : (s.setCore c x).tenantWays = s.tenantWays := rfl
@[simp] theorem setCore_l2 (s : State) (c : Nat) (x : Core) : (s.setCore c x).l2 = s.l2 := rfl
@[simp] theorem setCore_misses (s : State) (c : Nat) (x : Core) : (s.setCore c x).misses = s.misses := rfl
@[simp] theorem setCore_claims (s : State) (c : Nat) (x : Core) : (s.setCore c x).claims = s.claims := rfl
@[simp] theorem setCore_waystations (s : State) (c : Nat) (x : Core) : (s.setCore c x).waystations = s.waystations := rfl
@[simp] theorem setCore_locks (s : State) (c : Nat) (x : Core) : (s.setCore c x).locks = s.locks := rfl
@[simp] theorem setCore_revokes (s : State) (c : Nat) (x : Core) : (s.setCore c x).revokes = s.revokes := rfl
@[simp] theorem setCore_lockDrops (s : State) (c : Nat) (x : Core) : (s.setCore c x).lockDrops = s.lockDrops := rfl
@[simp] theorem setCore_epochs (s : State) (c : Nat) (x : Core) : (s.setCore c x).epochs = s.epochs := rfl
@[simp] theorem setCore_posted (s : State) (c : Nat) (x : Core) : (s.setCore c x).posted = s.posted := rfl
@[simp] theorem setCore_early (s : State) (c : Nat) (x : Core) : (s.setCore c x).early = s.early := rfl
@[simp] theorem setCore_reports (s : State) (c : Nat) (x : Core) : (s.setCore c x).reports = s.reports := rfl
@[simp] theorem setCore_baseDies (s : State) (c : Nat) (x : Core) : (s.setCore c x).baseDies = s.baseDies := rfl
@[simp] theorem setCore_crossbars (s : State) (c : Nat) (x : Core) : (s.setCore c x).crossbars = s.crossbars := rfl
@[simp] theorem setCore_snoop (s : State) (c : Nat) (x : Core) : (s.setCore c x).snoop = s.snoop := rfl
@[simp] theorem setCore_roots (s : State) (c : Nat) (x : Core) : (s.setCore c x).roots = s.roots := rfl
@[simp] theorem setCore_nextRoot (s : State) (c : Nat) (x : Core) : (s.setCore c x).nextRoot = s.nextRoot := rfl
@[simp] theorem setCore_collIn (s : State) (c : Nat) (x : Core) : (s.setCore c x).collIn = s.collIn := rfl
@[simp] theorem setCore_net (s : State) (c : Nat) (x : Core) : (s.setCore c x).net = s.net := rfl
@[simp] theorem setCore_nnet (s : State) (c : Nat) (x : Core) : (s.setCore c x).nnet = s.nnet := rfl
@[simp] theorem setCore_cnet (s : State) (c : Nat) (x : Core) : (s.setCore c x).cnet = s.cnet := rfl
@[simp] theorem setCore_remote (s : State) (c : Nat) (x : Core) : (s.setCore c x).remote = s.remote := rfl
@[simp] theorem setCore_fired (s : State) (c : Nat) (x : Core) : (s.setCore c x).fired = s.fired := rfl
@[simp] theorem setCore_vfs (s : State) (c : Nat) (x : Core) : (s.setCore c x).vfs = s.vfs := rfl
@[simp] theorem setCore_pub (s : State) (c : Nat) (x : Core) : (s.setCore c x).pub = s.pub := rfl
@[simp] theorem setCore_ports (s : State) (c : Nat) (x : Core) : (s.setCore c x).ports = s.ports := rfl
@[simp] theorem setCore_routes (s : State) (c : Nat) (x : Core) : (s.setCore c x).routes = s.routes := rfl
@[simp] theorem setCore_links (s : State) (c : Nat) (x : Core) : (s.setCore c x).links = s.links := rfl
@[simp] theorem setCore_islands (s : State) (c : Nat) (x : Core) : (s.setCore c x).islands = s.islands := rfl
@[simp] theorem setCore_triggers (s : State) (c : Nat) (x : Core) : (s.setCore c x).triggers = s.triggers := rfl
@[simp] theorem setCore_latchDue (s : State) (c : Nat) (x : Core) : (s.setCore c x).latchDue = s.latchDue := rfl
@[simp] theorem setCore_snapshot (s : State) (c : Nat) (x : Core) : (s.setCore c x).snapshot = s.snapshot := rfl
@[simp] theorem setCore_package (s : State) (c : Nat) (x : Core) : (s.setCore c x).package = s.package := rfl
@[simp] theorem setCore_booted (s : State) (c : Nat) (x : Core) : (s.setCore c x).booted = s.booted := rfl
@[simp] theorem setCore_irq (s : State) (c : Nat) (x : Core) : (s.setCore c x).irq = s.irq := rfl
@[simp] theorem setCore_answer (s : State) (c : Nat) (x : Core) : (s.setCore c x).answer = s.answer := rfl
@[simp] theorem setCore_broken (s : State) (c : Nat) (x : Core) : (s.setCore c x).broken = s.broken := rfl
@[simp] theorem setSlotAt_cur (s : State) (c k : Nat) (x : Slot) : (s.setSlotAt c k x).cur = s.cur := rfl
@[simp] theorem setSlotAt_agenda (s : State) (c k : Nat) (x : Slot) : (s.setSlotAt c k x).agenda = s.agenda := rfl
@[simp] theorem setSlotAt_free (s : State) (c k : Nat) (x : Slot) : (s.setSlotAt c k x).free = s.free := rfl
@[simp] theorem setSlotAt_stamp (s : State) (c k : Nat) (x : Slot) : (s.setSlotAt c k x).stamp = s.stamp := rfl
@[simp] theorem setSlotAt_power (s : State) (c k : Nat) (x : Slot) : (s.setSlotAt c k x).power = s.power := rfl
@[simp] theorem setSlotAt_mem (s : State) (c k : Nat) (x : Slot) : (s.setSlotAt c k x).mem = s.mem := rfl
@[simp] theorem setSlotAt_tables (s : State) (c k : Nat) (x : Slot) : (s.setSlotAt c k x).tables = s.tables := rfl
@[simp] theorem setSlotAt_poisoned (s : State) (c k : Nat) (x : Slot) : (s.setSlotAt c k x).poisoned = s.poisoned := rfl
@[simp] theorem setSlotAt_keys (s : State) (c k : Nat) (x : Slot) : (s.setSlotAt c k x).keys = s.keys := rfl
@[simp] theorem setSlotAt_writtenUnder (s : State) (c k : Nat) (x : Slot) : (s.setSlotAt c k x).writtenUnder = s.writtenUnder := rfl
@[simp] theorem setSlotAt_bars (s : State) (c k : Nat) (x : Slot) : (s.setSlotAt c k x).bars = s.bars := rfl
@[simp] theorem setSlotAt_counters (s : State) (c k : Nat) (x : Slot) : (s.setSlotAt c k x).counters = s.counters := rfl
@[simp] theorem setSlotAt_l2tlb (s : State) (c k : Nat) (x : Slot) : (s.setSlotAt c k x).l2tlb = s.l2tlb := rfl
@[simp] theorem setSlotAt_domains (s : State) (c k : Nat) (x : Slot) : (s.setSlotAt c k x).domains = s.domains := rfl
@[simp] theorem setSlotAt_walks (s : State) (c k : Nat) (x : Slot) : (s.setSlotAt c k x).walks = s.walks := rfl
@[simp] theorem setSlotAt_attic (s : State) (c k : Nat) (x : Slot) : (s.setSlotAt c k x).attic = s.attic := rfl
@[simp] theorem setSlotAt_tenantWays (s : State) (c k : Nat) (x : Slot) : (s.setSlotAt c k x).tenantWays = s.tenantWays := rfl
@[simp] theorem setSlotAt_l2 (s : State) (c k : Nat) (x : Slot) : (s.setSlotAt c k x).l2 = s.l2 := rfl
@[simp] theorem setSlotAt_misses (s : State) (c k : Nat) (x : Slot) : (s.setSlotAt c k x).misses = s.misses := rfl
@[simp] theorem setSlotAt_claims (s : State) (c k : Nat) (x : Slot) : (s.setSlotAt c k x).claims = s.claims := rfl
@[simp] theorem setSlotAt_waystations (s : State) (c k : Nat) (x : Slot) : (s.setSlotAt c k x).waystations = s.waystations := rfl
@[simp] theorem setSlotAt_locks (s : State) (c k : Nat) (x : Slot) : (s.setSlotAt c k x).locks = s.locks := rfl
@[simp] theorem setSlotAt_revokes (s : State) (c k : Nat) (x : Slot) : (s.setSlotAt c k x).revokes = s.revokes := rfl
@[simp] theorem setSlotAt_lockDrops (s : State) (c k : Nat) (x : Slot) : (s.setSlotAt c k x).lockDrops = s.lockDrops := rfl
@[simp] theorem setSlotAt_epochs (s : State) (c k : Nat) (x : Slot) : (s.setSlotAt c k x).epochs = s.epochs := rfl
@[simp] theorem setSlotAt_posted (s : State) (c k : Nat) (x : Slot) : (s.setSlotAt c k x).posted = s.posted := rfl
@[simp] theorem setSlotAt_early (s : State) (c k : Nat) (x : Slot) : (s.setSlotAt c k x).early = s.early := rfl
@[simp] theorem setSlotAt_reports (s : State) (c k : Nat) (x : Slot) : (s.setSlotAt c k x).reports = s.reports := rfl
@[simp] theorem setSlotAt_baseDies (s : State) (c k : Nat) (x : Slot) : (s.setSlotAt c k x).baseDies = s.baseDies := rfl
@[simp] theorem setSlotAt_crossbars (s : State) (c k : Nat) (x : Slot) : (s.setSlotAt c k x).crossbars = s.crossbars := rfl
@[simp] theorem setSlotAt_snoop (s : State) (c k : Nat) (x : Slot) : (s.setSlotAt c k x).snoop = s.snoop := rfl
@[simp] theorem setSlotAt_roots (s : State) (c k : Nat) (x : Slot) : (s.setSlotAt c k x).roots = s.roots := rfl
@[simp] theorem setSlotAt_nextRoot (s : State) (c k : Nat) (x : Slot) : (s.setSlotAt c k x).nextRoot = s.nextRoot := rfl
@[simp] theorem setSlotAt_collIn (s : State) (c k : Nat) (x : Slot) : (s.setSlotAt c k x).collIn = s.collIn := rfl
@[simp] theorem setSlotAt_net (s : State) (c k : Nat) (x : Slot) : (s.setSlotAt c k x).net = s.net := rfl
@[simp] theorem setSlotAt_nnet (s : State) (c k : Nat) (x : Slot) : (s.setSlotAt c k x).nnet = s.nnet := rfl
@[simp] theorem setSlotAt_cnet (s : State) (c k : Nat) (x : Slot) : (s.setSlotAt c k x).cnet = s.cnet := rfl
@[simp] theorem setSlotAt_remote (s : State) (c k : Nat) (x : Slot) : (s.setSlotAt c k x).remote = s.remote := rfl
@[simp] theorem setSlotAt_fired (s : State) (c k : Nat) (x : Slot) : (s.setSlotAt c k x).fired = s.fired := rfl
@[simp] theorem setSlotAt_vfs (s : State) (c k : Nat) (x : Slot) : (s.setSlotAt c k x).vfs = s.vfs := rfl
@[simp] theorem setSlotAt_pub (s : State) (c k : Nat) (x : Slot) : (s.setSlotAt c k x).pub = s.pub := rfl
@[simp] theorem setSlotAt_ports (s : State) (c k : Nat) (x : Slot) : (s.setSlotAt c k x).ports = s.ports := rfl
@[simp] theorem setSlotAt_routes (s : State) (c k : Nat) (x : Slot) : (s.setSlotAt c k x).routes = s.routes := rfl
@[simp] theorem setSlotAt_links (s : State) (c k : Nat) (x : Slot) : (s.setSlotAt c k x).links = s.links := rfl
@[simp] theorem setSlotAt_islands (s : State) (c k : Nat) (x : Slot) : (s.setSlotAt c k x).islands = s.islands := rfl
@[simp] theorem setSlotAt_triggers (s : State) (c k : Nat) (x : Slot) : (s.setSlotAt c k x).triggers = s.triggers := rfl
@[simp] theorem setSlotAt_latchDue (s : State) (c k : Nat) (x : Slot) : (s.setSlotAt c k x).latchDue = s.latchDue := rfl
@[simp] theorem setSlotAt_snapshot (s : State) (c k : Nat) (x : Slot) : (s.setSlotAt c k x).snapshot = s.snapshot := rfl
@[simp] theorem setSlotAt_package (s : State) (c k : Nat) (x : Slot) : (s.setSlotAt c k x).package = s.package := rfl
@[simp] theorem setSlotAt_booted (s : State) (c k : Nat) (x : Slot) : (s.setSlotAt c k x).booted = s.booted := rfl
@[simp] theorem setSlotAt_irq (s : State) (c k : Nat) (x : Slot) : (s.setSlotAt c k x).irq = s.irq := rfl
@[simp] theorem setSlotAt_answer (s : State) (c k : Nat) (x : Slot) : (s.setSlotAt c k x).answer = s.answer := rfl
@[simp] theorem setSlotAt_broken (s : State) (c k : Nat) (x : Slot) : (s.setSlotAt c k x).broken = s.broken := rfl
@[simp] theorem setMe_cur (s : State) (x : Slot) : (s.setMe x).cur = s.cur := rfl
@[simp] theorem setMe_agenda (s : State) (x : Slot) : (s.setMe x).agenda = s.agenda := rfl
@[simp] theorem setMe_free (s : State) (x : Slot) : (s.setMe x).free = s.free := rfl
@[simp] theorem setMe_stamp (s : State) (x : Slot) : (s.setMe x).stamp = s.stamp := rfl
@[simp] theorem setMe_power (s : State) (x : Slot) : (s.setMe x).power = s.power := rfl
@[simp] theorem setMe_mem (s : State) (x : Slot) : (s.setMe x).mem = s.mem := rfl
@[simp] theorem setMe_tables (s : State) (x : Slot) : (s.setMe x).tables = s.tables := rfl
@[simp] theorem setMe_poisoned (s : State) (x : Slot) : (s.setMe x).poisoned = s.poisoned := rfl
@[simp] theorem setMe_keys (s : State) (x : Slot) : (s.setMe x).keys = s.keys := rfl
@[simp] theorem setMe_writtenUnder (s : State) (x : Slot) : (s.setMe x).writtenUnder = s.writtenUnder := rfl
@[simp] theorem setMe_bars (s : State) (x : Slot) : (s.setMe x).bars = s.bars := rfl
@[simp] theorem setMe_counters (s : State) (x : Slot) : (s.setMe x).counters = s.counters := rfl
@[simp] theorem setMe_l2tlb (s : State) (x : Slot) : (s.setMe x).l2tlb = s.l2tlb := rfl
@[simp] theorem setMe_domains (s : State) (x : Slot) : (s.setMe x).domains = s.domains := rfl
@[simp] theorem setMe_walks (s : State) (x : Slot) : (s.setMe x).walks = s.walks := rfl
@[simp] theorem setMe_attic (s : State) (x : Slot) : (s.setMe x).attic = s.attic := rfl
@[simp] theorem setMe_tenantWays (s : State) (x : Slot) : (s.setMe x).tenantWays = s.tenantWays := rfl
@[simp] theorem setMe_l2 (s : State) (x : Slot) : (s.setMe x).l2 = s.l2 := rfl
@[simp] theorem setMe_misses (s : State) (x : Slot) : (s.setMe x).misses = s.misses := rfl
@[simp] theorem setMe_claims (s : State) (x : Slot) : (s.setMe x).claims = s.claims := rfl
@[simp] theorem setMe_waystations (s : State) (x : Slot) : (s.setMe x).waystations = s.waystations := rfl
@[simp] theorem setMe_locks (s : State) (x : Slot) : (s.setMe x).locks = s.locks := rfl
@[simp] theorem setMe_revokes (s : State) (x : Slot) : (s.setMe x).revokes = s.revokes := rfl
@[simp] theorem setMe_lockDrops (s : State) (x : Slot) : (s.setMe x).lockDrops = s.lockDrops := rfl
@[simp] theorem setMe_epochs (s : State) (x : Slot) : (s.setMe x).epochs = s.epochs := rfl
@[simp] theorem setMe_posted (s : State) (x : Slot) : (s.setMe x).posted = s.posted := rfl
@[simp] theorem setMe_early (s : State) (x : Slot) : (s.setMe x).early = s.early := rfl
@[simp] theorem setMe_reports (s : State) (x : Slot) : (s.setMe x).reports = s.reports := rfl
@[simp] theorem setMe_baseDies (s : State) (x : Slot) : (s.setMe x).baseDies = s.baseDies := rfl
@[simp] theorem setMe_crossbars (s : State) (x : Slot) : (s.setMe x).crossbars = s.crossbars := rfl
@[simp] theorem setMe_snoop (s : State) (x : Slot) : (s.setMe x).snoop = s.snoop := rfl
@[simp] theorem setMe_roots (s : State) (x : Slot) : (s.setMe x).roots = s.roots := rfl
@[simp] theorem setMe_nextRoot (s : State) (x : Slot) : (s.setMe x).nextRoot = s.nextRoot := rfl
@[simp] theorem setMe_collIn (s : State) (x : Slot) : (s.setMe x).collIn = s.collIn := rfl
@[simp] theorem setMe_net (s : State) (x : Slot) : (s.setMe x).net = s.net := rfl
@[simp] theorem setMe_nnet (s : State) (x : Slot) : (s.setMe x).nnet = s.nnet := rfl
@[simp] theorem setMe_cnet (s : State) (x : Slot) : (s.setMe x).cnet = s.cnet := rfl
@[simp] theorem setMe_remote (s : State) (x : Slot) : (s.setMe x).remote = s.remote := rfl
@[simp] theorem setMe_fired (s : State) (x : Slot) : (s.setMe x).fired = s.fired := rfl
@[simp] theorem setMe_vfs (s : State) (x : Slot) : (s.setMe x).vfs = s.vfs := rfl
@[simp] theorem setMe_pub (s : State) (x : Slot) : (s.setMe x).pub = s.pub := rfl
@[simp] theorem setMe_ports (s : State) (x : Slot) : (s.setMe x).ports = s.ports := rfl
@[simp] theorem setMe_routes (s : State) (x : Slot) : (s.setMe x).routes = s.routes := rfl
@[simp] theorem setMe_links (s : State) (x : Slot) : (s.setMe x).links = s.links := rfl
@[simp] theorem setMe_islands (s : State) (x : Slot) : (s.setMe x).islands = s.islands := rfl
@[simp] theorem setMe_triggers (s : State) (x : Slot) : (s.setMe x).triggers = s.triggers := rfl
@[simp] theorem setMe_latchDue (s : State) (x : Slot) : (s.setMe x).latchDue = s.latchDue := rfl
@[simp] theorem setMe_snapshot (s : State) (x : Slot) : (s.setMe x).snapshot = s.snapshot := rfl
@[simp] theorem setMe_package (s : State) (x : Slot) : (s.setMe x).package = s.package := rfl
@[simp] theorem setMe_booted (s : State) (x : Slot) : (s.setMe x).booted = s.booted := rfl
@[simp] theorem setMe_irq (s : State) (x : Slot) : (s.setMe x).irq = s.irq := rfl
@[simp] theorem setMe_answer (s : State) (x : Slot) : (s.setMe x).answer = s.answer := rfl
@[simp] theorem setMe_broken (s : State) (x : Slot) : (s.setMe x).broken = s.broken := rfl
@[simp] theorem setHere_cur (s : State) (x : Core) : (s.setHere x).cur = s.cur := rfl
@[simp] theorem setHere_agenda (s : State) (x : Core) : (s.setHere x).agenda = s.agenda := rfl
@[simp] theorem setHere_free (s : State) (x : Core) : (s.setHere x).free = s.free := rfl
@[simp] theorem setHere_stamp (s : State) (x : Core) : (s.setHere x).stamp = s.stamp := rfl
@[simp] theorem setHere_power (s : State) (x : Core) : (s.setHere x).power = s.power := rfl
@[simp] theorem setHere_mem (s : State) (x : Core) : (s.setHere x).mem = s.mem := rfl
@[simp] theorem setHere_tables (s : State) (x : Core) : (s.setHere x).tables = s.tables := rfl
@[simp] theorem setHere_poisoned (s : State) (x : Core) : (s.setHere x).poisoned = s.poisoned := rfl
@[simp] theorem setHere_keys (s : State) (x : Core) : (s.setHere x).keys = s.keys := rfl
@[simp] theorem setHere_writtenUnder (s : State) (x : Core) : (s.setHere x).writtenUnder = s.writtenUnder := rfl
@[simp] theorem setHere_bars (s : State) (x : Core) : (s.setHere x).bars = s.bars := rfl
@[simp] theorem setHere_counters (s : State) (x : Core) : (s.setHere x).counters = s.counters := rfl
@[simp] theorem setHere_l2tlb (s : State) (x : Core) : (s.setHere x).l2tlb = s.l2tlb := rfl
@[simp] theorem setHere_domains (s : State) (x : Core) : (s.setHere x).domains = s.domains := rfl
@[simp] theorem setHere_walks (s : State) (x : Core) : (s.setHere x).walks = s.walks := rfl
@[simp] theorem setHere_attic (s : State) (x : Core) : (s.setHere x).attic = s.attic := rfl
@[simp] theorem setHere_tenantWays (s : State) (x : Core) : (s.setHere x).tenantWays = s.tenantWays := rfl
@[simp] theorem setHere_l2 (s : State) (x : Core) : (s.setHere x).l2 = s.l2 := rfl
@[simp] theorem setHere_misses (s : State) (x : Core) : (s.setHere x).misses = s.misses := rfl
@[simp] theorem setHere_claims (s : State) (x : Core) : (s.setHere x).claims = s.claims := rfl
@[simp] theorem setHere_waystations (s : State) (x : Core) : (s.setHere x).waystations = s.waystations := rfl
@[simp] theorem setHere_locks (s : State) (x : Core) : (s.setHere x).locks = s.locks := rfl
@[simp] theorem setHere_revokes (s : State) (x : Core) : (s.setHere x).revokes = s.revokes := rfl
@[simp] theorem setHere_lockDrops (s : State) (x : Core) : (s.setHere x).lockDrops = s.lockDrops := rfl
@[simp] theorem setHere_epochs (s : State) (x : Core) : (s.setHere x).epochs = s.epochs := rfl
@[simp] theorem setHere_posted (s : State) (x : Core) : (s.setHere x).posted = s.posted := rfl
@[simp] theorem setHere_early (s : State) (x : Core) : (s.setHere x).early = s.early := rfl
@[simp] theorem setHere_reports (s : State) (x : Core) : (s.setHere x).reports = s.reports := rfl
@[simp] theorem setHere_baseDies (s : State) (x : Core) : (s.setHere x).baseDies = s.baseDies := rfl
@[simp] theorem setHere_crossbars (s : State) (x : Core) : (s.setHere x).crossbars = s.crossbars := rfl
@[simp] theorem setHere_snoop (s : State) (x : Core) : (s.setHere x).snoop = s.snoop := rfl
@[simp] theorem setHere_roots (s : State) (x : Core) : (s.setHere x).roots = s.roots := rfl
@[simp] theorem setHere_nextRoot (s : State) (x : Core) : (s.setHere x).nextRoot = s.nextRoot := rfl
@[simp] theorem setHere_collIn (s : State) (x : Core) : (s.setHere x).collIn = s.collIn := rfl
@[simp] theorem setHere_net (s : State) (x : Core) : (s.setHere x).net = s.net := rfl
@[simp] theorem setHere_nnet (s : State) (x : Core) : (s.setHere x).nnet = s.nnet := rfl
@[simp] theorem setHere_cnet (s : State) (x : Core) : (s.setHere x).cnet = s.cnet := rfl
@[simp] theorem setHere_remote (s : State) (x : Core) : (s.setHere x).remote = s.remote := rfl
@[simp] theorem setHere_fired (s : State) (x : Core) : (s.setHere x).fired = s.fired := rfl
@[simp] theorem setHere_vfs (s : State) (x : Core) : (s.setHere x).vfs = s.vfs := rfl
@[simp] theorem setHere_pub (s : State) (x : Core) : (s.setHere x).pub = s.pub := rfl
@[simp] theorem setHere_ports (s : State) (x : Core) : (s.setHere x).ports = s.ports := rfl
@[simp] theorem setHere_routes (s : State) (x : Core) : (s.setHere x).routes = s.routes := rfl
@[simp] theorem setHere_links (s : State) (x : Core) : (s.setHere x).links = s.links := rfl
@[simp] theorem setHere_islands (s : State) (x : Core) : (s.setHere x).islands = s.islands := rfl
@[simp] theorem setHere_triggers (s : State) (x : Core) : (s.setHere x).triggers = s.triggers := rfl
@[simp] theorem setHere_latchDue (s : State) (x : Core) : (s.setHere x).latchDue = s.latchDue := rfl
@[simp] theorem setHere_snapshot (s : State) (x : Core) : (s.setHere x).snapshot = s.snapshot := rfl
@[simp] theorem setHere_package (s : State) (x : Core) : (s.setHere x).package = s.package := rfl
@[simp] theorem setHere_booted (s : State) (x : Core) : (s.setHere x).booted = s.booted := rfl
@[simp] theorem setHere_irq (s : State) (x : Core) : (s.setHere x).irq = s.irq := rfl
@[simp] theorem setHere_answer (s : State) (x : Core) : (s.setHere x).answer = s.answer := rfl
@[simp] theorem setHere_broken (s : State) (x : Core) : (s.setHere x).broken = s.broken := rfl

/-! ### A slot of a core replaced: the core's other fields -/

@[simp] theorem Core.setSlot_q (c : Core) (k : Nat) (x : Slot) : (c.setSlot k x).q = c.q := rfl
@[simp] theorem Core.setSlot_acc (c : Core) (k : Nat) (x : Slot) : (c.setSlot k x).acc = c.acc := rfl
@[simp] theorem Core.setSlot_s (c : Core) (k : Nat) (x : Slot) : (c.setSlot k x).s = c.s := rfl
@[simp] theorem Core.setSlot_skip (c : Core) (k : Nat) (x : Slot) : (c.setSlot k x).skip = c.skip := rfl
@[simp] theorem Core.setSlot_refs (c : Core) (k : Nat) (x : Slot) : (c.setSlot k x).refs = c.refs := rfl
@[simp] theorem Core.setSlot_skthr (c : Core) (k : Nat) (x : Slot) : (c.setSlot k x).skthr = c.skthr := rfl
@[simp] theorem Core.setSlot_lut (c : Core) (k : Nat) (x : Slot) : (c.setSlot k x).lut = c.lut := rfl
@[simp] theorem Core.setSlot_lfsr (c : Core) (k : Nat) (x : Slot) : (c.setSlot k x).lfsr = c.lfsr := rfl
@[simp] theorem Core.setSlot_alside (c : Core) (k : Nat) (x : Slot) : (c.setSlot k x).alside = c.alside := rfl
@[simp] theorem Core.setSlot_dict (c : Core) (k : Nat) (x : Slot) : (c.setSlot k x).dict = c.dict := rfl
@[simp] theorem Core.setSlot_mixq (c : Core) (k : Nat) (x : Slot) : (c.setSlot k x).mixq = c.mixq := rfl
@[simp] theorem Core.setSlot_dataq (c : Core) (k : Nat) (x : Slot) : (c.setSlot k x).dataq = c.dataq := rfl
@[simp] theorem Core.setSlot_mixw (c : Core) (k : Nat) (x : Slot) : (c.setSlot k x).mixw = c.mixw := rfl
@[simp] theorem Core.setSlot_dataw (c : Core) (k : Nat) (x : Slot) : (c.setSlot k x).dataw = c.dataw := rfl
@[simp] theorem Core.setSlot_collFailed (c : Core) (k : Nat) (x : Slot) : (c.setSlot k x).collFailed = c.collFailed := rfl
@[simp] theorem Core.setSlot_mseq (c : Core) (k : Nat) (x : Slot) : (c.setSlot k x).mseq = c.mseq := rfl
@[simp] theorem Core.setSlot_mrseq (c : Core) (k : Nat) (x : Slot) : (c.setSlot k x).mrseq = c.mrseq := rfl
@[simp] theorem Core.setSlot_dseq (c : Core) (k : Nat) (x : Slot) : (c.setSlot k x).dseq = c.dseq := rfl
@[simp] theorem Core.setSlot_drseq (c : Core) (k : Nat) (x : Slot) : (c.setSlot k x).drseq = c.drseq := rfl
@[simp] theorem Core.setSlot_deque (c : Core) (k : Nat) (x : Slot) : (c.setSlot k x).deque = c.deque := rfl
@[simp] theorem Core.setSlot_ready (c : Core) (k : Nat) (x : Slot) : (c.setSlot k x).ready = c.ready := rfl
@[simp] theorem Core.setSlot_waiting (c : Core) (k : Nat) (x : Slot) : (c.setSlot k x).waiting = c.waiting := rfl
@[simp] theorem Core.setSlot_stolen (c : Core) (k : Nat) (x : Slot) : (c.setSlot k x).stolen = c.stolen := rfl
@[simp] theorem Core.setSlot_askNext (c : Core) (k : Nat) (x : Slot) : (c.setSlot k x).askNext = c.askNext := rfl
@[simp] theorem Core.setSlot_mail (c : Core) (k : Nat) (x : Slot) : (c.setSlot k x).mail = c.mail := rfl
@[simp] theorem Core.setSlot_inbox (c : Core) (k : Nat) (x : Slot) : (c.setSlot k x).inbox = c.inbox := rfl
@[simp] theorem Core.setSlot_delivery (c : Core) (k : Nat) (x : Slot) : (c.setSlot k x).delivery = c.delivery := rfl
@[simp] theorem Core.setSlot_xbase (c : Core) (k : Nat) (x : Slot) : (c.setSlot k x).xbase = c.xbase := rfl
@[simp] theorem Core.setSlot_codelo (c : Core) (k : Nat) (x : Slot) : (c.setSlot k x).codelo = c.codelo := rfl
@[simp] theorem Core.setSlot_codehi (c : Core) (k : Nat) (x : Slot) : (c.setSlot k x).codehi = c.codehi := rfl
@[simp] theorem Core.setSlot_smcbase (c : Core) (k : Nat) (x : Slot) : (c.setSlot k x).smcbase = c.smcbase := rfl
@[simp] theorem Core.setSlot_ncfg (c : Core) (k : Nat) (x : Slot) : (c.setSlot k x).ncfg = c.ncfg := rfl
@[simp] theorem Core.setSlot_ports (c : Core) (k : Nat) (x : Slot) : (c.setSlot k x).ports = c.ports := rfl
@[simp] theorem Core.setSlot_streams (c : Core) (k : Nat) (x : Slot) : (c.setSlot k x).streams = c.streams := rfl
@[simp] theorem Core.setSlot_l1 (c : Core) (k : Nat) (x : Slot) : (c.setSlot k x).l1 = c.l1 := rfl
@[simp] theorem Core.setSlot_l1i (c : Core) (k : Nat) (x : Slot) : (c.setSlot k x).l1i = c.l1i := rfl
@[simp] theorem Core.setSlot_sb (c : Core) (k : Nat) (x : Slot) : (c.setSlot k x).sb = c.sb := rfl
@[simp] theorem Core.setSlot_tlb (c : Core) (k : Nat) (x : Slot) : (c.setSlot k x).tlb = c.tlb := rfl
@[simp] theorem Core.setSlot_cycle (c : Core) (k : Nat) (x : Slot) : (c.setSlot k x).cycle = c.cycle := rfl
@[simp] theorem Core.setSlot_lastTie (c : Core) (k : Nat) (x : Slot) : (c.setSlot k x).lastTie = c.lastTie := rfl
@[simp] theorem Core.setSlot_fences (c : Core) (k : Nat) (x : Slot) : (c.setSlot k x).fences = c.fences := rfl
@[simp] theorem Core.setSlot_mixt (c : Core) (k : Nat) (x : Slot) : (c.setSlot k x).mixt = c.mixt := rfl
@[simp] theorem Core.setSlot_datat (c : Core) (k : Nat) (x : Slot) : (c.setSlot k x).datat = c.datat := rfl

/-! ### A register of a slot written: the slot's other fields -/

@[simp] theorem Slot.setG_v (x : Slot) (r : BitVec 5) (v : Reg) : (x.setG r v).v = x.v := by unfold Slot.setG; split <;> rfl
@[simp] theorem Slot.setG_p (x : Slot) (r : BitVec 5) (v : Reg) : (x.setG r v).p = x.p := by unfold Slot.setG; split <;> rfl
@[simp] theorem Slot.setG_mb (x : Slot) (r : BitVec 5) (v : Reg) : (x.setG r v).mb = x.mb := by unfold Slot.setG; split <;> rfl
@[simp] theorem Slot.setG_mt (x : Slot) (r : BitVec 5) (v : Reg) : (x.setG r v).mt = x.mt := by unfold Slot.setG; split <;> rfl
@[simp] theorem Slot.setG_pc (x : Slot) (r : BitVec 5) (v : Reg) : (x.setG r v).pc = x.pc := by unfold Slot.setG; split <;> rfl
@[simp] theorem Slot.setG_cvgroup (x : Slot) (r : BitVec 5) (v : Reg) : (x.setG r v).cvgroup = x.cvgroup := by unfold Slot.setG; split <;> rfl
@[simp] theorem Slot.setG_cvstep (x : Slot) (r : BitVec 5) (v : Reg) : (x.setG r v).cvstep = x.cvstep := by unfold Slot.setG; split <;> rfl
@[simp] theorem Slot.setG_cvnode (x : Slot) (r : BitVec 5) (v : Reg) : (x.setG r v).cvnode = x.cvnode := by unfold Slot.setG; split <;> rfl
@[simp] theorem Slot.setG_fstat (x : Slot) (r : BitVec 5) (v : Reg) : (x.setG r v).fstat = x.fstat := by unfold Slot.setG; split <;> rfl
@[simp] theorem Slot.setG_xcause (x : Slot) (r : BitVec 5) (v : Reg) : (x.setG r v).xcause = x.xcause := by unfold Slot.setG; split <;> rfl
@[simp] theorem Slot.setG_xval (x : Slot) (r : BitVec 5) (v : Reg) : (x.setG r v).xval = x.xval := by unfold Slot.setG; split <;> rfl
@[simp] theorem Slot.setG_xpc (x : Slot) (r : BitVec 5) (v : Reg) : (x.setG r v).xpc = x.xpc := by unfold Slot.setG; split <;> rfl
@[simp] theorem Slot.setG_xstat (x : Slot) (r : BitVec 5) (v : Reg) : (x.setG r v).xstat = x.xstat := by unfold Slot.setG; split <;> rfl
@[simp] theorem Slot.setG_budget (x : Slot) (r : BitVec 5) (v : Reg) : (x.setG r v).budget = x.budget := by unfold Slot.setG; split <;> rfl
@[simp] theorem Slot.setG_budgetDue (x : Slot) (r : BitVec 5) (v : Reg) : (x.setG r v).budgetDue = x.budgetDue := by unfold Slot.setG; split <;> rfl
@[simp] theorem Slot.setG_overrun (x : Slot) (r : BitVec 5) (v : Reg) : (x.setG r v).overrun = x.overrun := by unfold Slot.setG; split <;> rfl
@[simp] theorem Slot.setG_wound (x : Slot) (r : BitVec 5) (v : Reg) : (x.setG r v).wound = x.wound := by unfold Slot.setG; split <;> rfl
@[simp] theorem Slot.setG_revoked (x : Slot) (r : BitVec 5) (v : Reg) : (x.setG r v).revoked = x.revoked := by unfold Slot.setG; split <;> rfl
@[simp] theorem Slot.setG_atws (x : Slot) (r : BitVec 5) (v : Reg) : (x.setG r v).atws = x.atws := by unfold Slot.setG; split <;> rfl
@[simp] theorem Slot.setG_met (x : Slot) (r : BitVec 5) (v : Reg) : (x.setG r v).met = x.met := by unfold Slot.setG; split <;> rfl
@[simp] theorem Slot.setG_arrv (x : Slot) (r : BitVec 5) (v : Reg) : (x.setG r v).arrv = x.arrv := by unfold Slot.setG; split <;> rfl
@[simp] theorem Slot.setG_gtok (x : Slot) (r : BitVec 5) (v : Reg) : (x.setG r v).gtok = x.gtok := by unfold Slot.setG; split <;> rfl
@[simp] theorem Slot.setG_triple (x : Slot) (r : BitVec 5) (v : Reg) : (x.setG r v).triple = x.triple := by unfold Slot.setG; split <;> rfl
@[simp] theorem Slot.setG_passed (x : Slot) (r : BitVec 5) (v : Reg) : (x.setG r v).passed = x.passed := by unfold Slot.setG; split <;> rfl
@[simp] theorem Slot.setG_wslice (x : Slot) (r : BitVec 5) (v : Reg) : (x.setG r v).wslice = x.wslice := by unfold Slot.setG; split <;> rfl
@[simp] theorem Slot.setG_mqseq (x : Slot) (r : BitVec 5) (v : Reg) : (x.setG r v).mqseq = x.mqseq := by unfold Slot.setG; split <;> rfl
@[simp] theorem Slot.setG_dqseq (x : Slot) (r : BitVec 5) (v : Reg) : (x.setG r v).dqseq = x.dqseq := by unfold Slot.setG; split <;> rfl
@[simp] theorem Slot.setG_msticky (x : Slot) (r : BitVec 5) (v : Reg) : (x.setG r v).msticky = x.msticky := by unfold Slot.setG; split <;> rfl
@[simp] theorem Slot.setG_dsticky (x : Slot) (r : BitVec 5) (v : Reg) : (x.setG r v).dsticky = x.dsticky := by unfold Slot.setG; split <;> rfl
@[simp] theorem Slot.setG_task (x : Slot) (r : BitVec 5) (v : Reg) : (x.setG r v).task = x.task := by unfold Slot.setG; split <;> rfl
@[simp] theorem Slot.setG_entering (x : Slot) (r : BitVec 5) (v : Reg) : (x.setG r v).entering = x.entering := by unfold Slot.setG; split <;> rfl
@[simp] theorem Slot.setG_smc (x : Slot) (r : BitVec 5) (v : Reg) : (x.setG r v).smc = x.smc := by unfold Slot.setG; split <;> rfl
@[simp] theorem Slot.setG_wait (x : Slot) (r : BitVec 5) (v : Reg) : (x.setG r v).wait = x.wait := by unfold Slot.setG; split <;> rfl
@[simp] theorem Slot.setG_latched (x : Slot) (r : BitVec 5) (v : Reg) : (x.setG r v).latched = x.latched := by unfold Slot.setG; split <;> rfl
@[simp] theorem Slot.setG_copied (x : Slot) (r : BitVec 5) (v : Reg) : (x.setG r v).copied = x.copied := by unfold Slot.setG; split <;> rfl
@[simp] theorem Slot.setG_parkedAt (x : Slot) (r : BitVec 5) (v : Reg) : (x.setG r v).parkedAt = x.parkedAt := by unfold Slot.setG; split <;> rfl
@[simp] theorem Slot.setG_walkFault (x : Slot) (r : BitVec 5) (v : Reg) : (x.setG r v).walkFault = x.walkFault := by unfold Slot.setG; split <;> rfl
@[simp] theorem Slot.setG_owed (x : Slot) (r : BitVec 5) (v : Reg) : (x.setG r v).owed = x.owed := by unfold Slot.setG; split <;> rfl
@[simp] theorem Slot.setV_g (x : Slot) (r : BitVec 5) (v : Vec) : (x.setV r v).g = x.g := rfl
@[simp] theorem Slot.setV_p (x : Slot) (r : BitVec 5) (v : Vec) : (x.setV r v).p = x.p := rfl
@[simp] theorem Slot.setV_mb (x : Slot) (r : BitVec 5) (v : Vec) : (x.setV r v).mb = x.mb := rfl
@[simp] theorem Slot.setV_mt (x : Slot) (r : BitVec 5) (v : Vec) : (x.setV r v).mt = x.mt := rfl
@[simp] theorem Slot.setV_pc (x : Slot) (r : BitVec 5) (v : Vec) : (x.setV r v).pc = x.pc := rfl
@[simp] theorem Slot.setV_cvgroup (x : Slot) (r : BitVec 5) (v : Vec) : (x.setV r v).cvgroup = x.cvgroup := rfl
@[simp] theorem Slot.setV_cvstep (x : Slot) (r : BitVec 5) (v : Vec) : (x.setV r v).cvstep = x.cvstep := rfl
@[simp] theorem Slot.setV_cvnode (x : Slot) (r : BitVec 5) (v : Vec) : (x.setV r v).cvnode = x.cvnode := rfl
@[simp] theorem Slot.setV_fstat (x : Slot) (r : BitVec 5) (v : Vec) : (x.setV r v).fstat = x.fstat := rfl
@[simp] theorem Slot.setV_xcause (x : Slot) (r : BitVec 5) (v : Vec) : (x.setV r v).xcause = x.xcause := rfl
@[simp] theorem Slot.setV_xval (x : Slot) (r : BitVec 5) (v : Vec) : (x.setV r v).xval = x.xval := rfl
@[simp] theorem Slot.setV_xpc (x : Slot) (r : BitVec 5) (v : Vec) : (x.setV r v).xpc = x.xpc := rfl
@[simp] theorem Slot.setV_xstat (x : Slot) (r : BitVec 5) (v : Vec) : (x.setV r v).xstat = x.xstat := rfl
@[simp] theorem Slot.setV_budget (x : Slot) (r : BitVec 5) (v : Vec) : (x.setV r v).budget = x.budget := rfl
@[simp] theorem Slot.setV_budgetDue (x : Slot) (r : BitVec 5) (v : Vec) : (x.setV r v).budgetDue = x.budgetDue := rfl
@[simp] theorem Slot.setV_overrun (x : Slot) (r : BitVec 5) (v : Vec) : (x.setV r v).overrun = x.overrun := rfl
@[simp] theorem Slot.setV_wound (x : Slot) (r : BitVec 5) (v : Vec) : (x.setV r v).wound = x.wound := rfl
@[simp] theorem Slot.setV_revoked (x : Slot) (r : BitVec 5) (v : Vec) : (x.setV r v).revoked = x.revoked := rfl
@[simp] theorem Slot.setV_atws (x : Slot) (r : BitVec 5) (v : Vec) : (x.setV r v).atws = x.atws := rfl
@[simp] theorem Slot.setV_met (x : Slot) (r : BitVec 5) (v : Vec) : (x.setV r v).met = x.met := rfl
@[simp] theorem Slot.setV_arrv (x : Slot) (r : BitVec 5) (v : Vec) : (x.setV r v).arrv = x.arrv := rfl
@[simp] theorem Slot.setV_gtok (x : Slot) (r : BitVec 5) (v : Vec) : (x.setV r v).gtok = x.gtok := rfl
@[simp] theorem Slot.setV_triple (x : Slot) (r : BitVec 5) (v : Vec) : (x.setV r v).triple = x.triple := rfl
@[simp] theorem Slot.setV_passed (x : Slot) (r : BitVec 5) (v : Vec) : (x.setV r v).passed = x.passed := rfl
@[simp] theorem Slot.setV_wslice (x : Slot) (r : BitVec 5) (v : Vec) : (x.setV r v).wslice = x.wslice := rfl
@[simp] theorem Slot.setV_mqseq (x : Slot) (r : BitVec 5) (v : Vec) : (x.setV r v).mqseq = x.mqseq := rfl
@[simp] theorem Slot.setV_dqseq (x : Slot) (r : BitVec 5) (v : Vec) : (x.setV r v).dqseq = x.dqseq := rfl
@[simp] theorem Slot.setV_msticky (x : Slot) (r : BitVec 5) (v : Vec) : (x.setV r v).msticky = x.msticky := rfl
@[simp] theorem Slot.setV_dsticky (x : Slot) (r : BitVec 5) (v : Vec) : (x.setV r v).dsticky = x.dsticky := rfl
@[simp] theorem Slot.setV_task (x : Slot) (r : BitVec 5) (v : Vec) : (x.setV r v).task = x.task := rfl
@[simp] theorem Slot.setV_entering (x : Slot) (r : BitVec 5) (v : Vec) : (x.setV r v).entering = x.entering := rfl
@[simp] theorem Slot.setV_smc (x : Slot) (r : BitVec 5) (v : Vec) : (x.setV r v).smc = x.smc := rfl
@[simp] theorem Slot.setV_wait (x : Slot) (r : BitVec 5) (v : Vec) : (x.setV r v).wait = x.wait := rfl
@[simp] theorem Slot.setV_latched (x : Slot) (r : BitVec 5) (v : Vec) : (x.setV r v).latched = x.latched := rfl
@[simp] theorem Slot.setV_copied (x : Slot) (r : BitVec 5) (v : Vec) : (x.setV r v).copied = x.copied := rfl
@[simp] theorem Slot.setV_parkedAt (x : Slot) (r : BitVec 5) (v : Vec) : (x.setV r v).parkedAt = x.parkedAt := rfl
@[simp] theorem Slot.setV_walkFault (x : Slot) (r : BitVec 5) (v : Vec) : (x.setV r v).walkFault = x.walkFault := rfl
@[simp] theorem Slot.setV_owed (x : Slot) (r : BitVec 5) (v : Vec) : (x.setV r v).owed = x.owed := rfl
@[simp] theorem Slot.setP_g (x : Slot) (r : Nat) (v : Reg) : (x.setP r v).g = x.g := by unfold Slot.setP; split <;> rfl
@[simp] theorem Slot.setP_v (x : Slot) (r : Nat) (v : Reg) : (x.setP r v).v = x.v := by unfold Slot.setP; split <;> rfl
@[simp] theorem Slot.setP_mb (x : Slot) (r : Nat) (v : Reg) : (x.setP r v).mb = x.mb := by unfold Slot.setP; split <;> rfl
@[simp] theorem Slot.setP_mt (x : Slot) (r : Nat) (v : Reg) : (x.setP r v).mt = x.mt := by unfold Slot.setP; split <;> rfl
@[simp] theorem Slot.setP_pc (x : Slot) (r : Nat) (v : Reg) : (x.setP r v).pc = x.pc := by unfold Slot.setP; split <;> rfl
@[simp] theorem Slot.setP_cvgroup (x : Slot) (r : Nat) (v : Reg) : (x.setP r v).cvgroup = x.cvgroup := by unfold Slot.setP; split <;> rfl
@[simp] theorem Slot.setP_cvstep (x : Slot) (r : Nat) (v : Reg) : (x.setP r v).cvstep = x.cvstep := by unfold Slot.setP; split <;> rfl
@[simp] theorem Slot.setP_cvnode (x : Slot) (r : Nat) (v : Reg) : (x.setP r v).cvnode = x.cvnode := by unfold Slot.setP; split <;> rfl
@[simp] theorem Slot.setP_fstat (x : Slot) (r : Nat) (v : Reg) : (x.setP r v).fstat = x.fstat := by unfold Slot.setP; split <;> rfl
@[simp] theorem Slot.setP_xcause (x : Slot) (r : Nat) (v : Reg) : (x.setP r v).xcause = x.xcause := by unfold Slot.setP; split <;> rfl
@[simp] theorem Slot.setP_xval (x : Slot) (r : Nat) (v : Reg) : (x.setP r v).xval = x.xval := by unfold Slot.setP; split <;> rfl
@[simp] theorem Slot.setP_xpc (x : Slot) (r : Nat) (v : Reg) : (x.setP r v).xpc = x.xpc := by unfold Slot.setP; split <;> rfl
@[simp] theorem Slot.setP_xstat (x : Slot) (r : Nat) (v : Reg) : (x.setP r v).xstat = x.xstat := by unfold Slot.setP; split <;> rfl
@[simp] theorem Slot.setP_budget (x : Slot) (r : Nat) (v : Reg) : (x.setP r v).budget = x.budget := by unfold Slot.setP; split <;> rfl
@[simp] theorem Slot.setP_budgetDue (x : Slot) (r : Nat) (v : Reg) : (x.setP r v).budgetDue = x.budgetDue := by unfold Slot.setP; split <;> rfl
@[simp] theorem Slot.setP_overrun (x : Slot) (r : Nat) (v : Reg) : (x.setP r v).overrun = x.overrun := by unfold Slot.setP; split <;> rfl
@[simp] theorem Slot.setP_wound (x : Slot) (r : Nat) (v : Reg) : (x.setP r v).wound = x.wound := by unfold Slot.setP; split <;> rfl
@[simp] theorem Slot.setP_revoked (x : Slot) (r : Nat) (v : Reg) : (x.setP r v).revoked = x.revoked := by unfold Slot.setP; split <;> rfl
@[simp] theorem Slot.setP_atws (x : Slot) (r : Nat) (v : Reg) : (x.setP r v).atws = x.atws := by unfold Slot.setP; split <;> rfl
@[simp] theorem Slot.setP_met (x : Slot) (r : Nat) (v : Reg) : (x.setP r v).met = x.met := by unfold Slot.setP; split <;> rfl
@[simp] theorem Slot.setP_arrv (x : Slot) (r : Nat) (v : Reg) : (x.setP r v).arrv = x.arrv := by unfold Slot.setP; split <;> rfl
@[simp] theorem Slot.setP_gtok (x : Slot) (r : Nat) (v : Reg) : (x.setP r v).gtok = x.gtok := by unfold Slot.setP; split <;> rfl
@[simp] theorem Slot.setP_triple (x : Slot) (r : Nat) (v : Reg) : (x.setP r v).triple = x.triple := by unfold Slot.setP; split <;> rfl
@[simp] theorem Slot.setP_passed (x : Slot) (r : Nat) (v : Reg) : (x.setP r v).passed = x.passed := by unfold Slot.setP; split <;> rfl
@[simp] theorem Slot.setP_wslice (x : Slot) (r : Nat) (v : Reg) : (x.setP r v).wslice = x.wslice := by unfold Slot.setP; split <;> rfl
@[simp] theorem Slot.setP_mqseq (x : Slot) (r : Nat) (v : Reg) : (x.setP r v).mqseq = x.mqseq := by unfold Slot.setP; split <;> rfl
@[simp] theorem Slot.setP_dqseq (x : Slot) (r : Nat) (v : Reg) : (x.setP r v).dqseq = x.dqseq := by unfold Slot.setP; split <;> rfl
@[simp] theorem Slot.setP_msticky (x : Slot) (r : Nat) (v : Reg) : (x.setP r v).msticky = x.msticky := by unfold Slot.setP; split <;> rfl
@[simp] theorem Slot.setP_dsticky (x : Slot) (r : Nat) (v : Reg) : (x.setP r v).dsticky = x.dsticky := by unfold Slot.setP; split <;> rfl
@[simp] theorem Slot.setP_task (x : Slot) (r : Nat) (v : Reg) : (x.setP r v).task = x.task := by unfold Slot.setP; split <;> rfl
@[simp] theorem Slot.setP_entering (x : Slot) (r : Nat) (v : Reg) : (x.setP r v).entering = x.entering := by unfold Slot.setP; split <;> rfl
@[simp] theorem Slot.setP_smc (x : Slot) (r : Nat) (v : Reg) : (x.setP r v).smc = x.smc := by unfold Slot.setP; split <;> rfl
@[simp] theorem Slot.setP_wait (x : Slot) (r : Nat) (v : Reg) : (x.setP r v).wait = x.wait := by unfold Slot.setP; split <;> rfl
@[simp] theorem Slot.setP_latched (x : Slot) (r : Nat) (v : Reg) : (x.setP r v).latched = x.latched := by unfold Slot.setP; split <;> rfl
@[simp] theorem Slot.setP_copied (x : Slot) (r : Nat) (v : Reg) : (x.setP r v).copied = x.copied := by unfold Slot.setP; split <;> rfl
@[simp] theorem Slot.setP_parkedAt (x : Slot) (r : Nat) (v : Reg) : (x.setP r v).parkedAt = x.parkedAt := by unfold Slot.setP; split <;> rfl
@[simp] theorem Slot.setP_walkFault (x : Slot) (r : Nat) (v : Reg) : (x.setP r v).walkFault = x.walkFault := by unfold Slot.setP; split <;> rfl
@[simp] theorem Slot.setP_owed (x : Slot) (r : Nat) (v : Reg) : (x.setP r v).owed = x.owed := by unfold Slot.setP; split <;> rfl

/-! ### Storage written: the package's other fields -/

@[simp] theorem poke_cur (s : State) (p : Nat) (bs : List Byte) : (s.poke p bs).cur = s.cur := rfl
@[simp] theorem poke_agenda (s : State) (p : Nat) (bs : List Byte) : (s.poke p bs).agenda = s.agenda := rfl
@[simp] theorem poke_free (s : State) (p : Nat) (bs : List Byte) : (s.poke p bs).free = s.free := rfl
@[simp] theorem poke_stamp (s : State) (p : Nat) (bs : List Byte) : (s.poke p bs).stamp = s.stamp := rfl
@[simp] theorem poke_power (s : State) (p : Nat) (bs : List Byte) : (s.poke p bs).power = s.power := rfl
@[simp] theorem poke_tables (s : State) (p : Nat) (bs : List Byte) : (s.poke p bs).tables = s.tables := rfl
@[simp] theorem poke_keys (s : State) (p : Nat) (bs : List Byte) : (s.poke p bs).keys = s.keys := rfl
@[simp] theorem poke_writtenUnder (s : State) (p : Nat) (bs : List Byte) : (s.poke p bs).writtenUnder = s.writtenUnder := rfl
@[simp] theorem poke_cores (s : State) (p : Nat) (bs : List Byte) : (s.poke p bs).cores = s.cores := rfl
@[simp] theorem poke_bars (s : State) (p : Nat) (bs : List Byte) : (s.poke p bs).bars = s.bars := rfl
@[simp] theorem poke_counters (s : State) (p : Nat) (bs : List Byte) : (s.poke p bs).counters = s.counters := rfl
@[simp] theorem poke_l2tlb (s : State) (p : Nat) (bs : List Byte) : (s.poke p bs).l2tlb = s.l2tlb := rfl
@[simp] theorem poke_domains (s : State) (p : Nat) (bs : List Byte) : (s.poke p bs).domains = s.domains := rfl
@[simp] theorem poke_walks (s : State) (p : Nat) (bs : List Byte) : (s.poke p bs).walks = s.walks := rfl
@[simp] theorem poke_attic (s : State) (p : Nat) (bs : List Byte) : (s.poke p bs).attic = s.attic := rfl
@[simp] theorem poke_tenantWays (s : State) (p : Nat) (bs : List Byte) : (s.poke p bs).tenantWays = s.tenantWays := rfl
@[simp] theorem poke_l2 (s : State) (p : Nat) (bs : List Byte) : (s.poke p bs).l2 = s.l2 := rfl
@[simp] theorem poke_misses (s : State) (p : Nat) (bs : List Byte) : (s.poke p bs).misses = s.misses := rfl
@[simp] theorem poke_claims (s : State) (p : Nat) (bs : List Byte) : (s.poke p bs).claims = s.claims := rfl
@[simp] theorem poke_waystations (s : State) (p : Nat) (bs : List Byte) : (s.poke p bs).waystations = s.waystations := rfl
@[simp] theorem poke_locks (s : State) (p : Nat) (bs : List Byte) : (s.poke p bs).locks = s.locks := rfl
@[simp] theorem poke_revokes (s : State) (p : Nat) (bs : List Byte) : (s.poke p bs).revokes = s.revokes := rfl
@[simp] theorem poke_lockDrops (s : State) (p : Nat) (bs : List Byte) : (s.poke p bs).lockDrops = s.lockDrops := rfl
@[simp] theorem poke_epochs (s : State) (p : Nat) (bs : List Byte) : (s.poke p bs).epochs = s.epochs := rfl
@[simp] theorem poke_posted (s : State) (p : Nat) (bs : List Byte) : (s.poke p bs).posted = s.posted := rfl
@[simp] theorem poke_early (s : State) (p : Nat) (bs : List Byte) : (s.poke p bs).early = s.early := rfl
@[simp] theorem poke_reports (s : State) (p : Nat) (bs : List Byte) : (s.poke p bs).reports = s.reports := rfl
@[simp] theorem poke_baseDies (s : State) (p : Nat) (bs : List Byte) : (s.poke p bs).baseDies = s.baseDies := rfl
@[simp] theorem poke_crossbars (s : State) (p : Nat) (bs : List Byte) : (s.poke p bs).crossbars = s.crossbars := rfl
@[simp] theorem poke_snoop (s : State) (p : Nat) (bs : List Byte) : (s.poke p bs).snoop = s.snoop := rfl
@[simp] theorem poke_roots (s : State) (p : Nat) (bs : List Byte) : (s.poke p bs).roots = s.roots := rfl
@[simp] theorem poke_nextRoot (s : State) (p : Nat) (bs : List Byte) : (s.poke p bs).nextRoot = s.nextRoot := rfl
@[simp] theorem poke_collIn (s : State) (p : Nat) (bs : List Byte) : (s.poke p bs).collIn = s.collIn := rfl
@[simp] theorem poke_net (s : State) (p : Nat) (bs : List Byte) : (s.poke p bs).net = s.net := rfl
@[simp] theorem poke_nnet (s : State) (p : Nat) (bs : List Byte) : (s.poke p bs).nnet = s.nnet := rfl
@[simp] theorem poke_cnet (s : State) (p : Nat) (bs : List Byte) : (s.poke p bs).cnet = s.cnet := rfl
@[simp] theorem poke_remote (s : State) (p : Nat) (bs : List Byte) : (s.poke p bs).remote = s.remote := rfl
@[simp] theorem poke_fired (s : State) (p : Nat) (bs : List Byte) : (s.poke p bs).fired = s.fired := rfl
@[simp] theorem poke_vfs (s : State) (p : Nat) (bs : List Byte) : (s.poke p bs).vfs = s.vfs := rfl
@[simp] theorem poke_pub (s : State) (p : Nat) (bs : List Byte) : (s.poke p bs).pub = s.pub := rfl
@[simp] theorem poke_ports (s : State) (p : Nat) (bs : List Byte) : (s.poke p bs).ports = s.ports := rfl
@[simp] theorem poke_routes (s : State) (p : Nat) (bs : List Byte) : (s.poke p bs).routes = s.routes := rfl
@[simp] theorem poke_links (s : State) (p : Nat) (bs : List Byte) : (s.poke p bs).links = s.links := rfl
@[simp] theorem poke_islands (s : State) (p : Nat) (bs : List Byte) : (s.poke p bs).islands = s.islands := rfl
@[simp] theorem poke_triggers (s : State) (p : Nat) (bs : List Byte) : (s.poke p bs).triggers = s.triggers := rfl
@[simp] theorem poke_latchDue (s : State) (p : Nat) (bs : List Byte) : (s.poke p bs).latchDue = s.latchDue := rfl
@[simp] theorem poke_snapshot (s : State) (p : Nat) (bs : List Byte) : (s.poke p bs).snapshot = s.snapshot := rfl
@[simp] theorem poke_package (s : State) (p : Nat) (bs : List Byte) : (s.poke p bs).package = s.package := rfl
@[simp] theorem poke_booted (s : State) (p : Nat) (bs : List Byte) : (s.poke p bs).booted = s.booted := rfl
@[simp] theorem poke_irq (s : State) (p : Nat) (bs : List Byte) : (s.poke p bs).irq = s.irq := rfl
@[simp] theorem poke_answer (s : State) (p : Nat) (bs : List Byte) : (s.poke p bs).answer = s.answer := rfl
@[simp] theorem poke_broken (s : State) (p : Nat) (bs : List Byte) : (s.poke p bs).broken = s.broken := rfl

/-! ### Reading after a write -/

@[simp] theorem core_setCore (s : State) (c c' : Nat) (x : Core) :
    (s.setCore c x).core c' = if c = c' then x else s.core c' := Laws.get_set ..

@[simp] theorem Core.slot_setSlot (c : Core) (k k' : Nat) (x : Slot) :
    (c.setSlot k x).slot k' = if k = k' then x else c.slot k' := Laws.get_set ..

@[simp] theorem slotAt_setSlotAt (s : State) (c k c' k' : Nat) (x : Slot) :
    (s.setSlotAt c k x).slotAt c' k' = if c = c' ∧ k = k' then x else s.slotAt c' k' := by
  simp only [State.slotAt, State.setSlotAt, core_setCore]
  by_cases h : c = c'
  · subst h; simp only [if_true, Core.slot_setSlot, true_and]
  · simp only [h, if_false, false_and]

@[simp] theorem me_setMe (s : State) (x : Slot) : (s.setMe x).me = x := by
  unfold State.me State.setMe
  rw [slotAt_setSlotAt]
  simp

/-- A second write of the same slot replaces the first, as far as any slot shows. -/
theorem slotAt_setMe (s : State) (c k : Nat) (x : Slot) :
    (s.setMe x).slotAt c k = if s.cur.core = c ∧ s.cur.slot = k then x else s.slotAt c k := slotAt_setSlotAt ..

@[simp] theorem here_setHere (s : State) (x : Core) : (s.setHere x).here = x := by
  simp [State.here, State.setHere]

/-- A general register read after a write: g0 stays zero (01 R12). -/
theorem Slot.gReg_setG (x : Slot) (r q : BitVec 5) (v : Reg) :
    (x.setG r v).gReg q = if q = r ∧ q ≠ 0 then v else x.gReg q := by
  unfold Slot.setG Slot.gReg
  by_cases hq : q = 0
  · simp [hq]
  · by_cases hr : r = 0
    · have : ¬ q = r := fun h => hq (h.trans hr)
      simp [hr]
    · simp only [hq, hr, if_false, Laws.get_set]
      by_cases h : q = r
      · subst h; simp only [if_true, true_and, ne_eq, not_false_eq_true, hq]
      · have : ¬ r.toNat = q.toNat := fun e => h (BitVec.eq_of_toNat_eq e.symm)
        simp [h, this]

/-- A vector register read after a write. -/
theorem Slot.vReg_setV (x : Slot) (r q : BitVec 5) (v : Vec) :
    (x.setV r v).vReg q = if q = r then v else x.vReg q := by
  unfold Slot.setV Slot.vReg
  simp only [Laws.get_set]
  by_cases h : q = r
  · subst h; simp
  · have : ¬ r.toNat = q.toNat := fun e => h (BitVec.eq_of_toNat_eq e.symm)
    simp [h, this]

/-- A mask register read after a write: p0 stays all ones (01 R13). -/
theorem Slot.pReg_setP (x : Slot) (r q : Nat) (v : Reg) :
    (x.setP r v).pReg q = if q = r ∧ q ≠ 0 then v else x.pReg q := by
  unfold Slot.setP Slot.pReg
  by_cases hq : q = 0
  · simp [hq]
  · by_cases hr : r = 0
    · have : ¬ q = 0 := hq
      simp [hq, hr]
    · simp only [hq, hr, if_false, Laws.get_set]
      by_cases h : q = r
      · subst h; simp only [if_true, true_and, ne_eq, not_false_eq_true, hq]
      · have : ¬ r = q := fun e => h e.symm
        simp [h, this]

/-- The general registers do not see a write of a vector or a mask register, nor those a write of a general one. -/
@[simp] theorem Slot.gReg_setV (x : Slot) (r q : BitVec 5) (v : Vec) : (x.setV r v).gReg q = x.gReg q := rfl
@[simp] theorem Slot.gReg_setP (x : Slot) (r : Nat) (q : BitVec 5) (v : Reg) : (x.setP r v).gReg q = x.gReg q := by
  simp [Slot.gReg]
@[simp] theorem Slot.vReg_setG (x : Slot) (r q : BitVec 5) (v : Reg) : (x.setG r v).vReg q = x.vReg q := by
  simp [Slot.vReg]
@[simp] theorem Slot.vReg_setP (x : Slot) (r : Nat) (q : BitVec 5) (v : Reg) : (x.setP r v).vReg q = x.vReg q := by
  simp [Slot.vReg]
@[simp] theorem Slot.pReg_setG (x : Slot) (r : BitVec 5) (q : Nat) (v : Reg) : (x.setG r v).pReg q = x.pReg q := by
  simp [Slot.pReg]
@[simp] theorem Slot.pReg_setV (x : Slot) (r : BitVec 5) (q : Nat) (v : Vec) : (x.setV r v).pReg q = x.pReg q := rfl

/-! ### Objects read after a write -/

@[simp] theorem bar_setBar (s : State) (b b' : Nat) (x : Barrier) :
    (s.setBar b x).bar b' = if b = b' then x else s.bar b' := Laws.get_set ..

@[simp] theorem link_setLink (s : State) (e e' : Nat) (x : Link) :
    (s.setLink e x).link e' = if e = e' then x else s.link e' := Laws.get_set ..

@[simp] theorem stack_setStack (s : State) (k k' : Nat) (x : Stack) :
    (s.setStack k x).stack k' = if k = k' then x else s.stack k' := Laws.get_set ..

end Sys2Proof.Machine
end

