-- ==== Sys2Proof/Laws/Act.lean ====
section
/-! SUPPORT. The work of an instruction, piece by piece: what each operation of an `Act` answers, so that an
instruction is run without unfolding the transformers it is written in. -/

namespace Sys2Proof.Machine

/-! ### Pieces -/

theorem Act.bind_ok {α β : Type} {x : Act α} {f : α → Act β} {s t : State} {v : α} (h : x s = (.ok v, t)) :
    (x >>= f) s = f v t := by
  simp [bind, ExceptT.bind, ExceptT.mk, StateT.bind, ExceptT.bindCont, h]

theorem Act.bind_error {α β : Type} {x : Act α} {f : α → Act β} {s t : State} {e : Stop}
    (h : x s = (.error e, t)) : (x >>= f) s = (.error e, t) := by
  simp [bind, ExceptT.bind, ExceptT.mk, StateT.bind, ExceptT.bindCont, h, pure, StateT.pure]

@[simp] theorem Act.get_apply (s : State) : (get : Act State) s = (.ok s, s) := rfl
@[simp] theorem Act.set_apply (s t : State) : (set t : Act PUnit) s = (.ok ⟨⟩, t) := rfl
@[simp] theorem Act.modify_apply (f : State → State) (s : State) : (modify f : Act PUnit) s = (.ok ⟨⟩, f s) := rfl
@[simp] theorem Act.pure_apply {α : Type} (v : α) (s : State) : (pure v : Act α) s = (.ok v, s) := rfl
@[simp] theorem Act.stall_apply {α : Type} (s : State) : (Act.stall : Act α) s = (.error .stall, s) := rfl
@[simp] theorem Act.trap_apply {α : Type} (c : Cause) (x : Reg) (s : State) :
    (Act.trap c x : Act α) s = (.error (.trap c x), s) := rfl
@[simp] theorem Act.done_apply (s : State) : Act.done s = (.ok ⟨⟩, s.adv) := rfl
@[simp] theorem Act.result_apply (d : BitVec 5) (v : Reg) (s : State) :
    Act.result d v s = (.ok ⟨⟩, (s.setG d v).adv) := rfl
@[simp] theorem Act.park_apply (w : Wait) (s : State) : Act.park w s = (.ok ⟨⟩, s.park w) := rfl
@[simp] theorem Act.acquire_apply (sc : Nat) (s : State) :
    Act.acquire sc s = (.ok ⟨⟩, s.acquire s.cur.core s.cur.slot sc) := rfl

@[simp] theorem Act.get_bind {β : Type} (f : State → Act β) (s : State) : (get >>= f) s = f s s := Act.bind_ok rfl
@[simp] theorem Act.set_bind {β : Type} (f : PUnit → Act β) (s t : State) : ((set t : Act PUnit) >>= f) s = f ⟨⟩ t :=
  Act.bind_ok rfl
@[simp] theorem Act.modify_bind {β : Type} (g : State → State) (f : PUnit → Act β) (s : State) :
    ((modify g : Act PUnit) >>= f) s = f ⟨⟩ (g s) := Act.bind_ok rfl
@[simp] theorem Act.pure_bind' {α β : Type} (v : α) (f : α → Act β) (s : State) : ((pure v : Act α) >>= f) s = f v s :=
  Act.bind_ok rfl
@[simp] theorem Act.stall_bind {α β : Type} (f : α → Act β) (s : State) :
    ((Act.stall : Act α) >>= f) s = (.error .stall, s) := Act.bind_error rfl
@[simp] theorem Act.trap_bind {α β : Type} (c : Cause) (x : Reg) (f : α → Act β) (s : State) :
    ((Act.trap c x : Act α) >>= f) s = (.error (.trap c x), s) := Act.bind_error rfl
@[simp] theorem Act.acquire_bind {β : Type} (sc : Nat) (f : Unit → Act β) (s : State) :
    (Act.acquire sc >>= f) s = f () (s.acquire s.cur.core s.cur.slot sc) := Act.bind_ok rfl

/-- A release that is complete lets the instruction go on. -/
theorem Act.release_ok {s : State} {sc : Nat} (h : s.released s.cur.core s.cur.slot sc = true) :
    Act.release sc s = (.ok ⟨⟩, s) := by
  simp [Act.release, h]

/-- A release that is not complete stalls it. -/
theorem Act.release_stall {s : State} {sc : Nat} (h : s.released s.cur.core s.cur.slot sc = false) :
    Act.release sc s = (.error .stall, s) := by
  simp [Act.release, h]

/-- A write that no FENCE.net holds back goes on. -/
theorem Act.fenced_ok {s : State} {p : Nat}
    (h : s.fenceHoldsAt s.cur.core s.cur.slot s.fence p = false) : Act.fenced p s = (.ok ⟨⟩, s) := by
  simp [Act.fenced, h]

/-- A write that one holds back stalls. -/
theorem Act.fenced_stall {s : State} {p : Nat}
    (h : s.fenceHoldsAt s.cur.core s.cur.slot s.fence p = true) : Act.fenced p s = (.error .stall, s) := by
  simp [Act.fenced, h]

/-! ### What an instruction comes to -/

theorem Act.next_ok {a : Act Unit} {i : Instr} {s t : State} (h : a s = (.ok ⟨⟩, t)) (w : t.me.wait = .none) :
    a.next i s = t := by simp [Act.next, h, w]
/-- One that parks keeps its instruction. -/
theorem Act.next_park {a : Act Unit} {i : Instr} {s t : State} (h : a s = (.ok ⟨⟩, t)) (w : t.me.wait ≠ .none) :
    a.next i s = t.latch i := by simp [Act.next, h, w]
theorem Act.next_stall {a : Act Unit} {i : Instr} {s t : State} (h : a s = (.error .stall, t)) : a.next i s = t.latch i := by
  simp [Act.next, h]
theorem Act.next_trap {a : Act Unit} {i : Instr} {s t : State} {c : Cause} {x : Reg} (h : a s = (.error (.trap c x), t)) :
    a.next i s = t.trapHere c x := by simp [Act.next, h]

theorem simple_legal {i : Instr} {f : State → State} {s : State} (h : legal i = true) :
    simple i f s = .next (f s).adv := by simp [simple, h]
theorem simple_illegal {i : Instr} {f : State → State} {s : State} (h : legal i = false) :
    simple i f s = .next (s.illegal i) := by simp [simple, h]

/-- An instruction of a slot that waits for nothing. -/
theorem run_ready {i : Instr} {a : Act Unit} {s : State} (h : legal i = true) (w : s.me.wait = .none) :
    run i a s = .next (a.next i s) := by simp [run, runWith, h, w]
theorem runWith_ready {i : Instr} {a : Option Reg → Act Unit} {s : State} (h : legal i = true)
    (w : s.me.wait = .none) : runWith i a s = .next ((a none).next i s) := by simp [runWith, h, w]
/-- An instruction of a slot that has been woken with a status. -/
theorem runWith_woken {i : Instr} {a : Option Reg → Act Unit} {s : State} {v : Reg} (h : legal i = true)
    (w : s.me.wait = .woken v) : runWith i a s = .next ((a (some v)).next i s.unpark) := by simp [runWith, h, w]
theorem run_illegal {i : Instr} {a : Act Unit} {s : State} (h : legal i = false) :
    run i a s = .next (s.illegal i) := by simp [run, runWith, h]
theorem runWith_illegal {i : Instr} {a : Option Reg → Act Unit} {s : State} (h : legal i = false) :
    runWith i a s = .next (s.illegal i) := by simp [runWith, h]

/-- Whatever it does, an instruction answers a next state. -/
theorem run_goes (i : Instr) (a : Act Unit) (s : State) : ∃ t, run i a s = .next t := by
  unfold run runWith; split
  · split <;> exact ⟨_, rfl⟩
  · exact ⟨_, rfl⟩
theorem runWith_goes (i : Instr) (a : Option Reg → Act Unit) (s : State) : ∃ t, runWith i a s = .next t := by
  unfold runWith; split
  · split <;> exact ⟨_, rfl⟩
  · exact ⟨_, rfl⟩
theorem simple_goes (i : Instr) (f : State → State) (s : State) : ∃ t, simple i f s = .next t := by
  unfold simple; split <;> exact ⟨_, rfl⟩

/-! ### Addresses -/

/-- An address that names something, for the slot that runs. -/
theorem Act.resolve_ok {use : Use} {va : Reg} {n al : Nat} {s : State} {x : Target}
    (h : s.check (s.who s.cur.core s.cur.slot)
      (if s.cur.slot < 8 then s.slotFind s.cur.core s.cur.slot else s.nowFind s.cur.core s.cur.slot)
      use va n al = some (.ok x)) :
    Act.resolve use va n al s = (.ok x, s.resolved s.cur.core s.cur.slot va.toNat) := by
  unfold Act.resolve
  rw [Act.get_bind]
  simp [h]

/-- An address that traps: the inline walk of a handler's aligned access has happened all the same. -/
theorem Act.resolve_trap {use : Use} {va : Reg} {n al : Nat} {s : State} {e : Cause}
    (h : s.check (s.who s.cur.core s.cur.slot)
      (if s.cur.slot < 8 then s.slotFind s.cur.core s.cur.slot else s.nowFind s.cur.core s.cur.slot)
      use va n al = some (.error e)) :
    Act.resolve use va n al s = (.error (.trap e va),
      if 8 ≤ s.cur.slot && va.toNat % al = 0 then s.nowUse s.cur.core s.cur.slot va.toNat else s) := by
  unfold Act.resolve
  rw [Act.get_bind]
  simp only [h]
  split <;> simp

/-- An access that a page lets through has its world, and its key is there. -/
theorem State.pageOk_ok {s : State} {w : Who} {use : Use} {t : Tlb} {va n : Nat} {x : Target}
    (h : s.pageOk w use t va n = .ok x) :
    x = .at' (t.loc va) ∧ (use.writes = true → t.ro = false) ∧ s.granuleOk t.sec (t.loc va).place = true
      ∧ systemOk w.sec (t.loc va).place = true := by
  simp only [State.pageOk] at h
  repeat' split at h
  all_goals simp_all

end Sys2Proof.Machine
end

