-- ==== Sys2Proof/Laws/Decode.lean ====
section
/-! SUPPORT. How decoding undoes encoding: fields at their places, and rows that cannot match. -/

namespace Sys2Proof.Laws

/-- The bits of a word that hold a field of n bits from lo on. -/
def window (lo n : Nat) : Word := BitVec.ofNat 32 ((2 ^ n - 1) * 2 ^ lo)

/-- A field's bit. -/
theorem place_bit {n : Nat} (x : BitVec n) (lo i : Nat) (hi : i < 32) :
    (place x lo).getLsbD i = (decide (lo ≤ i) && x.getLsbD (i - lo)) := by
  simp only [place, BitVec.getLsbD_shiftLeft, BitVec.getLsbD_setWidth]
  by_cases h : lo ≤ i
  · have h1 : ¬ i < lo := by omega
    have h2 : i - lo < 32 := by omega
    simp [h, h1, h2, hi]
  · have h1 : i < lo := by omega
    simp [h, h1]

/-- A field read at its own place. -/
theorem place_read {n : Nat} (x : BitVec n) (lo : Nat) (h : lo + n ≤ 32) : (place x lo).extractLsb' lo n = x := by
  apply BitVec.eq_of_getLsbD_eq
  intro i hi
  rw [BitVec.getLsbD_extractLsb', place_bit _ _ _ (by omega)]
  simp [hi]

/-- A field read at a place that it does not reach. -/
theorem place_apart {n : Nat} (x : BitVec n) (lo lo' m : Nat) (hm : lo' + m ≤ 32)
    (h : lo' + m ≤ lo ∨ lo + n ≤ lo') : (place x lo).extractLsb' lo' m = 0#m := by
  apply BitVec.eq_of_getLsbD_eq
  intro i hi
  rw [BitVec.getLsbD_extractLsb', place_bit _ _ _ (by omega)]
  rcases h with h | h
  · have : ¬ lo ≤ lo' + i := by omega
    simp [this]
  · have : x.getLsbD (lo' + i - lo) = false := BitVec.getLsbD_of_ge _ _ (by omega)
    simp [this]

/-- A field under a mask that does not meet it. -/
theorem place_masked {n : Nat} (x : BitVec n) (lo : Nat) (m : Word) (h : m &&& window lo n = 0#32) : place x lo &&& m = 0#32 := by
  apply BitVec.eq_of_getLsbD_eq
  intro i hi
  rw [BitVec.getLsbD_and, place_bit _ _ _ hi]
  by_cases hl : lo ≤ i <;> simp only [hl, decide_true, decide_false, Bool.true_and, Bool.false_and,
    BitVec.getLsbD_zero]
  by_cases hb : i - lo < n
  · have hw := congrArg (fun w => w.getLsbD i) h
    simp only [BitVec.getLsbD_and, window, BitVec.getLsbD_ofNat, hi, decide_true,
      Bool.true_and] at hw
    have hp : ((2 ^ n - 1) * 2 ^ lo).testBit i = true := by
      rw [Nat.mul_comm, Nat.testBit_two_pow_mul]; simp [hl, hb]
    rw [hp, Bool.and_true] at hw
    rw [hw, Nat.zero_testBit, Bool.and_false]
  · rw [BitVec.getLsbD_of_ge x _ (by omega), Bool.false_and]

/-- The first row that a word matches, found by the bits of the word under a mask that holds every fixed bit of
that row: earlier rows cannot match, whatever the word's other bits. -/
theorem find_row (M c : Word) (w : Word) (hw : w &&& M = c) (r : DecodeRow) (before after : List DecodeRow)
    (hr : w &&& r.mask = r.pat)
    (hb : before.all (fun q => (c &&& q.mask) != (q.pat &&& M)) = true) :
    (before ++ r :: after).find? (fun q => w &&& q.mask == q.pat) = some r := by
  rw [List.find?_append]
  have hn : before.find? (fun q => w &&& q.mask == q.pat) = none := by
    rw [List.find?_eq_none]
    intro q hq hm
    have hq' := List.all_eq_true.mp hb q hq
    have hm' : w &&& q.mask = q.pat := by simpa using hm
    have : c &&& q.mask = q.pat &&& M := by
      rw [← hw, ← hm']
      ac_rfl
    simp [this] at hq'
  rw [hn]
  simp [hr]

/-- A word decodes to what its row makes of it. -/
theorem decodeWord_row (M c w : Word) (hw : w &&& M = c) (k : Nat) (r : DecodeRow)
    (hk : decodeRows[k]? = some r) (hr : w &&& r.mask = r.pat)
    (hb : (decodeRows.take k).all (fun q => (c &&& q.mask) != (q.pat &&& M)) = true) :
    decodeWord w = .ok (r.make w) := by
  have hs : decodeRows = decodeRows.take k ++ r :: decodeRows.drop (k + 1) := by
    have hlt : k < decodeRows.length := by
      by_contra h
      rw [List.getElem?_eq_none (by omega)] at hk
      cases hk
    have : r = decodeRows[k] := by
      rw [List.getElem?_eq_getElem hlt] at hk; exact (Option.some.inj hk).symm
    rw [this, List.getElem_cons_drop, List.take_append_drop]
  unfold decodeWord
  have hf : decodeRows.find? (fun q => w &&& q.mask == q.pat) = some r := by
    rw [hs]; exact find_row M c w hw r _ _ hr hb
  rw [hf]

/-- A word put together from its own bytes. -/
theorem word_bytes (w : Word) :
    wordOf (w.extractLsb' 0 8) (w.extractLsb' 8 8) (w.extractLsb' 16 8) (w.extractLsb' 24 8) = w := by
  apply BitVec.eq_of_getLsbD_eq
  intro j hj
  simp only [wordOf, BitVec.getLsbD_append, BitVec.getLsbD_extractLsb']
  split
  · rename_i h; simp only [h, decide_true, Bool.true_and]; congr 1; omega
  · split
    · rename_i h; simp only [h, decide_true, Bool.true_and]; congr 1; omega
    · split
      · rename_i h; simp only [h, decide_true, Bool.true_and]; congr 1; omega
      · have h : j - 8 - 8 - 8 < 8 := by omega
        simp only [h, decide_true, Bool.true_and]; congr 1; omega

/-- The length that the low bits of a word give. -/
theorem parcel_low (w : Word) (m : Nat) (lo : Nat) (h : lo + m ≤ 16) :
    (parcelOf (w.extractLsb' 0 8) (w.extractLsb' 8 8)).extractLsb' lo m = w.extractLsb' lo m := by
  apply BitVec.eq_of_getLsbD_eq
  intro j hj
  simp only [parcelOf, BitVec.getLsbD_append, BitVec.getLsbD_extractLsb', hj, decide_true, Bool.true_and]
  split
  · rename_i h'; simp only [h', decide_true, Bool.true_and]; congr 1; omega
  · have h' : lo + j - 8 < 8 := by omega
    simp only [h', decide_true, Bool.true_and]; congr 1; omega

/-- The bytes of a word, and what decodes from them. -/
theorem decode_bytes (w : Word) (i : Instr) (h0 : w.getLsbD 0 = false) (h1 : w.extractLsb' 1 6 ≠ 0x3F#6)
    (hd : decodeWord w = .ok i) : decode (bytesOfWord w) = .ok (i, 4) := by
  have hw := word_bytes w
  have hl : lengthOf (parcelOf (w.extractLsb' 0 8) (w.extractLsb' 8 8)) = 4 := by
    have a0 : (parcelOf (w.extractLsb' 0 8) (w.extractLsb' 8 8)).getLsbD 0 = false := by
      simp only [parcelOf, BitVec.getLsbD_append, BitVec.getLsbD_extractLsb']
      exact h0
    have a1 : (parcelOf (w.extractLsb' 0 8) (w.extractLsb' 8 8)).extractLsb' 1 6 = w.extractLsb' 1 6 := by
      apply BitVec.eq_of_getLsbD_eq
      intro j hj
      have h : 1 + j < 8 := by omega
      simp only [parcelOf, BitVec.getLsbD_append, BitVec.getLsbD_extractLsb', h, hj, decide_true, Bool.true_and,
        if_true, Nat.zero_add]
    have h1' : (w.extractLsb' 1 6 == 0x3F#6) = false := by simpa using h1
    unfold lengthOf
    rw [a0, a1]
    change (if (w.extractLsb' 1 6 == 0x3F#6) = true then 32 else 4) = 4
    rw [h1']
    rfl
  simp only [bytesOfWord, decode, hl, hw, hd]

/-- Masks and fields of a word put together with or. -/
theorem or_masked (x y m : Word) : (x ||| y) &&& m = (x &&& m) ||| (y &&& m) := by
  apply BitVec.eq_of_getLsbD_eq
  intro i _
  simp only [BitVec.getLsbD_and, BitVec.getLsbD_or]
  cases x.getLsbD i <;> cases y.getLsbD i <;> simp
theorem or_read (x y : Word) (lo n : Nat) :
    (x ||| y).extractLsb' lo n = x.extractLsb' lo n ||| y.extractLsb' lo n := by
  apply BitVec.eq_of_getLsbD_eq
  intro i hi
  simp only [BitVec.getLsbD_extractLsb', BitVec.getLsbD_or, hi, decide_true, Bool.true_and]

/-- The facts about the k-th row that do not depend on an instruction's fields: K holds the bits that an encoding
fixes, and M masks the bits outside its fields. -/
def rowCheck (K M : Word) (k : Nat) : Bool :=
  match decodeRows[k]? with
  | some r => r.mask &&& M == r.mask && K &&& r.mask == r.pat
      && (decodeRows.take k).all (fun q => (K &&& q.mask) != (q.pat &&& M))
      && !K.getLsbD 0 && M.getLsbD 0 && M.extractLsb' 1 6 == 0x3F#6 && K.extractLsb' 1 6 != 0x3F#6
  | none => false

/-- The instruction that the k-th row makes of a word. -/
def rowMake (k : Nat) (w : Word) : Option Instr := (decodeRows[k]?).map (fun r => r.make w)

/-- A word with the fixed bits of a row decodes to what the row makes of it. -/
theorem decode_row (K M w : Word) (k : Nat) (i : Instr) (hw : w &&& M = K) (hc : rowCheck K M k = true)
    (hi : rowMake k w = some i) : decode (bytesOfWord w) = .ok (i, 4) := by
  unfold rowCheck at hc
  unfold rowMake at hi
  split at hc
  · rename_i r hk
    rw [hk] at hi
    simp only [Bool.and_eq_true, beq_iff_eq, bne_iff_ne, Bool.not_eq_true', ne_eq] at hc
    obtain ⟨⟨⟨⟨⟨⟨hm, hp⟩, hb⟩, h0⟩, hM0⟩, hM1⟩, hK1⟩ := hc
    have hr : w &&& r.mask = r.pat := by
      rw [← hp, ← hw, BitVec.and_assoc, BitVec.and_comm M, hm]
    have hd := decodeWord_row M K w hw k r hk hr hb
    have hi' : r.make w = i := Option.some.inj hi
    rw [hi'] at hd
    refine decode_bytes w i ?_ ?_ hd
    · have := congrArg (fun x => x.getLsbD 0) hw
      simp only [BitVec.getLsbD_and, hM0, Bool.and_true, h0] at this
      exact this
    · have := congrArg (fun x => x.extractLsb' 1 6) hw
      simp only [BitVec.extractLsb'_and, hM1] at this
      intro hx
      apply hK1
      rw [← this, hx]
      rfl
  · cases hc

end Sys2Proof.Laws
end

