-- ==== Sys2Proof/Laws/Memory.lean ====
section
/-! SUPPORT. Memory: what a write leaves to be read, and that every operation of memory keeps its canonical form. -/

namespace Sys2Proof.Laws

open Machine Safety

/-! ### Reading after a write -/

/-- Memory read after bytes were put into it. -/
theorem get_pokeMem (m : Memory) (p q : Nat) (bs : List Byte) :
    Tab.get Memory.blank (pokeMem m p bs) q
      = if p ≤ q ∧ q < p + bs.length then (bs[q - p]?).getD Memory.blank else Tab.get Memory.blank m q := by
  induction bs generalizing m p with
  | nil => simp [pokeMem]
  | cons b t ih =>
    simp only [pokeMem, ih, get_set, List.length_cons]
    by_cases h : p + 1 ≤ q ∧ q < p + 1 + t.length
    · have h' : p ≤ q ∧ q < p + (t.length + 1) := by omega
      have e : q - p = q - (p + 1) + 1 := by omega
      simp only [h, h', and_self, if_true, e, List.getElem?_cons_succ]
    · by_cases hq : p = q
      · subst hq
        have h' : p ≤ p ∧ p < p + (t.length + 1) := by omega
        simp only [h, h', and_self, if_true, if_false, Nat.sub_self, List.getElem?_cons_zero, Option.getD_some]
      · have h' : ¬ (p ≤ q ∧ q < p + (t.length + 1)) := by omega
        simp only [h, h', hq, if_false]

/-- A byte read after storage was written. -/
theorem byte_poke (s : State) (p q : Nat) (bs : List Byte) :
    (s.poke p bs).byte q = if p ≤ q ∧ q < p + bs.length then (bs[q - p]?).getD Memory.blank else s.byte q :=
  get_pokeMem ..

/-- A byte outside what was written reads as before. -/
theorem byte_poke_outside (s : State) (p q : Nat) (bs : List Byte) (h : ¬ (p ≤ q ∧ q < p + bs.length)) :
    (s.poke p bs).byte q = s.byte q := by
  rw [byte_poke, if_neg h]

@[simp] theorem byte_setCore (s : State) (c : Nat) (x : Core) (q : Nat) : (s.setCore c x).byte q = s.byte q := rfl
@[simp] theorem byte_setMe (s : State) (x : Slot) (q : Nat) : (s.setMe x).byte q = s.byte q := rfl

/-! ### The canonical form -/

theorem wf_pokeMem (m : Memory) (p : Nat) (bs : List Byte) (h : Memory.wf m = true) : Memory.wf (pokeMem m p bs) = true := by
  induction bs generalizing m p with
  | nil => exact h
  | cons b t ih => exact ih _ _ (wf_set _ _ _ _ h)

theorem reset_ok : MemoryOk State.reset := rfl

/-- An operation that leaves memory as it is keeps the form. -/
theorem ok_of_mem_eq {s t : State} (h : MemoryOk s) (e : t.mem = s.mem) : MemoryOk t := by
  unfold MemoryOk at *
  rw [e]; exact h

/-- A fold of steps that each keep the form keeps it. -/
theorem ok_foldl {β : Type} (f : State → β → State) (hf : ∀ s b, MemoryOk s → MemoryOk (f s b)) (l : List β) (s : State)
    (h : MemoryOk s) : MemoryOk (l.foldl f s) := by
  induction l generalizing s with
  | nil => exact h
  | cons b t ih => exact ih _ (hf _ _ h)

theorem ok_setCore {s : State} (c : Nat) (x : Core) (h : MemoryOk s) : MemoryOk (s.setCore c x) := h
theorem ok_setMe {s : State} (x : Slot) (h : MemoryOk s) : MemoryOk (s.setMe x) := h
theorem ok_mapSlots {s : State} (f : Nat → Nat → Slot → Slot) (h : MemoryOk s) : MemoryOk (s.mapSlots f) := h

/-- Either way of a choice keeps the form. -/
theorem ok_ite {c : Prop} [Decidable c] {a b : State} (ha : MemoryOk a) (hb : MemoryOk b) :
    MemoryOk (if c then a else b) := by
  split
  · exact ha
  · exact hb

theorem ok_poke {s : State} (p : Nat) (bs : List Byte) (h : MemoryOk s) : MemoryOk (s.poke p bs) := wf_pokeMem _ _ _ h

theorem ok_devPut {s : State} (p : Nat) (b : Byte) (h : MemoryOk s) : MemoryOk (s.devPut p b) := by
  unfold State.devPut
  split
  · exact h
  · exact ok_poke _ _ h

theorem ok_backInvalidate {s : State} (line : Nat) (h : MemoryOk s) : MemoryOk (s.backInvalidate line) := h

theorem ok_touchLine {s : State} (line : Nat) (h : MemoryOk s) : MemoryOk (s.touchLine line) := by
  unfold State.touchLine
  cases s.l2At line with
  | none => exact h
  | some l => exact h

theorem ok_devWrite {s : State} (p : Nat) (bs : List Byte) (h : MemoryOk s) : MemoryOk (s.devWrite p bs) := by
  induction bs generalizing s p with
  | nil => exact h
  | cons b t ih => exact ih _ (ok_devPut _ _ (ok_touchLine _ (ok_backInvalidate _ h)))

theorem ok_devPutNat {s : State} (p n v : Nat) (h : MemoryOk s) : MemoryOk (s.devPutNat p n v) := ok_devWrite _ _ h

theorem ok_raise {s : State} (fn : Nat) (h : MemoryOk s) : MemoryOk (s.raise fn) := by
  unfold State.raise
  exact ok_ite h h

theorem faqAdd_mem (s : State) (k pa : Nat) : (s.faqAdd k pa).mem = s.mem := by
  unfold State.faqAdd
  simp only
  split
  · split <;> rfl
  · rfl

theorem ok_faqAdd {s : State} (k pa : Nat) (h : MemoryOk s) : MemoryOk (s.faqAdd k pa) := ok_of_mem_eq h (faqAdd_mem ..)

theorem ok_writeReport {s : State} (r : Report) (h : MemoryOk s) : MemoryOk (s.writeReport r) := by
  unfold State.writeReport
  refine ok_ite (ok_faqAdd _ _ h) (ok_ite ?_ ?_)
  · exact ok_ite (ok_raise _ (ok_devPutNat _ _ _ (ok_devWrite _ _ h))) (ok_devPutNat _ _ _ (ok_devWrite _ _ h))
  · exact ok_devPutNat _ _ _ h

theorem ok_report {s : State} (r : Report) (h : MemoryOk s) : MemoryOk (s.report r) := by
  unfold State.report
  exact ok_ite h (ok_writeReport _ h)

theorem wf_foldl_set (line : Nat) (l : Tab Byte) (m : Memory) (h : Memory.wf m = true) :
    Memory.wf (l.foldl (fun m e => Tab.set Memory.blank m (line * 128 + e.1) e.2) m) = true := by
  induction l generalizing m with
  | nil => exact h
  | cons e t ih => exact ih _ (wf_set _ _ _ _ h)

theorem ok_backPut {s : State} (key : BitVec 12) (line : Nat) (bytes : Tab Byte) (bad : List Nat) (h : MemoryOk s) :
    MemoryOk (s.backPut key line bytes bad) := wf_foldl_set _ _ _ h

theorem ok_lowSpace {s : State} (k : Nat) (h : MemoryOk s) : MemoryOk (s.lowSpace k) := by
  unfold State.lowSpace
  refine ok_ite ?_ ?_
  · exact ok_report _ h
  · exact h

theorem ok_compressTo {s : State} (line : Nat) (old : State) (need : Nat) (reserve : Bool) (h : MemoryOk s)
    (ho : MemoryOk old) : MemoryOk (s.compressTo line old need reserve).1 := by
  unfold State.compressTo
  simp only
  split
  · exact ok_of_mem_eq ho (faqAdd_mem ..)
  · exact ok_lowSpace _ h

theorem ok_compress {s : State} (line : Nat) (old : State) (h : MemoryOk s) (ho : MemoryOk old) :
    MemoryOk (s.compress line old).1 := by
  unfold State.compress
  apply ok_compressTo
  · exact h
  · exact ho

theorem ok_backTry {s : State} (key : BitVec 12) (line : Nat) (bytes : Tab Byte) (bad : List Nat) (h : MemoryOk s) :
    MemoryOk (s.backTry key line bytes bad).1 := by
  unfold State.backTry
  simp only
  split
  · exact ok_faqAdd _ _ h
  · split
    · exact ok_faqAdd _ _ h
    · split
      · exact ok_compress _ _ (ok_backPut _ _ _ _ h) h
      · exact ok_backPut _ _ _ _ h

theorem ok_backWrite {s : State} (key : BitVec 12) (line : Nat) (bytes : Tab Byte) (h : MemoryOk s) :
    MemoryOk (s.backWrite key line bytes) := ok_backTry _ _ _ _ h

theorem ok_writeBack {s : State} (l : L2Line) (h : MemoryOk s) : MemoryOk (s.writeBack l) := by
  unfold State.writeBack
  split
  · simp only
    split
    · exact ok_faqAdd _ _ (ok_backTry _ _ _ _ h)
    · exact ok_backTry _ _ _ _ h
  · exact h

theorem ok_evict {s : State} (l : L2Line) (h : MemoryOk s) : MemoryOk (s.evict l) := ok_writeBack _ h
theorem ok_cleanCopy {s : State} (l : L2Line) (h : MemoryOk s) : MemoryOk (s.cleanCopy l) := ok_writeBack _ h

theorem ok_flushLine {s : State} (line : Nat) (h : MemoryOk s) : MemoryOk (s.flushLine line) :=
  ok_foldl _ (fun _ l h => ok_evict l h) _ _ h

theorem ok_atBase {s : State} (l : Loc) (h : MemoryOk s) : MemoryOk (s.atBase l) := ok_ite (ok_flushLine _ h) h

/-- A choice of states, each of which keeps the form. -/
theorem ok_getD {s : State} (o : Option L2Line) (h : MemoryOk s) : MemoryOk ((o.map s.evict).getD s) := by
  cases o with
  | none => exact h
  | some l => exact ok_evict l h

theorem ok_allocate {s : State} (l : Loc) (tenant : BitVec 10) (bytes : Tab Byte) (dirty : Bool) (bad ways : List Nat)
    (h : MemoryOk s) : MemoryOk (s.allocate l tenant bytes dirty bad ways) := by
  unfold State.allocate
  exact ok_ite (c := _ = []) (ok_getD (s := { ((s.l2At _).map s.evict).getD s with free := _ }) _ (ok_getD _ h))
    (ok_getD _ h)

theorem ok_writeLine {s : State} (l : Loc) (tenant : BitVec 10) (bytes : Tab Byte) (h : MemoryOk s) :
    MemoryOk (s.writeLine l tenant bytes) := by
  unfold State.writeLine
  simp only
  split
  · exact ok_backWrite _ _ _ (ok_flushLine _ h)
  · split
    · exact h
    · split
      · exact ok_backWrite _ _ _ h
      · exact ok_allocate _ _ _ _ _ _ h

theorem ok_homeWrite {s : State} (l : Loc) (tenant : BitVec 10) (bs : List Byte) (h : MemoryOk s) :
    MemoryOk (s.homeWrite l tenant bs) := by
  unfold State.homeWrite
  split
  · exact ok_foldl _ (fun s e h => ok_ite (ok_faqAdd _ _ h) (ok_writeLine (s := s.backInvalidate e.1) _ _ _ h)) _ _ h
  · exact ok_poke _ _ h

end Sys2Proof.Laws
end

