-- ==== Sys2Proof/Laws/PerInstr.lean ====
section
/-! SUPPORT. One lemma per constructor of Instr, for the statements that speak of every instruction. -/

namespace Sys2Proof.Laws.RoundTrip

set_option Elab.async false
set_option linter.unusedSimpArgs false

/-- Decoding the bytes that encode a well-formed instruction gives the instruction back, with their number. -/
def Statement (i : Instr) : Prop :=
  i.WellFormed → ∀ bs, encode i = some bs → decode bs = .ok (i, bs.length)

/-- An instruction without an encoding. -/
theorem none' (i : Instr) (h : encode i = none) : Statement i := by
  intro _ bs hb
  rw [h] at hb
  cases hb

/-- An instruction of one word. -/
theorem word (i : Instr) (w : Word) (he : encode i = some (bytesOfWord w)) (hd : decode (bytesOfWord w) = .ok (i, 4)) :
    Statement i := by
  intro _ bs hb
  rw [he] at hb
  cases hb
  exact hd

theorem add (x0 : BitVec 5) (x1 : BitVec 5) (x2 : BitVec 5) : Statement (.add x0 x1 x2) :=
  word _ (0x00000002#32 ||| place x0 7 ||| place x1 12 ||| place x2 17) rfl (decode_row 0x00000002#32 0xFFC0007F#32 _ 0 _
    (by simp (disch := decide) only [or_masked, place_masked, BitVec.or_zero]; rfl) (by decide +kernel)
    (by show some (Instr.add _ _ _) = _; simp (disch := decide) only [or_read, place_read, place_apart, BitVec.or_zero, BitVec.zero_or, BitVec.reduceExtractLsb']))

theorem sub (x0 : BitVec 5) (x1 : BitVec 5) (x2 : BitVec 5) : Statement (.sub x0 x1 x2) :=
  word _ (0x04000002#32 ||| place x0 7 ||| place x1 12 ||| place x2 17) rfl (decode_row 0x04000002#32 0xFFC0007F#32 _ 1 _
    (by simp (disch := decide) only [or_masked, place_masked, BitVec.or_zero]; rfl) (by decide +kernel)
    (by show some (Instr.sub _ _ _) = _; simp (disch := decide) only [or_read, place_read, place_apart, BitVec.or_zero, BitVec.zero_or, BitVec.reduceExtractLsb']))

theorem and (x0 : BitVec 5) (x1 : BitVec 5) (x2 : BitVec 5) : Statement (.and x0 x1 x2) :=
  word _ (0x08000002#32 ||| place x0 7 ||| place x1 12 ||| place x2 17) rfl (decode_row 0x08000002#32 0xFFC0007F#32 _ 2 _
    (by simp (disch := decide) only [or_masked, place_masked, BitVec.or_zero]; rfl) (by decide +kernel)
    (by show some (Instr.and _ _ _) = _; simp (disch := decide) only [or_read, place_read, place_apart, BitVec.or_zero, BitVec.zero_or, BitVec.reduceExtractLsb']))

theorem or (x0 : BitVec 5) (x1 : BitVec 5) (x2 : BitVec 5) : Statement (.or x0 x1 x2) :=
  word _ (0x0C000002#32 ||| place x0 7 ||| place x1 12 ||| place x2 17) rfl (decode_row 0x0C000002#32 0xFFC0007F#32 _ 3 _
    (by simp (disch := decide) only [or_masked, place_masked, BitVec.or_zero]; rfl) (by decide +kernel)
    (by show some (Instr.or _ _ _) = _; simp (disch := decide) only [or_read, place_read, place_apart, BitVec.or_zero, BitVec.zero_or, BitVec.reduceExtractLsb']))

theorem xor (x0 : BitVec 5) (x1 : BitVec 5) (x2 : BitVec 5) : Statement (.xor x0 x1 x2) :=
  word _ (0x10000002#32 ||| place x0 7 ||| place x1 12 ||| place x2 17) rfl (decode_row 0x10000002#32 0xFFC0007F#32 _ 4 _
    (by simp (disch := decide) only [or_masked, place_masked, BitVec.or_zero]; rfl) (by decide +kernel)
    (by show some (Instr.xor _ _ _) = _; simp (disch := decide) only [or_read, place_read, place_apart, BitVec.or_zero, BitVec.zero_or, BitVec.reduceExtractLsb']))

theorem shl (x0 : BitVec 5) (x1 : BitVec 5) (x2 : BitVec 5) : Statement (.shl x0 x1 x2) :=
  word _ (0x14000002#32 ||| place x0 7 ||| place x1 12 ||| place x2 17) rfl (decode_row 0x14000002#32 0xFFC0007F#32 _ 5 _
    (by simp (disch := decide) only [or_masked, place_masked, BitVec.or_zero]; rfl) (by decide +kernel)
    (by show some (Instr.shl _ _ _) = _; simp (disch := decide) only [or_read, place_read, place_apart, BitVec.or_zero, BitVec.zero_or, BitVec.reduceExtractLsb']))

theorem shr (x0 : BitVec 5) (x1 : BitVec 5) (x2 : BitVec 5) : Statement (.shr x0 x1 x2) :=
  word _ (0x18000002#32 ||| place x0 7 ||| place x1 12 ||| place x2 17) rfl (decode_row 0x18000002#32 0xFFC0007F#32 _ 6 _
    (by simp (disch := decide) only [or_masked, place_masked, BitVec.or_zero]; rfl) (by decide +kernel)
    (by show some (Instr.shr _ _ _) = _; simp (disch := decide) only [or_read, place_read, place_apart, BitVec.or_zero, BitVec.zero_or, BitVec.reduceExtractLsb']))

theorem sha (x0 : BitVec 5) (x1 : BitVec 5) (x2 : BitVec 5) : Statement (.sha x0 x1 x2) :=
  word _ (0x1C000002#32 ||| place x0 7 ||| place x1 12 ||| place x2 17) rfl (decode_row 0x1C000002#32 0xFFC0007F#32 _ 7 _
    (by simp (disch := decide) only [or_masked, place_masked, BitVec.or_zero]; rfl) (by decide +kernel)
    (by show some (Instr.sha _ _ _) = _; simp (disch := decide) only [or_read, place_read, place_apart, BitVec.or_zero, BitVec.zero_or, BitVec.reduceExtractLsb']))

theorem min (x0 : BitVec 5) (x1 : BitVec 5) (x2 : BitVec 5) : Statement (.min x0 x1 x2) :=
  word _ (0x20000002#32 ||| place x0 7 ||| place x1 12 ||| place x2 17) rfl (decode_row 0x20000002#32 0xFFC0007F#32 _ 8 _
    (by simp (disch := decide) only [or_masked, place_masked, BitVec.or_zero]; rfl) (by decide +kernel)
    (by show some (Instr.min _ _ _) = _; simp (disch := decide) only [or_read, place_read, place_apart, BitVec.or_zero, BitVec.zero_or, BitVec.reduceExtractLsb']))

theorem max (x0 : BitVec 5) (x1 : BitVec 5) (x2 : BitVec 5) : Statement (.max x0 x1 x2) :=
  word _ (0x24000002#32 ||| place x0 7 ||| place x1 12 ||| place x2 17) rfl (decode_row 0x24000002#32 0xFFC0007F#32 _ 9 _
    (by simp (disch := decide) only [or_masked, place_masked, BitVec.or_zero]; rfl) (by decide +kernel)
    (by show some (Instr.max _ _ _) = _; simp (disch := decide) only [or_read, place_read, place_apart, BitVec.or_zero, BitVec.zero_or, BitVec.reduceExtractLsb']))

theorem minu (x0 : BitVec 5) (x1 : BitVec 5) (x2 : BitVec 5) : Statement (.minu x0 x1 x2) :=
  word _ (0x28000002#32 ||| place x0 7 ||| place x1 12 ||| place x2 17) rfl (decode_row 0x28000002#32 0xFFC0007F#32 _ 10 _
    (by simp (disch := decide) only [or_masked, place_masked, BitVec.or_zero]; rfl) (by decide +kernel)
    (by show some (Instr.minu _ _ _) = _; simp (disch := decide) only [or_read, place_read, place_apart, BitVec.or_zero, BitVec.zero_or, BitVec.reduceExtractLsb']))

theorem maxu (x0 : BitVec 5) (x1 : BitVec 5) (x2 : BitVec 5) : Statement (.maxu x0 x1 x2) :=
  word _ (0x2C000002#32 ||| place x0 7 ||| place x1 12 ||| place x2 17) rfl (decode_row 0x2C000002#32 0xFFC0007F#32 _ 11 _
    (by simp (disch := decide) only [or_masked, place_masked, BitVec.or_zero]; rfl) (by decide +kernel)
    (by show some (Instr.maxu _ _ _) = _; simp (disch := decide) only [or_read, place_read, place_apart, BitVec.or_zero, BitVec.zero_or, BitVec.reduceExtractLsb']))

theorem slt (x0 : BitVec 5) (x1 : BitVec 5) (x2 : BitVec 5) : Statement (.slt x0 x1 x2) :=
  word _ (0x30000002#32 ||| place x0 7 ||| place x1 12 ||| place x2 17) rfl (decode_row 0x30000002#32 0xFFC0007F#32 _ 12 _
    (by simp (disch := decide) only [or_masked, place_masked, BitVec.or_zero]; rfl) (by decide +kernel)
    (by show some (Instr.slt _ _ _) = _; simp (disch := decide) only [or_read, place_read, place_apart, BitVec.or_zero, BitVec.zero_or, BitVec.reduceExtractLsb']))

theorem sltu (x0 : BitVec 5) (x1 : BitVec 5) (x2 : BitVec 5) : Statement (.sltu x0 x1 x2) :=
  word _ (0x34000002#32 ||| place x0 7 ||| place x1 12 ||| place x2 17) rfl (decode_row 0x34000002#32 0xFFC0007F#32 _ 13 _
    (by simp (disch := decide) only [or_masked, place_masked, BitVec.or_zero]; rfl) (by decide +kernel)
    (by show some (Instr.sltu _ _ _) = _; simp (disch := decide) only [or_read, place_read, place_apart, BitVec.or_zero, BitVec.zero_or, BitVec.reduceExtractLsb']))

theorem sel (x0 : BitVec 5) (x1 : BitVec 5) (x2 : BitVec 5) : Statement (.sel x0 x1 x2) :=
  word _ (0x38000002#32 ||| place x0 7 ||| place x1 12 ||| place x2 17) rfl (decode_row 0x38000002#32 0xFFC0007F#32 _ 14 _
    (by simp (disch := decide) only [or_masked, place_masked, BitVec.or_zero]; rfl) (by decide +kernel)
    (by show some (Instr.sel _ _ _) = _; simp (disch := decide) only [or_read, place_read, place_apart, BitVec.or_zero, BitVec.zero_or, BitVec.reduceExtractLsb']))

theorem hint (x0 : BitVec 5) (x1 : BitVec 5) (x2 : BitVec 5) (x3 : BitVec 6) : Statement (.hint x0 x1 x2 x3) :=
  word _ (0xF0000002#32 ||| place x0 7 ||| place x1 12 ||| place x2 17 ||| place x3 22) rfl (decode_row 0xF0000002#32 0xF000007F#32 _ 15 _
    (by simp (disch := decide) only [or_masked, place_masked, BitVec.or_zero]; rfl) (by decide +kernel)
    (by show some (Instr.hint _ _ _ _) = _; simp (disch := decide) only [or_read, place_read, place_apart, BitVec.or_zero, BitVec.zero_or, BitVec.reduceExtractLsb']))

theorem mul (x0 : BitVec 5) (x1 : BitVec 5) (x2 : BitVec 5) : Statement (.mul x0 x1 x2) :=
  word _ (0x00000004#32 ||| place x0 7 ||| place x1 12 ||| place x2 17) rfl (decode_row 0x00000004#32 0xFFC0007F#32 _ 16 _
    (by simp (disch := decide) only [or_masked, place_masked, BitVec.or_zero]; rfl) (by decide +kernel)
    (by show some (Instr.mul _ _ _) = _; simp (disch := decide) only [or_read, place_read, place_apart, BitVec.or_zero, BitVec.zero_or, BitVec.reduceExtractLsb']))

theorem mulh (x0 : BitVec 5) (x1 : BitVec 5) (x2 : BitVec 5) : Statement (.mulh x0 x1 x2) :=
  word _ (0x04000004#32 ||| place x0 7 ||| place x1 12 ||| place x2 17) rfl (decode_row 0x04000004#32 0xFFC0007F#32 _ 17 _
    (by simp (disch := decide) only [or_masked, place_masked, BitVec.or_zero]; rfl) (by decide +kernel)
    (by show some (Instr.mulh _ _ _) = _; simp (disch := decide) only [or_read, place_read, place_apart, BitVec.or_zero, BitVec.zero_or, BitVec.reduceExtractLsb']))

theorem mulhu (x0 : BitVec 5) (x1 : BitVec 5) (x2 : BitVec 5) : Statement (.mulhu x0 x1 x2) :=
  word _ (0x08000004#32 ||| place x0 7 ||| place x1 12 ||| place x2 17) rfl (decode_row 0x08000004#32 0xFFC0007F#32 _ 18 _
    (by simp (disch := decide) only [or_masked, place_masked, BitVec.or_zero]; rfl) (by decide +kernel)
    (by show some (Instr.mulhu _ _ _) = _; simp (disch := decide) only [or_read, place_read, place_apart, BitVec.or_zero, BitVec.zero_or, BitVec.reduceExtractLsb']))

theorem div (x0 : BitVec 5) (x1 : BitVec 5) (x2 : BitVec 5) : Statement (.div x0 x1 x2) :=
  word _ (0x0C000004#32 ||| place x0 7 ||| place x1 12 ||| place x2 17) rfl (decode_row 0x0C000004#32 0xFFC0007F#32 _ 19 _
    (by simp (disch := decide) only [or_masked, place_masked, BitVec.or_zero]; rfl) (by decide +kernel)
    (by show some (Instr.div _ _ _) = _; simp (disch := decide) only [or_read, place_read, place_apart, BitVec.or_zero, BitVec.zero_or, BitVec.reduceExtractLsb']))

theorem divu (x0 : BitVec 5) (x1 : BitVec 5) (x2 : BitVec 5) : Statement (.divu x0 x1 x2) :=
  word _ (0x10000004#32 ||| place x0 7 ||| place x1 12 ||| place x2 17) rfl (decode_row 0x10000004#32 0xFFC0007F#32 _ 20 _
    (by simp (disch := decide) only [or_masked, place_masked, BitVec.or_zero]; rfl) (by decide +kernel)
    (by show some (Instr.divu _ _ _) = _; simp (disch := decide) only [or_read, place_read, place_apart, BitVec.or_zero, BitVec.zero_or, BitVec.reduceExtractLsb']))

theorem rem (x0 : BitVec 5) (x1 : BitVec 5) (x2 : BitVec 5) : Statement (.rem x0 x1 x2) :=
  word _ (0x14000004#32 ||| place x0 7 ||| place x1 12 ||| place x2 17) rfl (decode_row 0x14000004#32 0xFFC0007F#32 _ 21 _
    (by simp (disch := decide) only [or_masked, place_masked, BitVec.or_zero]; rfl) (by decide +kernel)
    (by show some (Instr.rem _ _ _) = _; simp (disch := decide) only [or_read, place_read, place_apart, BitVec.or_zero, BitVec.zero_or, BitVec.reduceExtractLsb']))

theorem remu (x0 : BitVec 5) (x1 : BitVec 5) (x2 : BitVec 5) : Statement (.remu x0 x1 x2) :=
  word _ (0x18000004#32 ||| place x0 7 ||| place x1 12 ||| place x2 17) rfl (decode_row 0x18000004#32 0xFFC0007F#32 _ 22 _
    (by simp (disch := decide) only [or_masked, place_masked, BitVec.or_zero]; rfl) (by decide +kernel)
    (by show some (Instr.remu _ _ _) = _; simp (disch := decide) only [or_read, place_read, place_apart, BitVec.or_zero, BitVec.zero_or, BitVec.reduceExtractLsb']))

theorem clz (x0 : BitVec 5) (x1 : BitVec 5) : Statement (.clz x0 x1) :=
  word _ (0x00000006#32 ||| place x0 7 ||| place x1 12) rfl (decode_row 0x00000006#32 0xFFFE007F#32 _ 23 _
    (by simp (disch := decide) only [or_masked, place_masked, BitVec.or_zero]; rfl) (by decide +kernel)
    (by show some (Instr.clz _ _) = _; simp (disch := decide) only [or_read, place_read, place_apart, BitVec.or_zero, BitVec.zero_or, BitVec.reduceExtractLsb']))

theorem ctz (x0 : BitVec 5) (x1 : BitVec 5) : Statement (.ctz x0 x1) :=
  word _ (0x04000006#32 ||| place x0 7 ||| place x1 12) rfl (decode_row 0x04000006#32 0xFFFE007F#32 _ 24 _
    (by simp (disch := decide) only [or_masked, place_masked, BitVec.or_zero]; rfl) (by decide +kernel)
    (by show some (Instr.ctz _ _) = _; simp (disch := decide) only [or_read, place_read, place_apart, BitVec.or_zero, BitVec.zero_or, BitVec.reduceExtractLsb']))

theorem popc (x0 : BitVec 5) (x1 : BitVec 5) : Statement (.popc x0 x1) :=
  word _ (0x08000006#32 ||| place x0 7 ||| place x1 12) rfl (decode_row 0x08000006#32 0xFFFE007F#32 _ 25 _
    (by simp (disch := decide) only [or_masked, place_masked, BitVec.or_zero]; rfl) (by decide +kernel)
    (by show some (Instr.popc _ _) = _; simp (disch := decide) only [or_read, place_read, place_apart, BitVec.or_zero, BitVec.zero_or, BitVec.reduceExtractLsb']))

theorem brev (x0 : BitVec 5) (x1 : BitVec 5) : Statement (.brev x0 x1) :=
  word _ (0x0C000006#32 ||| place x0 7 ||| place x1 12) rfl (decode_row 0x0C000006#32 0xFFFE007F#32 _ 26 _
    (by simp (disch := decide) only [or_masked, place_masked, BitVec.or_zero]; rfl) (by decide +kernel)
    (by show some (Instr.brev _ _) = _; simp (disch := decide) only [or_read, place_read, place_apart, BitVec.or_zero, BitVec.zero_or, BitVec.reduceExtractLsb']))

theorem bfx (x0 : BitVec 5) (x1 : BitVec 5) (x2 : BitVec 6) (x3 : BitVec 6) : Statement (.bfx x0 x1 x2 x3) :=
  word _ (0x00000008#32 ||| place x0 7 ||| place x1 12 ||| place x2 17 ||| place x3 23) rfl (decode_row 0x00000008#32 0xE000007F#32 _ 27 _
    (by simp (disch := decide) only [or_masked, place_masked, BitVec.or_zero]; rfl) (by decide +kernel)
    (by show some (Instr.bfx _ _ _ _) = _; simp (disch := decide) only [or_read, place_read, place_apart, BitVec.or_zero, BitVec.zero_or, BitVec.reduceExtractLsb']))

theorem bfxs (x0 : BitVec 5) (x1 : BitVec 5) (x2 : BitVec 6) (x3 : BitVec 6) : Statement (.bfxs x0 x1 x2 x3) :=
  word _ (0x40000008#32 ||| place x0 7 ||| place x1 12 ||| place x2 17 ||| place x3 23) rfl (decode_row 0x40000008#32 0xE000007F#32 _ 28 _
    (by simp (disch := decide) only [or_masked, place_masked, BitVec.or_zero]; rfl) (by decide +kernel)
    (by show some (Instr.bfxs _ _ _ _) = _; simp (disch := decide) only [or_read, place_read, place_apart, BitVec.or_zero, BitVec.zero_or, BitVec.reduceExtractLsb']))

theorem bfi (x0 : BitVec 5) (x1 : BitVec 5) (x2 : BitVec 6) (x3 : BitVec 6) : Statement (.bfi x0 x1 x2 x3) :=
  word _ (0x20000008#32 ||| place x0 7 ||| place x1 12 ||| place x2 17 ||| place x3 23) rfl (decode_row 0x20000008#32 0xE000007F#32 _ 29 _
    (by simp (disch := decide) only [or_masked, place_masked, BitVec.or_zero]; rfl) (by decide +kernel)
    (by show some (Instr.bfi _ _ _ _) = _; simp (disch := decide) only [or_read, place_read, place_apart, BitVec.or_zero, BitVec.zero_or, BitVec.reduceExtractLsb']))

theorem addi (x0 : BitVec 5) (x1 : BitVec 5) (x2 : BitVec 15) : Statement (.addi x0 x1 x2) :=
  word _ (0x0000000A#32 ||| place x0 7 ||| place x1 12 ||| place x2 17) rfl (decode_row 0x0000000A#32 0x0000007F#32 _ 30 _
    (by simp (disch := decide) only [or_masked, place_masked, BitVec.or_zero]; rfl) (by decide +kernel)
    (by show some (Instr.addi _ _ _) = _; simp (disch := decide) only [or_read, place_read, place_apart, BitVec.or_zero, BitVec.zero_or, BitVec.reduceExtractLsb']))

theorem andi (x0 : BitVec 5) (x1 : BitVec 5) (x2 : BitVec 15) : Statement (.andi x0 x1 x2) :=
  word _ (0x0000000C#32 ||| place x0 7 ||| place x1 12 ||| place x2 17) rfl (decode_row 0x0000000C#32 0x0000007F#32 _ 31 _
    (by simp (disch := decide) only [or_masked, place_masked, BitVec.or_zero]; rfl) (by decide +kernel)
    (by show some (Instr.andi _ _ _) = _; simp (disch := decide) only [or_read, place_read, place_apart, BitVec.or_zero, BitVec.zero_or, BitVec.reduceExtractLsb']))

theorem ori (x0 : BitVec 5) (x1 : BitVec 5) (x2 : BitVec 15) : Statement (.ori x0 x1 x2) :=
  word _ (0x0000000E#32 ||| place x0 7 ||| place x1 12 ||| place x2 17) rfl (decode_row 0x0000000E#32 0x0000007F#32 _ 32 _
    (by simp (disch := decide) only [or_masked, place_masked, BitVec.or_zero]; rfl) (by decide +kernel)
    (by show some (Instr.ori _ _ _) = _; simp (disch := decide) only [or_read, place_read, place_apart, BitVec.or_zero, BitVec.zero_or, BitVec.reduceExtractLsb']))

theorem xori (x0 : BitVec 5) (x1 : BitVec 5) (x2 : BitVec 15) : Statement (.xori x0 x1 x2) :=
  word _ (0x00000010#32 ||| place x0 7 ||| place x1 12 ||| place x2 17) rfl (decode_row 0x00000010#32 0x0000007F#32 _ 33 _
    (by simp (disch := decide) only [or_masked, place_masked, BitVec.or_zero]; rfl) (by decide +kernel)
    (by show some (Instr.xori _ _ _) = _; simp (disch := decide) only [or_read, place_read, place_apart, BitVec.or_zero, BitVec.zero_or, BitVec.reduceExtractLsb']))

theorem slti (x0 : BitVec 5) (x1 : BitVec 5) (x2 : BitVec 15) : Statement (.slti x0 x1 x2) :=
  word _ (0x00000012#32 ||| place x0 7 ||| place x1 12 ||| place x2 17) rfl (decode_row 0x00000012#32 0x0000007F#32 _ 34 _
    (by simp (disch := decide) only [or_masked, place_masked, BitVec.or_zero]; rfl) (by decide +kernel)
    (by show some (Instr.slti _ _ _) = _; simp (disch := decide) only [or_read, place_read, place_apart, BitVec.or_zero, BitVec.zero_or, BitVec.reduceExtractLsb']))

theorem sltui (x0 : BitVec 5) (x1 : BitVec 5) (x2 : BitVec 15) : Statement (.sltui x0 x1 x2) :=
  word _ (0x00000014#32 ||| place x0 7 ||| place x1 12 ||| place x2 17) rfl (decode_row 0x00000014#32 0x0000007F#32 _ 35 _
    (by simp (disch := decide) only [or_masked, place_masked, BitVec.or_zero]; rfl) (by decide +kernel)
    (by show some (Instr.sltui _ _ _) = _; simp (disch := decide) only [or_read, place_read, place_apart, BitVec.or_zero, BitVec.zero_or, BitVec.reduceExtractLsb']))

theorem shli (x0 : BitVec 5) (x1 : BitVec 5) (x2 : BitVec 6) : Statement (.shli x0 x1 x2) :=
  word _ (0x00000016#32 ||| place x0 7 ||| place x1 12 ||| place x2 17) rfl (decode_row 0x00000016#32 0xFF80007F#32 _ 36 _
    (by simp (disch := decide) only [or_masked, place_masked, BitVec.or_zero]; rfl) (by decide +kernel)
    (by show some (Instr.shli _ _ _) = _; simp (disch := decide) only [or_read, place_read, place_apart, BitVec.or_zero, BitVec.zero_or, BitVec.reduceExtractLsb']))

theorem shri (x0 : BitVec 5) (x1 : BitVec 5) (x2 : BitVec 6) : Statement (.shri x0 x1 x2) :=
  word _ (0x00800016#32 ||| place x0 7 ||| place x1 12 ||| place x2 17) rfl (decode_row 0x00800016#32 0xFF80007F#32 _ 37 _
    (by simp (disch := decide) only [or_masked, place_masked, BitVec.or_zero]; rfl) (by decide +kernel)
    (by show some (Instr.shri _ _ _) = _; simp (disch := decide) only [or_read, place_read, place_apart, BitVec.or_zero, BitVec.zero_or, BitVec.reduceExtractLsb']))

theorem shai (x0 : BitVec 5) (x1 : BitVec 5) (x2 : BitVec 6) : Statement (.shai x0 x1 x2) :=
  word _ (0x01000016#32 ||| place x0 7 ||| place x1 12 ||| place x2 17) rfl (decode_row 0x01000016#32 0xFF80007F#32 _ 38 _
    (by simp (disch := decide) only [or_masked, place_masked, BitVec.or_zero]; rfl) (by decide +kernel)
    (by show some (Instr.shai _ _ _) = _; simp (disch := decide) only [or_read, place_read, place_apart, BitVec.or_zero, BitVec.zero_or, BitVec.reduceExtractLsb']))

theorem lea (x0 : BitVec 5) (x1 : BitVec 5) (x2 : BitVec 5) (x3 : BitVec 2) (x4 : BitVec 8) : Statement (.lea x0 x1 x2 x3 x4) :=
  word _ (0x00000018#32 ||| place x0 7 ||| place x1 12 ||| place x2 17 ||| place x3 22 ||| place x4 24) rfl (decode_row 0x00000018#32 0x0000007F#32 _ 39 _
    (by simp (disch := decide) only [or_masked, place_masked, BitVec.or_zero]; rfl) (by decide +kernel)
    (by show some (Instr.lea _ _ _ _ _) = _; simp (disch := decide) only [or_read, place_read, place_apart, BitVec.or_zero, BitVec.zero_or, BitVec.reduceExtractLsb']))

theorem lui (x0 : BitVec 5) (x1 : BitVec 20) : Statement (.lui x0 x1) :=
  word _ (0x0000001A#32 ||| place x0 7 ||| place x1 12) rfl (decode_row 0x0000001A#32 0x0000007F#32 _ 40 _
    (by simp (disch := decide) only [or_masked, place_masked, BitVec.or_zero]; rfl) (by decide +kernel)
    (by show some (Instr.lui _ _) = _; simp (disch := decide) only [or_read, place_read, place_apart, BitVec.or_zero, BitVec.zero_or, BitVec.reduceExtractLsb']))

theorem addpc (x0 : BitVec 5) (x1 : BitVec 20) : Statement (.addpc x0 x1) :=
  word _ (0x0000001C#32 ||| place x0 7 ||| place x1 12) rfl (decode_row 0x0000001C#32 0x0000007F#32 _ 41 _
    (by simp (disch := decide) only [or_masked, place_masked, BitVec.or_zero]; rfl) (by decide +kernel)
    (by show some (Instr.addpc _ _) = _; simp (disch := decide) only [or_read, place_read, place_apart, BitVec.or_zero, BitVec.zero_or, BitVec.reduceExtractLsb']))

theorem fadd (x0 : BitVec 5) (x1 : BitVec 5) (x2 : BitVec 5) (x3 : BitVec 1) (x4 : BitVec 3) : Statement (.fadd x0 x1 x2 x3 x4) :=
  word _ (0x0000001E#32 ||| place x0 7 ||| place x1 12 ||| place x2 17 ||| place x3 23 ||| place x4 24) rfl (decode_row 0x0000001E#32 0xF840007F#32 _ 42 _
    (by simp (disch := decide) only [or_masked, place_masked, BitVec.or_zero]; rfl) (by decide +kernel)
    (by show some (Instr.fadd _ _ _ _ _) = _; simp (disch := decide) only [or_read, place_read, place_apart, BitVec.or_zero, BitVec.zero_or, BitVec.reduceExtractLsb']))

theorem fsub (x0 : BitVec 5) (x1 : BitVec 5) (x2 : BitVec 5) (x3 : BitVec 1) (x4 : BitVec 3) : Statement (.fsub x0 x1 x2 x3 x4) :=
  word _ (0x0800001E#32 ||| place x0 7 ||| place x1 12 ||| place x2 17 ||| place x3 23 ||| place x4 24) rfl (decode_row 0x0800001E#32 0xF840007F#32 _ 43 _
    (by simp (disch := decide) only [or_masked, place_masked, BitVec.or_zero]; rfl) (by decide +kernel)
    (by show some (Instr.fsub _ _ _ _ _) = _; simp (disch := decide) only [or_read, place_read, place_apart, BitVec.or_zero, BitVec.zero_or, BitVec.reduceExtractLsb']))

theorem fmul (x0 : BitVec 5) (x1 : BitVec 5) (x2 : BitVec 5) (x3 : BitVec 1) (x4 : BitVec 3) : Statement (.fmul x0 x1 x2 x3 x4) :=
  word _ (0x1000001E#32 ||| place x0 7 ||| place x1 12 ||| place x2 17 ||| place x3 23 ||| place x4 24) rfl (decode_row 0x1000001E#32 0xF840007F#32 _ 44 _
    (by simp (disch := decide) only [or_masked, place_masked, BitVec.or_zero]; rfl) (by decide +kernel)
    (by show some (Instr.fmul _ _ _ _ _) = _; simp (disch := decide) only [or_read, place_read, place_apart, BitVec.or_zero, BitVec.zero_or, BitVec.reduceExtractLsb']))

theorem ffma (x0 : BitVec 5) (x1 : BitVec 5) (x2 : BitVec 5) (x3 : BitVec 1) (x4 : BitVec 3) : Statement (.ffma x0 x1 x2 x3 x4) :=
  word _ (0x1800001E#32 ||| place x0 7 ||| place x1 12 ||| place x2 17 ||| place x3 23 ||| place x4 24) rfl (decode_row 0x1800001E#32 0xF840007F#32 _ 45 _
    (by simp (disch := decide) only [or_masked, place_masked, BitVec.or_zero]; rfl) (by decide +kernel)
    (by show some (Instr.ffma _ _ _ _ _) = _; simp (disch := decide) only [or_read, place_read, place_apart, BitVec.or_zero, BitVec.zero_or, BitVec.reduceExtractLsb']))

theorem fdiv (x0 : BitVec 5) (x1 : BitVec 5) (x2 : BitVec 5) (x3 : BitVec 1) (x4 : BitVec 3) : Statement (.fdiv x0 x1 x2 x3 x4) :=
  word _ (0x2000001E#32 ||| place x0 7 ||| place x1 12 ||| place x2 17 ||| place x3 23 ||| place x4 24) rfl (decode_row 0x2000001E#32 0xF840007F#32 _ 46 _
    (by simp (disch := decide) only [or_masked, place_masked, BitVec.or_zero]; rfl) (by decide +kernel)
    (by show some (Instr.fdiv _ _ _ _ _) = _; simp (disch := decide) only [or_read, place_read, place_apart, BitVec.or_zero, BitVec.zero_or, BitVec.reduceExtractLsb']))

theorem fsqrt (x0 : BitVec 5) (x1 : BitVec 5) (x2 : BitVec 1) (x3 : BitVec 3) : Statement (.fsqrt x0 x1 x2 x3) :=
  word _ (0x2800001E#32 ||| place x0 7 ||| place x1 12 ||| place x2 23 ||| place x3 24) rfl (decode_row 0x2800001E#32 0xF87E007F#32 _ 47 _
    (by simp (disch := decide) only [or_masked, place_masked, BitVec.or_zero]; rfl) (by decide +kernel)
    (by show some (Instr.fsqrt _ _ _ _) = _; simp (disch := decide) only [or_read, place_read, place_apart, BitVec.or_zero, BitVec.zero_or, BitVec.reduceExtractLsb']))

theorem fmin (x0 : BitVec 5) (x1 : BitVec 5) (x2 : BitVec 5) (x3 : BitVec 1) : Statement (.fmin x0 x1 x2 x3) :=
  word _ (0x3000001E#32 ||| place x0 7 ||| place x1 12 ||| place x2 17 ||| place x3 23) rfl (decode_row 0x3000001E#32 0xFF40007F#32 _ 48 _
    (by simp (disch := decide) only [or_masked, place_masked, BitVec.or_zero]; rfl) (by decide +kernel)
    (by show some (Instr.fmin _ _ _ _) = _; simp (disch := decide) only [or_read, place_read, place_apart, BitVec.or_zero, BitVec.zero_or, BitVec.reduceExtractLsb']))

theorem fmax (x0 : BitVec 5) (x1 : BitVec 5) (x2 : BitVec 5) (x3 : BitVec 1) : Statement (.fmax x0 x1 x2 x3) :=
  word _ (0x3800001E#32 ||| place x0 7 ||| place x1 12 ||| place x2 17 ||| place x3 23) rfl (decode_row 0x3800001E#32 0xFF40007F#32 _ 49 _
    (by simp (disch := decide) only [or_masked, place_masked, BitVec.or_zero]; rfl) (by decide +kernel)
    (by show some (Instr.fmax _ _ _ _) = _; simp (disch := decide) only [or_read, place_read, place_apart, BitVec.or_zero, BitVec.zero_or, BitVec.reduceExtractLsb']))

theorem fcmp (x0 : BitVec 5) (x1 : BitVec 5) (x2 : BitVec 5) (x3 : BitVec 1) (x4 : BitVec 3) : Statement (.fcmp x0 x1 x2 x3 x4) :=
  word _ (0x4000001E#32 ||| place x0 7 ||| place x1 12 ||| place x2 17 ||| place x3 23 ||| place x4 24) rfl (decode_row 0x4000001E#32 0xF840007F#32 _ 50 _
    (by simp (disch := decide) only [or_masked, place_masked, BitVec.or_zero]; rfl) (by decide +kernel)
    (by show some (Instr.fcmp _ _ _ _ _) = _; simp (disch := decide) only [or_read, place_read, place_apart, BitVec.or_zero, BitVec.zero_or, BitVec.reduceExtractLsb']))

theorem fcvt (x0 : BitVec 5) (x1 : BitVec 5) (x2 : BitVec 5) (x3 : BitVec 3) (x4 : BitVec 5) : Statement (.fcvt x0 x1 x2 x3 x4) :=
  word _ (0x00000020#32 ||| place x0 7 ||| place x1 12 ||| place x2 17 ||| place x3 24 ||| place x4 27) rfl (decode_row 0x00000020#32 0x00C0007F#32 _ 51 _
    (by simp (disch := decide) only [or_masked, place_masked, BitVec.or_zero]; rfl) (by decide +kernel)
    (by show some (Instr.fcvt _ _ _ _ _) = _; simp (disch := decide) only [or_read, place_read, place_apart, BitVec.or_zero, BitVec.zero_or, BitVec.reduceExtractLsb']))

theorem beq (x0 : BitVec 5) (x1 : BitVec 5) (x2 : BitVec 5) (x3 : BitVec 10) : Statement (.beq x0 x1 x2 x3) :=
  word _ (0x00000022#32 ||| place x0 7 ||| place x1 12 ||| place x2 17 ||| place x3 22) rfl (decode_row 0x00000022#32 0x0000007F#32 _ 52 _
    (by simp (disch := decide) only [or_masked, place_masked, BitVec.or_zero]; rfl) (by decide +kernel)
    (by show some (Instr.beq _ _ _ _) = _; simp (disch := decide) only [or_read, place_read, place_apart, BitVec.or_zero, BitVec.zero_or, BitVec.reduceExtractLsb']))

theorem bne (x0 : BitVec 5) (x1 : BitVec 5) (x2 : BitVec 5) (x3 : BitVec 10) : Statement (.bne x0 x1 x2 x3) :=
  word _ (0x00000024#32 ||| place x0 7 ||| place x1 12 ||| place x2 17 ||| place x3 22) rfl (decode_row 0x00000024#32 0x0000007F#32 _ 53 _
    (by simp (disch := decide) only [or_masked, place_masked, BitVec.or_zero]; rfl) (by decide +kernel)
    (by show some (Instr.bne _ _ _ _) = _; simp (disch := decide) only [or_read, place_read, place_apart, BitVec.or_zero, BitVec.zero_or, BitVec.reduceExtractLsb']))

theorem blt (x0 : BitVec 5) (x1 : BitVec 5) (x2 : BitVec 5) (x3 : BitVec 10) : Statement (.blt x0 x1 x2 x3) :=
  word _ (0x00000026#32 ||| place x0 7 ||| place x1 12 ||| place x2 17 ||| place x3 22) rfl (decode_row 0x00000026#32 0x0000007F#32 _ 54 _
    (by simp (disch := decide) only [or_masked, place_masked, BitVec.or_zero]; rfl) (by decide +kernel)
    (by show some (Instr.blt _ _ _ _) = _; simp (disch := decide) only [or_read, place_read, place_apart, BitVec.or_zero, BitVec.zero_or, BitVec.reduceExtractLsb']))

theorem bge (x0 : BitVec 5) (x1 : BitVec 5) (x2 : BitVec 5) (x3 : BitVec 10) : Statement (.bge x0 x1 x2 x3) :=
  word _ (0x00000028#32 ||| place x0 7 ||| place x1 12 ||| place x2 17 ||| place x3 22) rfl (decode_row 0x00000028#32 0x0000007F#32 _ 55 _
    (by simp (disch := decide) only [or_masked, place_masked, BitVec.or_zero]; rfl) (by decide +kernel)
    (by show some (Instr.bge _ _ _ _) = _; simp (disch := decide) only [or_read, place_read, place_apart, BitVec.or_zero, BitVec.zero_or, BitVec.reduceExtractLsb']))

theorem bltu (x0 : BitVec 5) (x1 : BitVec 5) (x2 : BitVec 5) (x3 : BitVec 10) : Statement (.bltu x0 x1 x2 x3) :=
  word _ (0x0000002A#32 ||| place x0 7 ||| place x1 12 ||| place x2 17 ||| place x3 22) rfl (decode_row 0x0000002A#32 0x0000007F#32 _ 56 _
    (by simp (disch := decide) only [or_masked, place_masked, BitVec.or_zero]; rfl) (by decide +kernel)
    (by show some (Instr.bltu _ _ _ _) = _; simp (disch := decide) only [or_read, place_read, place_apart, BitVec.or_zero, BitVec.zero_or, BitVec.reduceExtractLsb']))

theorem bgeu (x0 : BitVec 5) (x1 : BitVec 5) (x2 : BitVec 5) (x3 : BitVec 10) : Statement (.bgeu x0 x1 x2 x3) :=
  word _ (0x0000002C#32 ||| place x0 7 ||| place x1 12 ||| place x2 17 ||| place x3 22) rfl (decode_row 0x0000002C#32 0x0000007F#32 _ 57 _
    (by simp (disch := decide) only [or_masked, place_masked, BitVec.or_zero]; rfl) (by decide +kernel)
    (by show some (Instr.bgeu _ _ _ _) = _; simp (disch := decide) only [or_read, place_read, place_apart, BitVec.or_zero, BitVec.zero_or, BitVec.reduceExtractLsb']))

theorem jal (x0 : BitVec 5) (x1 : BitVec 20) : Statement (.jal x0 x1) :=
  word _ (0x0000002E#32 ||| place x0 7 ||| place x1 12) rfl (decode_row 0x0000002E#32 0x0000007F#32 _ 58 _
    (by simp (disch := decide) only [or_masked, place_masked, BitVec.or_zero]; rfl) (by decide +kernel)
    (by show some (Instr.jal _ _) = _; simp (disch := decide) only [or_read, place_read, place_apart, BitVec.or_zero, BitVec.zero_or, BitVec.reduceExtractLsb']))

theorem jalr (x0 : BitVec 5) (x1 : BitVec 5) (x2 : BitVec 15) : Statement (.jalr x0 x1 x2) :=
  word _ (0x00000030#32 ||| place x0 7 ||| place x1 12 ||| place x2 17) rfl (decode_row 0x00000030#32 0x0000007F#32 _ 59 _
    (by simp (disch := decide) only [or_masked, place_masked, BitVec.or_zero]; rfl) (by decide +kernel)
    (by show some (Instr.jalr _ _ _) = _; simp (disch := decide) only [or_read, place_read, place_apart, BitVec.or_zero, BitVec.zero_or, BitVec.reduceExtractLsb']))

theorem loop (x0 : BitVec 5) (x1 : BitVec 5) (x2 : BitVec 10) : Statement (.loop x0 x1 x2) :=
  word _ (0x00000032#32 ||| place x0 7 ||| place x1 12 ||| place x2 22) rfl (decode_row 0x00000032#32 0x003E007F#32 _ 60 _
    (by simp (disch := decide) only [or_masked, place_masked, BitVec.or_zero]; rfl) (by decide +kernel)
    (by show some (Instr.loop _ _ _) = _; simp (disch := decide) only [or_read, place_read, place_apart, BitVec.or_zero, BitVec.zero_or, BitVec.reduceExtractLsb']))

theorem dictionaryCode (x0 : BitVec 5) (x1 : BitVec 10) : Statement (.dictionaryCode x0 x1) := by
  intro _ bs hb
  cases hb
  have hp : ∀ p : Parcel, parcelOf (p.extractLsb' 0 8) (p.extractLsb' 8 8) = p := by
    intro p
    apply BitVec.eq_of_getLsbD_eq
    intro j hj
    simp only [parcelOf, BitVec.getLsbD_append, BitVec.getLsbD_extractLsb']
    split
    · rename_i h; simp only [h, decide_true, Bool.true_and]; congr 1; omega
    · have h : j - 8 < 8 := by omega
      simp only [h, decide_true, Bool.true_and]; congr 1; omega
  have hl : lengthOf ((x1 ++ x0 ++ (1 : BitVec 1) : Parcel)) = 2 := by
    have : (x1 ++ x0 ++ (1 : BitVec 1) : Parcel).getLsbD 0 = true := by
      simp only [BitVec.getLsbD_append]; rfl
    unfold lengthOf
    rw [this]; rfl
  have h1 : (x1 ++ x0 ++ (1 : BitVec 1) : Parcel).extractLsb' 1 5 = x0 := by
    apply BitVec.eq_of_getLsbD_eq
    intro j hj
    have a : ¬ 1 + j < 1 := by omega
    have b : 1 + j - 1 < 5 := by omega
    simp only [BitVec.getLsbD_append, BitVec.getLsbD_extractLsb', hj, a, b, decide_true, Bool.true_and, if_true, if_false]
    congr 1; omega
  have h2 : (x1 ++ x0 ++ (1 : BitVec 1) : Parcel).extractLsb' 6 10 = x1 := by
    apply BitVec.eq_of_getLsbD_eq
    intro j hj
    have a : ¬ 6 + j < 1 := by omega
    have b : ¬ 6 + j - 1 < 5 := by omega
    simp only [BitVec.getLsbD_append, BitVec.getLsbD_extractLsb', hj, a, b, decide_true, Bool.true_and, if_false]
    congr 1; omega
  simp only [decode, hp, hl, h1, h2, List.length_cons, List.length_nil]
theorem ld (x0 : BitVec 5) (x1 : BitVec 5) (x2 : BitVec 3) (x3 : BitVec 12) : Statement (.ld x0 x1 x2 x3) :=
  word _ (0x00000034#32 ||| place x0 7 ||| place x1 12 ||| place x2 17 ||| place x3 20) rfl (decode_row 0x00000034#32 0x0000007F#32 _ 61 _
    (by simp (disch := decide) only [or_masked, place_masked, BitVec.or_zero]; rfl) (by decide +kernel)
    (by show some (Instr.ld _ _ _ _) = _; simp (disch := decide) only [or_read, place_read, place_apart, BitVec.or_zero, BitVec.zero_or, BitVec.reduceExtractLsb']))

theorem ldf (x0 : BitVec 5) (x1 : BitVec 5) (x2 : BitVec 3) (x3 : BitVec 12) : Statement (.ldf x0 x1 x2 x3) :=
  word _ (0x00000036#32 ||| place x0 7 ||| place x1 12 ||| place x2 17 ||| place x3 20) rfl (decode_row 0x00000036#32 0x0000007F#32 _ 62 _
    (by simp (disch := decide) only [or_masked, place_masked, BitVec.or_zero]; rfl) (by decide +kernel)
    (by show some (Instr.ldf _ _ _ _) = _; simp (disch := decide) only [or_read, place_read, place_apart, BitVec.or_zero, BitVec.zero_or, BitVec.reduceExtractLsb']))

theorem st (x0 : BitVec 5) (x1 : BitVec 5) (x2 : BitVec 5) (x3 : BitVec 3) (x4 : BitVec 7) : Statement (.st x0 x1 x2 x3 x4) :=
  word _ (0x00000038#32 ||| place x0 7 ||| place x1 12 ||| place x2 17 ||| place x3 22 ||| place x4 25) rfl (decode_row 0x00000038#32 0x0000007F#32 _ 63 _
    (by simp (disch := decide) only [or_masked, place_masked, BitVec.or_zero]; rfl) (by decide +kernel)
    (by show some (Instr.st _ _ _ _ _) = _; simp (disch := decide) only [or_read, place_read, place_apart, BitVec.or_zero, BitVec.zero_or, BitVec.reduceExtractLsb']))

theorem pf (x0 : BitVec 5) (x1 : BitVec 5) (x2 : BitVec 15) : Statement (.pf x0 x1 x2) :=
  word _ (0x0000003A#32 ||| place x0 7 ||| place x1 12 ||| place x2 17) rfl (decode_row 0x0000003A#32 0x0000007F#32 _ 64 _
    (by simp (disch := decide) only [or_masked, place_masked, BitVec.or_zero]; rfl) (by decide +kernel)
    (by show some (Instr.pf _ _ _) = _; simp (disch := decide) only [or_read, place_read, place_apart, BitVec.or_zero, BitVec.zero_or, BitVec.reduceExtractLsb']))

theorem amo (x0 : BitVec 5) (x1 : BitVec 5) (x2 : BitVec 5) (x3 : BitVec 3) (x4 : BitVec 2) (x5 : BitVec 4) : Statement (.amo x0 x1 x2 x3 x4 x5) :=
  word _ (0x0000003C#32 ||| place x0 7 ||| place x1 12 ||| place x2 17 ||| place x3 23 ||| place x4 26 ||| place x5 28) rfl (decode_row 0x0000003C#32 0x0040007F#32 _ 65 _
    (by simp (disch := decide) only [or_masked, place_masked, BitVec.or_zero]; rfl) (by decide +kernel)
    (by show some (Instr.amo _ _ _ _ _ _) = _; simp (disch := decide) only [or_read, place_read, place_apart, BitVec.or_zero, BitVec.zero_or, BitVec.reduceExtractLsb']))

theorem cas (x0 : BitVec 5) (x1 : BitVec 5) (x2 : BitVec 5) (x3 : BitVec 3) (x4 : BitVec 2) : Statement (.cas x0 x1 x2 x3 x4) :=
  word _ (0x0000003E#32 ||| place x0 7 ||| place x1 12 ||| place x2 17 ||| place x3 23 ||| place x4 26) rfl (decode_row 0x0000003E#32 0xF040007F#32 _ 66 _
    (by simp (disch := decide) only [or_masked, place_masked, BitVec.or_zero]; rfl) (by decide +kernel)
    (by show some (Instr.cas _ _ _ _ _) = _; simp (disch := decide) only [or_read, place_read, place_apart, BitVec.or_zero, BitVec.zero_or, BitVec.reduceExtractLsb']))

theorem amof (x0 : BitVec 5) (x1 : BitVec 5) (x2 : BitVec 5) (x3 : BitVec 3) (x4 : BitVec 2) (x5 : BitVec 4) : Statement (.amof x0 x1 x2 x3 x4 x5) :=
  word _ (0x00000040#32 ||| place x0 7 ||| place x1 12 ||| place x2 17 ||| place x3 23 ||| place x4 26 ||| place x5 28) rfl (decode_row 0x00000040#32 0x0040007F#32 _ 67 _
    (by simp (disch := decide) only [or_masked, place_masked, BitVec.or_zero]; rfl) (by decide +kernel)
    (by show some (Instr.amof _ _ _ _ _ _) = _; simp (disch := decide) only [or_read, place_read, place_apart, BitVec.or_zero, BitVec.zero_or, BitVec.reduceExtractLsb']))

theorem redAdd (x0 : BitVec 5) (x1 : BitVec 5) (x2 : BitVec 5) (x3 : BitVec 3) (x4 : BitVec 5) : Statement (.redAdd x0 x1 x2 x3 x4) :=
  word _ (0x00000042#32 ||| place x0 7 ||| place x1 12 ||| place x2 17 ||| place x3 22 ||| place x4 25) rfl (decode_row 0x00000042#32 0xC000007F#32 _ 68 _
    (by simp (disch := decide) only [or_masked, place_masked, BitVec.or_zero]; rfl) (by decide +kernel)
    (by show some (Instr.redAdd _ _ _ _ _) = _; simp (disch := decide) only [or_read, place_read, place_apart, BitVec.or_zero, BitVec.zero_or, BitVec.reduceExtractLsb']))

theorem acq (x0 : BitVec 3) : Statement (.acq x0) :=
  word _ (0x00000044#32 ||| place x0 22) rfl (decode_row 0x00000044#32 0xFE3FFFFF#32 _ 69 _
    (by simp (disch := decide) only [or_masked, place_masked, BitVec.or_zero]; rfl) (by decide +kernel)
    (by show some (Instr.acq _) = _; simp (disch := decide) only [or_read, place_read, place_apart, BitVec.or_zero, BitVec.zero_or, BitVec.reduceExtractLsb']))

theorem rel (x0 : BitVec 3) : Statement (.rel x0) :=
  word _ (0x04000044#32 ||| place x0 22) rfl (decode_row 0x04000044#32 0xFE3FFFFF#32 _ 70 _
    (by simp (disch := decide) only [or_masked, place_masked, BitVec.or_zero]; rfl) (by decide +kernel)
    (by show some (Instr.rel _) = _; simp (disch := decide) only [or_read, place_read, place_apart, BitVec.or_zero, BitVec.zero_or, BitVec.reduceExtractLsb']))

theorem fence (x0 : BitVec 2) : Statement (.fence x0) :=
  word _ (0x08000044#32 ||| place x0 22) rfl (decode_row 0x08000044#32 0xFF3FFFFF#32 _ 71 _
    (by simp (disch := decide) only [or_masked, place_masked, BitVec.or_zero]; rfl) (by decide +kernel)
    (by show some (Instr.fence _) = _; simp (disch := decide) only [or_read, place_read, place_apart, BitVec.or_zero, BitVec.zero_or, BitVec.reduceExtractLsb']))

theorem barInit (x0 : BitVec 5) (x1 : BitVec 5) : Statement (.barInit x0 x1) :=
  word _ (0x0C000044#32 ||| place x0 12 ||| place x1 17) rfl (decode_row 0x0C000044#32 0xFFC00FFF#32 _ 72 _
    (by simp (disch := decide) only [or_masked, place_masked, BitVec.or_zero]; rfl) (by decide +kernel)
    (by show some (Instr.barInit _ _) = _; simp (disch := decide) only [or_read, place_read, place_apart, BitVec.or_zero, BitVec.zero_or, BitVec.reduceExtractLsb']))

theorem barArr (x0 : BitVec 5) (x1 : BitVec 5) : Statement (.barArr x0 x1) :=
  word _ (0x10000044#32 ||| place x0 7 ||| place x1 12) rfl (decode_row 0x10000044#32 0xFFFE007F#32 _ 73 _
    (by simp (disch := decide) only [or_masked, place_masked, BitVec.or_zero]; rfl) (by decide +kernel)
    (by show some (Instr.barArr _ _) = _; simp (disch := decide) only [or_read, place_read, place_apart, BitVec.or_zero, BitVec.zero_or, BitVec.reduceExtractLsb']))

theorem barWait (x0 : BitVec 5) (x1 : BitVec 5) (x2 : BitVec 5) : Statement (.barWait x0 x1 x2) :=
  word _ (0x14000044#32 ||| place x0 7 ||| place x1 12 ||| place x2 17) rfl (decode_row 0x14000044#32 0xFFC0007F#32 _ 74 _
    (by simp (disch := decide) only [or_masked, place_masked, BitVec.or_zero]; rfl) (by decide +kernel)
    (by show some (Instr.barWait _ _ _) = _; simp (disch := decide) only [or_read, place_read, place_apart, BitVec.or_zero, BitVec.zero_or, BitVec.reduceExtractLsb']))

theorem barInfo (x0 : BitVec 5) (x1 : BitVec 5) : Statement (.barInfo x0 x1) :=
  word _ (0x18000044#32 ||| place x0 7 ||| place x1 12) rfl (decode_row 0x18000044#32 0xFFFE007F#32 _ 75 _
    (by simp (disch := decide) only [or_masked, place_masked, BitVec.or_zero]; rfl) (by decide +kernel)
    (by show some (Instr.barInfo _ _) = _; simp (disch := decide) only [or_read, place_read, place_apart, BitVec.or_zero, BitVec.zero_or, BitVec.reduceExtractLsb']))

theorem barFree (x0 : BitVec 5) : Statement (.barFree x0) :=
  word _ (0x1C000044#32 ||| place x0 12) rfl (decode_row 0x1C000044#32 0xFFFE0FFF#32 _ 76 _
    (by simp (disch := decide) only [or_masked, place_masked, BitVec.or_zero]; rfl) (by decide +kernel)
    (by show some (Instr.barFree _) = _; simp (disch := decide) only [or_read, place_read, place_apart, BitVec.or_zero, BitVec.zero_or, BitVec.reduceExtractLsb']))

theorem cntInit (x0 : BitVec 5) (x1 : BitVec 5) (x2 : BitVec 5) : Statement (.cntInit x0 x1 x2) :=
  word _ (0x20000044#32 ||| place x0 7 ||| place x1 12 ||| place x2 17) rfl (decode_row 0x20000044#32 0xFFC0007F#32 _ 77 _
    (by simp (disch := decide) only [or_masked, place_masked, BitVec.or_zero]; rfl) (by decide +kernel)
    (by show some (Instr.cntInit _ _ _) = _; simp (disch := decide) only [or_read, place_read, place_apart, BitVec.or_zero, BitVec.zero_or, BitVec.reduceExtractLsb']))

theorem cntSig (x0 : BitVec 5) : Statement (.cntSig x0) :=
  word _ (0x24000044#32 ||| place x0 12) rfl (decode_row 0x24000044#32 0xFFFE0FFF#32 _ 78 _
    (by simp (disch := decide) only [or_masked, place_masked, BitVec.or_zero]; rfl) (by decide +kernel)
    (by show some (Instr.cntSig _) = _; simp (disch := decide) only [or_read, place_read, place_apart, BitVec.or_zero, BitVec.zero_or, BitVec.reduceExtractLsb']))

theorem cntWait (x0 : BitVec 5) (x1 : BitVec 5) : Statement (.cntWait x0 x1) :=
  word _ (0x28000044#32 ||| place x0 7 ||| place x1 12) rfl (decode_row 0x28000044#32 0xFFFE007F#32 _ 79 _
    (by simp (disch := decide) only [or_masked, place_masked, BitVec.or_zero]; rfl) (by decide +kernel)
    (by show some (Instr.cntWait _ _) = _; simp (disch := decide) only [or_read, place_read, place_apart, BitVec.or_zero, BitVec.zero_or, BitVec.reduceExtractLsb']))

theorem cntAdd (x0 : BitVec 5) (x1 : BitVec 5) (x2 : BitVec 5) : Statement (.cntAdd x0 x1 x2) :=
  word _ (0x2C000044#32 ||| place x0 7 ||| place x1 12 ||| place x2 17) rfl (decode_row 0x2C000044#32 0xFFC0007F#32 _ 80 _
    (by simp (disch := decide) only [or_masked, place_masked, BitVec.or_zero]; rfl) (by decide +kernel)
    (by show some (Instr.cntAdd _ _ _) = _; simp (disch := decide) only [or_read, place_read, place_apart, BitVec.or_zero, BitVec.zero_or, BitVec.reduceExtractLsb']))

theorem publish (x0 : BitVec 5) (x1 : BitVec 5) : Statement (.publish x0 x1) :=
  word _ (0x30000044#32 ||| place x0 7 ||| place x1 12) rfl (decode_row 0x30000044#32 0xFFFE007F#32 _ 81 _
    (by simp (disch := decide) only [or_masked, place_masked, BitVec.or_zero]; rfl) (by decide +kernel)
    (by show some (Instr.publish _ _) = _; simp (disch := decide) only [or_read, place_read, place_apart, BitVec.or_zero, BitVec.zero_or, BitVec.reduceExtractLsb']))

theorem redDecl (x0 : BitVec 5) (x1 : BitVec 5) (x2 : BitVec 5) : Statement (.redDecl x0 x1 x2) :=
  word _ (0x34000044#32 ||| place x0 7 ||| place x1 12 ||| place x2 17) rfl (decode_row 0x34000044#32 0xFFC0007F#32 _ 82 _
    (by simp (disch := decide) only [or_masked, place_masked, BitVec.or_zero]; rfl) (by decide +kernel)
    (by show some (Instr.redDecl _ _ _) = _; simp (disch := decide) only [or_read, place_read, place_apart, BitVec.or_zero, BitVec.zero_or, BitVec.reduceExtractLsb']))

theorem vld (x0 : BitVec 5) (x1 : BitVec 5) (x2 : BitVec 3) (x3 : BitVec 5) (x4 : BitVec 7) : Statement (.vld x0 x1 x2 x3 x4) :=
  word _ (0x00000046#32 ||| place x0 7 ||| place x1 12 ||| place x2 17 ||| place x3 20 ||| place x4 25) rfl (decode_row 0x00000046#32 0x0000007F#32 _ 83 _
    (by simp (disch := decide) only [or_masked, place_masked, BitVec.or_zero]; rfl) (by decide +kernel)
    (by show some (Instr.vld _ _ _ _ _) = _; simp (disch := decide) only [or_read, place_read, place_apart, BitVec.or_zero, BitVec.zero_or, BitVec.reduceExtractLsb']))

theorem vst (x0 : BitVec 5) (x1 : BitVec 5) (x2 : BitVec 3) (x3 : BitVec 5) (x4 : BitVec 7) : Statement (.vst x0 x1 x2 x3 x4) :=
  word _ (0x00000048#32 ||| place x0 7 ||| place x1 12 ||| place x2 17 ||| place x3 20 ||| place x4 25) rfl (decode_row 0x00000048#32 0x0000007F#32 _ 84 _
    (by simp (disch := decide) only [or_masked, place_masked, BitVec.or_zero]; rfl) (by decide +kernel)
    (by show some (Instr.vst _ _ _ _ _) = _; simp (disch := decide) only [or_read, place_read, place_apart, BitVec.or_zero, BitVec.zero_or, BitVec.reduceExtractLsb']))

theorem vldx (x0 : BitVec 5) (x1 : BitVec 5) (x2 : BitVec 5) (x3 : BitVec 3) (x4 : BitVec 5) (x5 : BitVec 2) : Statement (.vldx x0 x1 x2 x3 x4 x5) :=
  word _ (0x0000004A#32 ||| place x0 7 ||| place x1 12 ||| place x2 17 ||| place x3 22 ||| place x4 25 ||| place x5 30) rfl (decode_row 0x0000004A#32 0x0000007F#32 _ 85 _
    (by simp (disch := decide) only [or_masked, place_masked, BitVec.or_zero]; rfl) (by decide +kernel)
    (by show some (Instr.vldx _ _ _ _ _ _) = _; simp (disch := decide) only [or_read, place_read, place_apart, BitVec.or_zero, BitVec.zero_or, BitVec.reduceExtractLsb']))

theorem vstx (x0 : BitVec 5) (x1 : BitVec 5) (x2 : BitVec 5) (x3 : BitVec 3) (x4 : BitVec 5) (x5 : BitVec 2) : Statement (.vstx x0 x1 x2 x3 x4 x5) :=
  word _ (0x0000004C#32 ||| place x0 7 ||| place x1 12 ||| place x2 17 ||| place x3 22 ||| place x4 25 ||| place x5 30) rfl (decode_row 0x0000004C#32 0x0000007F#32 _ 86 _
    (by simp (disch := decide) only [or_masked, place_masked, BitVec.or_zero]; rfl) (by decide +kernel)
    (by show some (Instr.vstx _ _ _ _ _ _) = _; simp (disch := decide) only [or_read, place_read, place_apart, BitVec.or_zero, BitVec.zero_or, BitVec.reduceExtractLsb']))

theorem vadd (x0 : BitVec 5) (x1 : BitVec 5) (x2 : BitVec 5) (x3 : BitVec 2) (x4 : BitVec 5) (x5 : BitVec 3) : Statement (.vadd x0 x1 x2 x3 x4 x5) :=
  word _ (0x0000004E#32 ||| place x0 7 ||| place x1 12 ||| place x2 17 ||| place x3 22 ||| place x4 24 ||| place x5 29) rfl (decode_row 0x0000004E#32 0x0000007F#32 _ 87 _
    (by simp (disch := decide) only [or_masked, place_masked, BitVec.or_zero]; rfl) (by decide +kernel)
    (by show some (Instr.vadd _ _ _ _ _ _) = _; simp (disch := decide) only [or_read, place_read, place_apart, BitVec.or_zero, BitVec.zero_or, BitVec.reduceExtractLsb']))

theorem vsub (x0 : BitVec 5) (x1 : BitVec 5) (x2 : BitVec 5) (x3 : BitVec 2) (x4 : BitVec 5) (x5 : BitVec 3) : Statement (.vsub x0 x1 x2 x3 x4 x5) :=
  word _ (0x00000050#32 ||| place x0 7 ||| place x1 12 ||| place x2 17 ||| place x3 22 ||| place x4 24 ||| place x5 29) rfl (decode_row 0x00000050#32 0x0000007F#32 _ 88 _
    (by simp (disch := decide) only [or_masked, place_masked, BitVec.or_zero]; rfl) (by decide +kernel)
    (by show some (Instr.vsub _ _ _ _ _ _) = _; simp (disch := decide) only [or_read, place_read, place_apart, BitVec.or_zero, BitVec.zero_or, BitVec.reduceExtractLsb']))

theorem vmul (x0 : BitVec 5) (x1 : BitVec 5) (x2 : BitVec 5) (x3 : BitVec 2) (x4 : BitVec 5) (x5 : BitVec 3) : Statement (.vmul x0 x1 x2 x3 x4 x5) :=
  word _ (0x00000052#32 ||| place x0 7 ||| place x1 12 ||| place x2 17 ||| place x3 22 ||| place x4 24 ||| place x5 29) rfl (decode_row 0x00000052#32 0x0000007F#32 _ 89 _
    (by simp (disch := decide) only [or_masked, place_masked, BitVec.or_zero]; rfl) (by decide +kernel)
    (by show some (Instr.vmul _ _ _ _ _ _) = _; simp (disch := decide) only [or_read, place_read, place_apart, BitVec.or_zero, BitVec.zero_or, BitVec.reduceExtractLsb']))

theorem vfma (x0 : BitVec 5) (x1 : BitVec 5) (x2 : BitVec 5) (x3 : BitVec 2) (x4 : BitVec 5) (x5 : BitVec 3) : Statement (.vfma x0 x1 x2 x3 x4 x5) :=
  word _ (0x00000054#32 ||| place x0 7 ||| place x1 12 ||| place x2 17 ||| place x3 22 ||| place x4 24 ||| place x5 29) rfl (decode_row 0x00000054#32 0x0000007F#32 _ 90 _
    (by simp (disch := decide) only [or_masked, place_masked, BitVec.or_zero]; rfl) (by decide +kernel)
    (by show some (Instr.vfma _ _ _ _ _ _) = _; simp (disch := decide) only [or_read, place_read, place_apart, BitVec.or_zero, BitVec.zero_or, BitVec.reduceExtractLsb']))

theorem vfms (x0 : BitVec 5) (x1 : BitVec 5) (x2 : BitVec 5) (x3 : BitVec 2) (x4 : BitVec 5) (x5 : BitVec 3) : Statement (.vfms x0 x1 x2 x3 x4 x5) :=
  word _ (0x00000056#32 ||| place x0 7 ||| place x1 12 ||| place x2 17 ||| place x3 22 ||| place x4 24 ||| place x5 29) rfl (decode_row 0x00000056#32 0x0000007F#32 _ 91 _
    (by simp (disch := decide) only [or_masked, place_masked, BitVec.or_zero]; rfl) (by decide +kernel)
    (by show some (Instr.vfms _ _ _ _ _ _) = _; simp (disch := decide) only [or_read, place_read, place_apart, BitVec.or_zero, BitVec.zero_or, BitVec.reduceExtractLsb']))

theorem vrcp (x0 : BitVec 5) (x1 : BitVec 5) (x2 : BitVec 2) (x3 : BitVec 5) (x4 : BitVec 3) : Statement (.vrcp x0 x1 x2 x3 x4) :=
  word _ (0x00000058#32 ||| place x0 7 ||| place x1 12 ||| place x2 22 ||| place x3 24 ||| place x4 29) rfl (decode_row 0x00000058#32 0x003E007F#32 _ 92 _
    (by simp (disch := decide) only [or_masked, place_masked, BitVec.or_zero]; rfl) (by decide +kernel)
    (by show some (Instr.vrcp _ _ _ _ _) = _; simp (disch := decide) only [or_read, place_read, place_apart, BitVec.or_zero, BitVec.zero_or, BitVec.reduceExtractLsb']))

theorem vrsq (x0 : BitVec 5) (x1 : BitVec 5) (x2 : BitVec 2) (x3 : BitVec 5) (x4 : BitVec 3) : Statement (.vrsq x0 x1 x2 x3 x4) :=
  word _ (0x00020058#32 ||| place x0 7 ||| place x1 12 ||| place x2 22 ||| place x3 24 ||| place x4 29) rfl (decode_row 0x00020058#32 0x003E007F#32 _ 93 _
    (by simp (disch := decide) only [or_masked, place_masked, BitVec.or_zero]; rfl) (by decide +kernel)
    (by show some (Instr.vrsq _ _ _ _ _) = _; simp (disch := decide) only [or_read, place_read, place_apart, BitVec.or_zero, BitVec.zero_or, BitVec.reduceExtractLsb']))

theorem vexp2 (x0 : BitVec 5) (x1 : BitVec 5) (x2 : BitVec 2) (x3 : BitVec 5) (x4 : BitVec 3) : Statement (.vexp2 x0 x1 x2 x3 x4) :=
  word _ (0x00040058#32 ||| place x0 7 ||| place x1 12 ||| place x2 22 ||| place x3 24 ||| place x4 29) rfl (decode_row 0x00040058#32 0x003E007F#32 _ 94 _
    (by simp (disch := decide) only [or_masked, place_masked, BitVec.or_zero]; rfl) (by decide +kernel)
    (by show some (Instr.vexp2 _ _ _ _ _) = _; simp (disch := decide) only [or_read, place_read, place_apart, BitVec.or_zero, BitVec.zero_or, BitVec.reduceExtractLsb']))

theorem vlog2 (x0 : BitVec 5) (x1 : BitVec 5) (x2 : BitVec 2) (x3 : BitVec 5) (x4 : BitVec 3) : Statement (.vlog2 x0 x1 x2 x3 x4) :=
  word _ (0x00060058#32 ||| place x0 7 ||| place x1 12 ||| place x2 22 ||| place x3 24 ||| place x4 29) rfl (decode_row 0x00060058#32 0x003E007F#32 _ 95 _
    (by simp (disch := decide) only [or_masked, place_masked, BitVec.or_zero]; rfl) (by decide +kernel)
    (by show some (Instr.vlog2 _ _ _ _ _) = _; simp (disch := decide) only [or_read, place_read, place_apart, BitVec.or_zero, BitVec.zero_or, BitVec.reduceExtractLsb']))

theorem vabs (x0 : BitVec 5) (x1 : BitVec 5) (x2 : BitVec 2) (x3 : BitVec 5) (x4 : BitVec 3) : Statement (.vabs x0 x1 x2 x3 x4) :=
  word _ (0x00080058#32 ||| place x0 7 ||| place x1 12 ||| place x2 22 ||| place x3 24 ||| place x4 29) rfl (decode_row 0x00080058#32 0x003E007F#32 _ 96 _
    (by simp (disch := decide) only [or_masked, place_masked, BitVec.or_zero]; rfl) (by decide +kernel)
    (by show some (Instr.vabs _ _ _ _ _) = _; simp (disch := decide) only [or_read, place_read, place_apart, BitVec.or_zero, BitVec.zero_or, BitVec.reduceExtractLsb']))

theorem vneg (x0 : BitVec 5) (x1 : BitVec 5) (x2 : BitVec 2) (x3 : BitVec 5) (x4 : BitVec 3) : Statement (.vneg x0 x1 x2 x3 x4) :=
  word _ (0x000A0058#32 ||| place x0 7 ||| place x1 12 ||| place x2 22 ||| place x3 24 ||| place x4 29) rfl (decode_row 0x000A0058#32 0x003E007F#32 _ 97 _
    (by simp (disch := decide) only [or_masked, place_masked, BitVec.or_zero]; rfl) (by decide +kernel)
    (by show some (Instr.vneg _ _ _ _ _) = _; simp (disch := decide) only [or_read, place_read, place_apart, BitVec.or_zero, BitVec.zero_or, BitVec.reduceExtractLsb']))

theorem vcvt (x0 : BitVec 5) (x1 : BitVec 5) (x2 : BitVec 5) (x3 : BitVec 2) (x4 : BitVec 5) (x5 : BitVec 3) : Statement (.vcvt x0 x1 x2 x3 x4 x5) :=
  word _ (0x0000005A#32 ||| place x0 7 ||| place x1 12 ||| place x2 17 ||| place x3 22 ||| place x4 24 ||| place x5 29) rfl (decode_row 0x0000005A#32 0x0000007F#32 _ 98 _
    (by simp (disch := decide) only [or_masked, place_masked, BitVec.or_zero]; rfl) (by decide +kernel)
    (by show some (Instr.vcvt _ _ _ _ _ _) = _; simp (disch := decide) only [or_read, place_read, place_apart, BitVec.or_zero, BitVec.zero_or, BitVec.reduceExtractLsb']))

theorem vred (x0 : BitVec 5) (x1 : BitVec 5) (x2 : BitVec 4) (x3 : BitVec 2) (x4 : BitVec 5) (x5 : BitVec 3) : Statement (.vred x0 x1 x2 x3 x4 x5) :=
  word _ (0x0000005C#32 ||| place x0 7 ||| place x1 12 ||| place x2 17 ||| place x3 22 ||| place x4 24 ||| place x5 29) rfl (decode_row 0x0000005C#32 0x0020007F#32 _ 99 _
    (by simp (disch := decide) only [or_masked, place_masked, BitVec.or_zero]; rfl) (by decide +kernel)
    (by show some (Instr.vred _ _ _ _ _ _) = _; simp (disch := decide) only [or_read, place_read, place_apart, BitVec.or_zero, BitVec.zero_or, BitVec.reduceExtractLsb']))

theorem vscan (x0 : BitVec 5) (x1 : BitVec 5) (x2 : BitVec 4) (x3 : BitVec 2) (x4 : BitVec 5) (x5 : BitVec 3) : Statement (.vscan x0 x1 x2 x3 x4 x5) :=
  word _ (0x0020005C#32 ||| place x0 7 ||| place x1 12 ||| place x2 17 ||| place x3 22 ||| place x4 24 ||| place x5 29) rfl (decode_row 0x0020005C#32 0x0020007F#32 _ 100 _
    (by simp (disch := decide) only [or_masked, place_masked, BitVec.or_zero]; rfl) (by decide +kernel)
    (by show some (Instr.vscan _ _ _ _ _ _) = _; simp (disch := decide) only [or_read, place_read, place_apart, BitVec.or_zero, BitVec.zero_or, BitVec.reduceExtractLsb']))

theorem vdot (x0 : BitVec 5) (x1 : BitVec 5) (x2 : BitVec 5) (x3 : BitVec 2) (x4 : BitVec 5) (x5 : BitVec 3) : Statement (.vdot x0 x1 x2 x3 x4 x5) :=
  word _ (0x0000005E#32 ||| place x0 7 ||| place x1 12 ||| place x2 17 ||| place x3 22 ||| place x4 24 ||| place x5 29) rfl (decode_row 0x0000005E#32 0x0000007F#32 _ 101 _
    (by simp (disch := decide) only [or_masked, place_masked, BitVec.or_zero]; rfl) (by decide +kernel)
    (by show some (Instr.vdot _ _ _ _ _ _) = _; simp (disch := decide) only [or_read, place_read, place_apart, BitVec.or_zero, BitVec.zero_or, BitVec.reduceExtractLsb']))

theorem vmin (x0 : BitVec 5) (x1 : BitVec 5) (x2 : BitVec 5) (x3 : BitVec 3) (x4 : BitVec 5) : Statement (.vmin x0 x1 x2 x3 x4) :=
  word _ (0x00000060#32 ||| place x0 7 ||| place x1 12 ||| place x2 17 ||| place x3 22 ||| place x4 25) rfl (decode_row 0x00000060#32 0xC000007F#32 _ 102 _
    (by simp (disch := decide) only [or_masked, place_masked, BitVec.or_zero]; rfl) (by decide +kernel)
    (by show some (Instr.vmin _ _ _ _ _) = _; simp (disch := decide) only [or_read, place_read, place_apart, BitVec.or_zero, BitVec.zero_or, BitVec.reduceExtractLsb']))

theorem vmax (x0 : BitVec 5) (x1 : BitVec 5) (x2 : BitVec 5) (x3 : BitVec 3) (x4 : BitVec 5) : Statement (.vmax x0 x1 x2 x3 x4) :=
  word _ (0x40000060#32 ||| place x0 7 ||| place x1 12 ||| place x2 17 ||| place x3 22 ||| place x4 25) rfl (decode_row 0x40000060#32 0xC000007F#32 _ 103 _
    (by simp (disch := decide) only [or_masked, place_masked, BitVec.or_zero]; rfl) (by decide +kernel)
    (by show some (Instr.vmax _ _ _ _ _) = _; simp (disch := decide) only [or_read, place_read, place_apart, BitVec.or_zero, BitVec.zero_or, BitVec.reduceExtractLsb']))

theorem vand (x0 : BitVec 5) (x1 : BitVec 5) (x2 : BitVec 5) (x3 : BitVec 3) (x4 : BitVec 5) : Statement (.vand x0 x1 x2 x3 x4) :=
  word _ (0x00000062#32 ||| place x0 7 ||| place x1 12 ||| place x2 17 ||| place x3 22 ||| place x4 25) rfl (decode_row 0x00000062#32 0xC000007F#32 _ 104 _
    (by simp (disch := decide) only [or_masked, place_masked, BitVec.or_zero]; rfl) (by decide +kernel)
    (by show some (Instr.vand _ _ _ _ _) = _; simp (disch := decide) only [or_read, place_read, place_apart, BitVec.or_zero, BitVec.zero_or, BitVec.reduceExtractLsb']))

theorem vor (x0 : BitVec 5) (x1 : BitVec 5) (x2 : BitVec 5) (x3 : BitVec 3) (x4 : BitVec 5) : Statement (.vor x0 x1 x2 x3 x4) :=
  word _ (0x40000062#32 ||| place x0 7 ||| place x1 12 ||| place x2 17 ||| place x3 22 ||| place x4 25) rfl (decode_row 0x40000062#32 0xC000007F#32 _ 105 _
    (by simp (disch := decide) only [or_masked, place_masked, BitVec.or_zero]; rfl) (by decide +kernel)
    (by show some (Instr.vor _ _ _ _ _) = _; simp (disch := decide) only [or_read, place_read, place_apart, BitVec.or_zero, BitVec.zero_or, BitVec.reduceExtractLsb']))

theorem vxor (x0 : BitVec 5) (x1 : BitVec 5) (x2 : BitVec 5) (x3 : BitVec 3) (x4 : BitVec 5) : Statement (.vxor x0 x1 x2 x3 x4) :=
  word _ (0x80000062#32 ||| place x0 7 ||| place x1 12 ||| place x2 17 ||| place x3 22 ||| place x4 25) rfl (decode_row 0x80000062#32 0xC000007F#32 _ 106 _
    (by simp (disch := decide) only [or_masked, place_masked, BitVec.or_zero]; rfl) (by decide +kernel)
    (by show some (Instr.vxor _ _ _ _ _) = _; simp (disch := decide) only [or_read, place_read, place_apart, BitVec.or_zero, BitVec.zero_or, BitVec.reduceExtractLsb']))

theorem vshl (x0 : BitVec 5) (x1 : BitVec 5) (x2 : BitVec 5) (x3 : BitVec 3) (x4 : BitVec 5) : Statement (.vshl x0 x1 x2 x3 x4) :=
  word _ (0x00000064#32 ||| place x0 7 ||| place x1 12 ||| place x2 17 ||| place x3 22 ||| place x4 25) rfl (decode_row 0x00000064#32 0xC000007F#32 _ 107 _
    (by simp (disch := decide) only [or_masked, place_masked, BitVec.or_zero]; rfl) (by decide +kernel)
    (by show some (Instr.vshl _ _ _ _ _) = _; simp (disch := decide) only [or_read, place_read, place_apart, BitVec.or_zero, BitVec.zero_or, BitVec.reduceExtractLsb']))

theorem vshr (x0 : BitVec 5) (x1 : BitVec 5) (x2 : BitVec 5) (x3 : BitVec 3) (x4 : BitVec 5) : Statement (.vshr x0 x1 x2 x3 x4) :=
  word _ (0x40000064#32 ||| place x0 7 ||| place x1 12 ||| place x2 17 ||| place x3 22 ||| place x4 25) rfl (decode_row 0x40000064#32 0xC000007F#32 _ 108 _
    (by simp (disch := decide) only [or_masked, place_masked, BitVec.or_zero]; rfl) (by decide +kernel)
    (by show some (Instr.vshr _ _ _ _ _) = _; simp (disch := decide) only [or_read, place_read, place_apart, BitVec.or_zero, BitVec.zero_or, BitVec.reduceExtractLsb']))

theorem vsha (x0 : BitVec 5) (x1 : BitVec 5) (x2 : BitVec 5) (x3 : BitVec 3) (x4 : BitVec 5) : Statement (.vsha x0 x1 x2 x3 x4) :=
  word _ (0x80000064#32 ||| place x0 7 ||| place x1 12 ||| place x2 17 ||| place x3 22 ||| place x4 25) rfl (decode_row 0x80000064#32 0xC000007F#32 _ 109 _
    (by simp (disch := decide) only [or_masked, place_masked, BitVec.or_zero]; rfl) (by decide +kernel)
    (by show some (Instr.vsha _ _ _ _ _) = _; simp (disch := decide) only [or_read, place_read, place_apart, BitVec.or_zero, BitVec.zero_or, BitVec.reduceExtractLsb']))

theorem vcmp (x0 : BitVec 3) (x1 : BitVec 2) (x2 : BitVec 5) (x3 : BitVec 5) (x4 : BitVec 3) (x5 : BitVec 5) (x6 : BitVec 2) : Statement (.vcmp x0 x1 x2 x3 x4 x5 x6) :=
  word _ (0x00000066#32 ||| place x0 7 ||| place x1 10 ||| place x2 12 ||| place x3 17 ||| place x4 22 ||| place x5 25 ||| place x6 30) rfl (decode_row 0x00000066#32 0x0000007F#32 _ 110 _
    (by simp (disch := decide) only [or_masked, place_masked, BitVec.or_zero]; rfl) (by decide +kernel)
    (by show some (Instr.vcmp _ _ _ _ _ _ _) = _; simp (disch := decide) only [or_read, place_read, place_apart, BitVec.or_zero, BitVec.zero_or, BitVec.reduceExtractLsb']))

theorem vsel (x0 : BitVec 5) (x1 : BitVec 5) (x2 : BitVec 5) (x3 : BitVec 3) (x4 : BitVec 5) : Statement (.vsel x0 x1 x2 x3 x4) :=
  word _ (0x00000068#32 ||| place x0 7 ||| place x1 12 ||| place x2 17 ||| place x3 22 ||| place x4 25) rfl (decode_row 0x00000068#32 0xC000007F#32 _ 111 _
    (by simp (disch := decide) only [or_masked, place_masked, BitVec.or_zero]; rfl) (by decide +kernel)
    (by show some (Instr.vsel _ _ _ _ _) = _; simp (disch := decide) only [or_read, place_read, place_apart, BitVec.or_zero, BitVec.zero_or, BitVec.reduceExtractLsb']))

theorem vperm (x0 : BitVec 5) (x1 : BitVec 5) (x2 : BitVec 5) (x3 : BitVec 3) (x4 : BitVec 5) : Statement (.vperm x0 x1 x2 x3 x4) :=
  word _ (0x40000068#32 ||| place x0 7 ||| place x1 12 ||| place x2 17 ||| place x3 22 ||| place x4 25) rfl (decode_row 0x40000068#32 0xC000007F#32 _ 112 _
    (by simp (disch := decide) only [or_masked, place_masked, BitVec.or_zero]; rfl) (by decide +kernel)
    (by show some (Instr.vperm _ _ _ _ _) = _; simp (disch := decide) only [or_read, place_read, place_apart, BitVec.or_zero, BitVec.zero_or, BitVec.reduceExtractLsb']))

theorem vpack (x0 : BitVec 5) (x1 : BitVec 5) (x2 : BitVec 5) (x3 : BitVec 5) : Statement (.vpack x0 x1 x2 x3) :=
  word _ (0x80000068#32 ||| place x0 7 ||| place x1 12 ||| place x2 17 ||| place x3 25) rfl (decode_row 0x80000068#32 0xC1C0007F#32 _ 113 _
    (by simp (disch := decide) only [or_masked, place_masked, BitVec.or_zero]; rfl) (by decide +kernel)
    (by show some (Instr.vpack _ _ _ _) = _; simp (disch := decide) only [or_read, place_read, place_apart, BitVec.or_zero, BitVec.zero_or, BitVec.reduceExtractLsb']))

theorem vunpk (x0 : BitVec 5) (x1 : BitVec 5) (x2 : BitVec 5) (x3 : BitVec 5) : Statement (.vunpk x0 x1 x2 x3) :=
  word _ (0xC0000068#32 ||| place x0 7 ||| place x1 12 ||| place x2 17 ||| place x3 25) rfl (decode_row 0xC0000068#32 0xC1C0007F#32 _ 114 _
    (by simp (disch := decide) only [or_masked, place_masked, BitVec.or_zero]; rfl) (by decide +kernel)
    (by show some (Instr.vunpk _ _ _ _) = _; simp (disch := decide) only [or_read, place_read, place_apart, BitVec.or_zero, BitVec.zero_or, BitVec.reduceExtractLsb']))

theorem vbcast (x0 : BitVec 5) (x1 : BitVec 5) (x2 : BitVec 3) (x3 : BitVec 5) : Statement (.vbcast x0 x1 x2 x3) :=
  word _ (0x0000006A#32 ||| place x0 7 ||| place x1 12 ||| place x2 22 ||| place x3 25) rfl (decode_row 0x0000006A#32 0xC03E007F#32 _ 115 _
    (by simp (disch := decide) only [or_masked, place_masked, BitVec.or_zero]; rfl) (by decide +kernel)
    (by show some (Instr.vbcast _ _ _ _) = _; simp (disch := decide) only [or_read, place_read, place_apart, BitVec.or_zero, BitVec.zero_or, BitVec.reduceExtractLsb']))

theorem vmovg (x0 : BitVec 5) (x1 : BitVec 5) (x2 : BitVec 5) (x3 : BitVec 5) : Statement (.vmovg x0 x1 x2 x3) :=
  word _ (0x4000006A#32 ||| place x0 7 ||| place x1 12 ||| place x2 17 ||| place x3 25) rfl (decode_row 0x4000006A#32 0xC1C0007F#32 _ 116 _
    (by simp (disch := decide) only [or_masked, place_masked, BitVec.or_zero]; rfl) (by decide +kernel)
    (by show some (Instr.vmovg _ _ _ _) = _; simp (disch := decide) only [or_read, place_read, place_apart, BitVec.or_zero, BitVec.zero_or, BitVec.reduceExtractLsb']))

theorem vlut (x0 : BitVec 5) (x1 : BitVec 5) (x2 : BitVec 5) : Statement (.vlut x0 x1 x2) :=
  word _ (0x9E00006A#32 ||| place x0 7 ||| place x1 12 ||| place x2 17) rfl (decode_row 0x9E00006A#32 0xFFC0007F#32 _ 117 _
    (by simp (disch := decide) only [or_masked, place_masked, BitVec.or_zero]; rfl) (by decide +kernel)
    (by show some (Instr.vlut _ _ _) = _; simp (disch := decide) only [or_read, place_read, place_apart, BitVec.or_zero, BitVec.zero_or, BitVec.reduceExtractLsb']))

theorem vlutset (x0 : BitVec 5) : Statement (.vlutset x0) :=
  word _ (0xC000006A#32 ||| place x0 12) rfl (decode_row 0xC000006A#32 0xFFFE0FFF#32 _ 118 _
    (by simp (disch := decide) only [or_masked, place_masked, BitVec.or_zero]; rfl) (by decide +kernel)
    (by show some (Instr.vlutset _) = _; simp (disch := decide) only [or_read, place_read, place_apart, BitVec.or_zero, BitVec.zero_or, BitVec.reduceExtractLsb']))

theorem pand (x0 : BitVec 5) (x1 : BitVec 5) (x2 : BitVec 5) : Statement (.pand x0 x1 x2) :=
  word _ (0x0000006C#32 ||| place x0 7 ||| place x1 12 ||| place x2 17) rfl (decode_row 0x0000006C#32 0xFFC0007F#32 _ 119 _
    (by simp (disch := decide) only [or_masked, place_masked, BitVec.or_zero]; rfl) (by decide +kernel)
    (by show some (Instr.pand _ _ _) = _; simp (disch := decide) only [or_read, place_read, place_apart, BitVec.or_zero, BitVec.zero_or, BitVec.reduceExtractLsb']))

theorem por (x0 : BitVec 5) (x1 : BitVec 5) (x2 : BitVec 5) : Statement (.por x0 x1 x2) :=
  word _ (0x0400006C#32 ||| place x0 7 ||| place x1 12 ||| place x2 17) rfl (decode_row 0x0400006C#32 0xFFC0007F#32 _ 120 _
    (by simp (disch := decide) only [or_masked, place_masked, BitVec.or_zero]; rfl) (by decide +kernel)
    (by show some (Instr.por _ _ _) = _; simp (disch := decide) only [or_read, place_read, place_apart, BitVec.or_zero, BitVec.zero_or, BitVec.reduceExtractLsb']))

theorem pxor (x0 : BitVec 5) (x1 : BitVec 5) (x2 : BitVec 5) : Statement (.pxor x0 x1 x2) :=
  word _ (0x0800006C#32 ||| place x0 7 ||| place x1 12 ||| place x2 17) rfl (decode_row 0x0800006C#32 0xFFC0007F#32 _ 121 _
    (by simp (disch := decide) only [or_masked, place_masked, BitVec.or_zero]; rfl) (by decide +kernel)
    (by show some (Instr.pxor _ _ _) = _; simp (disch := decide) only [or_read, place_read, place_apart, BitVec.or_zero, BitVec.zero_or, BitVec.reduceExtractLsb']))

theorem pnot (x0 : BitVec 5) (x1 : BitVec 5) : Statement (.pnot x0 x1) :=
  word _ (0x0C00006C#32 ||| place x0 7 ||| place x1 12) rfl (decode_row 0x0C00006C#32 0xFFFE007F#32 _ 122 _
    (by simp (disch := decide) only [or_masked, place_masked, BitVec.or_zero]; rfl) (by decide +kernel)
    (by show some (Instr.pnot _ _) = _; simp (disch := decide) only [or_read, place_read, place_apart, BitVec.or_zero, BitVec.zero_or, BitVec.reduceExtractLsb']))

theorem ppop (x0 : BitVec 5) (x1 : BitVec 5) : Statement (.ppop x0 x1) :=
  word _ (0x1000006C#32 ||| place x0 7 ||| place x1 12) rfl (decode_row 0x1000006C#32 0xFFFE007F#32 _ 123 _
    (by simp (disch := decide) only [or_masked, place_masked, BitVec.or_zero]; rfl) (by decide +kernel)
    (by show some (Instr.ppop _ _) = _; simp (disch := decide) only [or_read, place_read, place_apart, BitVec.or_zero, BitVec.zero_or, BitVec.reduceExtractLsb']))

theorem ewait (x0 : BitVec 5) (x1 : BitVec 5) : Statement (.ewait x0 x1) :=
  word _ (0x0000006E#32 ||| place x0 7 ||| place x1 12) rfl (decode_row 0x0000006E#32 0xFFFE007F#32 _ 124 _
    (by simp (disch := decide) only [or_masked, place_masked, BitVec.or_zero]; rfl) (by decide +kernel)
    (by show some (Instr.ewait _ _) = _; simp (disch := decide) only [or_read, place_read, place_apart, BitVec.or_zero, BitVec.zero_or, BitVec.reduceExtractLsb']))

theorem qcfg (x0 : BitVec 5) (x1 : BitVec 5) (x2 : BitVec 4) : Statement (.qcfg x0 x1 x2) :=
  word _ (0x0400006E#32 ||| place x0 7 ||| place x1 12 ||| place x2 22) rfl (decode_row 0x0400006E#32 0xFC3E007F#32 _ 125 _
    (by simp (disch := decide) only [or_masked, place_masked, BitVec.or_zero]; rfl) (by decide +kernel)
    (by show some (Instr.qcfg _ _ _) = _; simp (disch := decide) only [or_read, place_read, place_apart, BitVec.or_zero, BitVec.zero_or, BitVec.reduceExtractLsb']))

theorem qput (x0 : BitVec 5) (x1 : BitVec 5) (x2 : BitVec 4) : Statement (.qput x0 x1 x2) :=
  word _ (0x0800006E#32 ||| place x0 7 ||| place x1 17 ||| place x2 22) rfl (decode_row 0x0800006E#32 0xFC01F07F#32 _ 126 _
    (by simp (disch := decide) only [or_masked, place_masked, BitVec.or_zero]; rfl) (by decide +kernel)
    (by show some (Instr.qput _ _ _) = _; simp (disch := decide) only [or_read, place_read, place_apart, BitVec.or_zero, BitVec.zero_or, BitVec.reduceExtractLsb']))

theorem qpop (x0 : BitVec 5) (x1 : BitVec 5) (x2 : BitVec 4) : Statement (.qpop x0 x1 x2) :=
  word _ (0x0C00006E#32 ||| place x0 7 ||| place x1 17 ||| place x2 22) rfl (decode_row 0x0C00006E#32 0xFC01F07F#32 _ 127 _
    (by simp (disch := decide) only [or_masked, place_masked, BitVec.or_zero]; rfl) (by decide +kernel)
    (by show some (Instr.qpop _ _ _) = _; simp (disch := decide) only [or_read, place_read, place_apart, BitVec.or_zero, BitVec.zero_or, BitVec.reduceExtractLsb']))

theorem qwait (x0 : BitVec 5) (x1 : BitVec 5) (x2 : BitVec 4) : Statement (.qwait x0 x1 x2) :=
  word _ (0x1000006E#32 ||| place x0 7 ||| place x1 17 ||| place x2 22) rfl (decode_row 0x1000006E#32 0xFC01F07F#32 _ 128 _
    (by simp (disch := decide) only [or_masked, place_masked, BitVec.or_zero]; rfl) (by decide +kernel)
    (by show some (Instr.qwait _ _ _) = _; simp (disch := decide) only [or_read, place_read, place_apart, BitVec.or_zero, BitVec.zero_or, BitVec.reduceExtractLsb']))

theorem qstat (x0 : BitVec 5) (x1 : BitVec 4) : Statement (.qstat x0 x1) :=
  word _ (0x1400006E#32 ||| place x0 7 ||| place x1 22) rfl (decode_row 0x1400006E#32 0xFC3FF07F#32 _ 129 _
    (by simp (disch := decide) only [or_masked, place_masked, BitVec.or_zero]; rfl) (by decide +kernel)
    (by show some (Instr.qstat _ _) = _; simp (disch := decide) only [or_read, place_read, place_apart, BitVec.or_zero, BitVec.zero_or, BitVec.reduceExtractLsb']))

theorem skrd (x0 : BitVec 5) (x1 : BitVec 5) : Statement (.skrd x0 x1) :=
  word _ (0x1800006E#32 ||| place x0 7 ||| place x1 12) rfl (decode_row 0x1800006E#32 0xFFFE007F#32 _ 130 _
    (by simp (disch := decide) only [or_masked, place_masked, BitVec.or_zero]; rfl) (by decide +kernel)
    (by show some (Instr.skrd _ _) = _; simp (disch := decide) only [or_read, place_read, place_apart, BitVec.or_zero, BitVec.zero_or, BitVec.reduceExtractLsb']))

theorem skwr (x0 : BitVec 5) (x1 : BitVec 5) : Statement (.skwr x0 x1) :=
  word _ (0x1C00006E#32 ||| place x0 12 ||| place x1 17) rfl (decode_row 0x1C00006E#32 0xFFC00FFF#32 _ 131 _
    (by simp (disch := decide) only [or_masked, place_masked, BitVec.or_zero]; rfl) (by decide +kernel)
    (by show some (Instr.skwr _ _) = _; simp (disch := decide) only [or_read, place_read, place_apart, BitVec.or_zero, BitVec.zero_or, BitVec.reduceExtractLsb']))

theorem srw (x0 : BitVec 5) (x1 : BitVec 5) (x2 : BitVec 3) : Statement (.srw x0 x1 x2) :=
  word _ (0x2000006E#32 ||| place x0 7 ||| place x1 12 ||| place x2 22) rfl (decode_row 0x2000006E#32 0xFE3E007F#32 _ 132 _
    (by simp (disch := decide) only [or_masked, place_masked, BitVec.or_zero]; rfl) (by decide +kernel)
    (by show some (Instr.srw _ _ _) = _; simp (disch := decide) only [or_read, place_read, place_apart, BitVec.or_zero, BitVec.zero_or, BitVec.reduceExtractLsb']))

theorem engineQueueEntry (x0 : BitVec 25) (x1 x2 x3 x4 x5 x6 x7 : BitVec 32) : Statement (.engineQueueEntry x0 x1 x2 x3 x4 x5 x6 x7) := by
  intro _ bs hb
  cases hb
  have h0 : ∀ j, j < 7 → (Machine.cmdHeader x0).getLsbD j = (0x7E : BitVec 7).getLsbD j := by
    intro j hj
    simp only [Machine.cmdHeader, BitVec.getLsbD_append, hj, if_true]
  have hl : lengthOf (parcelOf ((Machine.cmdHeader x0).extractLsb' 0 8) ((Machine.cmdHeader x0).extractLsb' 8 8)) = 32 := by
    have a0 : (parcelOf ((Machine.cmdHeader x0).extractLsb' 0 8) ((Machine.cmdHeader x0).extractLsb' 8 8)).getLsbD 0 = false := by
      have := congrArg (fun x => x.getLsbD 0) (parcel_low (Machine.cmdHeader x0) 1 0 (by omega))
      simp only [BitVec.getLsbD_extractLsb', h0 0 (by omega)] at this
      exact this
    have a1 : (parcelOf ((Machine.cmdHeader x0).extractLsb' 0 8) ((Machine.cmdHeader x0).extractLsb' 8 8)).extractLsb' 1 6 = 0x3F#6 := by
      rw [parcel_low _ _ _ (by omega)]
      apply BitVec.eq_of_getLsbD_eq
      intro j hj
      rw [BitVec.getLsbD_extractLsb', h0 (1 + j) (by omega)]
      have : j = 0 ∨ j = 1 ∨ j = 2 ∨ j = 3 ∨ j = 4 ∨ j = 5 := by omega
      rcases this with rfl | rfl | rfl | rfl | rfl | rfl <;> rfl
    unfold lengthOf
    rw [a0, a1]; rfl
  have hh : (Machine.cmdHeader x0).extractLsb' 7 25 = x0 := by
    apply BitVec.eq_of_getLsbD_eq
    intro j hj
    have a : ¬ 7 + j < 7 := by omega
    simp only [Machine.cmdHeader, BitVec.getLsbD_append, BitVec.getLsbD_extractLsb', hj, a, decide_true, Bool.true_and, if_false]
    congr 1; omega
  simp only [List.flatMap_cons, List.flatMap_nil, bytesOfWord, List.cons_append, List.nil_append, decode, hl,
    wordsOf, word_bytes, hh, List.length_cons, List.length_nil]
theorem mma (x0 : BitVec 12) : Statement (.mma x0) := none' _ rfl

theorem bfly (x0 : BitVec 12) : Statement (.bfly x0) := none' _ rfl

theorem bflyc (x0 : BitVec 12) : Statement (.bflyc x0) := none' _ rfl

theorem scan (x0 : BitVec 12) : Statement (.scan x0) := none' _ rfl

theorem tsig (x0 : BitVec 12) : Statement (.tsig x0) := none' _ rfl

theorem tskip (x0 : BitVec 12) : Statement (.tskip x0) := none' _ rfl

theorem tld (x0 : BitVec 12) : Statement (.tld x0) := none' _ rfl

theorem tst (x0 : BitVec 12) : Statement (.tst x0) := none' _ rfl

theorem tzero (x0 : BitVec 12) : Statement (.tzero x0) := none' _ rfl

theorem tcvt (x0 : BitVec 12) : Statement (.tcvt x0) := none' _ rfl

theorem ecfgClr (x0 : BitVec 12) : Statement (.ecfgClr x0) := none' _ rfl

theorem ecfgSet (x0 : BitVec 12) : Statement (.ecfgSet x0) := none' _ rfl

theorem ecfgLd (x0 : BitVec 12) : Statement (.ecfgLd x0) := none' _ rfl

theorem ecfgSt (x0 : BitVec 12) : Statement (.ecfgSt x0) := none' _ rfl

theorem cpy (x0 : BitVec 12) : Statement (.cpy x0) := none' _ rfl

theorem gth (x0 : BitVec 12) : Statement (.gth x0) := none' _ rfl

theorem sct (x0 : BitVec 12) : Statement (.sct x0) := none' _ rfl

theorem coll (x0 : BitVec 12) : Statement (.coll x0) := none' _ rfl

theorem engineStallTimeout (x0 : BitVec 12) (x1 : Bool) : Statement (.engineStallTimeout x0 x1) := none' _ rfl

theorem msg (x0 : BitVec 5) (x1 : BitVec 5) (x2 : BitVec 5) (x3 : BitVec 2) : Statement (.msg x0 x1 x2 x3) :=
  word _ (0x00000070#32 ||| place x0 7 ||| place x1 12 ||| place x2 17 ||| place x3 22) rfl (decode_row 0x00000070#32 0xFF00007F#32 _ 133 _
    (by simp (disch := decide) only [or_masked, place_masked, BitVec.or_zero]; rfl) (by decide +kernel)
    (by show some (Instr.msg _ _ _ _) = _; simp (disch := decide) only [or_read, place_read, place_apart, BitVec.or_zero, BitVec.zero_or, BitVec.reduceExtractLsb']))

theorem msgh (x0 : BitVec 5) (x1 : BitVec 5) (x2 : BitVec 5) (x3 : BitVec 2) : Statement (.msgh x0 x1 x2 x3) :=
  word _ (0x04000070#32 ||| place x0 7 ||| place x1 12 ||| place x2 17 ||| place x3 22) rfl (decode_row 0x04000070#32 0xFF00007F#32 _ 134 _
    (by simp (disch := decide) only [or_masked, place_masked, BitVec.or_zero]; rfl) (by decide +kernel)
    (by show some (Instr.msgh _ _ _ _) = _; simp (disch := decide) only [or_read, place_read, place_apart, BitVec.or_zero, BitVec.zero_or, BitVec.reduceExtractLsb']))

theorem messageDelivery (x0 : BitVec 12) : Statement (.messageDelivery x0) := none' _ rfl

theorem cntBind (x0 : BitVec 5) (x1 : BitVec 5) (x2 : BitVec 5) : Statement (.cntBind x0 x1 x2) :=
  word _ (0x08000070#32 ||| place x0 7 ||| place x1 12 ||| place x2 17) rfl (decode_row 0x08000070#32 0xFFC0007F#32 _ 135 _
    (by simp (disch := decide) only [or_masked, place_masked, BitVec.or_zero]; rfl) (by decide +kernel)
    (by show some (Instr.cntBind _ _ _) = _; simp (disch := decide) only [or_read, place_read, place_apart, BitVec.or_zero, BitVec.zero_or, BitVec.reduceExtractLsb']))

theorem boundTaskReady (x0 : Nat) : Statement (.boundTaskReady x0) := none' _ rfl

theorem spawn (x0 : BitVec 5) (x1 : BitVec 5) : Statement (.spawn x0 x1) :=
  word _ (0x0C000070#32 ||| place x0 7 ||| place x1 12) rfl (decode_row 0x0C000070#32 0xFFFE007F#32 _ 136 _
    (by simp (disch := decide) only [or_masked, place_masked, BitVec.or_zero]; rfl) (by decide +kernel)
    (by show some (Instr.spawn _ _) = _; simp (disch := decide) only [or_read, place_read, place_apart, BitVec.or_zero, BitVec.zero_or, BitVec.reduceExtractLsb']))

theorem tself (x0 : BitVec 5) : Statement (.tself x0) :=
  word _ (0x14000070#32 ||| place x0 7) rfl (decode_row 0x14000070#32 0xFFFFF07F#32 _ 138 _
    (by simp (disch := decide) only [or_masked, place_masked, BitVec.or_zero]; rfl) (by decide +kernel)
    (by show some (Instr.tself _) = _; simp (disch := decide) only [or_read, place_read, place_apart, BitVec.or_zero, BitVec.zero_or, BitVec.reduceExtractLsb']))

theorem nput (x0 : BitVec 5) (x1 : BitVec 2) : Statement (.nput x0 x1) :=
  word _ (0x18000070#32 ||| place x0 12 ||| place x1 22) rfl (decode_row 0x18000070#32 0xFF3E0FFF#32 _ 139 _
    (by simp (disch := decide) only [or_masked, place_masked, BitVec.or_zero]; rfl) (by decide +kernel)
    (by show some (Instr.nput _ _) = _; simp (disch := decide) only [or_read, place_read, place_apart, BitVec.or_zero, BitVec.zero_or, BitVec.reduceExtractLsb']))

theorem mailboxEntryArrival (x0 : Nat) : Statement (.mailboxEntryArrival x0) := none' _ rfl

theorem nget (x0 : BitVec 5) (x1 : BitVec 2) : Statement (.nget x0 x1) :=
  word _ (0x1C000070#32 ||| place x0 7 ||| place x1 22) rfl (decode_row 0x1C000070#32 0xFF3FF07F#32 _ 140 _
    (by simp (disch := decide) only [or_masked, place_masked, BitVec.or_zero]; rfl) (by decide +kernel)
    (by show some (Instr.nget _ _) = _; simp (disch := decide) only [or_read, place_read, place_apart, BitVec.or_zero, BitVec.zero_or, BitVec.reduceExtractLsb']))

theorem npeek (x0 : BitVec 5) (x1 : BitVec 2) : Statement (.npeek x0 x1) :=
  word _ (0x20000070#32 ||| place x0 7 ||| place x1 22) rfl (decode_row 0x20000070#32 0xFF3FF07F#32 _ 141 _
    (by simp (disch := decide) only [or_masked, place_masked, BitVec.or_zero]; rfl) (by decide +kernel)
    (by show some (Instr.npeek _ _) = _; simp (disch := decide) only [or_read, place_read, place_apart, BitVec.or_zero, BitVec.zero_or, BitVec.reduceExtractLsb']))

theorem ncfg (x0 : BitVec 5) (x1 : BitVec 5) : Statement (.ncfg x0 x1) :=
  word _ (0x24000070#32 ||| place x0 7 ||| place x1 12) rfl (decode_row 0x24000070#32 0xFFFE007F#32 _ 142 _
    (by simp (disch := decide) only [or_masked, place_masked, BitVec.or_zero]; rfl) (by decide +kernel)
    (by show some (Instr.ncfg _ _) = _; simp (disch := decide) only [or_read, place_read, place_apart, BitVec.or_zero, BitVec.zero_or, BitVec.reduceExtractLsb']))

theorem convOpen (x0 : BitVec 5) (x1 : BitVec 5) : Statement (.convOpen x0 x1) :=
  word _ (0x28000070#32 ||| place x0 7 ||| place x1 17) rfl (decode_row 0x28000070#32 0xFFC1F07F#32 _ 143 _
    (by simp (disch := decide) only [or_masked, place_masked, BitVec.or_zero]; rfl) (by decide +kernel)
    (by show some (Instr.convOpen _ _) = _; simp (disch := decide) only [or_read, place_read, place_apart, BitVec.or_zero, BitVec.zero_or, BitVec.reduceExtractLsb']))

theorem convPut (x0 : BitVec 5) (x1 : BitVec 5) : Statement (.convPut x0 x1) :=
  word _ (0x2C000070#32 ||| place x0 12 ||| place x1 17) rfl (decode_row 0x2C000070#32 0xFFC00FFF#32 _ 144 _
    (by simp (disch := decide) only [or_masked, place_masked, BitVec.or_zero]; rfl) (by decide +kernel)
    (by show some (Instr.convPut _ _) = _; simp (disch := decide) only [or_read, place_read, place_apart, BitVec.or_zero, BitVec.zero_or, BitVec.reduceExtractLsb']))

theorem convClose (x0 : BitVec 5) (x1 : BitVec 5) : Statement (.convClose x0 x1) :=
  word _ (0x30000070#32 ||| place x0 7 ||| place x1 12) rfl (decode_row 0x30000070#32 0xFFFE007F#32 _ 145 _
    (by simp (disch := decide) only [or_masked, place_masked, BitVec.or_zero]; rfl) (by decide +kernel)
    (by show some (Instr.convClose _ _) = _; simp (disch := decide) only [or_read, place_read, place_apart, BitVec.or_zero, BitVec.zero_or, BitVec.reduceExtractLsb']))

theorem convoyFlitArrival (x0 : Nat) : Statement (.convoyFlitArrival x0) := none' _ rfl

theorem meet (x0 : BitVec 5) (x1 : BitVec 5) : Statement (.meet x0 x1) :=
  word _ (0x00000072#32 ||| place x0 7 ||| place x1 12) rfl (decode_row 0x00000072#32 0xFFFE007F#32 _ 146 _
    (by simp (disch := decide) only [or_masked, place_masked, BitVec.or_zero]; rfl) (by decide +kernel)
    (by show some (Instr.meet _ _) = _; simp (disch := decide) only [or_read, place_read, place_apart, BitVec.or_zero, BitVec.zero_or, BitVec.reduceExtractLsb']))

theorem depart (x0 : BitVec 5) : Statement (.depart x0) :=
  word _ (0x04000072#32 ||| place x0 7) rfl (decode_row 0x04000072#32 0xFFFFF07F#32 _ 147 _
    (by simp (disch := decide) only [or_masked, place_masked, BitVec.or_zero]; rfl) (by decide +kernel)
    (by show some (Instr.depart _) = _; simp (disch := decide) only [or_read, place_read, place_apart, BitVec.or_zero, BitVec.zero_or, BitVec.reduceExtractLsb']))

theorem split (x0 : BitVec 5) (x1 : BitVec 5) (x2 : BitVec 5) : Statement (.split x0 x1 x2) :=
  word _ (0x08000072#32 ||| place x0 7 ||| place x1 12 ||| place x2 17) rfl (decode_row 0x08000072#32 0xFFC0007F#32 _ 148 _
    (by simp (disch := decide) only [or_masked, place_masked, BitVec.or_zero]; rfl) (by decide +kernel)
    (by show some (Instr.split _ _ _) = _; simp (disch := decide) only [or_read, place_read, place_apart, BitVec.or_zero, BitVec.zero_or, BitVec.reduceExtractLsb']))

theorem gate (x0 : BitVec 5) : Statement (.gate x0) :=
  word _ (0x0C000072#32 ||| place x0 7) rfl (decode_row 0x0C000072#32 0xFFFFF07F#32 _ 149 _
    (by simp (disch := decide) only [or_masked, place_masked, BitVec.or_zero]; rfl) (by decide +kernel)
    (by show some (Instr.gate _) = _; simp (disch := decide) only [or_read, place_read, place_apart, BitVec.or_zero, BitVec.zero_or, BitVec.reduceExtractLsb']))

theorem mbld (x0 : BitVec 5) : Statement (.mbld x0) :=
  word _ (0x10000072#32 ||| place x0 12) rfl (decode_row 0x10000072#32 0xFFFE0FFF#32 _ 150 _
    (by simp (disch := decide) only [or_masked, place_masked, BitVec.or_zero]; rfl) (by decide +kernel)
    (by show some (Instr.mbld _) = _; simp (disch := decide) only [or_read, place_read, place_apart, BitVec.or_zero, BitVec.zero_or, BitVec.reduceExtractLsb']))

theorem mbst (x0 : BitVec 5) : Statement (.mbst x0) :=
  word _ (0x14000072#32 ||| place x0 12) rfl (decode_row 0x14000072#32 0xFFFE0FFF#32 _ 151 _
    (by simp (disch := decide) only [or_masked, place_masked, BitVec.or_zero]; rfl) (by decide +kernel)
    (by show some (Instr.mbst _) = _; simp (disch := decide) only [or_read, place_read, place_apart, BitVec.or_zero, BitVec.zero_or, BitVec.reduceExtractLsb']))

theorem mbpop (x0 : BitVec 5) : Statement (.mbpop x0) :=
  word _ (0x24000072#32 ||| place x0 7) rfl (decode_row 0x24000072#32 0xFFFFF07F#32 _ 155 _
    (by simp (disch := decide) only [or_masked, place_masked, BitVec.or_zero]; rfl) (by decide +kernel)
    (by show some (Instr.mbpop _) = _; simp (disch := decide) only [or_read, place_read, place_apart, BitVec.or_zero, BitVec.zero_or, BitVec.reduceExtractLsb']))

theorem mbfst (x0 : BitVec 5) : Statement (.mbfst x0) :=
  word _ (0x28000072#32 ||| place x0 7) rfl (decode_row 0x28000072#32 0xFFFFF07F#32 _ 156 _
    (by simp (disch := decide) only [or_masked, place_masked, BitVec.or_zero]; rfl) (by decide +kernel)
    (by show some (Instr.mbfst _) = _; simp (disch := decide) only [or_read, place_read, place_apart, BitVec.or_zero, BitVec.zero_or, BitVec.reduceExtractLsb']))

theorem mbnxt (x0 : BitVec 5) (x1 : BitVec 5) : Statement (.mbnxt x0 x1) :=
  word _ (0x2C000072#32 ||| place x0 7 ||| place x1 12) rfl (decode_row 0x2C000072#32 0xFFFE007F#32 _ 157 _
    (by simp (disch := decide) only [or_masked, place_masked, BitVec.or_zero]; rfl) (by decide +kernel)
    (by show some (Instr.mbnxt _ _) = _; simp (disch := decide) only [or_read, place_read, place_apart, BitVec.or_zero, BitVec.zero_or, BitVec.reduceExtractLsb']))

theorem mtset (x0 : BitVec 5) (x1 : BitVec 5) (x2 : BitVec 3) : Statement (.mtset x0 x1 x2) :=
  word _ (0x30000072#32 ||| place x0 12 ||| place x1 17 ||| place x2 22) rfl (decode_row 0x30000072#32 0xFE000FFF#32 _ 158 _
    (by simp (disch := decide) only [or_masked, place_masked, BitVec.or_zero]; rfl) (by decide +kernel)
    (by show some (Instr.mtset _ _ _) = _; simp (disch := decide) only [or_read, place_read, place_apart, BitVec.or_zero, BitVec.zero_or, BitVec.reduceExtractLsb']))

theorem mfld (x0 : BitVec 5) (x1 : BitVec 5) (x2 : BitVec 5) (x3 : BitVec 3) : Statement (.mfld x0 x1 x2 x3) :=
  word _ (0x34000072#32 ||| place x0 7 ||| place x1 12 ||| place x2 17 ||| place x3 22) rfl (decode_row 0x34000072#32 0xFE00007F#32 _ 159 _
    (by simp (disch := decide) only [or_masked, place_masked, BitVec.or_zero]; rfl) (by decide +kernel)
    (by show some (Instr.mfld _ _ _ _) = _; simp (disch := decide) only [or_read, place_read, place_apart, BitVec.or_zero, BitVec.zero_or, BitVec.reduceExtractLsb']))

theorem mfst (x0 : BitVec 5) (x1 : BitVec 5) (x2 : BitVec 5) (x3 : BitVec 3) : Statement (.mfst x0 x1 x2 x3) :=
  word _ (0x38000072#32 ||| place x0 7 ||| place x1 12 ||| place x2 17 ||| place x3 22) rfl (decode_row 0x38000072#32 0xFE00007F#32 _ 160 _
    (by simp (disch := decide) only [or_masked, place_masked, BitVec.or_zero]; rfl) (by decide +kernel)
    (by show some (Instr.mfst _ _ _ _) = _; simp (disch := decide) only [or_read, place_read, place_apart, BitVec.or_zero, BitVec.zero_or, BitVec.reduceExtractLsb']))

theorem mfadd (x0 : BitVec 5) (x1 : BitVec 5) (x2 : BitVec 5) (x3 : BitVec 3) : Statement (.mfadd x0 x1 x2 x3) :=
  word _ (0x3C000072#32 ||| place x0 7 ||| place x1 12 ||| place x2 17 ||| place x3 22) rfl (decode_row 0x3C000072#32 0xFE00007F#32 _ 161 _
    (by simp (disch := decide) only [or_masked, place_masked, BitVec.or_zero]; rfl) (by decide +kernel)
    (by show some (Instr.mfadd _ _ _ _) = _; simp (disch := decide) only [or_read, place_read, place_apart, BitVec.or_zero, BitVec.zero_or, BitVec.reduceExtractLsb']))

theorem lkreq (x0 : BitVec 5) (x1 : BitVec 5) (x2 : BitVec 3) : Statement (.lkreq x0 x1 x2) :=
  word _ (0x00000074#32 ||| place x0 7 ||| place x1 12 ||| place x2 22) rfl (decode_row 0x00000074#32 0xFE3E007F#32 _ 162 _
    (by simp (disch := decide) only [or_masked, place_masked, BitVec.or_zero]; rfl) (by decide +kernel)
    (by show some (Instr.lkreq _ _ _) = _; simp (disch := decide) only [or_read, place_read, place_apart, BitVec.or_zero, BitVec.zero_or, BitVec.reduceExtractLsb']))

theorem lktry (x0 : BitVec 5) (x1 : BitVec 5) (x2 : BitVec 3) : Statement (.lktry x0 x1 x2) :=
  word _ (0x04000074#32 ||| place x0 7 ||| place x1 12 ||| place x2 22) rfl (decode_row 0x04000074#32 0xFE3E007F#32 _ 163 _
    (by simp (disch := decide) only [or_masked, place_masked, BitVec.or_zero]; rfl) (by decide +kernel)
    (by show some (Instr.lktry _ _ _) = _; simp (disch := decide) only [or_read, place_read, place_apart, BitVec.or_zero, BitVec.zero_or, BitVec.reduceExtractLsb']))

theorem lkup (x0 : BitVec 5) (x1 : BitVec 5) (x2 : BitVec 3) : Statement (.lkup x0 x1 x2) :=
  word _ (0x08000074#32 ||| place x0 7 ||| place x1 12 ||| place x2 22) rfl (decode_row 0x08000074#32 0xFE3E007F#32 _ 164 _
    (by simp (disch := decide) only [or_masked, place_masked, BitVec.or_zero]; rfl) (by decide +kernel)
    (by show some (Instr.lkup _ _ _) = _; simp (disch := decide) only [or_read, place_read, place_apart, BitVec.or_zero, BitVec.zero_or, BitVec.reduceExtractLsb']))

theorem lkdn (x0 : BitVec 5) (x1 : BitVec 5) (x2 : BitVec 3) : Statement (.lkdn x0 x1 x2) :=
  word _ (0x0C000074#32 ||| place x0 7 ||| place x1 12 ||| place x2 22) rfl (decode_row 0x0C000074#32 0xFE3E007F#32 _ 165 _
    (by simp (disch := decide) only [or_masked, place_masked, BitVec.or_zero]; rfl) (by decide +kernel)
    (by show some (Instr.lkdn _ _ _) = _; simp (disch := decide) only [or_read, place_read, place_apart, BitVec.or_zero, BitVec.zero_or, BitVec.reduceExtractLsb']))

theorem lkrel (x0 : BitVec 5) (x1 : BitVec 5) : Statement (.lkrel x0 x1) :=
  word _ (0x10000074#32 ||| place x0 7 ||| place x1 12) rfl (decode_row 0x10000074#32 0xFFFE007F#32 _ 166 _
    (by simp (disch := decide) only [or_masked, place_masked, BitVec.or_zero]; rfl) (by decide +kernel)
    (by show some (Instr.lkrel _ _) = _; simp (disch := decide) only [or_read, place_read, place_apart, BitVec.or_zero, BitVec.zero_or, BitVec.reduceExtractLsb']))

theorem lkq (x0 : BitVec 5) (x1 : BitVec 5) : Statement (.lkq x0 x1) :=
  word _ (0x14000074#32 ||| place x0 7 ||| place x1 12) rfl (decode_row 0x14000074#32 0xFFFE007F#32 _ 167 _
    (by simp (disch := decide) only [or_masked, place_masked, BitVec.or_zero]; rfl) (by decide +kernel)
    (by show some (Instr.lkq _ _) = _; simp (disch := decide) only [or_read, place_read, place_apart, BitVec.or_zero, BitVec.zero_or, BitVec.reduceExtractLsb']))

theorem lktab (x0 : BitVec 5) (x1 : BitVec 5) : Statement (.lktab x0 x1) :=
  word _ (0x18000074#32 ||| place x0 7 ||| place x1 12) rfl (decode_row 0x18000074#32 0xFFFE007F#32 _ 168 _
    (by simp (disch := decide) only [or_masked, place_masked, BitVec.or_zero]; rfl) (by decide +kernel)
    (by show some (Instr.lktab _ _) = _; simp (disch := decide) only [or_read, place_read, place_apart, BitVec.or_zero, BitVec.zero_or, BitVec.reduceExtractLsb']))

theorem lockRevocation (x0 : Nat) : Statement (.lockRevocation x0) := none' _ rfl

theorem lockDropAtEnd (x0 : Nat) : Statement (.lockDropAtEnd x0) := none' _ rfl

theorem dict (x0 : BitVec 5) (x1 : BitVec 5) : Statement (.dict x0 x1) :=
  word _ (0x08000076#32 ||| place x0 12 ||| place x1 17) rfl (decode_row 0x08000076#32 0xFFC00FFF#32 _ 171 _
    (by simp (disch := decide) only [or_masked, place_masked, BitVec.or_zero]; rfl) (by decide +kernel)
    (by show some (Instr.dict _ _) = _; simp (disch := decide) only [or_read, place_read, place_apart, BitVec.or_zero, BitVec.zero_or, BitVec.reduceExtractLsb']))

theorem tlbi (x0 : BitVec 5) (x1 : BitVec 5) : Statement (.tlbi x0 x1) :=
  word _ (0x0C000076#32 ||| place x0 12 ||| place x1 17) rfl (decode_row 0x0C000076#32 0xFFC00FFF#32 _ 172 _
    (by simp (disch := decide) only [or_masked, place_masked, BitVec.or_zero]; rfl) (by decide +kernel)
    (by show some (Instr.tlbi _ _) = _; simp (disch := decide) only [or_read, place_read, place_apart, BitVec.or_zero, BitVec.zero_or, BitVec.reduceExtractLsb']))

theorem l1inv (x0 : BitVec 5) (x1 : BitVec 5) : Statement (.l1inv x0 x1) :=
  word _ (0x10000076#32 ||| place x0 12 ||| place x1 17) rfl (decode_row 0x10000076#32 0xFFC00FFF#32 _ 173 _
    (by simp (disch := decide) only [or_masked, place_masked, BitVec.or_zero]; rfl) (by decide +kernel)
    (by show some (Instr.l1inv _ _) = _; simp (disch := decide) only [or_read, place_read, place_apart, BitVec.or_zero, BitVec.zero_or, BitVec.reduceExtractLsb']))

theorem wbr (x0 : BitVec 5) (x1 : BitVec 5) : Statement (.wbr x0 x1) :=
  word _ (0x14000076#32 ||| place x0 12 ||| place x1 17) rfl (decode_row 0x14000076#32 0xFFC00FFF#32 _ 174 _
    (by simp (disch := decide) only [or_masked, place_masked, BitVec.or_zero]; rfl) (by decide +kernel)
    (by show some (Instr.wbr _ _) = _; simp (disch := decide) only [or_read, place_read, place_apart, BitVec.or_zero, BitVec.zero_or, BitVec.reduceExtractLsb']))

theorem invr (x0 : BitVec 5) (x1 : BitVec 5) : Statement (.invr x0 x1) :=
  word _ (0x18000076#32 ||| place x0 12 ||| place x1 17) rfl (decode_row 0x18000076#32 0xFFC00FFF#32 _ 175 _
    (by simp (disch := decide) only [or_masked, place_masked, BitVec.or_zero]; rfl) (by decide +kernel)
    (by show some (Instr.invr _ _) = _; simp (disch := decide) only [or_read, place_read, place_apart, BitVec.or_zero, BitVec.zero_or, BitVec.reduceExtractLsb']))

theorem domset (x0 : BitVec 5) (x1 : BitVec 5) (x2 : BitVec 5) : Statement (.domset x0 x1 x2) :=
  word _ (0x1C000076#32 ||| place x0 7 ||| place x1 12 ||| place x2 17) rfl (decode_row 0x1C000076#32 0xFFC0007F#32 _ 176 _
    (by simp (disch := decide) only [or_masked, place_masked, BitVec.or_zero]; rfl) (by decide +kernel)
    (by show some (Instr.domset _ _ _) = _; simp (disch := decide) only [or_read, place_read, place_apart, BitVec.or_zero, BitVec.zero_or, BitVec.reduceExtractLsb']))

theorem attset (x0 : BitVec 5) (x1 : BitVec 5) (x2 : BitVec 5) : Statement (.attset x0 x1 x2) :=
  word _ (0x20000076#32 ||| place x0 7 ||| place x1 12 ||| place x2 17) rfl (decode_row 0x20000076#32 0xFFC0007F#32 _ 177 _
    (by simp (disch := decide) only [or_masked, place_masked, BitVec.or_zero]; rfl) (by decide +kernel)
    (by show some (Instr.attset _ _ _) = _; simp (disch := decide) only [or_read, place_read, place_apart, BitVec.or_zero, BitVec.zero_or, BitVec.reduceExtractLsb']))

theorem waymask (x0 : BitVec 5) (x1 : BitVec 5) (x2 : BitVec 5) : Statement (.waymask x0 x1 x2) :=
  word _ (0x24000076#32 ||| place x0 7 ||| place x1 12 ||| place x2 17) rfl (decode_row 0x24000076#32 0xFFC0007F#32 _ 178 _
    (by simp (disch := decide) only [or_masked, place_masked, BitVec.or_zero]; rfl) (by decide +kernel)
    (by show some (Instr.waymask _ _ _) = _; simp (disch := decide) only [or_read, place_read, place_apart, BitVec.or_zero, BitVec.zero_or, BitVec.reduceExtractLsb']))

theorem snap (x0 : BitVec 5) : Statement (.snap x0) :=
  word _ (0x28000076#32 ||| place x0 7) rfl (decode_row 0x28000076#32 0xFFFFF07F#32 _ 179 _
    (by simp (disch := decide) only [or_masked, place_masked, BitVec.or_zero]; rfl) (by decide +kernel)
    (by show some (Instr.snap _) = _; simp (disch := decide) only [or_read, place_read, place_apart, BitVec.or_zero, BitVec.zero_or, BitVec.reduceExtractLsb']))

theorem caprd (x0 : BitVec 5) (x1 : BitVec 5) : Statement (.caprd x0 x1) :=
  word _ (0x2C000076#32 ||| place x0 7 ||| place x1 12) rfl (decode_row 0x2C000076#32 0xFFFE007F#32 _ 180 _
    (by simp (disch := decide) only [or_masked, place_masked, BitVec.or_zero]; rfl) (by decide +kernel)
    (by show some (Instr.caprd _ _) = _; simp (disch := decide) only [or_read, place_read, place_apart, BitVec.or_zero, BitVec.zero_or, BitVec.reduceExtractLsb']))

theorem smc (x0 : BitVec 5) : Statement (.smc x0) :=
  word _ (0x30000076#32 ||| place x0 12) rfl (decode_row 0x30000076#32 0xFFFE0FFF#32 _ 181 _
    (by simp (disch := decide) only [or_masked, place_masked, BitVec.or_zero]; rfl) (by decide +kernel)
    (by show some (Instr.smc _) = _; simp (disch := decide) only [or_read, place_read, place_apart, BitVec.or_zero, BitVec.zero_or, BitVec.reduceExtractLsb']))

theorem keydel (x0 : BitVec 5) (x1 : BitVec 5) : Statement (.keydel x0 x1) :=
  word _ (0x34000076#32 ||| place x0 7 ||| place x1 12) rfl (decode_row 0x34000076#32 0xFFFE007F#32 _ 182 _
    (by simp (disch := decide) only [or_masked, place_masked, BitVec.or_zero]; rfl) (by decide +kernel)
    (by show some (Instr.keydel _ _) = _; simp (disch := decide) only [or_read, place_read, place_apart, BitVec.or_zero, BitVec.zero_or, BitVec.reduceExtractLsb']))

theorem budgetRead (x0 : BitVec 5) : Statement (.budgetRead x0) :=
  word _ (0x38000076#32 ||| place x0 7) rfl (decode_row 0x38000076#32 0xFFFFF07F#32 _ 183 _
    (by simp (disch := decide) only [or_masked, place_masked, BitVec.or_zero]; rfl) (by decide +kernel)
    (by show some (Instr.budgetRead _) = _; simp (disch := decide) only [or_read, place_read, place_apart, BitVec.or_zero, BitVec.zero_or, BitVec.reduceExtractLsb']))

theorem yield (x0 : BitVec 5) : Statement (.yield x0) := by
  intro hw bs hb
  have h : ∀ a : BitVec 5, a ≠ 0 → decode (bytesOfWord (0x38000076#32 ||| place a 12)) = .ok (.yield a, 4) := by
    decide +kernel
  have hx : x0 ≠ 0 := by
    intro h0
    subst h0
    exact absurd hw (by decide)
  cases hb
  exact h x0 hx
theorem sysrd (x0 : BitVec 5) (x1 : BitVec 12) : Statement (.sysrd x0 x1) :=
  word _ (0x00000078#32 ||| place x0 7 ||| place x1 17) rfl (decode_row 0x00000078#32 0xE001F07F#32 _ 185 _
    (by simp (disch := decide) only [or_masked, place_masked, BitVec.or_zero]; rfl) (by decide +kernel)
    (by show some (Instr.sysrd _ _) = _; simp (disch := decide) only [or_read, place_read, place_apart, BitVec.or_zero, BitVec.zero_or, BitVec.reduceExtractLsb']))

theorem syswr (x0 : BitVec 5) (x1 : BitVec 12) : Statement (.syswr x0 x1) :=
  word _ (0x20000078#32 ||| place x0 12 ||| place x1 17) rfl (decode_row 0x20000078#32 0xE0000FFF#32 _ 186 _
    (by simp (disch := decide) only [or_masked, place_masked, BitVec.or_zero]; rfl) (by decide +kernel)
    (by show some (Instr.syswr _ _) = _; simp (disch := decide) only [or_read, place_read, place_apart, BitVec.or_zero, BitVec.zero_or, BitVec.reduceExtractLsb']))

theorem trap (x0 : BitVec 12) : Statement (.trap x0) :=
  word _ (0x40000078#32 ||| place x0 17) rfl (decode_row 0x40000078#32 0xE001FFFF#32 _ 187 _
    (by simp (disch := decide) only [or_masked, place_masked, BitVec.or_zero]; rfl) (by decide +kernel)
    (by show some (Instr.trap _) = _; simp (disch := decide) only [or_read, place_read, place_apart, BitVec.or_zero, BitVec.zero_or, BitVec.reduceExtractLsb']))

theorem budgetTrap (x0 : BitVec 12) (x1 : BitVec 3) : Statement (.budgetTrap x0 x1) := none' _ rfl

theorem woundTrap (x0 : BitVec 12) (x1 : BitVec 3) : Statement (.woundTrap x0 x1) := none' _ rfl

theorem kill (x0 : BitVec 12) (x1 : BitVec 3) : Statement (.kill x0 x1) := none' _ rfl

theorem storeBufferDrain (x0 : BitVec 12) (x1 : Nat) : Statement (.storeBufferDrain x0 x1) := none' _ rfl

theorem claimRecord (x0 : Nat) : Statement (.claimRecord x0) := none' _ rfl

theorem l2Fill (x0 : Nat) : Statement (.l2Fill x0) := none' _ rfl

theorem pageWalk (x0 : BitVec 2) (x1 : Nat) : Statement (.pageWalk x0 x1) := none' _ rfl

theorem taskDispatch (x0 : BitVec 12) (x1 : BitVec 3) : Statement (.taskDispatch x0 x1) := none' _ rfl

theorem steal (x0 : BitVec 12) (x1 : BitVec 2) : Statement (.steal x0 x1) := none' _ rfl

theorem hostMemAccess (x0 : Bool) (x1 : Bool) (x2 : BitVec 2) (x3 : BitVec 56) (x4 : BitVec 64) : Statement (.hostMemAccess x0 x1 x2 x3 x4) := none' _ rfl

theorem publicationAdvance (x0 : BitVec 9) : Statement (.publicationAdvance x0) := none' _ rfl

theorem lsqtail (x0 : BitVec 9) (x1 : BitVec 16) : Statement (.lsqtail x0 x1) := none' _ rfl

theorem launch (x0 : BitVec 9) : Statement (.launch x0) := none' _ rfl

theorem launchComplete (x0 : Nat) : Statement (.launchComplete x0) := none' _ rfl

theorem preempt (x0 : BitVec 9) : Statement (.preempt x0) := none' _ rfl

theorem preemptSave (x0 : Nat) : Statement (.preemptSave x0) := none' _ rfl

theorem restore (x0 : BitVec 9) : Statement (.restore x0) := none' _ rfl

theorem nop (x0 : BitVec 9) : Statement (.nop x0) := none' _ rfl

theorem ngsel (x0 : BitVec 9) (x1 : BitVec 16) : Statement (.ngsel x0 x1) := none' _ rfl

theorem retadd (x0 : BitVec 3) (x1 : BitVec 25) : Statement (.retadd x0 x1) := none' _ rfl

theorem registerWrite (x0 : Bool) (x1 : BitVec 32) (x2 : BitVec 64) : Statement (.registerWrite x0 x1 x2) := none' _ rfl

theorem partitionSwitch (x0 : BitVec 2) : Statement (.partitionSwitch x0) := none' _ rfl

theorem crcReplay (x0 : BitVec 4) : Statement (.crcReplay x0) := none' _ rfl

theorem retrainStart (x0 : BitVec 4) (x1 : Bool) (x2 : BitVec 3) (x3 : BitVec 32) : Statement (.retrainStart x0 x1 x2 x3) := none' _ rfl

theorem retrainEnd (x0 : BitVec 4) (x1 : Bool) (x2 : BitVec 3) (x3 : Bool) : Statement (.retrainEnd x0 x1 x2 x3) := none' _ rfl

theorem portTraining (x0 : BitVec 4) (x1 : BitVec 8) (x2 : BitVec 16) (x3 : BitVec 16) : Statement (.portTraining x0 x1 x2 x3) := none' _ rfl

theorem arrivalToken (x0 : BitVec 6) (x1 : BitVec 12) : Statement (.arrivalToken x0 x1) := none' _ rfl

theorem releaseToken (x0 : BitVec 6) : Statement (.releaseToken x0) := none' _ rfl

theorem proxyAbsenceToken (x0 : BitVec 6) (x1 : BitVec 12) : Statement (.proxyAbsenceToken x0 x1) := none' _ rfl

theorem presenceToken (x0 : BitVec 6) (x1 : BitVec 12) : Statement (.presenceToken x0 x1) := none' _ rfl

theorem barrierTimeout (x0 : BitVec 6) : Statement (.barrierTimeout x0) := none' _ rfl

theorem throttle (x0 : BitVec 10) : Statement (.throttle x0) := none' _ rfl

theorem recovery (x0 : BitVec 10) : Statement (.recovery x0) := none' _ rfl

theorem fetchFault (x0 : BitVec 8) (x1 : BitVec 64) : Statement (.fetchFault x0 x1) := none' _ rfl

theorem illegalInstruction (x0 : BitVec 32) (x1 : BitVec 3) : Statement (.illegalInstruction x0 x1) := none' _ rfl

theorem remoteAccessArrival (x0 : BitVec 3) (x1 : BitVec 9) (x2 : BitVec 2) (x3 : Bool) (x4 : BitVec 56) (x5 : BitVec 128) : Statement (.remoteAccessArrival x0 x1 x2 x3 x4 x5) := none' _ rfl

theorem tend : Statement (.tend) :=
  word _ (0x10000070#32) rfl (decode_row 0x10000070#32 0xFFFFFFFF#32 _ 137 _ (by decide) (by decide +kernel) (by decide +kernel))

theorem mband : Statement (.mband) :=
  word _ (0x18000072#32) rfl (decode_row 0x18000072#32 0xFFFFFFFF#32 _ 152 _ (by decide) (by decide +kernel) (by decide +kernel))

theorem mbor : Statement (.mbor) :=
  word _ (0x1C000072#32) rfl (decode_row 0x1C000072#32 0xFFFFFFFF#32 _ 153 _ (by decide) (by decide +kernel) (by decide +kernel))

theorem mbandn : Statement (.mbandn) :=
  word _ (0x20000072#32) rfl (decode_row 0x20000072#32 0xFFFFFFFF#32 _ 154 _ (by decide) (by decide +kernel) (by decide +kernel))

theorem xret : Statement (.xret) :=
  word _ (0x00000076#32) rfl (decode_row 0x00000076#32 0xFFFFFFFF#32 _ 169 _ (by decide) (by decide +kernel) (by decide +kernel))

theorem halt : Statement (.halt) :=
  word _ (0x04000076#32) rfl (decode_row 0x04000076#32 0xFFFFFFFF#32 _ 170 _ (by decide) (by decide +kernel) (by decide +kernel))

theorem keyInstall : Statement (.keyInstall) := none' _ rfl

theorem trip : Statement (.trip) := none' _ rfl

theorem powerOn : Statement (.powerOn) := none' _ rfl

theorem snapshotLatch : Statement (.snapshotLatch) := none' _ rfl

theorem snapshotCopy : Statement (.snapshotCopy) := none' _ rfl

theorem lossOfPower : Statement (.lossOfPower) := none' _ rfl

end Sys2Proof.Laws.RoundTrip
end

