-- ==== Sys2Proof/Tests/Slice0.lean ====
section
/-! SUPPORT. Tests: ill-formed terms, words of the spec's worked encodings, single instructions with results worked
out in the spec, and for each statement states and operands that meet its hypotheses. -/

namespace Sys2Proof.Tests

set_option Elab.async false

open Sys2Proof Sys2Proof.Machine Sys2Proof.Safety

/-- A region of 8 by 4 cores at the origin, of function 1 and tenant 5. -/
def region0 : Region := { Region.default with w := 8, h := 4, vf := 1, tenant := 5, fdom := 7, cycles := 0x1000, tsbase := 0x100 }
def root0 : Root := { regions := [region0], vf := 1, tag := some 0x55, clo := 0, chi := 0x100000, preempt := none }
def task0 : Task := { root := 1, rid := 0, ts := 3, flags := 0, addr := 0xFFF0000000200, uid := 9 }

/-- A running slot with registers. -/
def slot0 (g : List (Nat × Reg)) : Slot := { Slot.reset with g := g, pc := 0x1000, task := some task0, budget := 0x500 }

/-- A page of plain memory at 0x10000, and other pages. -/
def pages0 : List Tlb :=
  let t : Tlb := { vf := 1, secure := false, lg := 12, vpage := 0x10, pa := 0x4000000, ro := false, ms := false, sec := false, cmp := false, key := 0 }
  (List.range 4).map (fun i => { t with vpage := i, pa := 0x5000000 + 4096 * i }) ++ [{ t with vpage := 3, pa := 0x1F03000, secure := true, sec := true }, t, { t with vpage := 0x11, pa := 0x4001000, ro := true }, { t with vpage := 0x12, pa := 0x4002000, ms := true },
   { t with vpage := 0x13, pa := 2 ^ 52 + 0x5000 }, { t with vpage := 0x14, pa := 8 * 2 ^ 52 + 3 * 2 ^ 40 }]
/-- The same in three sets of the core's TLB. -/
def tlb0 : Tab TlbSet :=
  (List.range 3).map (fun i => (i, { vbase := 0, pbase := 0, ways := ((pages0.drop (4 * i)).take 4).map (·, none) }))

def core0 (g : List (Nat × Reg)) : Core :=
  { Core.reset with slots := [(0, slot0 g)], codehi := 0x100000, xbase := 0x2000, smcbase := 0x3000, tlb := tlb0 }

/-- Bytes 0xA0, 0xA1, ... from a place on. -/
def ramp (p n : Nat) : Memory := (List.range n).map (fun i => (p + i, BitVec.ofNat 8 (0xA0 + i % 0x50)))

def base (g : List (Nat × Reg)) : State :=
  { State.reset with
    cores := [(0, core0 g)], roots := [(1, root0)], stamp := 100
    mem := ramp 0x4000000 64 ++ ramp (2 ^ 52 + 0x5000) 16 ++ ramp (larderAt 0 0x100) 64 ++ ramp (cellarAt 0 0x80) 32 }

/-- The state with its running slot, or core, changed. -/
def withMe (s : State) (f : Slot → Slot) : State := s.setMe (f s.me)
def withCore (s : State) (f : Core → Core) : State := s.setHere (f s.here)
def L (off : Nat) : Reg := BitVec.ofNat 64 (0xFFF0000000000 + off)
def C (off : Nat) : Reg := BitVec.ofNat 64 (0xFFF0100000000 + off)

/-- Vectors and masks to work on. -/
def vecs : List (Nat × Vec) :=
  let v (f : Nat → Nat) : Vec := (List.range 64).foldl (fun x i => x ||| (BitVec.ofNat 512 (f i % 256) <<< (8 * i))) 0
  [(1, v (fun i => 0x3F + 7 * i)), (2, v (fun i => 0x80 + 29 * i * i)), (3, v (fun i => if i % 4 = 3 then 0x41 + i / 4 else 200 * i)), (8, v (fun i => i)), (10, v (fun i => 255 - 3 * i)), (11, v (fun i => if i % 2 = 0 then 0x7F else 0x80))]
def masks : List (Nat × Reg) := [(1, 0xAAAA5555F00F1234), (2, 0xFFFFFFFFFFFFFFFF), (3, 1)]
def vbase (g : List (Nat × Reg)) : State := withMe (base g) (fun x => { x with v := vecs, p := masks })

/-- The state after some instructions, one after another. -/
def run (is : List Instr) (s : State) : State := is.foldl (fun s i => match exec i s with | .next t => t | _ => s) s

/-- An epoch on a line of memory. -/
def epoch0 (base : Nat) (d c : List Nat) : Epoch :=
  { base := base, type := 4, n := 2, p := 2, declared := d, closed := c, contributions := [], root := 1, ms := false, key := 0, secure := false }
/-- Other slots that wait: slots 1 and 2 of the core, and slot 3 of core 1. -/
def waiting (s : State) (w1 w2 w3 : Wait) : State :=
  let f (w : Wait) : Slot := { slot0 [] with wait := w, task := some { task0 with uid := 30 } }
  { s with cores := [(0, { s.here with slots := [(0, s.me), (1, f w1), (2, f w2)] }), (1, { core0 [] with slots := [(3, f w3)] })] }

/-- An engine command's header bits from its fields. -/
def hdr (op qa qb qd acc sg : Nat) : BitVec 25 := BitVec.ofNat 25 (op + qa * 2 ^ 4 + qb * 2 ^ 8 + qd * 2 ^ 12 + acc * 2 ^ 16 + sg * 2 ^ 24)
/-- Three rings of the larder: 1 and 2 full, of 1,024-byte slots, 3 empty. -/
def rings0 : Tab Ring :=
  let d (o : Nat) : RingDesc := { win := 0, offset := BitVec.ofNat 26 o, slotsz := 15, slots := 1 }
  [(1, { desc := d 0x1000, head := 1, tail := 1, filled := 2 }), (2, { desc := d 0x2000, head := 0, tail := 0, filled := 2 }), (3, { desc := d 0x3000, head := 0, tail := 1, filled := 1 })]
/-- A package whose slot has queued commands. -/
def engine0 (cmds : List (BitVec 25 × List Nat)) : State :=
  let s := withCore (base [(1, 0x10000), (2, L 0x5000), (3, L 0x5800), (5, C 0x80)]) (fun c => { c with q := rings0, s := [(0, 16)], acc := [(3 * 1024 + 7, 0x40400000), (5 * 1024, 9)], skip := 0x21, refs := [(80, 5), (160, 6)] })
  let s := s.poke (larderAt 0 0x1000) ((List.range 64).map (fun i => BitVec.ofNat 8 (0x30 + 5 * i)))
  let s := s.poke (larderAt 0 0x2000) ((List.range 64).map (fun i => BitVec.ofNat 8 (0x38 + 3 * i)))
  run (cmds.map (fun e => .engineQueueEntry e.1 (BitVec.ofNat 32 (e.2.getD 0 0)) (BitVec.ofNat 32 (e.2.getD 1 0)) (BitVec.ofNat 32 (e.2.getD 2 0)) (BitVec.ofNat 32 (e.2.getD 3 0)) (BitVec.ofNat 32 (e.2.getD 4 0)) (BitVec.ofNat 32 (e.2.getD 5 0)) (BitVec.ofNat 32 (e.2.getD 6 0)))) s

/-- The cells of some bytes from a place on: those that are not zero. -/
def cells (p : Nat) (bs : List Byte) : Memory := (bs.mapIdx (fun i b => (p + i, b))).filter (fun e => e.2 ≠ 0)
/-- Page tables for function 1: page 0x77 is mapped to 0x5077000, and pages 0x200 to 0x3FF to 0x5200000 as one. The
memory holds them and what else is given, below and above them. -/
def paged (s : State) (below above : Memory) : State :=
  let tables : List (Nat × Nat) := [(0x6000000, 0x6001001), (0x6001000, 0x6002001), (0x6002000, 0x6003001), (0x6003000, 0x6004001),
    (0x6003008, 0x5200003), (0x60043B8, 0x5077003)]
  { s with tables := cells 16 (bytesOfNat 8 (2 ^ 63 + 0x6000000)),
           mem := below ++ tables.flatMap (fun e => cells e.1 (bytesOfNat 8 e.2)) ++ above }

/-- A region control block of a root of 2 by 2 cores at (16, 8), or wherever there is room. -/
def rcb0 (given : Bool) (parent rid : Nat) : List Byte :=
  bytesOfNat 8 parent ++ bytesOfNat 8 rid ++ bytesOfNat 8 ((if given then 2 ^ 15 + 16 + 8 * 2 ^ 8 else 0) + 2 ^ 16 + 2 ^ 24) ++ bytesOfNat 8 (0x2000 + 2 ^ 51)
    ++ bytesOfNat 8 (0xFFFF + 2 ^ 36) ++ bytesOfNat 8 (7 + 2 ^ 32 + 5 * 2 ^ 48) ++ bytesOfNat 8 0x100 ++ bytesOfNat 8 (64 * 2 ^ 10) ++ List.replicate 192 0
/-- A task record of a region. -/
def record0 (entry rid : Nat) : List Byte :=
  bytesOfNat 4 entry ++ bytesOfNat 4 0 ++ bytesOfNat 6 77 ++ bytesOfNat 2 rid ++ bytesOfNat 8 5 ++ bytesOfNat 8 6 ++ List.replicate 32 0
/-- An entry of the submission ring of function 1, with the descriptor of a launch in page 0x77. -/
def submitted (s : State) (op ver arg0 arg1 : Nat) (parent : Nat) (image : List Byte) : State :=
  let s := paged s (cells 0x5077000 (bytesOfNat 8 0x77100 ++ bytesOfNat 8 1 ++ bytesOfNat 8 0x77200 ++ bytesOfNat 8 0x77300 ++ bytesOfNat 8 1
      ++ bytesOfNat 8 0x100000 ++ bytesOfNat 8 0x140000) ++ cells 0x5077100 (rcb0 true parent 4) ++ cells 0x5077200 (record0 0x40 4)
      ++ cells 0x5077300 (bytesOfNat 4 0x101) ++ cells 0x5200000 image)
    (cells (2 ^ 52 + 0x1000) (bytesOfNat 2 op ++ bytesOfNat 2 ver ++ bytesOfNat 4 0xABCD ++ bytesOfNat 8 arg0 ++ bytesOfNat 8 arg1))
  { s with booted := true, vfs := [(1, { Ngamon.reset with lsqbase := 0x1000, lsqsz := 3, tail := 1, lcqbase := 0x8000, lcqsz := 3, done := 4 })] }

/-! ### Ill-formed terms, one for each check -/

/-- Terms with a field that their entry does not accept (03 R70, R80). -/
def illFormed1 : List Instr :=
  [.bfx 1 2 60 10, .bfxs 1 2 60 10, .bfi 1 2 60 10, .fadd 1 2 3 0 6, .fsub 1 2 3 0 7, .fmul 1 2 3 0 6, .ffma 1 2 3 0 6,
   .fdiv 1 2 3 1 6, .fsqrt 1 2 0 6, .fcmp 1 2 3 0 4, .fcvt 1 2 14 0 10, .fcvt 1 2 1 0 2, .fcvt 1 2 8 6 1, .ld 1 1 7 0,
   .ldf 1 1 7 0, .st 1 1 2 4 0, .amo 1 1 2 5 0 0, .amo 1 1 2 0 2 0, .amo 1 1 2 0 0 9, .cas 1 1 2 5 0, .cas 1 1 2 0 2,
   .amof 1 1 2 5 0 0, .amof 1 1 2 0 2 0, .amof 1 1 2 0 0 3, .redAdd 1 1 2 0 0, .acq 5, .rel 5, .vld 1 1 0 14 0,
   .vst 1 1 0 14 0, .vldx 1 1 2 0 0 0, .vstx 1 1 2 0 0 0]
def illFormed2 : List Instr :=
  [.vadd 1 1 2 0 4 2, .vadd 1 1 2 0 12 0, .vsub 1 1 2 0 10 6, .vmul 1 1 1 0 14 0, .vfma 1 1 1 0 14 0, .vfms 1 1 1 0 14 0,
   .vrcp 1 1 0 4 0, .vrsq 1 1 0 11 0, .vexp2 1 1 0 11 0, .vlog2 1 1 0 11 0, .vabs 1 1 0 1 0, .vneg 1 1 0 10 1,
   .vcvt 1 1 14 0 10 0, .vcvt 1 1 4 0 6 2, .vred 1 1 6 0 4 0, .vscan 1 1 3 0 10 0, .vdot 1 1 1 0 4 0, .vmin 1 1 1 0 12,
   .vmax 1 1 1 0 12, .vand 1 1 1 0 14, .vor 1 1 1 0 14, .vxor 1 1 1 0 14, .vshl 1 1 1 0 8, .vshr 1 1 1 0 8,
   .vsha 1 1 1 0 8, .vcmp 1 2 1 1 0 4 1, .vsel 1 1 1 0 14, .vperm 1 1 1 0 14, .vbcast 1 1 0 14, .vmovg 1 1 1 14,
   .vpack 1 1 1 10, .vunpk 1 1 2 4, .vunpk 1 1 0 10, .vlut 1 1 2]
def illFormed3 : List Instr :=
  [.pand 8 1 1, .por 1 8 1, .pxor 1 1 8, .pnot 8 1, .pnot 1 8, .ppop 1 8, .mtset 8 0 0, .mtset 1 3 0, .lkreq 1 1 6,
   .lktry 1 1 7, .lkup 1 1 6, .lkdn 1 1 6, .yield 0, .sysrd 1 0x12, .syswr 1 0x104]
/-- Engine commands: a header, and words, that the command's entry does not accept (03 R76 to R78). -/
def illFormed4 : List Instr :=
  [.engineQueueEntry (hdr 15 0 0 0 0 0) 0 0 0 0 0 0 0, .engineQueueEntry (hdr 0 1 2 3 3 0) 0x18C 0 0 0 0 0 0,
   .engineQueueEntry (hdr 0 1 2 0 3 0) 0 0 0 0 0 0 0, .engineQueueEntry (hdr 0 1 2 0 3 0) 0x18C 256 0 0 0 0 0,
   .engineQueueEntry (hdr 0 1 2 0 3 1) 0x18C 0 4096 0 0 0 0, .engineQueueEntry (hdr 1 1 2 3 1 0) 0x318C 0 0 0 0 0 0,
   .engineQueueEntry (hdr 1 1 2 3 0 0) 0x318C 10 0 0 0 0 0, .engineQueueEntry (hdr 3 1 2 3 0 0) 0x300C 0 0 0 0 0 0,
   .engineQueueEntry (hdr 3 1 0 3 0 0) 0x300C 0 2 0 0 0 0, .engineQueueEntry (hdr 4 1 0 3 0 1) 12 0 0 0 0 0 0,
   .engineQueueEntry (hdr 5 1 0 0 0 0) 0 0 4096 0 0 0 0, .engineQueueEntry (hdr 6 1 0 3 0 0) 12 0 0 0 0 0 0,
   .engineQueueEntry (hdr 7 1 0 0 0 0) 12 0 0 0 0 256 0, .engineQueueEntry (hdr 8 0 0 0 0 0) 0 1 0 0 0 0 0,
   .engineQueueEntry (hdr 8 0 0 0 0 0) 0 0 0 0 0 1 0, .engineQueueEntry (hdr 9 1 2 3 0 0) 0x300C 0 0 0 0 0 0,
   .engineQueueEntry (hdr 10 0 0 0 0 0) 0 4 0 0 0 0 0, .engineQueueEntry (hdr 11 1 0 0 0 0) 0 0 0 0 0 0 0,
   .engineQueueEntry (hdr 12 1 0 3 0 0) 12 0 0 0 0 0 0, .engineQueueEntry (hdr 13 1 2 0 0 0) 3 0 0 0 8192 0 0,
   .engineQueueEntry (hdr 14 1 0 3 0 0) 0 0 0 0 0x50000 0 0]

theorem test_ill_formed_scalar : ∀ i ∈ illFormed1, ¬i.WellFormed := by decide +kernel
theorem test_ill_formed_vector : ∀ i ∈ illFormed2, ¬i.WellFormed := by decide +kernel
theorem test_ill_formed_system : ∀ i ∈ illFormed3, ¬i.WellFormed := by decide +kernel
theorem test_ill_formed_commands : ∀ i ∈ illFormed4, ¬i.WellFormed := by decide +kernel
/-- Each check takes the value just below the bound. -/
theorem test_well_formed_bounds : ∀ i ∈ ([.bfx 1 2 54 9, .fadd 1 2 3 0 5, .fcmp 1 2 3 0 3, .ld 1 1 6 0, .st 1 1 2 3 0, .amo 1 1 2 4 1 8,
    .acq 4, .vld 1 1 0 13 0, .vadd 1 1 2 0 4 1, .vrcp 1 1 0 10 5, .vdot 1 1 1 0 15 0, .vpack 1 1 1 17, .pand 7 7 7,
    .mtset 7 2 7, .lkreq 1 1 5, .sysrd 1 0x11, .syswr 1 0x103,
    .engineQueueEntry (hdr 0 1 2 0 3 0) 0x18C 255 0 0 0 0 0] : List Instr), i.WellFormed := by decide +kernel

/-! ### Words of the spec's worked encodings and listings (files 03 to 11), and what they stand for -/

/-- Each word decodes to its instruction. -/
def decodesAs (l : List (Word × Instr)) : Bool := l.all (fun e => match decode (bytesOfWord e.1) with
  | .ok (i, n) => i == e.2 && n == 4
  | .error _ => false)

/-- File 03's worked encodings; file 04's and 05's listings. -/
theorem test_decode_scalar : decodesAs [(0x000E6282, .add 5 6 7), (0xFFFE420A, .addi 4 4 0x7FFF), (0xFFC04EA4, .bne 0x1D 4 0 0x3FF),
    (0x00109482, .add 9 9 8), (0x0010420A, .addi 4 4 8), (0xFFC05C24, .bne 0x18 5 0 0x3FF), (0x08008406, .popc 8 8),
    (0xFFC05C32, .loop 0x18 5 0x3FF), (0x45906288, .bfxs 5 6 8 11), (0x1B94941E, .ffma 8 9 10 1 3), (0x0000029C, .addpc 5 0),
    (0x0000602E, .jal 0 6), (0xF0000002, .hint 0 0 0 0)] = true := by decide +kernel
/-- File 06. -/
theorem test_decode_memory : decodesAs [(0x000C4434, .ld 8 4 6 0), (0x010A4436, .ldf 8 4 5 16), (0x00D26038, .st 0 6 9 3 0),
    (0x00926438, .st 8 6 9 2 0), (0xFED26C38, .st 0x18 6 9 3 0x7F), (0x058A43BC, .amo 7 4 5 3 1 0),
    (0x018A433E, .cas 6 4 5 3 0), (0x018A43C0, .amof 7 4 5 3 0 0), (0x144440C2, .redAdd 1 4 2 1 10), (0x00C00044, .acq 3),
    (0x04400044, .rel 1), (0x04C00044, .rel 3), (0x08400044, .fence 1), (0x08C00044, .fence 3), (0x140A4344, .barWait 6 4 5),
    (0x24004044, .cntSig 4), (0x300043C4, .publish 7 4)] = true := by decide +kernel
/-- File 07. -/
theorem test_decode_vector : decodesAs [(0x080620CE, .vadd 1 2 3 0 8 0), (0x208620CE, .vadd 1 2 3 2 0 1), (0x0A4011DC, .vred 3 1 0 1 10 0),
    (0x0222525C, .vscan 4 5 1 0 2 0), (0x00A040C6, .vld 1 4 0 10 0), (0x1400516A, .vbcast 2 5 0 10),
    (0x540410E6, .vcmp 1 0 1 2 0 10 1), (0x140628E6, .vcmp 1 2 2 3 0 10 0), (0x100013EC, .ppop 7 1), (0x5400346A, .vmovg 8 3 0 10),
    (0x00A051C8, .vst 3 5 0 10 0), (0x000411EC, .pand 3 1 2)] = true := by decide +kernel
/-- Files 08 and 09. -/
theorem test_decode_rings_and_messages : decodesAs [(0x0000946E, .ewait 8 9), (0x04C0436E, .qcfg 6 4 3), (0x08CA036E, .qput 6 5 3),
    (0x10CA03EE, .qwait 7 5 3), (0x20C0506E, .srw 0 5 3), (0x00924470, .msg 8 4 9 2), (0x04124470, .msgh 8 4 9 0),
    (0x080A4370, .cntBind 6 4 5), (0x0C004370, .spawn 6 4), (0x10000070, .tend), (0x14000370, .tself 6), (0x18401070, .nput 1 1),
    (0x1CC000F0, .nget 1 3), (0x20000370, .npeek 6 0), (0x24005370, .ncfg 6 5), (0x280A0370, .convOpen 6 5),
    (0x2C046070, .convPut 6 2), (0x300063F0, .convClose 7 6)] = true := by decide +kernel
/-- File 10. -/
theorem test_decode_caravans_and_locks : decodesAs [(0x00004372, .meet 6 4), (0x04000372, .depart 6), (0x080A4372, .split 6 4 5),
    (0x0C000372, .gate 6), (0x10004072, .mbld 4), (0x14004072, .mbst 4), (0x18000072, .mband), (0x1C000072, .mbor),
    (0x20000072, .mbandn), (0x24000372, .mbpop 6), (0x28000372, .mbfst 6), (0x2C007372, .mbnxt 6 7), (0x30801072, .mtset 1 0 2),
    (0x34EB40F2, .mfld 1 20 21 3), (0x38EB40F2, .mfst 1 20 21 3), (0x3CEB40F2, .mfadd 1 20 21 3), (0x01004374, .lkreq 6 4 4),
    (0x04C04374, .lktry 6 4 3), (0x09404374, .lkup 6 4 5), (0x0C804374, .lkdn 6 4 2), (0x10004374, .lkrel 6 4),
    (0x14004374, .lkq 6 4), (0x18004374, .lktab 6 4)] = true := by decide +kernel
/-- File 11, and file 16's R388. -/
theorem test_decode_system : decodesAs [(0x00000076, .xret), (0x04000076, .halt), (0x080A4076, .dict 4 5), (0x0C0A4076, .tlbi 4 5),
    (0x100A4076, .l1inv 4 5), (0x140A4076, .wbr 4 5), (0x180A4076, .invr 4 5), (0x1C0A4376, .domset 6 4 5),
    (0x200A4376, .attset 6 4 5), (0x240A4376, .waymask 6 4 5), (0x28000376, .snap 6), (0x2C004376, .caprd 6 4),
    (0x30004076, .smc 4), (0x34004376, .keydel 6 4), (0x00020478, .sysrd 8 1), (0x20085078, .syswr 5 4), (0x400E0078, .trap 7),
    (0x02060478, .sysrd 8 0x103)] = true := by decide +kernel
/-- 09 Table 9.3: the words of a GTH. A dictionary code, a reserved major, and the all-zero word. -/
theorem test_decode_command_and_code :
    decode (List.flatMap bytesOfWord [0x14100E7E, 0x2805, 0x706, 0, 0, 3, 0x10, 0])
        = .ok (.engineQueueEntry 0b0_00101_000_0010_0000_0001_1100 0x2805 0x706 0 0 3 0x10 0, 32)
      ∧ decode [0x53, 0x09] = .ok (.dictionaryCode 9 37, 2)
      ∧ (match decode (bytesOfWord 0x7A) with | .ok _ => false | .error _ => true) = true
      ∧ (match decode (bytesOfWord 0) with | .ok _ => false | .error _ => true) = true := by decide +kernel

/-! ### Single instructions, with results worked out in the spec -/

/-- The general register d after one instruction. -/
def after (i : Instr) (s : State) (d : BitVec 5) : Reg := (run [i] s).g d
/-- The sticky flags after one instruction (02 Table 2.6). -/
def flagsAfter (i : Instr) (s : State) : BitVec 5 := (run [i] s).me.fstat

/-- 05 R104: the quotients and remainders that it gives. -/
theorem test_div : let s := base [(1, BitVec.ofInt 64 (-7)), (2, 2), (3, 7), (4, BitVec.ofInt 64 (-2))]
    after (.div 5 1 2) s 5 = BitVec.ofInt 64 (-3) ∧ after (.div 5 3 4) s 5 = BitVec.ofInt 64 (-3) := by decide +kernel
theorem test_rem : let s := base [(1, BitVec.ofInt 64 (-7)), (2, 2), (3, 7), (4, BitVec.ofInt 64 (-2))]
    after (.rem 5 1 2) s 5 = BitVec.ofInt 64 (-1) ∧ after (.rem 5 3 4) s 5 = 1 := by decide +kernel
/-- 05 R103: SHL by 64 leaves a unchanged. -/
theorem test_shl_64 : after (.shl 5 1 2) (base [(1, 0x8001), (2, 64)]) 5 = 0x8001 := by decide +kernel
/-- 05 R105: CLZ and CTZ of zero. -/
theorem test_clz_zero : after (.clz 5 1) (base []) 5 = 64 ∧ after (.ctz 5 1) (base []) 5 = 64 := by decide +kernel
/-- 05 R106. -/
theorem test_bfxs : after (.bfxs 5 6 8 11) (base [(6, 0xABCD00)]) 5 = 0xFFFFFFFFFFFFFBCD := by decide +kernel
theorem test_bfx : after (.bfx 5 6 8 11) (base [(6, 0xABCD00)]) 5 = 0xBCD := by decide +kernel
/-- 05 R110. -/
theorem test_lui : after (.lui 5 0x12345) (base []) 5 = 0x12345000 ∧ after (.lui 5 0x80000) (base []) 5 = 0xFFFFFFFF80000000 := by
  decide +kernel
/-- 05 R118: a count of 1 ends the loop; LOOP g0 always branches. -/
theorem test_loop : (run [.loop 0x1F 1 0x3FF] (base [(1, 1)])).base = 0x1004 ∧ (run [.loop 0x1E 0 0x3FF] (base [])).base = 0xFFC := by
  decide +kernel
/-- 05 R119: JALR reads its register before it writes the link there. -/
theorem test_jalr_same : let t := run [.jalr 5 5 4] (base [(5, 0x2001)])
    t.base = 0x2004 ∧ t.g 5 = 0x1004 := by decide +kernel
/-- 05 R115: a square rounded, then the same fused. -/
theorem test_fmul : after (.fmul 7 5 5 0 0) (base [(5, 0x3F800001)]) 7 = 0x3F800002
    ∧ flagsAfter (.fmul 7 5 5 0 0) (base [(5, 0x3F800001)]) = flagNX := by decide +kernel
theorem test_ffma : after (.ffma 7 5 5 0 0) (base [(5, 0x3F800001), (7, 0xBF800002)]) 7 = 0x28800000
    ∧ flagsAfter (.ffma 7 5 5 0 0) (base [(5, 0x3F800001), (7, 0xBF800002)]) = 0 := by decide +kernel
/-- 05 Table 5.3: FCVT.dst.src.rm g5, g6. -/
theorem test_fcvt_integer :
    let c (dst src : BitVec 5) (m : BitVec 3) (x : Reg) := after (.fcvt 5 6 dst m src) (base [(6, x)]) 5
    c 4 10 1 0x406CCCCD = 3 ∧ c 4 10 0 0x40200000 = 2 ∧ c 4 10 0 0x4F32D05E = 0x7FFFFFFF
      ∧ c 4 10 0 0xC0200000 = 0xFFFFFFFFFFFFFFFE ∧ c 5 10 0 0xBF800000 = 0 ∧ c 6 11 0 0x7FF8000000000000 = 0 := by
  decide +kernel
theorem test_fcvt_float :
    let c (dst src : BitVec 5) (m : BitVec 3) (x : Reg) := after (.fcvt 5 6 dst m src) (base [(6, x)]) 5
    c 8 10 0 0x478BE000 = 0x7C00 ∧ c 12 10 0 0x43FA0000 = 0x7E ∧ c 10 13 0 0x7C = 0x7F800000
      ∧ c 13 13 0 0x7D = 0x7E ∧ c 12 12 0 0xFF = 0x7F
      ∧ flagsAfter (.fcvt 5 6 8 0 10) (base [(6, 0x478BE000)]) = flagOF ||| flagNX := by decide +kernel
/-- 07 Table 7.3: the reciprocal of -0; log2 of 8 and 2^3, exact. -/
theorem test_vrcp_zero : let t := run [.vrcp 1 2 0 10 0] (withMe (base []) (fun x => { x with v := [(2, 0x80000000)], p := [] }))
    lane 32 (t.v 1) 0 = 0xFF800000 ∧ t.me.fstat = flagDZ := by decide +kernel
theorem test_vlog2_exact : let t := run [.vlog2 1 2 0 10 0] (withMe (base []) (fun x => { x with v := [(2, ((List.range 16).foldl (fun v i => v ||| (0x41000000#512 <<< (32 * i))) 0))] }))
    lane 32 (t.v 1) 3 = 0x40400000 ∧ t.me.fstat = 0 := by decide +kernel
/-- 07 R174: VABS and VNEG of the least value. -/
theorem test_vneg_least : let s := withMe (base []) (fun x => { x with v := [(2, 0x80)] })
    lane 8 ((run [.vneg 1 2 0 0 0] s).v 1) 0 = 0x80 ∧ lane 8 ((run [.vneg 1 2 0 0 1] s).v 1) 0 = 0x7F
      ∧ lane 8 ((run [.vabs 1 2 0 0 1] s).v 1) 0 = 0x7F := by decide +kernel
/-- 07 R184: PNOT p1, p.all gives an all-zero mask; a write of p0 is discarded. -/
theorem test_pnot : (run [.pnot 1 0] (base [])).p 1 = 0 ∧ (run [.pnot 0 0] (base [])).p 0 = 0xFFFFFFFFFFFFFFFF := by decide +kernel
/-- 06 R131: a byte stored in the larder is read back, and its neighbour is as it was. -/
theorem test_store_load_larder : let t := run [.st 0 1 2 0 0, .ld 3 1 2 0] (base [(1, L 0x100), (2, 0x55)])
    t.g 3 = 0xFFFFFFFFFFFFA155 := by decide +kernel
/-- 06 R153: the last arrival clears A and advances G. -/
theorem test_bar_arr : let s : State := { base [(1, 0xFFF20000000C0)] with bars := [(3, { n := 2, a := 1, gen := 0xFFFFFFFF })] }
    let t := run [.barArr 5 1] s
    t.g 5 = 0xFFFFFFFF ∧ t.bar 3 = { n := 2, a := 0, gen := 0 } := by decide +kernel
/-- 10 Table 10.6: the default matrix, by the word that 10 R274 gives for it. -/
theorem test_lktab_default : after (.lktab 5 0) (base []) 5 = 0x122475CF := by decide +kernel
/-- 11 R290's example: TRAP 7 takes cause 0x10, with the number in XVAL and the next instruction in XPC. -/
theorem test_trap : let t := run [.trap 7] (base [])
    t.me.xcause &&& 0x80000000000000FF#64 = 0x8000000000000010 ∧ t.me.xval = 7 ∧ t.me.xpc = 0x1004 ∧ t.base = 0x2000 := by
  decide +kernel
theorem test_xret : let t := run [.trap 7, .xret] (base [])
    t.base = 0x1004 ∧ t.me.xcause &&& 0x80000000000000FF#64 = 0x10 := by decide +kernel
/-- 16 R388 and 11 R286: SYSRD of a register that names nothing traps, with the word in XVAL (03 R67). -/
theorem test_sysrd_unlisted : let t := run [.sysrd 1 0x12] (base [])
    t.me.xcause &&& 0xFF#64 = 1 ∧ t.me.xval = (wordOfInstr (.sysrd 1 0x12)).setWidth 64 := by decide +kernel
/-- 06 R150's epoch: three contributions of three cores on two dies over an old 1.0 give 2.0. -/
theorem test_epoch_order :
    let e : Epoch := { epoch0 0x4000000 [3, 5, 0x420] [3, 5, 0x420] with
      type := 10, n := 1, p := 3, ms := true, contributions := [{ core := 3, parts := [(0, 0x4B800000)] },
        { core := 0x420, parts := [(0, 0x3F800000)] }, { core := 5, parts := [(0, 0xCB800000)] }] }
    let s := ({ base [] with mem := [] } : State).poke 0x4000000 (bytesOfNat 4 0x3F800000)
    leNat ((s.applyEpoch e).homeBytes { Loc.plain 0x4000000 with ms := true } 4) = 0x40000000 := by decide +kernel
/-- 10 Table 10.11: an older waiter's .s holds back a younger .ix, but not a younger .is. -/
theorem test_lock_queue : let u (t : Reg) (m : BitVec 3) : LockUser := { uid := t.toNat, age := { t := t, htid := 0 }, mode := m }
    let l : Lock := { vf := 1, secure := false, name := 0, holders := [u 20 2, u 10 0], waiters := [u 30 3] }
    grantable 0x122475CF l (u 40 0) = true
      ∧ grantable 0x122475CF l (u 50 2) = false := by decide +kernel
/-- A step fetches, decodes and runs what withFetchWord places, as the first instruction after reset. -/
theorem test_fetch_word : (match step (State.reset.withFetchWord 32 0x0010420A) with
    | .next t => t.g 4 == 8
    | _ => false) = true := by decide +kernel
theorem test_reset_memory : MemoryOk State.reset := by
  unfold MemoryOk
  decide +kernel

/-! ### States and operands that meet the hypotheses of the statements -/

/-- The location that an address names for the running slot. -/
def loc (s : State) (use : Use) (va : Reg) (n : Nat) : Loc :=
  match s.check (s.who s.cur.core s.cur.slot) (s.slotFind s.cur.core s.cur.slot) use va n n with
  | some (.ok (.at' l)) => l
  | _ => Loc.plain 0

theorem witness_IntegerArithmetic : Ready (base []) ∧ TrapReady (base []) 0x01 ((0x7C : Word).setWidth 64) (base []).base := by
  unfold Ready TrapReady
  decide +kernel
theorem witness_BitAndImmediateOps : (54 : BitVec 6).toNat + ((9 : BitVec 6).toNat + 1) ≤ 64 ∧ ¬(54 : BitVec 6).toNat + ((10 : BitVec 6).toNat + 1) ≤ 64
    ∧ (0 : BitVec 6).toNat + ((63 : BitVec 6).toNat + 1) ≤ 64 := by decide
/-- A field of 11 bits at bit 54 runs past bit 63. -/
theorem witness_BitAndImmediateOps_illegal : 64 < (54 : BitVec 6).toNat + ((10 : BitVec 6).toNat + 1) ∧ Ready (base [])
    ∧ ∀ i ∈ ([.bfx 1 2 54 10, .bfxs 1 2 54 10, .bfi 1 2 54 10] : List Instr),
        TrapReady (base []) 0x01 (illegalXval (base []).cur.code (wordOfInstr i) 0) (base []).base := by
  unfold Ready TrapReady
  decide +kernel
theorem witness_ScalarFloat : (5 : BitVec 3) ≤ 5 ∧ (3 : BitVec 3) < 4 ∧ legal (.fcvt 1 2 13 5 0) = true := by decide
theorem witness_VectorIntegerOps : (7 : BitVec 5) ≤ 7 ∧ (1 : BitVec 3) ≤ 1 ∧ isSigned 6 = true ∧ (13 : BitVec 5) ≤ 13 := by decide
theorem witness_VectorFloatLanes : (8 : BitVec 5) ≤ 8 ∧ (11 : BitVec 5) ≤ 11 ∧ (5 : BitVec 3) ≤ 5 ∧ (10 : BitVec 5) ≤ 10 := by decide
theorem witness_VectorMovesAndMasks : (13 : BitVec 5) ≤ 13 ∧ ((5 : BitVec 5) ≤ 5 ∨ (5 : BitVec 5) = 16) ∧ (1 : BitVec 5) ≤ 1
    ∧ okVcmp 10 1 3 = true ∧ okVcmp 0 1 1 = true ∧ legal (.vcvt 1 2 13 0 0 5) = true ∧ legal (.vcvt 1 2 0 0 6 1) = true
    ∧ (7 : BitVec 5) < 8 := by decide
theorem witness_VectorReductions : okReduce 5 7 0 = true ∧ okReduce 0 11 5 = true ∧ okReduce 1 0 0 = true ∧ isInt 7 = true
    ∧ isFloat 11 = true ∧ okDot 15 1 = true ∧ okDot 13 0 = true ∧ isFloat 15 = false := by decide

/-- A slot with addresses of plain memory, of a read-only page, of memory-side and host memory, and of the windows. -/
def memS : State :=
  base [(1, 0x10000), (2, 0x11008), (3, 0x12008), (4, 0x13000), (5, L 0x100), (6, C 0x80), (7, L 0xEFF8), (8, 0xFFF0200000000), (9, 0x13008)]
/-- The same with a line of the read-only page in the L1. -/
def memL : State :=
  withCore memS (fun c => { c with l1 := [{ line := 0x80020, bytes := List.replicate 128 3, ro := true, secure := false }] })

theorem witness_Loads_l1 : let l := loc memL .load 0x11008 8
    Ready memL ∧ (6 : BitVec 3) ≤ 6 ∧ Names memL .load (memL.g 2) 8 8 l
      ∧ (l1Find (memL.core 0).l1 (l.place / 128) l.sec).isSome = true ∧ l.cacheable = true := by
  unfold Ready Names
  decide +kernel
/-- The last doubleword below the spill area of the larder. -/
theorem witness_Loads_home : let l := loc memS .load (L 0xEFF8) 8
    Ready memS ∧ Names memS .load (memS.g 7) 8 8 l ∧ Open (Resolved memS (L 0xEFF8)) l 8
      ∧ memS.ahead 0 0 l 8 true = none ∧ memS.ahead 0 0 l 8 false = none ∧ memS.lostAhead 0 0 l.place 8 = false
      ∧ l1Find (memS.core 0).l1 (l.place / 128) l.sec = none := by
  unfold Ready Names Open Resolved
  decide +kernel
theorem witness_Loads_memory_side : let l := loc memS .load (memS.g 3) 8
    Names memS .load (memS.g 3) 8 8 l ∧ l.ms = true ∧ Open (Resolved memS (memS.g 3)) l 8 ∧ memS.ahead 0 0 l 8 true = none := by
  unfold Names Open Resolved
  decide +kernel
/-- A word that the slot has read ahead, for an LD or an LDF. -/
def earlyW (p : Nat) (ldf : Bool) (b : Byte) : Early :=
  { core := 0, slot := 0, place := p, secure := false, bytes := List.replicate 8 b, ldf := ldf, l1 := false, ro := false
    since := { regs := [], loads := false }, inv := none, route := 0, lost := false }
/-- A slot that has read a word ahead. -/
theorem witness_Loads_ahead : let s : State := { memS with early := [earlyW 0x4000000 false 9] }
    let l := loc s .load (s.g 1) 8
    Ready s ∧ Names s .load (s.g 1) 8 8 l ∧ s.ahead 0 0 l 8 true = some (List.replicate 8 9) ∧ s.lostAhead 0 0 l.place 8 = false := by
  unfold Ready Names
  decide +kernel
/-- The same for an LDF: the word of an LD does not serve it. -/
theorem witness_Loads_ahead_fresh : let s (ldf : Bool) : State := { memS with early := [earlyW 0x4000000 ldf 9] }
    let l := loc memS .load (memS.g 1) 8
    (s true).ahead 0 0 l 8 false = some (List.replicate 8 9) ∧ (s false).ahead 0 0 l 8 false = none
      ∧ ({ memS with early := [{ earlyW 0x4000000 true 9 with lost := true }] } : State).lostAhead 0 0 l.place 8 = true := by decide +kernel
theorem witness_Loads_window : Ready memS ∧ Decodes memS (memS.g 8) 2 2 2 0 ∧ NothingAhead memS
    ∧ ∀ j, j < 2 → memS.aliasBad memS.cur.core 2 (0 + j) = false := by
  unfold Ready Decodes
  decide +kernel
theorem witness_Stores_larder : let l := loc memS .store (L 0xEFF8) 8
    Ready memS ∧ Names memS .store (memS.g 7) 8 8 l ∧ memS.here.sb.length < 32 ∧ storeOf l.place = .larder := by
  unfold Ready Names
  decide +kernel
theorem witness_Stores_buffered : let l := loc memS .store 0x10000 8
    Names memS .store (memS.g 1) 8 8 l ∧ memS.here.sb.length < 32 ∧ storeOf l.place ≠ .larder ∧ l.place % 8 = 0 := by
  unfold Names
  decide +kernel
theorem witness_Stores_prefetch : Ready memS ∧ (memS.g 1).toNat < 2 ^ 52 ∧ (memS.g 8).toNat < 2 ^ 52
    ∧ ((2 : BitVec 5) ≠ 2 ∨ (memS.g 1).toNat < 0xFFF0200000000) ∧ (3 : BitVec 5) ≤ 3 := by
  unfold Ready
  decide +kernel

/-- Addresses with a high bit set, and one off its alignment; the first that is both takes cause 0x07. -/
def badS : State := base [(1, 0x10001), (2, 0x0010000000000000), (3, 0x000FFFFFFFFFFFFF), (4, 0xFFF0000000000005)]
theorem witness_AddressTraps : Ready badS
    ∧ (2 ^ 52 ≤ (badS.g 2).toNat ∧ TrapReady badS 0x07 (badS.g 2) badS.base)
    ∧ ((badS.g 1).toNat < 2 ^ 52 ∧ (badS.g 1).toNat % 8 ≠ 0 ∧ TrapReady badS 0x06 (badS.g 1) badS.base)
    ∧ ((badS.g 3).toNat < 2 ^ 52 ∧ (badS.g 3).toNat % 2 ≠ 0 ∧ TrapReady badS 0x06 (badS.g 3) badS.base)
    ∧ (2 ^ 52 ≤ (badS.g 4).toNat ∧ (badS.g 4).toNat % 4 ≠ 0 ∧ TrapReady badS 0x07 (badS.g 4) badS.base) := by
  unfold Ready TrapReady
  decide +kernel
theorem witness_Atomics : let l := loc memS .atomic (L 0x100) 8
    Ready memS ∧ Names memS .atomic (memS.g 5) 8 8 l ∧ (Resolved memS (memS.g 5)).released 0 0 4 = true
      ∧ Open (Resolved memS (memS.g 5)) l 8 ∧ memS.lostAhead 0 0 l.place 8 = false ∧ (∀ e ∈ memS.here.sb, e.slot = memS.cur.slot → e.block ≠ l.place / 64)
      ∧ (Resolved memS (memS.g 5)).fenceHoldsAt 0 0 memS.fence l.place = false := by
  unfold Ready Names Open Resolved
  decide +kernel
theorem witness_Atomics_narrow : let l := loc memS .atomic (memS.g 3) 4
    Names memS .atomic (memS.g 3) 4 4 l ∧ Open (Resolved memS (memS.g 3)) l 4 := by
  unfold Names Open Resolved
  decide +kernel
theorem witness_Fences : Ready memS ∧ (4 : BitVec 3) ≤ 4 ∧ memS.released memS.cur.core memS.cur.slot 4 = true
    ∧ (∀ e ∈ memS.here.sb, e.slot ≠ memS.cur.slot) ∧ ∀ m ∈ memS.here.mixq ++ memS.here.dataq, m.slot ≠ memS.cur.slot := by
  unfold Ready
  decide +kernel

/-- Vectors of indices, among them two equal ones, and masks. -/
def vecS : State := withMe (base [(1, L 0x100), (2, L 0x104), (3, 0x12008), (5, L 0x240)]) (fun x => { x with
    v := [(1, 0x3F), (2, 0x00000010_00000010_00000028_00000004_00000000#512), (3, 7)], p := masks })
set_option synthInstance.maxSize 1000 in
theorem witness_VectorMemory : let at1 (j : Nat) : Reg := vecS.g 5 + BitVec.ofNat 64 (4 * j)
    let at2 (j : Nat) : Reg := vecS.g 1 + (BitVec.ofNat 64 (lane 32 (vecS.v 2) j) <<< 2)
    Ready vecS ∧ vecS.here.sb.length ≤ 32 ∧ (vecS.g 5).toNat < 2 ^ 52 ∧ (vecS.g 5).toNat % 4 = 0 ∧ isWide 4 = true
      ∧ (∀ j, j < 16 → InLarder vecS (at1 j) 4 ∧ (at1 j).toNat % 4 = 0)
      ∧ (∀ j, j < 16 → InLarder vecS (at2 j) 4 ∧ (at2 j).toNat % 4 = 0) := by
  unfold Ready InLarder
  decide +kernel

/-- A word of host memory that the function's publication buffer holds, and one that it does not. -/
def memP : State := { memS.poke (2 ^ 52 + 0x7000) (bytesOfNat 8 0x5000 ++ bytesOfNat 8 0x1000) with
  vfs := [(1, { Ngamon.reset with pubbase := 0x7000 })]
  pub := [{ vf := 1, line := (2 ^ 52 + 0x5000) / 128, bytes := [(0, 9), (1, 8)], due := false }] }
theorem witness_Atomics_host : let l := loc memP .atomic (memP.g 4) 8
    let l' := loc memP .atomic (memP.g 9) 8
    Ready memP ∧ Names memP .atomic (memP.g 4) 8 8 l ∧ storeOf l.place = .host ∧ Open (Resolved memP (memP.g 4)) l 8
      ∧ Names memP .atomic (memP.g 9) 8 8 l' ∧ storeOf l'.place = .host ∧ Open (Resolved memP (memP.g 9)) l' 8 := by
  unfold Ready Names Open Resolved
  decide +kernel

/-- An epoch of two words at 0x10000, and control words: to declare, to close, to abandon, and a bad one. -/
def redS (es : List Epoch) : State :=
  let s := base [(1, 0x10000), (2, 0x0000000200040001), (3, 0x8000000200040001), (4, 0x8000000000040001), (5, 0x0000200000000000), (6, 0x0000000000040001), (7, 0x0000000300040001)]
  { withMe s (fun x => { x with v := [(1, 0x7_00000005_00000009#512), (2, 0x0_00000000_00000004#512)], p := [(1, 3)] }) with epochs := es }
/-- Another line with the same home. -/
def sameHome : Nat :=
  (((List.range 4000).map (fun i => 0x4000000 + 128 * (i + 100))).find? (fun x => (redS []).homeSlice x = (redS []).homeSlice 0x4000000)).getD 0

theorem witness_ReductionEpochs_open : let s := redS [epoch0 (0x4000000 + 0x2000) [1] []]
    let l := loc s .load (s.g 1) 1
    let u := Resolved s (s.g 1)
    let x := s.g 2
    Ready s ∧ Names s .load (s.g 1) 1 128 l ∧ (s.g 1).toNat < windowBase ∧ storeOf l.place = .hbm
      ∧ x.toNat / 2 ^ 45 % 2 ^ 18 = 0 ∧ x.toNat / 2 ^ 21 % 2 ^ 11 = 0 ∧ x.toNat / 2 ^ 12 % 2 ^ 4 = 0 ∧ isWide (x.extractLsb' 16 5) = true
      ∧ (s.g 1).toNat % u.pageSize 0 0 (s.g 1).toNat + 2 * 4 ≤ u.pageSize 0 0 (s.g 1).toNat
      ∧ x.getLsbD 63 = false ∧ x.toNat / 2 ^ 32 % 2 ^ 13 = 2 ∧ u.epochs.find? (fun e => e.base = l.place) = none
      ∧ (u.epochs.filter (fun e => u.epochHome e.base e.ms = u.epochHome l.place l.ms)).length < 2 ∧ u.inEpoch l.place 8 = false
      ∧ u.mute 0 l.place = false ∧ (s.g 6).toNat / 2 ^ 32 % 2 ^ 13 = 0 ∧ (s.g 6).getLsbD 63 = false := by
  unfold Ready Names Resolved
  decide +kernel
theorem witness_ReductionEpochs_busy : let s := redS [epoch0 sameHome [1] [], epoch0 (sameHome + 16) [1] []]
    let l := loc s .load (s.g 1) 1
    let u := Resolved s (s.g 1)
    Names s .load (s.g 1) 1 128 l ∧ u.epochs.find? (fun e => e.base = l.place) = none
      ∧ 2 ≤ (u.epochs.filter (fun e => u.epochHome e.base e.ms = u.epochHome l.place l.ms)).length := by
  unfold Names Resolved
  decide +kernel
/-- An epoch whose range overlaps the one to be opened, though it begins at another base. -/
theorem witness_ReductionEpochs_overlap : let s := redS [{ epoch0 (0x4000000 - 128) [1] [] with n := 40 }]
    let l := loc s .load (s.g 1) 1
    let u := Resolved s (s.g 1)
    Names s .load (s.g 1) 1 128 l ∧ u.epochs.find? (fun e => e.base = l.place) = none
      ∧ (u.epochs.filter (fun e => u.epochHome e.base e.ms = u.epochHome l.place l.ms)).length < 2 ∧ u.inEpoch l.place 8 = true := by
  unfold Names Resolved
  decide +kernel
theorem witness_ReductionEpochs_join : let s := redS [epoch0 0x4000000 [1] []]
    let l := loc s .load (s.g 1) 1
    Names s .load (s.g 1) 1 128 l ∧ (Resolved s (s.g 1)).epochs.find? (fun e => e.base = l.place) = some (epoch0 0x4000000 [1] [])
      ∧ [1].contains s.cur.core = false ∧ [1].length < 2 ∧ (epoch0 0x4000000 [1] []).n = 2 ∧ (epoch0 0x4000000 [1] []).type = 4
      ∧ (epoch0 0x4000000 [1] []).p = 2 ∧ (s.g 7).toNat / 2 ^ 32 % 2 ^ 13 = 3 := by
  unfold Names Resolved
  decide +kernel
/-- Epochs that the core has declared already, that have all their declarations, and that it has closed. -/
theorem witness_ReductionEpochs_twice : ∀ e ∈ [epoch0 0x4000000 [0] [], epoch0 0x4000000 [1, 2] [], epoch0 0x4000000 [0, 1] [0], epoch0 0x4000000 [1] []],
    let s := redS [e]
    let l := loc s .load (s.g 1) 1
    Names s .load (s.g 1) 1 128 l ∧ (Resolved s (s.g 1)).epochs.find? (fun e => e.base = l.place) = some e := by
  unfold Names Resolved
  decide +kernel
theorem witness_ReductionEpochs_close : let s := redS [epoch0 0x4000000 [0, 1] [1]]
    let l := loc s .load (s.g 1) 1
    Names s .load (s.g 1) 1 128 l ∧ (s.g 3).getLsbD 63 = true ∧ (s.g 3).toNat / 2 ^ 32 % 2 ^ 13 = 2 ∧ (s.g 4).getLsbD 63 = true
      ∧ (s.g 4).toNat / 2 ^ 32 % 2 ^ 13 = 0 ∧ (s.g 5).toNat / 2 ^ 45 % 2 ^ 18 ≠ 0
      ∧ (Resolved s (s.g 1)).epochs.find? (fun e => e.base = l.place) = some (epoch0 0x4000000 [0, 1] [1])
      ∧ ¬∃ q ∈ (Resolved s (s.g 1)).posted, q.src = s.cur.core ∧ q.op ≠ .sig := by
  unfold Names Resolved
  decide +kernel
/-- A contribution that the interface of the core still holds. -/
theorem witness_ReductionEpochs_flying : let s : State := { redS [epoch0 0x4000000 [0] []] with
      posted := [{ src := 0, slot := 1, uid := 30, fence := 1, place := 0x4000000, op := .add 0x4000000 { core := 0, parts := [] }, va := 0x10000, vf := 1 }] }
    let l := loc s .load (s.g 1) 1
    Names s .load (s.g 1) 1 128 l ∧ ∃ q ∈ (Resolved s (s.g 1)).posted, q.src = s.cur.core ∧ q.op ≠ .sig := by
  unfold Names Resolved
  decide +kernel
/-- The last close of an epoch, of which an element's line is on its way for another agent. -/
theorem witness_ReductionEpochs_late : let s : State := { redS [{ epoch0 0x4000000 [0, 1] [1] with contributions := [{ core := 1, parts := [(0, 3)] }] }] with
      misses := [{ slice := (base []).homeSlice 0x4000000, line := 0x80000, tenant := 5, key := 0, secure := false, keep := [] }] }
    let l := loc s .load (s.g 1) 1
    let u := Resolved s (s.g 1)
    Names s .load (s.g 1) 1 128 l ∧ (s.g 3).getLsbD 63 = true ∧ ∃ e ∈ u.epochs, e.base = l.place ∧ e.lastClose 0 = true ∧ u.applyWaits e = true := by
  unfold Names Resolved
  decide +kernel
theorem witness_ReductionEpochs_add : let s := redS [epoch0 0x4000000 [0] []]
    let va (j : Nat) : Reg := s.g 1 + BitVec.ofNat 64 (lane 32 (s.v 2) j)
    Ready s ∧ isWide 4 = true ∧ (s.fenceHoldsAt s.cur.core s.cur.slot s.fence 0x4000000 || s.mute s.cur.core 0x4000000) = false
      ∧ (List.range 16).filter (s.p 1).getLsbD = [0, 1] ∧ (List.range 16).filter (s.p 4).getLsbD = []
      ∧ ∀ j ∈ [0, 1], Names s .atomic (va j) 4 4 (loc s .atomic (va j) 4) ∧ Resolved s (va j) = s
        ∧ s.epochFor s.cur.core (loc s .atomic (va j) 4).place = some (epoch0 0x4000000 [0] []) := by
  unfold Ready Names Resolved
  decide +kernel
/-- The same behind a FENCE.net whose earlier write still waits. -/
theorem witness_ReductionEpochs_held : let s := run [.st 8 1 1 3 0, .fence 1] (redS [epoch0 0x4000000 [0] []])
    s.fenceHoldsAt s.cur.core s.cur.slot s.fence 0x4000000 = true := by decide +kernel
/-- Behind an earlier contribution of the core to the epoch, and not behind one of another core or to another epoch. -/
theorem witness_ReductionEpochs_behind : let q (c b : Nat) : Posted :=
      { src := c, slot := 1, uid := 30, fence := 0, place := b, op := .add b { core := c, parts := [] }, va := 0x10000, vf := 1 }
    let op : PostedOp := .add 0x4000000 { core := 0, parts := [(0, 4)] }
    (q 0 0x4000000).before 0 0x4000000 op = true ∧ (q 1 0x4000000).before 0 0x4000000 op = false ∧ (q 0 0x4000080).before 0 0x4000000 op = false := by decide
/-- An epoch of two words of a line that its slice holds, with a contribution to the first of them. -/
def applyE : Epoch := { epoch0 0x4000000 [0, 1] [0, 1] with contributions := [{ core := 0, parts := [(0, 7)] }] }
def applyS : State := { redS [applyE] with
  l2 := [{ slice := (base []).homeSlice 0x4000000, line := 0x80000, way := 3, bytes := (List.range 128).map (fun i => (i, BitVec.ofNat 8 i)),
           dirty := false, bad := [], tenant := 5, wrote := [], key := 0, secure := false }] }
theorem witness_ReductionEpochs_apply : let s := applyS
    let e := applyE
    isWide e.type = true ∧ e.base % 128 = 0 ∧ e.ms = false ∧ s.keyGone e.key = false ∧ e.declared.Nodup ∧ (∀ c ∈ e.declared, c < 4096)
      ∧ e.touched 0 = true ∧ e.touched 1 = false
      ∧ ∀ i, i < e.n → storeOf (e.loc i).place = .hbm ∧ (s.l2Hit ((e.loc i).place / 128) e.secure).isSome ∧ s.homeBad (e.loc i) 4 = false := by
  decide +kernel

/-- A slot beside waiters on the barrier objects 3 and 9. -/
def barS : State :=
  { waiting (base [(1, 0xFFF20000000C0), (2, 3), (3, 0), (4, 0xFFF2000000240), (6, 0xFFFF)]) (.barrier 3) (.barrier 9) (.barrier 3) with
    bars := [(3, { n := 2, a := 0, gen := 3 }), (9, { n := 2, a := 1, gen := 5 })] }
/-- The same with object 9 a member of a barrier whose master is package 5. -/
def barL : State := { barS with links := [(1, { Link.reset with raw := BitVec.ofNat 128 (2 ^ 63 + 9 + 2 ^ 72 + 5 * 2 ^ 84) })] }

theorem witness_Barriers : Ready barS ∧ barS.barAt 0 0 (barS.g 1) = .ok 3 ∧ barS.barAt 0 0 (barS.g 4) = .ok 9
    ∧ barS.linkOf 3 = none ∧ 1 ≤ (barS.g 6).toNat ∧ (barS.g 6).toNat < 2 ^ 16 ∧ (barS.bar 3).n ≠ 0
    ∧ barS.released 0 0 3 = true ∧ (barS.bar 3).a + 1 ≠ (barS.bar 3).n ∧ (barS.bar 9).a + 1 = (barS.bar 9).n
    ∧ (barS.bar 3).gen = (barS.g 2).setWidth 32 ∧ (barS.bar 3).gen ≠ (barS.g 3).setWidth 32 := by
  unfold Ready
  decide +kernel
theorem witness_Barriers_linked : Ready barL ∧ barL.barAt 0 0 (barL.g 4) = .ok 9 ∧ barL.linkOf 9 = some 1
    ∧ (barL.link 1).master ≠ barL.package.toNat ∧ barL.released 0 0 4 = true ∧ (barL.bar 9).a + 1 = (barL.bar 9).n := by
  unfold Ready
  decide +kernel
theorem witness_Barriers_woken : let s (v : Reg) := withMe barS (fun x => { x with wait := .woken v })
    (s 0).barAt 0 0 (barS.g 1) = .ok 3 ∧ (s 0).me.wait = .woken 0 ∧ (s 1).me.wait = .woken 1
      ∧ TrapReady (s 1).unpark 0x0C ((s 1).g 1) (s 1).base := by
  unfold TrapReady
  decide +kernel

/-- A counter with a value and a binding, two waiters on it, and operands at the bounds of CNT.INIT. -/
def cntAt0 : Nat := cellarAt 0 0x80
def cntWho : Counter := { core := 0, root := 1, rid := 0, secure := false }
def cntS (v b : Nat) : State :=
  let s := waiting (base [(1, C 0x80), (2, 3), (3, 0), (4, 0xFFFFFFFF), (5, 0x100000003), (6, 0x200000000), (7, 0x1FFFFFFFF)])
    (.counter cntAt0) (.barrier 9) (.counter cntAt0)
  ({ s with counters := [(cntAt0, cntWho)] }).poke cntAt0 (bytesOfNat 4 v ++ bytesOfNat 4 0x12 ++ bytesOfNat 8 b)
/-- A cluster whose directory is full. -/
def cntFull : State := { cntS 0 0 with counters := (List.range 512).map (fun i => (cellarAt 0 (0x1000 + 16 * i), cntWho)) }

theorem witness_Counters_init : let s := cntS 1 0
    let f : State := { cntS 1 0 with counters := [] }
    Ready s ∧ s.cntAt 0 false (s.g 1) = .ok cntAt0 ∧ s.live cntAt0 = true ∧ s.bad cntAt0 = false ∧ s.fenceHoldsAt 0 0 s.fence cntAt0 = false
      ∧ s.mute 0 cntAt0 = false ∧ s.posted = [] ∧ f.posted = [] ∧ cntFull.posted = []
      ∧ f.fenceHoldsAt 0 0 f.fence cntAt0 = false ∧ cntFull.fenceHoldsAt 0 0 cntFull.fence cntAt0 = false ∧ (s.g 4).toNat < 2 ^ 32
      ∧ 2 ^ 32 ≤ (s.g 5).toNat ∧ (s.g 7).toNat < 2 ^ 33 ∧ f.live cntAt0 = false ∧ 2 ^ 33 ≤ (s.g 6).toNat
      ∧ cntFull.live cntAt0 = false ∧ cntFull.cntAt 0 false (cntFull.g 1) = .ok cntAt0
      ∧ 512 ≤ (cntFull.counters.filter (fun e => cellarCluster e.1 = cellarCluster cntAt0)).length
      ∧ TrapReady f 0x06 (f.g 1) f.base ∧ f.released 0 0 3 = true := by
  unfold Ready TrapReady
  decide +kernel
/-- Values at which an update fires, and does not, and at which it is held to the range. -/
theorem witness_Counters_update : ∀ s ∈ [cntS 1 0, cntS 2 0x1234, cntS 0 0, cntS 0x80000000 7, cntS 0x7FFFFFFF 7],
    Ready s ∧ s.cntAt 0 false (s.g 1) = .ok cntAt0 ∧ Tab.find s.counters cntAt0 = some cntWho ∧ s.bad cntAt0 = false
      ∧ s.bad (cntAt0 + 8) = false ∧ s.released 0 0 3 = true
      ∧ (s.fenceHoldsAt 0 0 s.fence cntAt0 || s.mute 0 cntAt0) = false ∧ s.posted = [] := by
  unfold Ready
  decide +kernel
/-- A store to host memory before the slot's FENCE.net, in its buffer. -/
def hostStore : SbEntry :=
  { slot := 0, uid := 9, fence := 0, block := (2 ^ 52 + 0x5000) / 64, bytes := [(0, 1)], ms := false, key := 0, va := 0x13000, root := 1, rid := 0,
    vf := 1, tenant := 5, secure := false, route := 0 }
/-- Counters of the next cluster, live and not, of which the interface holds writes back: behind that store, and behind
an earlier one of the core to the line. -/
def cntHeld (live behind : Bool) : State :=
  let p := cellarAt 1 0x80
  { withCore (base [(1, BitVec.ofNat 64 (0xFFF1000000000 + 2 ^ 20 + 0x80)), (2, 7)]) (fun c =>
      if behind then c else { c with sb := [hostStore], fences := [(0, 1)] }) with
    counters := if live then [(p, cntWho)] else []
    posted := if behind then [{ src := 0, slot := 1, uid := 30, fence := 0, place := p, op := .sig, va := 0, vf := 1 }] else [] }
theorem witness_Counters_held : let p := cellarAt 1 0x80
    ∀ live ∈ [true, false], let s := cntHeld live false
    Ready s ∧ s.cntAt 0 false (s.g 1) = .ok p ∧ s.fenceHoldsAt 0 0 s.fence p = true ∧ s.live p = live ∧ (s.g 2).toNat < 2 ^ 32
      ∧ s.released 0 0 3 = true ∧ s.bad p = false ∧ s.bad (p + 8) = false := by
  unfold Ready
  decide +kernel
theorem witness_Counters_behind : let s := cntHeld true true
    let p := cellarAt 1 0x80
    s.fenceHoldsAt 0 0 s.fence p = false ∧ s.mute 0 p = false ∧ Tab.find s.counters p = some cntWho
      ∧ s.posted.any (fun y => y.before 0 p .sig) = true ∧ s.posted.any (fun y => y.before 0 p (.cntAdd 5 7)) = true
      ∧ s.posted.any (fun y => y.before 0 p (.cntInit 5 7 cntWho)) = true ∧ s.posted.any (fun y => y.before 0 (p + 128) .sig) = false := by
  decide +kernel
/-- A CNT.ADD that is held back leaves its register owed, and its reply fills it later with the old value. -/
theorem test_cntAdd_held : let s := run [.cntAdd 5 1 2] ({ cntHeld true true with posted := (cntHeld true true).posted ++ [] } : State)
    s.me.owed = [5] ∧ s.base = 0x1004 ∧ s.posted.length = 2 ∧ ((s.performPosted 1).posted.length = 2)
      ∧ (let t := (s.performPosted 0).performPosted 0
         t.me.owed = [] ∧ t.g 5 = BitVec.ofInt 64 (-1) ∧ t.cntValue (cellarAt 1 0x80) = 6) := by decide +kernel
theorem witness_Counters_wait : ((cntS 0 0).cntValue cntAt0).toInt ≤ 0 ∧ 0 < ((cntS 1 0).cntValue cntAt0).toInt
    ∧ (withMe (cntS 1 0) (fun x => { x with wait := .woken 5 })).me.wait = .woken 5 := by decide +kernel

/-- A function with a version word; one with a buffered line; one whose buffered lines are another function's. -/
def pubS (l : List PubLine) : State :=
  { base [(1, 0x4000)] with vfs := [(1, { Ngamon.reset with pubver := 0x4000 })], pub := l }
def pubOf (vf : BitVec 9) (due : Bool) : PubLine := { vf := vf, line := 2 ^ 45 + 3, bytes := [(4, 7), (127, 8)], due := due }
theorem witness_Publish : ∀ s ∈ [pubS [], pubS [pubOf 1 false], pubS [pubOf 2 false]],
    Ready s ∧ s.g 1 = (Tab.get Ngamon.reset s.vfs s.region.vf.toNat).pubver ∧ s.released 0 0 4 = true ∧ (s.g 1).toNat < 2 ^ 52 := by
  unfold Ready
  decide +kernel
theorem witness_Publish_lines : (¬∃ e ∈ (pubS [pubOf 2 false]).pub, e.vf = (pubS []).region.vf)
    ∧ (∃ e ∈ (pubS [pubOf 1 false]).pub, e.vf = (pubS []).region.vf) ∧ (¬∃ e ∈ (pubS [pubOf 2 true]).pub, e.vf = (pubS []).region.vf ∧ e.due = true)
    ∧ (∃ e ∈ (pubS [pubOf 1 true]).pub, e.vf = (pubS []).region.vf ∧ e.due = true) := by decide +kernel
/-- A PUBLISH that waits for its lines, or no longer; and one of another address. -/
theorem witness_Publish_goes_on : (∀ s ∈ [pubS [pubOf 1 true], pubS [pubOf 2 true]],
      (withMe s (fun x => { x with wait := .publishing })).me.wait = .publishing)
    ∧ (pubOf 1 true).due = true ∧ Tab.sorted (pubOf 1 true).bytes = true ∧ (∀ b ∈ (pubOf 1 true).bytes, b.1 < 128)
    ∧ (let s := withMe (pubS []) (fun x => { x with g := [(1, 0x4008)] })
       s.g 1 ≠ (Tab.get Ngamon.reset s.vfs s.region.vf.toNat).pubver ∧ (s.g 1).toNat < 2 ^ 52 ∧ TrapReady s 0x06 (s.g 1) s.base) := by
  unfold TrapReady
  decide +kernel
/-- 14 R353: a line that is due goes to host memory, and nothing but its bytes. -/
theorem test_pub_line : let t := (pubS [pubOf 1 true]).pubLine 0
    t.byte (2 ^ 52 + 3 * 128 + 127) = 8 ∧ t.byte (2 ^ 52 + 3 * 128 + 5) = 0 ∧ t.pub = [] := by decide +kernel

/-- Descriptors in the larder: one that is good, one with a reserved bit; a ring of three slots, more or less full;
a command that names it; a slot woken, and one whose ring is gone. -/
def ringD : RingDesc := { win := 0, offset := 0x1000, slotsz := 0, slots := 2 }
def ringS (q : Tab Ring) (w : Wait) : State :=
  let s := withCore (withMe (base [(1, L 0x100), (2, 1), (3, 3), (4, L 0x140), (5, 0x8000000000000002), (7, 4), (8, 0x8000000000000001)])
    (fun x => { x with wait := w })) (fun c => { c with q := q })
  s.poke (larderAt 0 0x100) (bytesOfNat 16 (0x1000 + 2 * 2 ^ 72) ++ List.replicate 48 0 ++ bytesOfNat 16 (0x1000 + 2 * 2 ^ 72 + 2 ^ 80))
def ringsF (f : Nat) : Tab Ring := [(1, { desc := ringD, head := 1, tail := (1 + f) % 3, filled := f })]

theorem witness_Rings_config : let s := ringS (ringsF 1) .none
    Ready s ∧ (s.here.asSource 1 || s.here.asDest 1) = false ∧ InLarder s (s.g 1) 16 ∧ (s.g 1).toNat % 16 = 0
      ∧ s.descBad 0 (larderNat s (s.g 1) 16) = false ∧ InLarder s (s.g 4) 16 ∧ larderNat s (s.g 4) 16 / 2 ^ 80 ≠ 0 := by
  unfold Ready InLarder
  decide +kernel
theorem witness_Rings_busy : let s := engine0 [(hdr 0 1 2 0 3 0, [0x18C, 0])]
    Ready s ∧ (s.here.asSource 1 || s.here.asDest 1) = true ∧ s.here.asSource 1 = true := by
  unfold Ready
  decide +kernel
/-- A handle that a queued command names, and a descriptor with a reserved bit set. -/
def busyRing : State :=
  withMe ((engine0 [(hdr 0 1 2 0 3 0, [0x18C, 0])]).poke (larderAt 0 0x500) (List.replicate 16 0xFF)) (fun x => { x with g := [(1, L 0x500)] })
theorem witness_Rings_busy_bad : let s := busyRing
    Ready s ∧ (s.here.asSource 1 || s.here.asDest 1) = true ∧ InLarder s (s.g 1) 16 ∧ (s.g 1).toNat % 16 = 0
      ∧ larderNat s (s.g 1) 16 / 2 ^ 80 ≠ 0 := by
  unfold Ready InLarder
  decide +kernel
theorem witness_Rings_put_pop : let s (f : Nat) := ringS (ringsF f) .none
    (s 0).here.ring 1 = some { desc := ringD, head := 1, tail := 1, filled := 0 } ∧ (s 0).here.ring 2 = none
      ∧ (s 0).released 0 0 (min ringD.win.toNat 2) = true ∧ (s 0).here.asDest 1 = false ∧ (s 0).here.convoyInto 1 = false
      ∧ (s 0).here.asSource 1 = false ∧ ((s 0).g 2).toNat = 1 ∧ ((s 0).g 3).toNat ≤ 3 - 0 ∧ 3 - 3 < ((s 3).g 2).toNat
      ∧ 3 < ((s 0).g 7).toNat ∧ ((s 0).g 3).toNat ≤ 3 := by decide +kernel
theorem witness_Rings_wait : let s (f : Nat) (w : Wait) := ringS (ringsF f) w
    Ready (s 1 .none) ∧ ((s 1 .none).g 2).toNat % 2 ^ 9 ≤ 1 ∧ ((s 1 .none).g 5).getLsbD 63 = true
      ∧ ((s 1 .none).g 5).toNat % 2 ^ 9 ≤ 3 - 1 ∧ 3 - 2 < ((s 2 .none).g 5).toNat % 2 ^ 9 ∧ 0 < ((s 0 .none).g 2).toNat % 2 ^ 9
      ∧ (s 1 (.ringWoken 9 2)).me.wait = .ringWoken 9 2 ∧ (s 1 .ringGone).me.wait = .ringGone
      ∧ TrapReady (s 1 .ringGone).unpark 0x06 ((s 1 .ringGone).g 2) (s 1 .ringGone).base := by
  unfold Ready TrapReady
  decide +kernel

/-- Slots with no command, one, and a full queue of each engine. -/
def engS (n : Nat) : State :=
  engine0 (List.replicate n (hdr 0 1 2 0 3 0, [0x18C, 0]) ++ List.replicate n (hdr 11 0 0 0 0 0, [0, 0x302, 0, 0, 63, 0, 0]))
theorem witness_EngineRegisters : let pend (s : State) := s.here.mixq.any (fun m => m.slot = s.cur.slot && m.uid = s.uid)
    Ready (engS 0) ∧ pend (engS 0) = false ∧ Ready (engS 1) ∧ pend (engS 1) = true ∧ ((engS 1).g 0).getLsbD 1 = false
      ∧ ((engS 1).g 2).getLsbD 1 = false := by
  unfold Ready
  decide +kernel
/-- What the engine's walks need for the lines that a command is to write. -/
def gateOf (s : State) (i : Instr) : Bool := match i with
  | .engineQueueEntry h w1 w2 w3 w4 w5 w6 w7 =>
    let m : Cmd :=
      { header := cmdHeader h, w1 := w1, w2 := w2, w3 := w3, w4 := w4, w5 := w5, w6 := w6, w7 := w7, seq := 1, ctr := none,
        ringA := none, ringB := none, ringD := none, strides := List.replicate 8 0, skthr := 0, lut := 0, lfsr := 1,
        base1 := s.g (w2.extractLsb' 0 5), base2 := s.g (w2.extractLsb' 8 5), slot := 0, uid := s.uid, root := 1, rid := 0,
        secure := false, limit := 0, waited := 0, since := none, carry := [], prog := none, lost := false }
    s.walkGate (s.whoCmd 0 m) (m.runs.filter (fun x => x.1.writes)) == .go []
  | _ => false
/-- A page table that an epoch holds, and an operand in a page that no TLB has. -/
def walkHeld : State := { paged (engS 0) [] [] with epochs := [epoch0 0x6004380 [1] []], cores := (engS 0).cores.map (fun q =>
  (q.1, { q.2 with slots := q.2.slots.map (fun x => (x.1, { x.2 with g := [(1, 0x77000), (3, L 0x5800)] })) })) }
theorem witness_CommandEntry_gate : gateOf (engS 15) (.engineQueueEntry (hdr 0 1 2 0 3 0) 0x18C 255 0 0 0 0 0) = true
    ∧ gateOf (engS 15) (.engineQueueEntry (hdr 11 0 0 0 0 0) 0 0x302 0 0 63 0 0) = true
    ∧ gateOf walkHeld (.engineQueueEntry (hdr 11 0 0 0 0 0) 0 0x103 0 0 63 0 0) = false := by decide +kernel
theorem witness_CommandEntry : Ready (engS 15) ∧ legal (.engineQueueEntry (hdr 0 1 2 0 3 0) 0x18C 255 0 0 0 0 0) = true
    ∧ legal (.engineQueueEntry (hdr 11 0 0 0 0 0) 0 0x302 0 0 63 0 0) = true ∧ (engS 15).here.mixq.length < 16
    ∧ (engS 15).here.dataq.length < 16 := by
  unfold Ready
  decide +kernel
theorem witness_CommandEntry_full : Ready (engS 16) ∧ 16 ≤ (engS 16).here.mixq.length ∧ 16 ≤ (engS 16).here.dataq.length := by
  unfold Ready
  decide +kernel

/-- The command at the head of an engine's queue of core 0. -/
def headOf (s : State) (data : Bool) : Cmd := (((s.core 0).queue data).head?).getD
  { header := 0, w1 := 0, w2 := 0, w3 := 0, w4 := 0, w5 := 0, w6 := 0, w7 := 0, seq := 0, ctr := none, ringA := none,
    ringB := none, ringD := none, strides := [], skthr := 0, lut := 0, lfsr := 1, base1 := 0, base2 := 0, slot := 0,
    uid := 0, root := 0, rid := 0, secure := false, limit := 0, waited := 0, since := none, carry := [], prog := none, lost := false }
/-- The hypotheses of a command that can be carried out, as one test. -/
def ready (s : State) (data : Bool) (op : Nat) : Bool :=
  let m := headOf s data
  (s.core 0).queue data == [m] && m.op == op && !m.progress.ended && !s.ringsWrong 0 m && s.ringsReady 0 m
    && s.commonReason 0 m == none && s.claims.all (fun q => !(q.core == 0 && q.data == data && q.seq == m.seq) || q.recorded)
theorem ready_at_head (s : State) (data : Bool) (op : Nat) (h : ready s data op = true) : AtHead s 0 data op (headOf s data) := by
  simp only [ready, Bool.and_eq_true, beq_iff_eq, Bool.not_eq_true', List.all_eq_true, Bool.or_eq_true,
    Bool.and_eq_false_imp] at h
  obtain ⟨⟨⟨⟨⟨⟨hq, ho⟩, he⟩, hw⟩, hr⟩, hc⟩, hl⟩ := h
  refine ⟨⟨[], hq⟩, ho, he, hw, hr, hc, fun q hm h1 h2 h3 => ?_⟩
  cases hl q hm with
  | inl h => exact absurd h3 (by simpa [h1, h2] using h)
  | inr h => exact h

/-- The gate of the accesses that the head command makes next, and what it reads, as one test. -/
def linesOf (s : State) (data : Bool) (xs : List (Use × Reg × Nat)) : List Loc := match s.engGate 0 data (headOf s data) (some xs) with
  | .go ls => ls
  | _ => []
def gated (s : State) (data : Bool) (xs : List (Use × Reg × Nat)) : Bool :=
  s.walkGate (s.whoCmd 0 (headOf s data)) (headOf s data).runs == .go [] && s.engGate 0 data (headOf s data) (some xs) == .go (linesOf s data xs)
theorem gated_of (s : State) (data : Bool) (xs : List (Use × Reg × Nat)) (h : gated s data xs = true) :
    Gated s 0 data (headOf s data) xs (linesOf s data xs) := by
  simpa [gated, Gated] using h
/-- A command that makes no access to memory next. -/
theorem gated_nil (s : State) (data : Bool) (h : gated s data [] = true) (h' : linesOf s data [] = []) :
    Gated s 0 data (headOf s data) [] [] := h' ▸ gated_of s data [] h

def mmaS (opts sg w3 : Nat) : State := engine0 [(hdr 0 1 2 0 3 sg, [0x18C + opts, 0, w3])]
def bflyS (op w2 : Nat) : State := engine0 [(hdr op 1 2 3 0 0, [0x318C, w2])]
def scanS : State := engine0 [(hdr 3 1 0 3 3 0, [0x300C, 0])]
theorem witness_ComputeCommands :
    (AtHead (mmaS 0 0 0) 0 false 0 (headOf (mmaS 0 0 0) false) ∧ Gated (mmaS 0 0 0) 0 false (headOf (mmaS 0 0 0) false) [] [])
      ∧ (let s := bflyS 1 0
         AtHead s 0 false 1 (headOf s false) ∧ Gated s 0 false (headOf s false) [] [] ∧ bflyReason s 0 (headOf s false) = none)
      ∧ (let s := bflyS 2 1
         AtHead s 0 false 2 (headOf s false) ∧ Gated s 0 false (headOf s false) [] [] ∧ bflyReason s 0 (headOf s false) = none)
      ∧ (let s := scanS
         AtHead s 0 false 3 (headOf s false) ∧ Gated s 0 false (headOf s false) [] [] ∧ scanReason s 0 (headOf s false) = none
           ∧ scanNext s 0 (headOf s false) = some []) :=
  ⟨⟨ready_at_head _ _ _ (by decide +kernel), gated_nil _ _ (by decide +kernel) (by decide +kernel)⟩,
    ⟨ready_at_head _ _ _ (by decide +kernel), gated_nil _ _ (by decide +kernel) (by decide +kernel), by decide +kernel⟩,
    ⟨ready_at_head _ _ _ (by decide +kernel), gated_nil _ _ (by decide +kernel) (by decide +kernel), by decide +kernel⟩,
    ⟨ready_at_head _ _ _ (by decide +kernel), gated_nil _ _ (by decide +kernel) (by decide +kernel), by decide +kernel, by decide +kernel⟩⟩
/-- An MMA whose skip bit, of slot 0, is set, and one whose bit, of slot 2, is clear. -/
theorem witness_ComputeCommands_skip : let s := mmaS (2 ^ 19) 1 0
    let s' := mmaS (2 ^ 19) 1 2
    (headOf s false).op = 0 ∧ (headOf s false).acc < 8 ∧ (headOf s false).sg = true
      ∧ (s.core 0).skip.getLsbD (headOf s false).tslot = true ∧ (headOf s' false).sg = true
      ∧ (s'.core 0).skip.getLsbD (headOf s' false).tslot = false := by decide +kernel
theorem witness_SkipCommands :
    (let s := engine0 [(hdr 4 1 0 3 0 0, [12, 0])]
     AtHead s 0 false 4 (headOf s false) ∧ Gated s 0 false (headOf s false) [] [] ∧ tsigReason s 0 (headOf s false) = none)
      ∧ (let s := engine0 [(hdr 5 1 0 0 0 0, [0, 0, 5])]
         AtHead s 0 false 5 (headOf s false) ∧ Gated s 0 false (headOf s false) [] [] ∧ tskipReason s 0 (headOf s false) = none)
      ∧ (let s := engine0 [(hdr 10 0 0 0 0 0, [0, 0, 5, 3])]
         AtHead s 0 false 10 (headOf s false) ∧ Gated s 0 false (headOf s false) [] [] ∧ ecfgReason s 0 (headOf s false) = none
           ∧ bits (headOf s false).w2 1 0 = 0)
      ∧ (let s := engine0 [(hdr 10 0 0 0 0 0, [0, 1, 5, 7])]
         AtHead s 0 false 10 (headOf s false) ∧ Gated s 0 false (headOf s false) [] [] ∧ ecfgReason s 0 (headOf s false) = none
           ∧ bits (headOf s false).w2 1 0 = 1)
      ∧ (let s := engine0 [(hdr 10 1 0 0 0 0, [0, 2, 5, 3])]
         AtHead s 0 false 10 (headOf s false) ∧ Gated s 0 false (headOf s false) [] [] ∧ ecfgReason s 0 (headOf s false) = none
           ∧ bits (headOf s false).w2 1 0 = 2)
      ∧ (let s := engine0 [(hdr 10 0 0 3 0 0, [0, 3, 5, 3])]
         AtHead s 0 false 10 (headOf s false) ∧ Gated s 0 false (headOf s false) [] [] ∧ ecfgReason s 0 (headOf s false) = none
           ∧ bits (headOf s false).w2 1 0 = 3) :=
  ⟨⟨ready_at_head _ _ _ (by decide +kernel), gated_nil _ _ (by decide +kernel) (by decide +kernel), by decide +kernel⟩,
    ⟨ready_at_head _ _ _ (by decide +kernel), gated_nil _ _ (by decide +kernel) (by decide +kernel), by decide +kernel⟩,
    ⟨ready_at_head _ _ _ (by decide +kernel), gated_nil _ _ (by decide +kernel) (by decide +kernel), by decide +kernel, by decide +kernel⟩,
    ⟨ready_at_head _ _ _ (by decide +kernel), gated_nil _ _ (by decide +kernel) (by decide +kernel), by decide +kernel, by decide +kernel⟩,
    ⟨ready_at_head _ _ _ (by decide +kernel), gated_nil _ _ (by decide +kernel) (by decide +kernel), by decide +kernel, by decide +kernel⟩,
    ⟨ready_at_head _ _ _ (by decide +kernel), gated_nil _ _ (by decide +kernel) (by decide +kernel), by decide +kernel, by decide +kernel⟩⟩
/-- A range that ends with the map's last slot. -/
theorem witness_SkipCommands_range : let s := engine0 [(hdr 10 0 0 0 0 0, [0, 1, 4095, 0])]
    (headOf s false).tslot + ((headOf s false).w4.toNat % 8192 + 1) ≤ 4096 ∧ (headOf s false).tslot = 4095 := by decide +kernel
def tldS : State := engine0 [(hdr 6 0 0 3 0 0, [12, 2, 0, 32, 1024, 0])]
theorem witness_TransferCommands :
    (let xs := (tldNext tldS 0 (headOf tldS false)).getD []
     AtHead tldS 0 false 6 (headOf tldS false) ∧ tileReason .engineRead tldS 0 (headOf tldS false) = none
       ∧ tldNext tldS 0 (headOf tldS false) = some xs ∧ Gated tldS 0 false (headOf tldS false) xs (linesOf tldS false xs))
      ∧ (let s := engine0 [(hdr 7 1 0 0 0 0, [12, 2, 0, 32, 1024, 0])]
         AtHead s 0 false 7 (headOf s false) ∧ Gated s 0 false (headOf s false) [] [] ∧ tileReason .engineWrite s 0 (headOf s false) = none)
      ∧ (let s := engine0 [(hdr 8 0 0 0 3 0, [])]
         AtHead s 0 false 8 (headOf s false) ∧ Gated s 0 false (headOf s false) [] [] ∧ (s.core 0).mixw = [])
      ∧ (let s := engine0 [(hdr 9 1 0 3 0 0, [12 + 1024 * 13, 0])]
         AtHead s 0 false 9 (headOf s false) ∧ Gated s 0 false (headOf s false) [] [] ∧ tcvtReason s 0 (headOf s false) = none) :=
  ⟨⟨ready_at_head _ _ _ (by decide +kernel), by decide +kernel, by decide +kernel, gated_of _ _ _ (by decide +kernel)⟩,
    ⟨ready_at_head _ _ _ (by decide +kernel), gated_nil _ _ (by decide +kernel) (by decide +kernel), by decide +kernel⟩,
    ⟨ready_at_head _ _ _ (by decide +kernel), gated_nil _ _ (by decide +kernel) (by decide +kernel), by decide +kernel⟩,
    ⟨ready_at_head _ _ _ (by decide +kernel), gated_nil _ _ (by decide +kernel) (by decide +kernel), by decide +kernel⟩⟩
def dataCpyS : State := engine0 [(hdr 11 0 0 0 0 0, [0, 0x302, 0, 0, 63, 0, 0])]
def dataGthS : State := engine0 [(hdr 12 1 0 3 0 0, [3 + 1024 * 4, 2, 0, 0, 7, 0x10000, 0])]
def dataSctS : State := engine0 [(hdr 13 1 2 0 0 0, [3 + 32 * 4, 2, 0, 0, 7, 0x3830, 0])]
theorem witness_TransferCommands_data :
    (let s := dataCpyS
     let xs := (cpyNext s 0 (headOf s true)).getD []
     AtHead s 0 true 11 (headOf s true) ∧ cpyReason s 0 (headOf s true) = none ∧ cpyNext s 0 (headOf s true) = some xs
       ∧ Gated s 0 true (headOf s true) xs (linesOf s true xs))
      ∧ (let s := dataGthS
         let xs := (elemNext s 0 (headOf s true)).getD []
         AtHead s 0 true 12 (headOf s true) ∧ elemReason s 0 (headOf s true) = none ∧ elemNext s 0 (headOf s true) = some xs
           ∧ Gated s 0 true (headOf s true) xs (linesOf s true xs))
      ∧ (let s := dataSctS
         let xs := (elemNext s 0 (headOf s true)).getD []
         AtHead s 0 true 13 (headOf s true) ∧ elemReason s 0 (headOf s true) = none ∧ elemNext s 0 (headOf s true) = some xs
           ∧ Gated s 0 true (headOf s true) xs (linesOf s true xs)) :=
  ⟨⟨ready_at_head _ _ _ (by decide +kernel), by decide +kernel, by decide +kernel, gated_of _ _ _ (by decide +kernel)⟩,
    ⟨ready_at_head _ _ _ (by decide +kernel), by decide +kernel, by decide +kernel, gated_of _ _ _ (by decide +kernel)⟩,
    ⟨ready_at_head _ _ _ (by decide +kernel), by decide +kernel, by decide +kernel, gated_of _ _ _ (by decide +kernel)⟩⟩
theorem witness_TransferCommands_copy : let s := engine0 [(hdr 11 0 0 0 0 0, [0, 0x302, 0, 0, 63, 0, 0])]
    let m := headOf s true
    m.op = 11 ∧ m.opt 0 = false ∧ m.opt 1 = false ∧ m.cpyRows = 1 ∧ m.prog = none ∧ (s.core 0).dataw = [] ∧ windowBase ≤ (m.cpySrc 0).toNat
      ∧ (m.cpySrc 0).toNat + m.cpyBytes ≤ windowBase + 0xF000 ∧ windowBase ≤ (m.cpyDst 0).toNat
      ∧ (m.cpyDst 0).toNat + m.cpyBytes ≤ windowBase + 0xF000
      ∧ ∀ i, i < m.cpyBytes → s.bad (larderAt 0 ((m.cpySrc 0).toNat - windowBase) + i) = false := by decide +kernel

/-- A command that has waited longer than its budget, for a slot of a ring. -/
def stalledS : State := let s := engine0 [(hdr 0 1 3 0 3 0, [0x18C, 1])]
  withCore s (fun c => { c with mixq := c.mixq.map (fun m => { m with waited := m.limit + 1 }) })
theorem witness_CommandQueues_retire : let s := engine0 [(hdr 0 1 2 0 3 0, [0x18C, 0])]
    let m := headOf s false
    (s.core 0).queue false = [m] ∧ s.ringsWrong 0 m = false ∧ m.ctr = none ∧ (s.slotAt 0 m.slot).runId = m.uid ∧ m.uid ≠ 0
      ∧ m.pops ≠ [] := by decide +kernel
theorem witness_CommandQueues_rings : let s := engine0 [(hdr 0 1 1 0 3 0, [0x18C, 0])]
    let t := engine0 [(hdr 0 1 3 0 3 0, [0x18C, 1])]
    (s.core 0).queue false = [headOf s false] ∧ s.ringsWrong 0 (headOf s false) = true ∧ (headOf s false).prog = none
      ∧ (t.core 0).queue false = [headOf t false] ∧ (headOf t false).prog = none ∧ t.ringsWrong 0 (headOf t false) = false ∧ t.ringsReady 0 (headOf t false) = false := by
  decide +kernel
theorem witness_CommandQueues_stall : let m := headOf stalledS false
    (stalledS.core 0).queue false = [m] ∧ m.limit < m.waited ∧ stalledS.headWaits 0 false m = true
      ∧ (headOf (engine0 [(hdr 0 1 3 0 3 0, [0x18C, 1])]) false).waited ≤ (headOf (engine0 [(hdr 0 1 3 0 3 0, [0x18C, 1])]) false).limit := by
  decide +kernel

/-- A command with a live counter. -/
def countedS : State :=
  let s := withCore (engine0 [(hdr 0 1 2 0 3 0, [0x18C, 0])]) (fun c => { c with mixq := c.mixq.map (fun m => { m with ctr := some (C 0x80) }) })
  ({ s with counters := [(cellarAt 0 0x80, cntWho)] }).poke (cellarAt 0 0x80) (bytesOfNat 4 5 ++ bytesOfNat 12 0)
theorem witness_CommandQueues_counter : let m := headOf countedS false
    (countedS.core 0).queue false = [m] ∧ countedS.ringsWrong 0 m = false ∧ countedS.cmdCounter 0 m = some (cellarAt 0 0x80)
      ∧ countedS.live (cellarAt 0 0x80) = true ∧ countedS.cntBad (cellarAt 0 0x80) = false ∧ countedS.cntBind (cellarAt 0 0x80) = 0
      ∧ cellarAt 0 0x80 % 16 = 0 := by decide +kernel

/-- A COLL of cores 0 and (1, 0), of the same and of different element counts. -/
def collS (n' kind : Nat) : State :=
  let s := engine0 [(hdr 14 1 0 3 0 0, [1024 * 4, 2, 0xFFFFB300, 1, 3 + 2 ^ 16 * kind, 7, 0])]
  let h := s.here
  let m' : List Cmd := h.dataq.map (fun m => { m with w5 := BitVec.ofNat 32 (n' - 1 + 2 ^ 16 * kind) })
  let s := { s with cores := [(0, h), (coreAt 1 0, { h with dataq := m', slots := [(3, { slot0 [] with task := some { task0 with uid := 77 } })] })] }
  (s.poke (larderAt 0 0x300) (bytesOfNat 8 0x100000000)).poke (larderAt (coreAt 1 0) 0x300) (bytesOfNat 8 0x100000000)
theorem witness_Collectives : ∀ s ∈ [collS 4 1, collS 4 0, collS 5 1],
    let m := headOf s true
    let ranks := [0, coreAt 1 0]
    let ls := match s.engGate 0 true m (collNext s 0 m) with
      | .go ls => ls
      | _ => []
    let u1 := ls.foldl State.useHome s
    let us := match u1.collGate 0 m.tag (ranks.map Member.local') with
      | .go us => us
      | _ => []
    let u := us.foldl State.useHome u1
    (s.core 0).dataq = [m] ∧ m.op = 14 ∧ (s.core 0).collFailed.contains m.tag = false ∧ s.walkGate (s.whoCmd 0 m) m.runs = .go []
      ∧ s.collBegins 0 m = none ∧ s.ringsReady 0 m = true ∧ s.engGate 0 true m (collNext s 0 m) = .go ls
      ∧ u1.collRanks 0 m = some (ranks.map Member.local') ∧ u1.collGate 0 m.tag (ranks.map Member.local') = .go us
      ∧ u.collRanks 0 m = some (ranks.map Member.local') ∧ 0 ∈ ranks ∧ ranks.Nodup ∧ (∀ d ∈ ranks, d < 4096)
      ∧ (∀ x ∈ u.collIn, x.tag ≠ m.tag)
      ∧ ∀ d ∈ ranks, (match u.collHead d m.tag with
          | some y => u.collFails d y == none && u.ringsReady d y && u.collRanks d y == some (ranks.map Member.local')
              && (u.collTable d y).2 == [] && y.prog == none && !y.lost
          | none => false) = true := by decide +kernel
theorem witness_Collectives_alike : let alike (s : State) (d : Nat) := (s.collHead d (headOf s true).tag).map (collSame (headOf s true))
    alike (collS 4 1) 0 = some true ∧ alike (collS 4 1) (coreAt 1 0) = some true ∧ alike (collS 5 1) (coreAt 1 0) = some false := by
  decide +kernel

/-- Headers and delivery words: with a counter, with four doublewords, to another core, to another package, and bad. -/
def msgS : State := base [(1, L 0x100), (2, BitVec.ofNat 64 (1 + 2 ^ 31 + 8 * 2 ^ 15)), (3, BitVec.ofNat 64 (4 * 2 ^ 18 + 0x20)), (4, 0x7F),
  (5, 1 <<< 14), (6, 0x80 + 5 * 2 ^ 32), (8, BitVec.ofNat 64 (2 ^ 18 * 32 + 2 ^ 17 + 0x40)), (9, BitVec.ofNat 64 (2 ^ 63 + 3 * 2 ^ 51 + 0x081))]
theorem witness_Messages : Ready msgS ∧ (∀ b ∈ [2, 9], hdrBad (msgS.g b) = false ∧ hdrQh (msgS.g b) = 0 ∧ (hdrTarget 0 (msgS.g b)).isSome = true)
    ∧ dwBad (msgS.g 3) = false ∧ dwBad (msgS.g 8) = false ∧ msgS.fenceHolds 0 0 msgS.fence = false
    ∧ (msgS.g 8).toNat / 2 ^ 18 % 64 = 32 ∧ InLarder msgS (msgS.g 1) (8 * 32 + 64) ∧ (msgS.g 1).toNat % 8 = 0
    ∧ (msgS.g 0).toNat / 2 ^ 18 % 64 = 0 := by
  unfold Ready InLarder
  decide +kernel
theorem witness_Messages_bad : hdrBad (msgS.g 5) = true ∧ TrapReady msgS 0x06 (msgS.g 5) msgS.base ∧ hdrQh (msgS.g 6) ≠ 0
    ∧ TrapReady msgS 0x06 (msgS.g 6) msgS.base := by
  unfold TrapReady
  decide +kernel

/-- A message of eight bytes in the inbox of core 0: of the tenant there and of another, with and without a handler. -/
def note (tenant : BitVec 10) (code : Option (List Byte)) (dwin : Bool) : Message :=
  { src := 1, slot := 0, uid := 4, fence := 0, chan := 0, dst := 0, code := code, payload := [1, 2, 3, 4, 5, 6, 7, 8], dwin := dwin,
    doff := 0x40, ctr := none, header := 0, root := 1, rid := 0, tenant := tenant, secure := false, pkg := none, route := 0 }
def tendCode : List Byte := bytesOfNat 4 0x10000070 ++ List.replicate 60 0
def inboxS (m : Message) : State := withCore (base []) (fun c => { c with inbox := [m] })
theorem witness_MessageDelivered : (∀ m ∈ [note 5 none false, note 5 none true, note 5 (some tendCode) false],
      ((inboxS m).core 0).inbox = m :: [] ∧ ((inboxS m).core 0).delivery = .idle ∧ (inboxS m).coreRegion 0 = some (1, region0)
        ∧ region0.tenant = m.tenant ∧ region0.secure = m.secure ∧ (inboxS m).coversCounter (larderAt 0 0x40) 8 = false
        ∧ (inboxS m).coversCounter (cellarAt 0 0x40) 8 = false ∧ m.ctr = none)
    ∧ region0.tenant ≠ (note 6 none true).tenant := by decide +kernel
/-- A message that names a live counter, at the values where its update fires, does not, and stays in range. -/
def noteCtr (v : Nat) (d : Delivery) : State :=
  withCore (cntS v 0) (fun c => { c with inbox := [{ note 5 none false with ctr := some 0x80 }], delivery := d })
theorem witness_MessageDelivered_counter : ∀ v ∈ [1, 2, 0x80000000], let s := noteCtr v .idle
    (s.core 0).inbox = { note 5 none false with ctr := some 0x80 } :: [] ∧ s.coreRegion 0 = some (1, region0) ∧ s.live (cellarAt (clusterOf 0) 0x80) = true
      ∧ s.cntBad (cellarAt (clusterOf 0) 0x80) = false
      ∧ s.cntBind (cellarAt (clusterOf 0) 0x80) = 0 ∧ cellarAt (clusterOf 0) 0x80 % 16 = 0 ∧ s.coversCounter (larderAt 0 0x40) 8 = false := by
  decide +kernel
/-- A handler that has come to an offset of its code: a TEND at 4, and words that a handler may not use at 8 and 12. -/
def handlerS (pc : Nat) (due : Bool) (owed : List (BitVec 5)) : State :=
  let code := [0x000E6282, 0x10000070, 0x00924470, 0x7A].flatMap (bytesOfNat 4) ++ List.replicate 48 0
  let m := note 5 (some code) false
  let s := withCore (base []) (fun c => { c with inbox := [m], delivery := .running })
  s.setSlotAt 0 8 { handlerSlot m 1 region0 77 with pc := BitVec.ofNat 64 pc, budgetDue := due, owed := owed }
def handlerWord (pc : Nat) : Except Reject (Instr × Nat) :=
  decode (([0x000E6282, 0x10000070, 0x00924470, 0x7A].flatMap (bytesOfNat 4) ++ List.replicate 48 0).drop pc |>.take 4)
theorem witness_MessageDelivered_running : handlerWord 0 = .ok (.add 5 6 7, 4) ∧ handlerWord 4 = .ok (.tend, 4) ∧ handlerWord 8 = .ok (.msg 8 4 9 2, 4)
    ∧ (match handlerWord 12 with | .ok _ => false | .error _ => true) = true
    ∧ handlerMay (.add 5 6 7) = true ∧ handlerBranch (.add 5 6 7) = false ∧ handlerMay (.msg 8 4 9 2) = false
    ∧ ((handlerS 0 false []).slotAt 0 8).owes (.add 5 6 7) = false ∧ ((handlerS 0 true []).slotAt 0 8).budgetDue = true
    ∧ ((handlerS 64 false []).slotAt 0 8).pc.toNat = 64 ∧ ((handlerS 0 false []).core 0).delivery = .running := by decide +kernel
def deliver (s : State) : State := match exec (.messageDelivery 0) s with
  | .next t => t
  | _ => s
/-- 09 R231: g6 + g7 into g5, and the next word; TEND; a backward transfer, here below offset 0, is a handler fault (R232). -/
theorem test_handler_step : let t := deliver (handlerS 0 false [])
    (t.slotAt 0 8).gReg 5 = 8 ∧ (t.slotAt 0 8).pc = 4 ∧ (t.core 0).delivery = .running
      ∧ ((deliver (handlerS 4 false [])).core 0).delivery = .ended false ∧ ((deliver (handlerS 8 false [])).core 0).delivery = .ended true
      ∧ (deliver (handlerS 0 false [6])).slotAt 0 8 = (handlerS 0 false [6]).slotAt 0 8 := by decide +kernel
/-- A message whose handler has ended, with a write of it due. -/
theorem witness_MessageDelivered_ended : (∀ f ∈ [false, true], let s := noteCtr 2 (.ended f)
       ((s.core 0).delivery = .ended f ∧ (∀ e ∈ (s.core 0).sb, e.slot ≠ 8) ∧ (∀ q ∈ s.posted, ¬(q.src = 0 ∧ q.slot = 8)) ∧ s.live cntAt0 = true))
    ∧ (let t := withCore (noteCtr 2 (.ended false)) (fun c => { c with sb := [{ hostStore with slot := 8 }] })
       ∃ e ∈ (t.core 0).sb, e.slot = 8)
    ∧ (let t : State := { noteCtr 2 (.ended false) with
         posted := [{ src := 0, slot := 8, uid := 4, fence := 0, place := cellarAt 1 0x80, op := .sig, va := C 0x80, vf := 1 }] }
       ∃ q ∈ t.posted, q.src = 0 ∧ q.slot = 8) := by decide +kernel

/-- A clean record in the own larder, and a deque with some entries. -/
def recB (flags group : Nat) : List Byte :=
  bytesOfNat 4 0x2000 ++ bytesOfNat 2 flags ++ bytesOfNat 2 group ++ bytesOfNat 6 77 ++ bytesOfNat 2 0 ++ bytesOfNat 8 0x500000001
    ++ bytesOfNat 8 0x600000002 ++ bytesOfNat 8 7 ++ bytesOfNat 8 8 ++ bytesOfNat 16 (if flags % 2 = 1 then 99 else 0)
def entryS (flags group n : Nat) : Entry :=
  { record := recordOf (recB flags group), addr := BitVec.ofNat 64 (0x4000 + n), root := 1, arrival := n, origin := .package }
def recS (v b : Nat) : State :=
  let s := (base [(1, L 0x200), (3, C 0x80)]).poke (larderAt 0 0x200) (recB 0 0)
  ({ s with counters := [(cellarAt 0 0x80, { core := 3, root := 1, rid := 0, secure := false })] }).poke (cellarAt 0 0x80)
    (bytesOfNat 4 v ++ bytesOfNat 4 0x12 ++ bytesOfNat 8 b)
def dequeS (n : Nat) : State := withCore (recS 1 0) (fun c => { c with deque := List.replicate n (entryS 0 0 5) })
theorem witness_Tasks : Ready (dequeS 63) ∧ RecordOk (dequeS 63) ((dequeS 63).g 1) task0 ∧ (dequeS 63).released 0 0 3 = true
    ∧ (dequeS 63).here.deque.length < 64 := by
  unfold Ready RecordOk InLarder recordAt
  decide +kernel
/-- A SPAWN whose release waits for a store to main memory, before it has its copy and with it. -/
def spawnS (free : Bool) (copy : Option Record) : State :=
  withMe (withCore (dequeS 63) (fun c => { c with sb := if free then [] else [{ hostStore with block := 0x4000000 / 64 }] })) (fun x => { x with copied := copy })
theorem witness_Tasks_release : RecordOk (spawnS false none) ((spawnS false none).g 1) task0 ∧ (spawnS false none).released 0 0 3 = false
    ∧ (∀ free ∈ [true, false], let s := spawnS free (some (recordOf (recB 0x100 3)))
       (s.me.copied = some (recordOf (recB 0x100 3)) ∧ s.me.task = some task0 ∧ s.released 0 0 3 = free ∧ s.here.deque.length < 64)) := by
  unfold RecordOk InLarder recordAt
  decide +kernel
theorem witness_Tasks_full : RecordOk (dequeS 64) ((dequeS 64).g 1) task0 ∧ 64 ≤ (dequeS 64).here.deque.length := by
  unfold RecordOk InLarder recordAt
  decide +kernel
theorem witness_Bindings : ∀ s ∈ [recS 1 0, recS 0 0, recS 1 5],
    Ready s ∧ s.cntAt 0 false (s.g 3) = .ok (cellarAt 0 0x80) ∧ s.live (cellarAt 0 0x80) = true ∧ s.bad (cellarAt 0 0x80) = false
      ∧ s.bad (cellarAt 0 0x80 + 8) = false ∧ RecordOk s (s.g 1) task0 ∧ s.released 0 0 3 = true ∧ s.here.ready.length < 80
      ∧ s.fenceHoldsAt 0 0 s.fence (cellarAt 0 0x80) = false := by
  unfold Ready RecordOk InLarder recordAt
  decide +kernel
theorem witness_Bindings_values : (recS 1 0).cntBind (cellarAt 0 0x80) = 0 ∧ 0 < ((recS 1 0).cntValue (cellarAt 0 0x80)).toInt
    ∧ ((recS 0 0).cntValue (cellarAt 0 0x80)).toInt ≤ 0 ∧ (recS 1 5).cntBind (cellarAt 0 0x80) ≠ 0 := by decide +kernel
/-- Fired bindings: one whose record can be read, with and without room for it, and one whose record cannot. -/
def firedS (rec' : Reg) (n : Nat) : State :=
  { withCore (recS 1 0) (fun c => { c with ready := List.replicate n (entryS 0 0 5) }) with
    fired := [{ record := rec', who := { core := 0, root := 1, rid := 0, secure := false } }] }
def bound (s : State) : Option BoundRead := (s.fired.head?).map s.boundRead
/-- The same with a claim on the line of a record in main memory. -/
def firedW : State := { firedS 0x10000 0 with
  claims := [{ line := 0x80000, unit := 3, core := 2, data := true, seq := 1, slot := 0, recorded := true }] }
theorem witness_Bindings_fired : bound (firedS (L 0x200) 79) = some (.ok (recordOf (recB 0 0)) (some (.plain (larderAt 0 0x200))))
    ∧ ((firedS (L 0x200) 79).core 0).ready.length < 80 ∧ bound (firedS (L 0x200) 80) = some (.ok (recordOf (recB 0 0)) (some (.plain (larderAt 0 0x200))))
    ∧ 80 ≤ ((firedS (L 0x200) 80).core 0).ready.length ∧ bound (firedS 0x13 0) = some (.fault 0x06 none) ∧ bound firedW = some .wait
    ∧ bound (firedS 0x10000 0) = some (.fill 5 (.plain 0x4000000)) := by
  decide +kernel
/-- A record of which the slice holds a word in error. -/
theorem witness_Bindings_error : bound { firedS 0x10000 0 with
    l2 := [{ slice := (base []).homeSlice 0x4000000, line := 0x80000, way := 3, bytes := (List.range 128).map (fun i => (i, 0)), dirty := false,
             bad := [0], tenant := 5, wrote := [], key := 0, secure := false }] } = some (.fault 0x08 (some (.plain 0x4000000))) := by decide +kernel
/-- A clean record in the binder's larder, and one that is not. -/
theorem witness_Bindings_record : let s := firedS (L 0x200) 0
    let p := larderAt 0 0x200
    (0 : Nat) < 4096 ∧ windowBase ≤ (L 0x200).toNat ∧ (L 0x200).toNat + 64 ≤ windowBase + 0xF000 ∧ (L 0x200).toNat % 64 = 0
      ∧ (∀ i, i < 64 → s.bad (p + i) = false) ∧ s.coversCounter p 64 = false ∧ l1Find (s.core 0).l1 (p / 128) false = none
      ∧ (recordOf (s.peek p 64)).clean = true ∧ s.below 1 0 (recordOf (s.peek p 64)).rid = true
      ∧ (recordOf ((s.poke p (recB 0x10 0)).peek p 64)).clean = false := by decide +kernel

/-- A core with a setting of its neighbours, entries in its west mailbox, and entries under way. -/
def nbS (x : BitVec 8) (n : Nat) (ws : List (Nat × Wait)) (es : List NEntry) : State :=
  let s := withCore (base [(1, 0x05), (2, 0xC0), (3, 0x100)]) (fun c => { c with
    ncfg := x, mail := if n = 0 then [] else [(1, (List.range n).map (fun i => BitVec.ofNat 512 (i + 5)))] })
  { s with cores := [(0, { s.here with slots := (0, s.me) :: ws.map (fun e => (e.1, { slot0 [] with wait := e.2, parkedAt := 10 - e.1 })) })],
           nnet := es }
def nEntry (src : Nat) (x : Vec) : NEntry := { src := src, dst := 0, dir := 1, slot := 0, uid := 4, fence := 0, data := x }
/-- The same with the east neighbour's west mailbox full. -/
def nbFull : State := let s := nbS 0 0 [] []
  { s with cores := s.cores ++ [(coreAt 1 0, { core0 [] with mail := [(3, List.replicate 4 5)] })] }
theorem witness_Neighbours_put : let s := nbS 0 0 [] []
    Ready s ∧ s.neighbour 1 = some (coreAt 1 0) ∧ 1 ≤ s.mailRoom (coreAt 1 0) ((1 + 2) % 4)
      ∧ nbFull.neighbour 1 = some (coreAt 1 0) ∧ nbFull.mailRoom (coreAt 1 0) ((1 + 2) % 4) = 0
      ∧ s.neighbour 0 = none ∧ TrapReady s 0x06 ((0 : BitVec 2).setWidth 64) s.base := by
  unfold Ready TrapReady
  decide +kernel
theorem witness_Neighbours_get : let s := nbS 0 1 [] []
    s.mailbox 0 1 = 5 :: [] ∧ s.mailbox 0 0 = [] ∧ ncfgBad (s.g 1) = false ∧ (withMe s (fun x => { x with wait := .entry 7 })).me.wait = .entry 7 := by
  decide +kernel
/-- Slots parked on a mailbox; a SCAN at the head of the core's queue that has waited for longer, and for less long. -/
def nbScan (since : Nat) : State := let s := nbS 0x55 0 [(1, .mailbox 1), (2, .mailbox 1)] [nEntry 1 5, nEntry 1 6, nEntry 2 7]
  withCore s (fun c => { c with mixq := (scanS.core 0).mixq.map (fun m => { m with w3 := m.w3 ||| 5, since := some since }) })
theorem witness_Neighbours_arrive : let s := nbS 0x55 0 [(1, .mailbox 1), (2, .mailbox 1)] [nEntry 1 5, nEntry 1 6, nEntry 2 7]
    s.nnet[0]? = some (nEntry 1 5) ∧ s.nnet[2]? = some (nEntry 2 7)
      ∧ (∀ x ∈ s.nnet.take 2, ¬(x.src = 2 ∧ x.dst = 0 ∧ x.dir = 1)) ∧ s.fenceHolds 1 0 0 = false
      ∧ (oldestParked 1 (s.core 0).slots).isSome = true ∧ s.scanWaiter 0 1 = none
      ∧ oldestParked 1 ((nbS 0x55 0 [] []).core 0).slots = none ∧ (nbS 0x55 0 [] []).scanWaiter 0 1 = none := by decide +kernel
theorem witness_Neighbours_scan : let at' (s : State) := ((oldestParked 1 (s.core 0).slots).map (fun x => x.2.parkedAt), (s.scanWaiter 0 1).map (·.2))
    at' (nbScan 3) = (some 8, some 3) ∧ at' (nbScan 30) = (some 8, some 30) := by decide +kernel

/-- Convoys of core 0: ports, flits under way, and the receiver's streams and ring. -/
def cPort (k : Nat) (a : Option Bool) (closing : Bool) : ConvPort :=
  { slot := 0, uid := 9, serial := 3 + k, dst := coreAt 1 0, qh := 1, ctr := none, closing := closing, answer := a }
def cvS (ports : Tab ConvPort) (fl : List ConvFlit) (st : List ConvStream) (win : BitVec 2) (size filled : Nat) : State :=
  let s := withCore (base [(1, 1), (2, BitVec.ofNat 64 (1 + 8 * 2 ^ 15 + 2 ^ 31 + 5 * 2 ^ 32)), (4, 2)]) (fun c => { c with ports := ports })
  let r : Ring := { desc := { ringD with win := win, slotsz := BitVec.ofNat 6 size, slots := 1 }, head := 0, tail := filled % 2, filled := filled }
  { s with cores := [(0, s.here), (coreAt 1 0, { core0 [] with streams := st, q := [(1, r)] })], cnet := fl }
def cFlit (f : Flit) : ConvFlit :=
  { src := 0, slot := 0, uid := 9, port := 1, serial := 4, dst := coreAt 1 0, qh := 1, ctr := none, flit := f, fence := 0, secure := false }
def cStream (pos : Nat) : ConvStream := { src := 0, port := 1, serial := 4, qh := 1, ctr := none, pos := pos, aborted := false }
def allPorts : Tab ConvPort := [(0, cPort 0 none false), (1, cPort 1 none false), (2, cPort 2 (some true) true), (3, cPort 3 none true)]
theorem witness_Convoys_open : let s := cvS [] [] [] 0 0 0
    Ready s ∧ s.fenceHolds 0 0 s.fence = false ∧ hdrBad (s.g 2) = false ∧ (s.g 2).getLsbD 63 = false
      ∧ (hdrTarget 0 (s.g 2)).isSome = true ∧ Tab.find s.here.ports 0 = none
      ∧ ∀ j, j < 4 → Tab.find (cvS allPorts [] [] 0 0 0).here.ports j ≠ none := by
  unfold Ready
  decide +kernel
theorem witness_Convoys_put : let s := cvS allPorts [] [] 0 0 0
    Tab.find s.here.ports (s.g 1).toNat = some (cPort 1 none false) ∧ s.cur.slot = 0 ∧ s.uid = 9
      ∧ (s.cnet.filter (fun f => f.src = s.cur.core && f.port = 1 && f.serial = 4)).length = 0
      ∧ Tab.find s.here.ports (s.g 4).toNat = some (cPort 2 (some true) true) := by decide +kernel
theorem witness_Convoys_credit : (0 : Nat) ≤ Config.convoyCredit := Nat.zero_le _
theorem witness_Convoys_arrive : let d := coreAt 1 0
    let s := cvS allPorts [cFlit .opening, cFlit (.data 77)] [] 1 0 0
    let u := cvS allPorts [cFlit (.data 77)] [cStream 0] 1 1 1
    let w := cvS allPorts [cFlit (.data 77)] [cStream 64] 0 1 1
    let z := cvS allPorts [cFlit .closing] [cStream 0] 1 1 1
    s.cnet[0]? = some (cFlit .opening) ∧ (s.core d).streams = [] ∧ ((s.core d).ring 1).isSome = true
      ∧ (u.core d).streams = [cStream 0] ∧ u.coversCounter ((ringD.place d 0) + 64) 64 = false ∧ (w.core d).streams = [cStream 64]
      ∧ (∀ r, (w.core d).ring 1 = some r → r.filled < r.desc.slots.toNat + 1 ∧ r.desc.win.toNat ≤ 1) ∧ z.cnet[0]? = some (cFlit .closing) := by
  decide +kernel

/-- A flit of the other world than the receiver's cluster, and one of its own. -/
theorem witness_Convoys_foreign : let s := cvS allPorts [{ cFlit (.data 77) with secure := true }] [cStream 0] 1 1 1
    s.clusterWorld (clusterOf (coreAt 1 0)) = some (!({ cFlit (.data 77) with secure := true } : ConvFlit).secure)
      ∧ ¬s.clusterWorld (clusterOf (coreAt 1 0)) = some (!(cFlit (.data 77)).secure) := by decide +kernel

/-- A caravan beside waiters on barrier object 7, the waystations of its node's slice, and one at its waystation. -/
def carS (grp : BitVec 16) (f : Slot → Slot) (ws : List Waystation) : State :=
  let s := withMe (base [(1, 0x10000), (2, 0x11000)]) (fun x =>
    f { x with cvgroup := grp, mb := 0xF0F, cvstep := 4, task := some { task0 with flags := 1 } })
  { waiting s (.barrier 7) (.barrier 9) (.barrier 7) with waystations := ws, bars := [(7, { n := 2, a := 0, gen := 3 })] }
def nodeSlice : Nat := (base []).homeSlice 0x4000000
def tripleS (grp : BitVec 16) (step : BitVec 32) : Triple := { vf := 1, secure := false, group := grp, node := 0x10000, step := step }
def wayS (grp : BitVec 16) (step : BitVec 32) (low : Reg) (opener held : Nat) (closed : Bool) : Waystation :=
  { slice := nodeSlice, triple := tripleS grp step, members := 0xF0000, low := low, opener := opener, held := held, closed := closed }
def atWay (grp : BitVec 16) (passed : Bool) (x : Slot) : Slot :=
  { x with atws := true, met := true, passed := passed, wslice := nodeSlice, triple := tripleS grp 5 }
/-- The part of MEET's hypotheses that is about the slot and its node. -/
def meets (s : State) : Bool := s.me.wait == .none && s.me.caravan && !s.me.atws && !s.me.met
  && (match s.check (s.who s.cur.core s.cur.slot)
        (fun va => (s.slotFind s.cur.core s.cur.slot va).map (fun r => r.map (fun t => { t with key := 0 }))) .load (s.g 1) 1 1 with
      | some (.ok (.at' l)) => !l.ms && storeOf l.place == .hbm && s.homeSlice l.place == nodeSlice
      | _ => false)
  && (s.keepTlb s.cur.core s.cur.slot (s.g 1).toNat).released s.cur.core s.cur.slot 3
/-- No entry, with the unit one short of full; an open entry; a closed one; one of an earlier step that is spent. -/
theorem witness_CaravansMeet_meet : ∀ s ∈ [carS 7 id [], carS 7 id ((List.range 31).map (fun i => wayS (BitVec.ofNat 16 (20 + i)) 3 9 1 1 true)),
      carS 7 id [wayS 7 5 0x40 1 1 false], carS 7 id [wayS 7 5 0x40 1 1 true], carS 7 id [wayS 7 4 0x40 1 0 true], carS 0x8007 id []],
    meets s = true ∧ s.silent s.cur.core = false := by decide +kernel
theorem witness_CaravansMeet_depart : ∀ s ∈ [carS 7 (atWay 7 false) [wayS 7 5 9 9 2 false], carS 7 (atWay 7 false) [wayS 7 5 9 1 1 true],
      carS 0x8007 (atWay 0x8007 true) [wayS 0x8007 5 (L 0x200) 1 1 false], carS 0x8007 (atWay 0x8007 true) [wayS 0x8007 5 0x200 9 2 false]],
    Ready s ∧ s.me.caravan = true ∧ s.me.atws = true ∧ (s.me.triple.group.getLsbD 15 = false ∨ s.me.passed = true)
      ∧ (s.wayAt s.me.wslice s.me.triple).isSome = true ∧ s.silent s.cur.core = false := by
  unfold Ready
  decide +kernel
theorem witness_CaravansMeet_outside : let s := base []
    let x := illegalXval s.cur.code (wordOfInstr (.meet 1 1)) 0
    let y := illegalXval s.cur.code (wordOfInstr (.depart 1)) 0
    Ready s ∧ s.me.caravan = false ∧ TrapReady s 0x01 x s.base ∧ TrapReady s 0x01 y s.base := by
  unfold Ready TrapReady
  decide +kernel
theorem witness_CaravansMeet_gate : let s := carS 0x8007 (atWay 0x8007 false) [wayS 0x8007 5 0x200 9 2 false]
    let b := 1024 * clusterOf (coreAt s.region.x s.region.y) + s.me.triple.group.toNat % 1024
    let t : State := { s with bars := [(7, { n := 2, a := 1, gen := 3 })] }
    Ready s ∧ s.me.caravan = true ∧ s.me.cvgroup.getLsbD 15 = true ∧ s.me.met = true ∧ s.me.arrv = false ∧ (s.bar b).n = 2 ∧ s.linkOf b = none
      ∧ s.released 0 0 3 = true ∧ (s.bar b).a = 0 ∧ (t.bar b).a = 1 ∧ (withMe s (fun x => { x with wait := .woken 0 })).me.wait = .woken 0 := by
  unfold Ready
  decide +kernel

/-- A caravan that splits, with memberships, a deque, and addresses of the larder. -/
def splS (mb mt : Members) (n : Nat) : State :=
  let s := withMe (base [(1, L 0x200), (2, 0x400040004), (3, 0xA00040004), (5, 0x10400040000), (6, L 0x300), (31, 5)]) (fun x =>
    { x with cvgroup := 7, mb := mb, mt := mt, cvstep := 4, task := some { task0 with flags := 1 }, p := masks, v := vecs })
  withCore s (fun c => { c with deque := List.replicate n (entryS 0 0 5) })
theorem witness_Split : let s := splS 0xF0F 0xF0 63
    Ready s ∧ s.me.caravan = true ∧ s.me.atws = false ∧ (s.g 31).toNat < 2 ^ 32 ∧ s.me.mb &&& ~~~s.me.mt ≠ 0
      ∧ s.me.cvgroup.getLsbD 15 = false ∧ s.here.deque.length < 64 ∧ s.here.sb.length ≤ 32 ∧ InLarder s (s.g 1) 64
      ∧ (s.g 1).toNat % 64 = 0 ∧ s.released 0 0 3 = true ∧ (splS 0xF0F 0xF0F 0).me.mb &&& ~~~(splS 0xF0F 0xF0F 0).me.mt = 0
      ∧ 64 ≤ (splS 0xF0F 3 64).here.deque.length := by
  unfold Ready InLarder
  decide +kernel
/-- A SPLIT whose release waits for a store to main memory, and one that goes on; a gated group whose gate has caravans. -/
theorem witness_Split_release : let s := withCore (splS 0xF0F 0xF0 3) (fun c => { c with sb := [{ hostStore with block := 0x4000000 / 64 }] })
    let t := withMe (splS 0xF0F 0xF0 3) (fun x => { x with wait := .split })
    let g : State := { withMe t (fun x => { x with cvgroup := 0x8007 }) with bars := [(7, { n := 2, a := 1, gen := 3 })] }
    s.released 0 0 3 = false ∧ (∀ e ∈ s.here.sb, e.slot = s.cur.slot → e.block < larderAt s.cur.core 0 / 64)
      ∧ t.me.wait = .split ∧ t.me.mb &&& ~~~t.me.mt ≠ 0 ∧ t.released 0 0 3 = true ∧ t.here.deque.length < 64
      ∧ g.me.cvgroup.getLsbD 15 = true ∧ (g.bar (1024 * clusterOf (coreAt g.region.x g.region.y) + g.me.cvgroup.toNat % 1024)).n ≠ 0 := by
  decide +kernel
theorem witness_Memberships : let s := splS 0xF0F 3 0
    Ready s ∧ (7 : BitVec 5) < 8 ∧ (2 : BitVec 5) ≤ 2 ∧ InLarder s (s.g 1) 32 ∧ (s.g 1).toNat % 32 = 0 ∧ s.here.sb.length ≤ 32 := by
  unfold Ready InLarder
  decide +kernel
/-- Fields of 32 and of 16 bits, and the upper half of a piece, for the members of a piece. -/
theorem witness_Memberships_fields : let s := splS 0xF0F 0 0
    let field (row col i : Nat) : Reg := s.g 6 + (s.g 31 + BitVec.ofNat 64 i) * BitVec.ofNat 64 row + BitVec.ofNat 64 col
    mfBad (s.g 2) = false ∧ mfBad (s.g 3) = false ∧ mfBad (s.g 5) = false ∧ isInt ((s.g 2).extractLsb' 32 5) = true
      ∧ isFloat ((s.g 3).extractLsb' 32 5) = true
      ∧ (∀ i, i < 16 → InLarder s (field 16 4 i) 4 ∧ (field 16 4 i).toNat % 4 = 0)
      ∧ (∀ i, i < 16 → ∀ j, j < 16 → field 16 4 i = field 16 4 j → i = j) := by
  unfold InLarder
  decide +kernel

/-- Names of a tensor and of its tile, holders and waiters, and another task's slots. -/
def tensor5 : Reg := 5 <<< 40
def tile53 : Reg := (1 <<< 62) ||| tensor5 ||| (3 <<< 20)
def lUser (u : Nat) (m : BitVec 3) (t : Reg) : LockUser := { uid := u, age := { t := t, htid := 0 }, mode := m }
def lockOf (n : Reg) (h w : List LockUser) : Lock := { vf := 1, secure := false, name := n, holders := h, waiters := w }
def lockS (l : List Lock) (revoked : Bool) : State :=
  { waiting (withMe (base [(1, tensor5), (2, tile53), (4, 0x122475CF), (5, 0x3)]) (fun x => { x with revoked := revoked }))
      (.barrier 1) (.lock tensor5) (.lock tile53) with locks := l }
theorem witness_LockRequests_new : let s := lockS [] false
    let w := lockS [lockOf tensor5 [lUser 30 5 1] []] false
    let u (s : State) (m : BitVec 3) : LockUser := { uid := s.uid, age := s.ageOf 0 0, mode := m }
    Ready s ∧ s.me.revoked = false ∧ lockNameOk (s.g 1) = true ∧ lockNameOk (s.g 2) = true ∧ (s.myLock (s.g 1)).modeOf s.uid = none
      ∧ s.covered (s.g 1) 5 = true ∧ s.noRoom (s.g 1) = false ∧ grantable (s.matrix 1) (s.myLock (s.g 1)) (u s 5) = true
      ∧ s.silent 0 = false ∧ s.covered (s.g 2) 5 = false ∧ (w.myLock (w.g 1)).modeOf w.uid = none ∧ w.noRoom (w.g 1) = false
      ∧ grantable (w.matrix 1) (w.myLock (w.g 1)) (u w 0) = false ∧ s.region.vf = 1 := by
  unfold Ready
  decide +kernel
/-- A task that holds its 64 locks. -/
def lockMany : State := lockS ((List.range 64).map (fun i => lockOf (BitVec.ofNat 64 (2 ^ 40 * (i + 7))) [lUser 9 5 1] [])) false
theorem witness_LockRequests_full : lockMany.noRoom (lockMany.g 1) = true ∧ (lockMany.myLock (lockMany.g 1)).modeOf lockMany.uid = none
    ∧ lockMany.covered (lockMany.g 1) 5 = true := by decide +kernel
theorem witness_LockRequests_held : let s := lockS [lockOf tensor5 [lUser 9 2 1] [], lockOf tile53 [lUser 9 5 1] []] false
    let u (m : BitVec 3) : LockUser := { uid := s.uid, age := s.ageOf 0 0, mode := m }
    (s.myLock (s.g 1)).modeOf s.uid = some 2 ∧ mayRaise 2 5 = true ∧ s.covered (s.g 1) 5 = true
      ∧ grantable (s.matrix 1) (s.myLock (s.g 1)) (u 5) = true ∧ (s.myLock (s.g 2)).modeOf s.uid = some 5 ∧ mayLower 5 0 = true
      ∧ s.childrenCovered (s.g 2) (some 0) = true ∧ s.released 0 0 3 = true ∧ (lockS [] true).me.revoked = true := by decide +kernel
theorem witness_LockRelease : let s := lockS [lockOf tensor5 [lUser 9 2 1] []] false
    Ready s ∧ lockNameOk (s.g 1) = true ∧ s.me.revoked = false ∧ s.released 0 0 3 = true ∧ (s.myLock (s.g 1)).modeOf s.uid ≠ none
      ∧ (∀ w ∈ (s.myLock (s.g 1)).waiters, w.uid ≠ s.uid) ∧ s.childrenCovered (s.g 1) none = true
      ∧ (s.myLock (s.g 2)).modeOf s.uid = none ∧ matrixBad (s.g 4) = false ∧ matrixBad (s.g 5) = true
      ∧ ∀ l ∈ (lockS [] false).locks, l.vf ≠ (lockS [] false).region.vf := by
  unfold Ready
  decide +kernel
/-- Wounds whose clock has run 2,047 and 2,048 cycles; an ended task with no write outstanding, and with one. -/
def woundS (age : Nat) : State :=
  { lockS [lockOf tensor5 [lUser 9 5 1] [lUser 30 5 1]] false with
    revokes := [{ victim := 9, wounder := 30, vf := 1, secure := false, name := tensor5, age := age }]
    lockDrops := [{ uid := 9, core := 0, slot := 0, root := 1, rid := 0 }] }
def woundT : State := run [.st 8 7 1 2 0] (withMe (woundS 0) (fun x => { x with g := [(1, 7), (7, 0x10000)] }))
theorem witness_LockRelease_units : (∀ n ∈ [2047, 2048], ∀ r ∈ (woundS n).revokes, r.age = n
      ∧ ((woundS n).lockAt r.vf r.secure r.name).modeOf r.victim = some 5
      ∧ ((woundS n).lockAt r.vf r.secure r.name).waiters.find? (fun w => w.uid = r.wounder) = some (lUser 30 5 1)
      ∧ compatible ((woundS n).matrix r.vf) 5 5 = false)
    ∧ (∀ e ∈ (woundS 0).lockDrops, ∀ b ∈ ((woundS 0).core e.core).sb, b.uid ≠ e.uid)
    ∧ (∀ e ∈ woundT.lockDrops, ∃ b ∈ (woundT.core e.core).sb, b.uid = e.uid) := by decide +kernel

/-- A slot in its handler, one whose handler cannot be fetched, and slots with traps that are due. -/
def trapS (f : Slot → Slot) : State := withMe (base [(1, 0x123), (2, 0xFFFFFFFFFFFFFFFF)]) f
def noHandler : State := withCore (trapS id) (fun c => { c with xbase := 0x80000, codehi := 0x20000 })
def inHandler : State := trapS (fun x => { x with xcause := 0xE000000000001234, smc := true, xpc := 0x1238 })
theorem witness_TrapsAndReturns : let s := trapS id
    Ready s ∧ TrapReady s 0x10 ((0xFFF : BitVec 12).setWidth 64) s.after ∧ s.secure = false ∧ s.me.xcause.getLsbD 63 = false
      ∧ TrapReady s 0x11 (s.g 1) s.after ∧ TrapReady s 0x01 (illegalXval s.cur.code (wordOfInstr .xret) 0) s.base
      ∧ inHandler.me.xcause.getLsbD 63 = true := by
  unfold Ready TrapReady
  decide +kernel
theorem witness_TrapsAndReturns_halt : noHandler.cur.slot < 8
    ∧ ((noHandler.abandon 0 0).setMe (trapSlot noHandler.me noHandler.here 0 0x10 ((7 : BitVec 12).setWidth 64) noHandler.after)).handlerFaults 0 0 0x10 = some true := by
  decide +kernel
theorem witness_PendingTraps : let s := trapS (fun x => { x with budgetDue := true, overrun := 4095 })
    let w := trapS (fun x => { x with wound := some { name := 7 } })
    let k := trapS (fun x => { x with budgetDue := true, overrun := 4096 })
    Ready s ∧ s.cur.core < 4096 ∧ s.cur.slot < 8 ∧ s.me.task.isSome = true ∧ s.takesPending 0 0 = true ∧ s.me.budgetDue = true
      ∧ TrapReady s 0x0A 0 s.base ∧ w.takesPending 0 0 = true ∧ w.me.budgetDue = false ∧ w.me.wound = some { name := 7 }
      ∧ TrapReady w 0x0B 7 w.base ∧ 4096 ≤ k.me.overrun ∧ s.me.overrun < 4096
      ∧ TrapReady s 0x03 (s.g 1) s.base ∧ s.me.entering = none ∧ TrapReady s 0x01 ((0x7A : Word).setWidth 64) s.base
      ∧ (trapS (fun x => { x with entering := some 0x10 })).me.entering.isSome = true := by
  unfold Ready TrapReady
  decide +kernel
theorem witness_SystemRegisters : let s := trapS id
    let t := trapS (fun x => { x with smc := true })
    Ready s ∧ s.secure = false ∧ s.me.xcause.getLsbD 63 = false ∧ t.secure = true ∧ inHandler.me.xcause.getLsbD 63 = true
      ∧ TrapReady s 0x01 (illegalXval s.cur.code (wordOfInstr (.sysrd 1 0x100)) 0) s.base
      ∧ ∀ n ∈ ([0x006, 0x007, 0x103] : List (BitVec 12)), TrapReady s 0x01 (illegalXval s.cur.code (wordOfInstr (.syswr 1 n)) 0) s.base := by
  unfold Ready TrapReady
  decide +kernel
def yieldS (n : Nat) : State := withCore (recS 1 0) (fun c => { c with ready := List.replicate n (entryS 0 0 5) })
theorem witness_BudgetAndYield : Ready (yieldS 79) ∧ RecordOk (yieldS 79) ((yieldS 79).g 1) task0 ∧ (yieldS 79).me.atws = false
    ∧ (yieldS 79).me.met = false ∧ (yieldS 79).released 0 0 3 = true ∧ (yieldS 79).here.ready.length < 80 := by
  unfold Ready RecordOk InLarder recordAt
  decide +kernel
theorem witness_BudgetAndYield_full : RecordOk (yieldS 80) ((yieldS 80).g 1) task0 ∧ (yieldS 80).released 0 0 3 = true
    ∧ 80 ≤ (yieldS 80).here.ready.length := by
  unfold RecordOk InLarder recordAt
  decide +kernel
/-- A YIELD whose release waits for a store to main memory, before it has its copy and with it. -/
def yieldW (free : Bool) (copy : Option Record) : State :=
  withMe (withCore (yieldS 79) (fun c => { c with sb := if free then [] else [{ hostStore with block := 0x4000000 / 64 }] })) (fun x => { x with copied := copy })
theorem witness_BudgetAndYield_release : RecordOk (yieldW false none) ((yieldW false none).g 1) task0 ∧ (yieldW false none).released 0 0 3 = false
    ∧ (∀ free ∈ [true, false], let s := yieldW free (some (recordOf (recB 0x100 3)))
       (s.me.copied = some (recordOf (recB 0x100 3)) ∧ s.me.task = some task0 ∧ s.me.atws = false ∧ s.me.met = false ∧ s.released 0 0 3 = free)) := by
  unfold RecordOk InLarder recordAt
  decide +kernel
/-- Entries of the dictionary: ADD, a word that starts with a 1, one that no instruction has, and zero; none elsewhere. -/
def dictS : State :=
  let x (first n : Nat) (inv : Bool) : Reg := BitVec.ofNat 64 (first + n * 2 ^ 10 + (if inv then 2 ^ 31 else 0))
  withCore (base [(1, L 0x200), (2, x 5 3 false), (3, x 1023 1 true), (4, x 0 1024 true), (5, x 7 0 false)]) (fun c => { c with
    dict := [(5, 0x000E6282), (7, 0x000E6283), (9, 0x7A), (10, 0), (1023, 7)] })
theorem witness_Dictionary_load : Ready dictS ∧ (∀ b ∈ [2, 3, 4, 5], dictBad (dictS.g b) = false) ∧ InLarder dictS (dictS.g 1) 12
    ∧ (dictS.g 1).toNat % 4 = 0 ∧ (dictS.g 3).getLsbD 31 = true ∧ (dictS.g 5).toNat / 2 ^ 10 % 2 ^ 11 = 0 := by
  unfold Ready InLarder
  decide +kernel
theorem witness_Dictionary_code : let v (k : Nat) : Option Word := Tab.find dictS.here.dict k
    let e (k : Nat) : Word := (v k).getD 0
    let u (sub : BitVec 5) (n : BitVec 10) : State := { dictS with cur := { dictS.cur with len := 2, code := some (n ++ sub ++ (1 : BitVec 1)) } }
    v 5 ≠ none ∧ v 7 ≠ none ∧ v 9 ≠ none ∧ v 10 = some 0 ∧ (e 5).getLsbD 0 = false ∧ (e 5).extractLsb' 1 6 ≠ 0x3F ∧ decodeWord (e 5) = .ok (.add 5 6 7)
      ∧ decodeWord ((e 5 &&& 0xFFFFF07F#32) ||| ((9 : BitVec 5).setWidth 32 <<< 7)) = .ok (.add 9 6 7) ∧ (e 7).getLsbD 0 = true
      ∧ (match decodeWord (e 9) with | .ok _ => false | .error _ => true) = true ∧ (match decodeWord (e 10) with | .ok _ => false | .error _ => true) = true ∧ v 8 = none
      ∧ TrapReady (u 0 8) 0x02 (BitVec.ofNat 64 (2 ^ 48 + ((8 : BitVec 10) ++ (0 : BitVec 5) ++ (1 : BitVec 1)).toNat * 2 ^ 32)) dictS.base
      ∧ TrapReady (u 0 9) 0x01 (BitVec.ofNat 64 (2 ^ 48 + ((9 : BitVec 10) ++ (0 : BitVec 5) ++ (1 : BitVec 1)).toNat * 2 ^ 32 + 0x7A)) dictS.base := by
  unfold TrapReady
  decide +kernel

/-- Lines in the L1 caches and in the L2. -/
def l2Of (line way : Nat) (dirty : Bool) (key : BitVec 12) : L2Line :=
  { slice := (base []).homeSlice (line * 128), line := line, way := way, bytes := [(3, 0x77), (5, 0x78)], dirty := dirty,
    bad := [], tenant := 5, wrote := [], key := key, secure := false }
def cacheS (l2 : List L2Line) : State :=
  let x (line : Nat) (ro : Bool) : L1Line := { line := line, bytes := List.replicate 128 3, ro := ro, secure := false }
  { withCore (base [(1, 0x10000), (2, 7), (3, 1), (4, 2), (6, 128)]) (fun c => { c with
      l1 := [x 0x80000 true, x 0x80001 false], l1i := [x 0x80000 true] }) with l2 := l2 }
theorem witness_CacheMaintenance_drop : let s := cacheS []
    Ready s ∧ (s.g 2).toNat < 8 ∧ (s.g 2).getLsbD 2 = true ∧ s.g 3 = 1 ∧ s.released 0 0 0 = true
      ∧ (∀ q ∈ s.cores, q.1 = s.cur.core → q.2.sb = [] ∧ q.2.mixw ++ q.2.dataw = []) ∧ s.posted = []
      ∧ (s.g 4).toNat % 4 = 2 ∧ (s.g 4).toNat < 16 ∧ s.secure = false
      ∧ TrapReady s 0x0E ((wordOfInstr (.tlbi 1 4)).setWidth 64) s.base := by
  unfold Ready TrapReady
  decide +kernel
/-- An L1INV that the slot has carried out ahead, with these operands, and with others. -/
theorem witness_CacheMaintenance_ahead : let tok (a x : Reg) : Early := { earlyW 0 false 0 with inv := some (a, x) }
    let s (a x : Reg) : State := { cacheS [] with early := [tok a x, earlyW 0x4000000 false 9] }
    ((s 0 7).g 2).toNat < 8 ∧ (cacheS []).early = []
      ∧ (∃ e ∈ (s 0x10000 7).early, e.core = 0 ∧ e.slot = 0 ∧ e.inv = some ((s 0 7).g 1, (s 0 7).g 2))
      ∧ ∀ e ∈ (s 0x10000 1).early, e.inv ≠ some ((s 0 7).g 1, (s 0 7).g 2) := by decide +kernel
/-- 11 R293: one carried out before a load is performed lets the load's line be read again from its home. -/
theorem test_l1inv_ahead : let s := (cacheS []).invAhead 0 0 0x10000 1
    s.here.l1.map (·.line) = [0x80001] ∧ s.early.map (·.inv) = [some (0x10000, 1)]
      ∧ (run [.l1inv 1 3] s).early = [] ∧ (run [.l1inv 1 3] s).base = 0x1004 := by decide +kernel
/-- Operands of an L1INV of an address: in a page of the TLB, in the attic, in another window, and past the address space. -/
theorem witness_CacheMaintenance_address : let s (va : Nat) : State := withMe (cacheS []) (fun x => { x with g := [(1, BitVec.ofNat 64 va), (2, 3)] })
    ((s 0).g 2).toNat < 4 ∧ (s 0).cur.slot < 8 ∧ 0x10000 < windowBase
      ∧ (match (s 0x10000).slotFind 0 0 0x10000 with
         | some (.ok y) => (y.loc 0x10000).place / 128 == 0x80000
         | _ => false) = true
      ∧ (let va := windowBase + 8 * 2 ^ 32 + 0x40
         windowBase ≤ va ∧ va < 2 ^ 52 ∧ (va - windowBase) / 2 ^ 32 = 8)
      ∧ (L 0).toNat = windowBase ∧ (windowBase - windowBase) / 2 ^ 32 ≠ 8 ∧ ((s (2 ^ 52)).g 1).toNat = 2 ^ 52 := by decide +kernel
/-- Writes that a dropped translation gave: in a store buffer, staged by an engine, and held at an interface. -/
theorem witness_CacheMaintenance_due : let s := cacheS []
    s.region.vf = 1 ∧ hostStore.va.toNat < windowBase ∧ hostStore.vf = 1
      ∧ (let y : Staged := { line := 5, bytes := [], ms := false, sec := false, key := 0, tenant := 5, vf := 1, va := 0x10000 }
         y.va.toNat < windowBase ∧ y.vf = 1)
      ∧ (let p : Posted := { src := 0, slot := 1, uid := 30, fence := 1, place := 0x4000000, op := .sig, va := 0x10000, vf := 1 }
         p.src = s.cur.core ∧ p.va.toNat < windowBase ∧ p.vf = 1) := by decide +kernel
theorem witness_CacheMaintenance_range : ∀ s ∈ [cacheS [], cacheS [l2Of 0x80000 3 true 0], cacheS [l2Of 0x80000 3 false 0, l2Of 0x80001 4 true 0]],
    let l := loc s .load (s.g 1) 1
    Names s .load (s.g 1) 1 1 l ∧ 1 ≤ (s.g 6).toNat ∧ (s.g 1).toNat % 128 + (s.g 6).toNat ≤ 128 ∧ (s.g 1).toNat < windowBase
      ∧ l.ms = false ∧ l.place % 4096 = (s.g 1).toNat % 4096 ∧ (∀ e ∈ s.here.sb, e.slot = s.cur.slot → e.block / 2 ≠ l.place / 128)
      ∧ s.claimed (l.place / 128) = false ∧ s.inEpoch (l.place / 128 * 128) 128 = false ∧ s.silent s.cur.core = false
      ∧ isCmp l.place = false := by
  unfold Names
  decide +kernel
/-- A secure slot, with keys in force and lines under them. -/
def secS : State :=
  withMe { base [(1, 5), (2, 0xFF9100), (3, 0x8001), (4, 63), (5, 511), (6, 1023), (7, 4095)] with
    l2 := [l2Of 0x80000 3 true 5, l2Of 0x80001 15 true 9], keys := [(5, 0x1234), (4095, 2 ^ 255)] } (fun x => { x with smc := true })
theorem witness_SecureSettings : Ready secS ∧ secS.secure = true ∧ secS.silent 0 = false ∧ (secS.g 4).toNat < 64 ∧ maskBad (secS.g 2) = false
    ∧ (∀ e ∈ secS.epochs, domainOf e.base ≠ 63) ∧ (∀ q ∈ secS.claims, q.recorded = true → domainOf (q.line * 128) ≠ 63)
    ∧ (secS.g 5).toNat < 512 ∧ (secS.g 3).toNat < 2 ^ 16 ∧ (secS.g 6).toNat < 1024 ∧ (secS.g 7).toNat < 4096
    ∧ Tab.find secS.keys 4095 ≠ none ∧ Tab.find secS.keys 63 = none := by
  unfold Ready
  decide +kernel
/-- A copy that has begun and writes into way 15 of a slice, which leaves in favour of way 14, or stays. -/
def busyAttic (ways : Reg) : State :=
  let s := withMe { dataCpyS with attic := [(0, 0xC000)] } (fun x => { x with smc := true, g := [(1, 0), (2, ways)] })
  withCore s (fun c => { c with
    dataq := c.dataq.map (fun m => { m with prog := some Progress.start })
    dataw := [{ line := atticAt 0 0 / 128, bytes := [(0, 1)], ms := false, sec := true, key := 0, tenant := 5, vf := 1, va := 0xFFF0800000000 }] })
theorem witness_SecureSettings_busy : let leave (s : State) : BitVec 16 := Tab.get (0 : BitVec 16) s.attic 0 &&& ~~~((s.g 2).setWidth 16)
    let busy (s : State) : Bool := s.cores.any (fun q => (q.2.dataq.take 1).any (fun m => s.worksIn q.1 true m 0 (leave s)))
    (busyAttic 0x4000).secure = true ∧ (busyAttic 0x4000).silent 0 = false ∧ (leave (busyAttic 0x4000)).toNat = 0x8000 ∧ busy (busyAttic 0x4000) = true ∧ busy (busyAttic 0x8000) = false
      ∧ (busyAttic 0).here.mixq = [] := by decide +kernel
/-- The same once the ways that enter are in force: the copy still works in the way that leaves, or it does not. -/
def goesOnAttic (old : BitVec 16) : State := withMe (busyAttic 0x4000) (fun x => { x with wait := .attset old })
def inLeaving (s : State) (leave : BitVec 16) : Bool := s.cores.any (fun q => (q.2.dataq.take 1).any (fun m => s.worksIn q.1 true m 0 leave))
theorem witness_SecureSettings_goes_on : inLeaving (goesOnAttic 0xC000) 0x8000 = true ∧ inLeaving (goesOnAttic 0x4000) 0 = false
    ∧ (goesOnAttic 0xC000).me.wait = .attset 0xC000 ∧ (goesOnAttic 0xC000).secure = true ∧ ((goesOnAttic 0xC000).g 1).toNat < 512
    ∧ ((goesOnAttic 0xC000).g 2).toNat = 0x4000 ∧ (0xC000 : BitVec 16) &&& ~~~(0x4000 : BitVec 16) = 0x8000 := by decide +kernel
theorem witness_SecureSettings_refused : ∀ i ∈ ([.domset 9 4 2, .attset 9 5 3, .waymask 9 6 3, .keydel 9 1] : List Instr),
    (base []).secure = false ∧ TrapReady (base []) 0x0E ((wordOfInstr i).setWidth 64) (base []).base := by
  unfold TrapReady
  decide +kernel
def snapS : Snapshot := { count := 3, secure := [(8, 5), (300, 6)], open' := [(8, 7), (400, 9)] }
theorem witness_Snapshots : Ready (base [(1, 10)]) ∧ (base []).latchDue = false ∧ (base []).snapshot = none ∧ 10 ≤ ((base [(1, 10)]).g 1).toNat
    ∧ ({ base [] with latchDue := true } : State).latchDue = true ∧ ({ base [] with snapshot := some snapS } : State).snapshot = some snapS
    ∧ (0 : Nat) < 4096 ∧ (base []).secureCore 0 = false ∧ (base []).snapWaits = false
    ∧ ({ base [] with epochs := [epoch0 0x1C00000 [1] []] } : State).snapWaits = true := by
  unfold Ready
  decide +kernel

/-- Stores of slot 0 in its buffer: to plain memory with its line in the L2, to memory-side memory, to the cellar. -/
def drainS : State := { run [.st 8 1 2 3 0, .st 16 6 2 3 0] (base [(1, 0x12008), (2, 0x1122334455667788), (6, C 0x80)]) with
  l2 := [{ slice := (base []).homeSlice 0x4000000, line := 0x80000, way := 3, bytes := (List.range 128).map (fun i => (i, BitVec.ofNat 8 i)),
           dirty := false, bad := [], tenant := 5, wrote := [], key := 0, secure := false }] }
def drainH : State := { run [.st 8 1 2 3 0] (base [(1, 0x10000), (2, 0x1122334455667788)]) with l2 := drainS.l2 }
/-- The hypotheses of the drain of the k-th word, as one test. -/
def drains (s : State) (k : Nat) : Bool := match (sbWords s.here.sb)[k]? with
  | some (i, w) => match s.here.sb[i]? with
    | some e =>
      let l : Loc := { place := e.block * 64 + ((e.word w).headD (0, 0)).1, ms := e.ms, ro := false, sec := e.secure, key := e.key }
      Tab.sorted e.bytes && (s.here.sb.take i).all (fun x => !(x.slot == e.slot && x.block == e.block) || x.word w == [])
        && !s.fenceHoldsAt 0 e.slot e.fence (e.block * 64) && !s.waits { l with place := e.block * 64 + 8 * w } 8
        && (s.refusedStore 0 e l).isNone && !s.mute 0 l.place
        && (storeOf l.place != .host || !s.inPub e.vf l.place 1 || s.pubRoom e.vf (l.place / 128))
    | none => false
  | none => false
theorem witness_StoreBufferDrain : drains drainS 0 = true ∧ drains drainS 1 = true ∧ drains drainH 0 = true
    ∧ (drainH.l2Hit 0x80000 false).isSome = true ∧ (drainH.here.sb.all (fun e => !e.ms)) = true
    ∧ (drainS.here.sb.map (fun e => storeOf (e.block * 64))) = [.hbm, .cellar] := by decide +kernel
/-- A word whose line no slice holds, a memory-side one, and one that host memory refuses. -/
def drainN : State := { drainH with l2 := [] }
def drainR : State := withCore (base []) (fun c => { c with sb := [{ hostStore with block := (2 ^ 52 + 0x9000) / 64 }] })
def refusal (s : State) : Option (Cause × Reg) := (s.here.sb.head?).bind (fun e =>
  s.refusedStore 0 e { place := e.block * 64 + ((e.bytes).headD (0, 0)).1, ms := e.ms, ro := false, sec := e.secure, key := e.key })
theorem witness_StoreBufferDrain_no_copy : drains drainN 0 = true ∧ drainN.openWays 5 (drainN.homeSlice 0x4000000) ≠ [] ∧ isCmp 0x4000000 = false
    ∧ (∀ x ∈ drainN.l2, x.line ≠ 0x80000) ∧ drains { drainS with l2 := [] } 0 = true ∧ drainS.here.sb.any (fun e => e.ms) = true := by decide +kernel
theorem witness_StoreBufferDrain_refused : refusal drainR = some (Cause.data, BitVec.ofNat 64 (2 ^ 52 + 0x9000)) ∧ drainR.mute 0 (2 ^ 52 + 0x9000) = false
    ∧ drainR.inPub 1 (2 ^ 52 + 0x9000) 1 = false ∧ drainR.fenceHoldsAt 0 0 0 (2 ^ 52 + 0x9000) = false := by decide +kernel
/-- A store to a publication window, whose line the buffer takes. -/
theorem witness_StoreBufferDrain_host : let s := withCore memP (fun c => { c with sb := [hostStore] })
    drains s 0 = true ∧ s.inPub 1 (2 ^ 52 + 0x5000) 1 = true ∧ s.pubRoom 1 ((2 ^ 52 + 0x5000) / 128) = true := by decide +kernel

/-- A miss that two slots wait for; claims, one of them not yet recorded; page walks. -/
def missS : State :=
  let m : Miss := { slice := nodeSlice, line := 0x80000, tenant := 5, key := 0, secure := false, keep := [] }
  { waiting (base []) (.fill m.slice 0x80000) (.fill 3 7) (.fill m.slice 0x80000) with misses := [m] }
def claimS (n : Nat) : State :=
  let c (r : Bool) (l : Nat) : Claim := { line := l, unit := 3, core := 0, data := true, seq := 1, slot := 0, recorded := r }
  { base [] with claims := c false 5 :: (List.range n).map (fun i => c true (i + 10)), snoop := [5, 6] }
theorem witness_FillsAndWalks_claims : ∀ n ∈ [127, 128], ∀ q ∈ (claimS n).claims.head?, q.recorded = false
    ∧ ((claimS n).claims.filter (fun x => x.recorded && x.unit = q.unit)).length = n ∧ (claimS n).silent q.core = false
    ∧ (claimS n).claims[0]? = some q ∧ (claimS n).claims.take 0 = [] := by decide +kernel
/-- A claim behind another of its engine on the same line; a core whose crossbar partition owns no slot. -/
def claimB : State := { claimS 1 with claims := (claimS 1).claims ++ [{ line := 5, unit := 3, core := 0, data := true, seq := 2, slot := 0, recorded := false }] }
def mutedS (s : State) : State := { s with crossbars := [(0, { Crossbar.reset with strictNow := true, ptabNow := 0x1111111111111111 })] }
theorem witness_FillsAndWalks_claims_held : (∃ x ∈ claimB.claims.take 2, x.line = 5 ∧ x.core = 0 ∧ x.data = true ∧ x.recorded = false)
    ∧ (claimB.claims[2]?).map (·.recorded) = some false ∧ (mutedS (claimS 1)).silent 0 = true := by decide +kernel
theorem witness_FillsAndWalks_no_domset (c j : Nat) : ((claimS 127).slotAt c j).wait ≠ .domset (domainOf 0) := by
  show ((Tab.get Core.reset [(0, core0 [])] c).slot j).wait ≠ _
  by_cases hc : c = 0 <;> by_cases hj : j = 0 <;>
    simp [hc, hj, Tab.get, Tab.find, Core.slot, core0, slot0, Core.reset, Slot.reset]
/-- A claim of a domain that a DOMSET waits for is not recorded (12 R309, step 2). -/
def domsetS : State :=
  let s : State := { claimS 1 with cur := { core := 0, slot := 1, len := 4, code := none } }
  s.setMe { s.me with wait := .domset (domainOf (5 * 128)) }
theorem test_claim_waits_for_domset : (match exec (.claimRecord 0) domsetS with
    | .next t => t.claims == domsetS.claims
    | _ => false) = true := by decide +kernel
theorem witness_FillsAndWalks_fill : ∀ m ∈ missS.misses, missS.keyGone m.key = false ∧ missS.backBad (m.line * 128) = false
    ∧ ({ missS with poisoned := [0x800000] } : State).backBad (m.line * 128) = true ∧ m.keep = [] ∧ missS.l2Hit m.line m.secure = none ∧ missS.openWays m.tenant m.slice ≠ []
    ∧ m.slice = missS.homeSlice (m.line * 128) := by decide +kernel
/-- A miss that a prefetch into an L1 has asked for, of a line of which the slice has some bytes. -/
theorem witness_FillsAndWalks_keep : let s : State := { missS with misses := missS.misses.map (fun m => { m with keep := [(0, true)] }), l2 := [l2Of 0x80000 3 true 0] }
    ∀ m ∈ s.misses, m.keep = [(0, true)] ∧ s.keyGone m.key = false ∧ s.backBad (m.line * 128) = false
      ∧ s.l2Hit m.line m.secure = some (l2Of 0x80000 3 true 0) ∧ (l2Of 0x80000 3 true 0).bad = [] := by decide +kernel
/-- A line of which the slice has some bytes; a miss behind 48 others of its slice. -/
def missPart : State := { missS with l2 := [l2Of 0x80000 3 true 0] }
def missMany : State :=
  let m (i : Nat) : Miss := { slice := nodeSlice, line := 0x80000 + 64 * i, tenant := 5, key := 0, secure := false, keep := [] }
  { missS with misses := (List.range 49).map m }
theorem witness_FillsAndWalks_merge : missPart.l2Hit 0x80000 false = some (l2Of 0x80000 3 true 0) ∧ Tab.sorted (l2Of 0x80000 3 true 0).bytes = true
    ∧ missPart.keyGone 0 = false ∧ missPart.backBad (0x80000 * 128) = false
    ∧ ((missMany.misses.take 48).filter (fun x => x.slice = nodeSlice)).length = 48
    ∧ ((missMany.misses.take 47).filter (fun x => x.slice = nodeSlice)).length < 48 := by decide +kernel
/-- Walks of pages of function 1, with the lines of its tables in their slices. -/
def tableLines (s : State) : State := { s with
  l2 := [0x6000000, 0x6001000, 0x6002000, 0x6003000, 0x6004380, 0x6004F80].map (fun p =>
    { l2Of (p / 128) 5 false 0 with bytes := (List.range 128).map (fun i => (i, s.byte (p + i))) }) }
def walkS (req : List Nat) : State := { paged (base []) [] [] with
  walks := [(0, req.map (fun p => { core := 0, slot := 0, vf := 1, secure := false, page := p, fetch := false }))] }
def found (s : State) (p : Nat) : Bool := match s.walk 1 false (p * 4096) with
  | .ok _ => true
  | .error _ => false
theorem witness_FillsAndWalks_walk : let s := tableLines (walkS [0x77, 0x77, 0x78, 0x3FF])
    let used (p : Nat) := (s.walkReads 1 false (p * 4096)).foldl (fun u p => u.touchLine (p / 128)) s
    (∀ p ∈ [0x77, 0x78, 0x3FF], s.walkWaits 1 false (p * 4096) = false ∧ s.walkMiss 1 false 5 (p * 4096) = none)
      ∧ found (used 0x77) 0x77 = true ∧ found (used 0x3FF) 0x3FF = true ∧ found (used 0x78) 0x78 = false
      ∧ (s.walkers (Tab.get [] s.walks 0)).map (·.page) = [0x77, 0x78, 0x3FF] ∧ (s.regionOf 0 0).tenant = 5 := by decide +kernel
theorem witness_FillsAndWalks_held : let s : State := { walkS [0x77] with
      claims := [{ line := 0x6003000 / 128, unit := 3, core := 2, data := true, seq := 1, slot := 0, recorded := true }] }
    s.walkWaits 1 false 0x77000 = true ∧ (walkS [0x77]).walkWaits 1 false 0x77000 = false
      ∧ ((walkS [0x77]).walkMiss 1 false 5 0x77000).map (·.place) = some 0x6000000 := by decide +kernel

/-- A plain line with a copy in the L2; the key mailbox with a command; a stack with retired pages. -/
def hostS : State := { base [] with booted := true, snoop := [0x80000, 7], l2 := [l2Of 0x80000 3 true 0] }
def keyS (ctx : Nat) (k : Tab (BitVec 256)) : State :=
  ((({ hostS with keys := k } : State).poke 0x20000 (bytesOfNat 32 0x1234567890)).poke 0x20020 (bytesOfNat 8 ctx)).poke 0x20028 (bytesOfNat 8 1)
def pubFull (n : Nat) (due adv : Bool) : State :=
  { pubS ((List.range n).map (fun i => { vf := 1, line := 2 ^ 45 + i, bytes := [(3, 4)], due := due }) ++ [pubOf 2 false]) with
    vfs := [(1, { Ngamon.reset with pubver := 0x4000, advancing := adv })] }
theorem witness_OutsideAccesses_host : ∀ p ∈ [0x4000008, 0x4002008], let l : Loc := { Loc.plain p with ms := hostS.msLine p }
    storeOf p = .hbm ∧ p % 8 = 0 ∧ hostS.worldBit p = false ∧ hostS.waits l 8 = false ∧ p < 2 ^ 40 ∧ hostS.homeBad l 8 = false
      ∧ ({ hostS with poisoned := [0x4000008 / 8, 0x4002008 / 8] } : State).homeBad l 8 = true := by decide +kernel
/-- A line that must come from memory at once, and one that another agent's read has asked for; bring-up that is not complete. -/
theorem witness_OutsideAccesses_fill : let l : Loc := .plain 0x4000080
    let t : State := { hostS with misses := [{ slice := hostS.homeSlice 0x4000080, line := 0x80001, tenant := 0, key := 0, secure := false, keep := [] }] }
    hostS.booted = true ∧ hostS.fillWaits 0 l 8 = false ∧ t.fillWaits 0 l 8 = true ∧ t.waits l 8 = false ∧ (base []).booted = false := by decide +kernel
theorem witness_OutsideAccesses_kinds : hostS.msLine 0x4000008 = false ∧ hostS.msLine 0x4002008 = true := by decide +kernel
/-- The first 32 MiB belong to the secure world, the next 32 MiB do not (15 R364). -/
theorem witness_OutsideAccesses_world : hostS.worldBit 0x1FFFFF8 = true ∧ hostS.worldBit 0x2000000 = false := by decide +kernel
theorem witness_OutsideAccesses_publication : 1024 ≤ ((pubFull 1024 false false).pub.filter (fun e => e.vf == 1)).length
    ∧ ¬1024 ≤ ((pubFull 1023 false false).pub.filter (fun e => e.vf == 1)).length ∧ ((pubFull 3 false false).ngamon 1).advancing = false
    ∧ ((pubFull 3 true true).ngamon 1).advancing = true ∧ (∃ e ∈ (pubFull 3 true true).pub, e.vf = 1 ∧ e.due = true)
    ∧ (∀ e ∈ (pubFull 3 false true).pub, e.vf = 1 → e.due = false) := by decide +kernel
def mailbox : Loc := { Loc.plain 0x20000 with ms := true, sec := true }
theorem witness_OutsideAccesses_keys : (∀ s ∈ [keyS 5 [], keyS 5 [(5, 99)], keyS 0 []], s.devNat 0x20028 8 = 1) ∧ hostS.devNat 0x20028 8 ≠ 1 ∧ (keyS 5 []).waits mailbox 128 = false
    ∧ (keyS 5 []).homeBad mailbox 128 = false ∧ hostS.homeBad mailbox 128 = false
    ∧ ({ keyS 5 [] with poisoned := [0x20000 / 8] } : State).homeBad mailbox 128 = true
    ∧ ({ keyS 5 [] with epochs := [epoch0 0x20000 [1] []] } : State).waits mailbox 128 = true
    ∧ (keyS 5 []).devNat 0x20020 8 % 4096 = 5
    ∧ (let d : Stack := { Stack.reset with retired := [3, 7] }
       0 ∉ d.retired ∧ 7 ∈ d.retired ∧ d.retired.length < 4096)
    ∧ (List.range 4096).length = 4096 := by decide +kernel

/-- Cores with entries in their queues. -/
def dispS (dq rq : List Entry) : State := withCore (base []) (fun c => { c with deque := dq, ready := rq, codelo := 0x1000 })
def nextOf (s : State) : Option Entry := s.nextEntry 0
theorem witness_DispatchAndSteal_dispatch : let s := dispS [entryS 0 0 8, entryS 1 9 9] [entryS 1 3 11]
    (s.slotAt 0 7).task = none ∧ (nextOf s).isSome = true ∧ nextOf (dispS [entryS 1 9 8] []) = some (entryS 1 9 8) ∧ (s.slotAt 0 0).task ≠ none := by
  decide +kernel
/-- An idle core whose south neighbour's oldest entry may not be stolen, but the next may. -/
def stealS : State := let s := dispS [] []
  { s with cores := Tab.put s.cores (coreAt 0 1) { core0 [] with deque := [entryS 2 0 5, entryS 0 0 6, entryS 0 0 7] } }
theorem witness_DispatchAndSteal_steal : let n := coreAt 0 1
    (stealS.core 0).stolen = none ∧ (∃ j, j < 8 ∧ (stealS.slotAt 0 j).task = none) ∧ nextOf stealS = none
      ∧ (stealS.stealFrom 0).map (·.2) = some (coreAt 1 0) ∧ stealS.stealRegions 0 n = [(1, 0)]
      ∧ (let s := stealS.setCore 0 { stealS.core 0 with askNext := 2 }
         s.stealFrom 0 = some (2, n) ∧ s.nextEntry 0 = none)
      ∧ (stealS.core n).deque.find? (fun e => !e.record.noSteal && e.root = 1 && e.record.rid == 0) = some (entryS 0 0 6) := by decide +kernel
/-- An entry on its way to a core that may run it, to one that may not, and to one whose ready queue is full. -/
def arriveS (pre : Option Preempt) (n : Nat) : State :=
  let s := withCore (dispS [] []) (fun c => { c with stolen := some (entryS 0 0 6), ready := List.replicate n (entryS 0 0 5) })
  { s with roots := [(1, { root0 with preempt := pre })] }
def asked : Option Preempt := some { image := 0x200000, vf := 1, secure := false, tag := some 0xBEEF }
theorem witness_DispatchAndSteal_arrives : let may (s : State) := (s.setCore 0 { s.core 0 with stolen := none }).mayRun 0 (entryS 0 0 6)
    ((arriveS none 0).core 0).stolen = some (entryS 0 0 6) ∧ ((arriveS none 0).core 0).askNext = 3 + 1 ∧ ((arriveS none 0).core 0).free = some 1 ∧ may (arriveS none 0) = true
      ∧ may (arriveS asked 3) = false ∧ ((arriveS asked 3).core 0).ready.length < 80 ∧ may (arriveS asked 80) = false
      ∧ 80 ≤ ((arriveS asked 80).core 0).ready.length := by decide +kernel

/-- Submissions of function 1: a launch that is good, one of a version not selected, one of an unlisted operation. -/
def lchS : State := { base [] with nextRoot := 2 }
def subOf (s : State) : Option (Nat × Nat) := (s.submission 1).map (fun e => (e.op, e.ver))
theorem witness_Launches_entries : subOf (submitted lchS 4 0x100 0 0 0 []) = some (4, 0x100) ∧ subOf (submitted lchS 5 0x100 0 0 0 []) = some (5, 0x100)
    ∧ subOf (submitted lchS 0 0x102 0 0 0 []) = some (0, 0x102) ∧ subOf (submitted lchS 1 0x101 0x77000 0 0 []) = some (1, 0x101)
    ∧ ((submitted lchS 4 0x100 0 0 0 []).ngamon 1).sel = 0x100 ∧ (3 : BitVec 16).toNat ≤ ((submitted lchS 4 0x100 0 0 0 []).ngamon 1).lsqsz.toNat
    ∧ (lchS.ngamon 1).head = (lchS.ngamon 1).tail := by decide +kernel
/-- What reading a launch's descriptor gives: its status, or the origin of its top region. -/
def planOf (s : State) : Except Halt (Option (Nat × Nat) × Bool) := match ((s.nextEntryRead 1).readLaunch 1 false 0x77000).1 with
  | .ok p => .ok (p.origin, match p.origin with
      | some (x, y) => s.freeAt (p.regions.headD Region.default) x y
      | none => false)
  | .error e => .error e
def busyS : State := { lchS with roots := [(1, { root0 with regions := [{ region0 with x := 16, y := 8 }] })] }
theorem witness_Launches_good : (match planOf (submitted lchS 1 0x100 0x77000 0 0 []) with
    | .ok (some (16, 8), true) => true
    | _ => false) = true := by decide +kernel
theorem witness_Launches_busy : (match planOf (submitted busyS 1 0x100 0x77000 0 0 []) with
    | .ok (some (16, 8), false) => true
    | _ => false) = true := by decide +kernel
theorem witness_Launches_bad : (match planOf (submitted lchS 1 0x100 0x77000 0 0x77100 []) with
    | .ok _ => false
    | .error e => e.1 != 0) = true := by decide +kernel
/-- A launch whose descriptor's line an engine has claimed; a package that is not yet brought up. -/
theorem witness_Launches_waits : (match planOf { submitted lchS 1 0x100 0x77000 0 0 [] with
      claims := [{ line := 0x5077000 / 128, unit := 3, core := 2, data := true, seq := 1, slot := 0, recorded := true }] } with
    | .ok _ => false
    | .error e => e.1 == 0) = true ∧ (submitted lchS 1 0x100 0x77000 0 0 []).booted = true ∧ lchS.booted = false := by decide +kernel
def idleS : State := { lchS with cores := [(0, { core0 [] with slots := [] })] }
theorem witness_Launches_complete : Tab.find idleS.roots 1 = some root0 ∧ root0.preempt = none ∧ idleS.noTasks 1 = true
    ∧ idleS.noWork 1 root0.top = true ∧ (∀ f ∈ idleS.fired, f.who.root ≠ 1) ∧ lchS.noTasks 1 = false := by decide +kernel

/-- A root of one core, to be pre-empted, pre-empted, and drained. -/
def oneCore : Region := { region0 with w := 1, h := 1, cellar := 0, barcnt := 0 }
def oneS (s : State) (p : Option Preempt) : State :=
  { s with roots := [(1, { root0 with regions := [oneCore], preempt := p })], nextRoot := 2 }
theorem witness_Preemption_mark : (∀ r ∈ Tab.find (submitted (oneS (base []) none) 2 0x100 1 0x200000 0 []).roots 1, r.vf = 1 ∧ r.preempt = none)
    ∧ subOf (submitted (oneS (base []) none) 2 0x100 1 0x200000 0 []) = some (2, 0x100)
    ∧ (Tab.find (oneS (base []) none).roots 1).isSome = true ∧ Tab.find (oneS (base []) none).roots 7 = none
    ∧ (Tab.find (oneS (base []) asked).roots 1).map (fun r => r.preempt != none) = some true := by decide +kernel
/-- A drained tree whose image can be written, as the host and as the secure world asked; and one on whose image a claim
stands. -/
def saveS (p : Option Preempt) : State := oneS (withCore (paged idleS [] []) (fun c => { c with ready := [entryS 0 0 5] })) p
theorem held_free (s : State) (hc : s.claims = []) (he : s.epochs = []) (hm : s.misses = []) (vf : BitVec 9) (sec : Bool) (va n : Nat) :
    s.vfHeld vf sec va n = false ∧ s.vfFills vf sec va n = false := by
  have hw (l : Loc) (n : Nat) : s.waits l n = false := by simp [State.waits, State.claimed, State.inEpoch, hc, he]
  have hr (l : Loc) (n : Nat) : s.runWaits l n = false := by simp [State.runWaits, State.inEpoch, hc, he]
  have hf (t : BitVec 10) (l : Loc) (n : Nat) : s.fillWaits t l n = false := by simp [State.fillWaits, hm, Config.missRegisters]
  simp [State.vfHeld, State.vfFills, State.walkStays, State.walkWaits, hw, hr, hf]
theorem witness_Preemption_save : (∀ p ∈ (saveS asked).imagePieces 1 { root0 with regions := [oneCore], preempt := asked },
      (saveS asked).vfHeld 1 false (0x200000 + p.1) p.2.length = false)
    ∧ Tab.find (saveS asked).roots 1 = some { root0 with regions := [oneCore], preempt := asked }
    ∧ (saveS asked).drainedTree 1 oneCore = true ∧ (oneS (base []) asked).drainedTree 1 oneCore = false :=
  ⟨fun p _ => (held_free _ (by decide +kernel) (by decide +kernel) (by decide +kernel) _ _ _ _).1, by decide +kernel, by decide +kernel, by decide +kernel⟩
/-- Whether the image of a state's root waits at its home. -/
def imageHeld (s : State) : Bool :=
  (s.imagePieces 1 { root0 with regions := [oneCore], preempt := asked }).any (fun p => s.vfHeld 1 false (0x200000 + p.1) p.2.length)
theorem witness_Preemption_save_held : imageHeld { saveS asked with
    claims := [{ line := 0x5200000 / 128, unit := 3, core := 2, data := true, seq := 1, slot := 0, recorded := true }] } = true := by decide +kernel
/-- An image of one core, and the origin of a restore; an image whose core may stand in other places only. -/
def imageS (aligned : Bool) (o : Nat) : State :=
  submitted (oneS idleS none) 3 0x100 0x200000 o 0 (bytesOfNat 8 (if aligned then 0 else 2 ^ 32 + 2 ^ 16) ++ bytesOfNat 8 1 ++ bytesOfNat 8 0x100000
    ++ bytesOfNat 8 0x140000 ++ List.replicate 224 0 ++ bytesOfNat 8 0 ++ bytesOfNat 8 9 ++ bytesOfNat 8 0 ++ bytesOfNat 8 (0x2000 + 2 ^ 51)
    ++ bytesOfNat 8 0xFFFF ++ bytesOfNat 8 (7 + 2 ^ 32 + 5 * 2 ^ 48) ++ bytesOfNat 8 0x100)
def imageOf (s : State) (x y : Nat) : Option (Bool × Bool) := match ((s.nextEntryRead 1).readImage 1 0x200000).1 with
  | .ok (h, rs) => some (s.freeAt (rs.headD Region.default) x y, s.landsAt h (rs.headD Region.default) x y)
  | .error _ => none
theorem witness_Preemption_restore : imageOf (imageS true 0x0810) 0x10 8 = some (true, true) ∧ subOf (imageS true 0x0810) = some (3, 0x100) := by
  decide +kernel
theorem witness_Preemption_restore_lands : imageOf (imageS false 0x0810) 0x10 8 = some (true, false) := by decide +kernel
theorem witness_Preemption_restore_free : (imageOf (imageS true 0) 0 0).map (fun e => e.1) = some false := by decide +kernel
theorem witness_Preemption_restore_bad : (match ((imageS true 0x0810).readImage 1 0x79000).1 with
    | .ok _ => false
    | .error _ => true) = true := by decide +kernel

/-- A restore whose image waits at its home: the header's line, or a later one. -/
def claimedAt (s : State) (pa : Nat) : State := { s with claims := [{ line := pa / 128, unit := 3, core := 2, data := true, seq := 1, slot := 0, recorded := true }] }
theorem witness_Preemption_restore_held : (match ((claimedAt (imageS true 0x0810) 0x5200000).readImage 1 0x200000).1 with
    | .ok _ => false
    | .error e => e.1 == 0) = true ∧ imageOf (claimedAt (imageS true 0x0810) 0x5208000) 0x10 8 = some (true, true)
    ∧ (claimedAt (imageS true 0x0810) 0x5208000).vfHeld 1 false 0x200000 0xC000 = true
    ∧ ((imageS true 0x0810).nextEntryRead 1).claims = [] ∧ ((imageS true 0x0810).nextEntryRead 1).epochs = []
    ∧ ((imageS true 0x0810).nextEntryRead 1).misses = [] := by decide +kernel

/-- A link entry for object 3, of which this package or package 5 is master; a port that is up, trains, or is down. -/
def linkS (m timeout : Nat) (arr absent : List Nat) (w : Nat) : State :=
  { waiting (base []) (.barrier 3) (.barrier 9) (.barrier 3) with
    bars := [(3, { n := 2, a := 1, gen := 3 })]
    links := [(5, { Link.reset with raw := BitVec.ofNat 128 (2 ^ 63 + 3 + 2 ^ 72 + m * 2 ^ 84 + timeout * 2 ^ 96), arrived := arr, absent := absent, waited := w })] }
theorem witness_Fabric_links : Linked (linkS 0 100 [0] [] 100) 5 true ∧ Linked (linkS 5 10 [] [] 0) 5 false ∧ Linked (linkS 0 100 [7] [3] 50) 5 true := by
  unfold Linked
  decide +kernel
theorem witness_Fabric_tokens : let s := linkS 0 100 [0] [] 100
    (s.link 5).arrived.length + 1 = (s.link 5).members ∧ 1 ∉ (s.link 5).arrived ∧ ((linkS 0 0 [] [] 0).link 5).arrived.length + 1 ≠ ((linkS 0 0 [] [] 0).link 5).members
      ∧ (s.link 5).timeout ≠ 0 ∧ (s.link 5).arrived ≠ [] ∧ (s.link 5).absent = [] ∧ (s.link 5).timeout ≤ (s.link 5).waited
      ∧ ((linkS 0 100 [7] [3] 50).link 5).waited < ((linkS 0 100 [7] [3] 50).link 5).timeout := by decide +kernel
def portUp : Port := { Port.reset with up := true, txact := 0xFF, rxact := 0x0F, ver := 0x201 }
def portS (p : Port) : State := { base [] with ports := [(2, p)] }
theorem witness_Fabric_ports : let s := portS portUp
    let t := portS { portUp with txTraining := some 3, txact := 0xF7, fails := [(3, 2), (16, 1)], due := [(true, 5), (false, 2)] }
    (s.port 2).txTraining = none ∧ (s.port 2).txact.getLsbD 3 = true ∧ (Tab.get (0x1000 : Word) (s.port 2).berthr 3).toNat < (0x1001 : Word).toNat
      ∧ ¬(Tab.get (0x1000 : Word) (s.port 2).berthr 3).toNat < (0x1000 : Word).toNat ∧ (t.port 2).txTraining = some 3 ∧ 2 ≤ Tab.get 0 (t.port 2).fails 3
      ∧ Tab.get 0 (s.port 2).fails 3 < 2 ∧ ((portS Port.reset).port 2).up = false ∧ (0x0101 : BitVec 16).toNat < 0x0102 ∧ (0x0102 : BitVec 16).toNat ≤ 0x0201
      ∧ (t.port 2).txact.getLsbD 4 = true ∧ (t.port 2).txTraining ≠ none ∧ (t.port 2).txact.getLsbD 3 = false := by
  decide +kernel
theorem witness_Fabric_registers : (0x13008 : BitVec 32).toNat = 0x10000 + 0x1000 * (3 : BitVec 2).toNat + 8
    ∧ (0x107FF8 : BitVec 32).toNat = 0x100000 + 8 * (0xFFF : BitVec 12).toNat ∧ (0x210010 : BitVec 32).toNat = 0x200000 + 0x10000 * (1 : BitVec 9).toNat + 0x10
    ∧ (0x210050 : BitVec 32).toNat = 0x200000 + 0x10000 * (1 : BitVec 9).toNat + 0x50 ∧ (0x30050 : BitVec 32).toNat = 0x30000 + 16 * (5 : BitVec 6).toNat
    ∧ (0x10009 : BitVec 32).toNat % 8 ≠ 0 ∧ (4 : Nat) ≠ 8 := by decide
/-- What may be in flight on a port: a store, a word read ahead; and others that it does not carry, or a FENCE.net holds. -/
theorem witness_Fabric_lost : let s : State := { withCore (base []) (fun c => { c with
        sb := [hostStore, { hostStore with route := 4, block := 8 * 2 ^ 52 / 64, fence := 1 }, { hostStore with slot := 1, route := 4, block := 8 * 2 ^ 52 / 64 }] }) with
      early := [{ earlyW (8 * 2 ^ 52 + 3 * 2 ^ 40) false 9 with route := 4 }, earlyW 0x4000000 false 9], routes := [(3, 4)] }
    (s.here.sb.map (fun e => e.route.getLsbD 2)) = [false, true, true] ∧ s.early.map (fun e => e.route.getLsbD 2) = [true, false]
      ∧ s.here.sb.map (fun e => s.fenceHoldsAt 0 e.slot e.fence (e.block * 64)) = [false, true, false] := by decide +kernel
def powerS : State := { base [] with islands := [(3, { level := 4, downs := 0xFFFFFFFF }), (5, { level := 5, downs := 0 })] }
theorem witness_Power : (powerS.island 3).level.toNat < 5 ∧ 0 < (powerS.island 5).level.toNat ∧ (powerS.island 0).level = 0
    ∧ (let s : State := { base [] with power := .off }
       s.power = .off ∧ s.power ≠ .on ∧ s.agenda = [])
    ∧ (let s : State := { base [] with power := .tripped, agenda := [.event .trip] }
       s.power ≠ .on ∧ s.agenda = .event .trip :: [] ∧ Instr.trip ≠ .powerOn ∧ Instr.trip ≠ .lossOfPower)
    ∧ (let s : State := { base [] with power := .off, agenda := [.hostWrite (2 ^ 52 + 0x8000) [1, 2], .hostIrq 3] }
       s.power ≠ .on ∧ (∀ i, i < [1, 2].length → storeOf (2 ^ 52 + 0x8000 + i) = .host) ∧ s.agenda ≠ []) := by decide +kernel

/-- A slot with words of code at its pc. -/
def codeS (pc : Nat) (ws : List Nat) (f : Slot → Slot) : State :=
  let s := withMe (base [(1, 5), (6, 3), (7, 4)]) (fun x => f { x with pc := BitVec.ofNat 64 pc })
  let s := s.poke (0x5000000 + pc) (ws.flatMap (bytesOfNat 4))
  let line (l : Nat) : L1Line := { line := l, bytes := (List.range 128).map (fun i => s.byte (128 * l + i)), ro := false, secure := false }
  { withCore s (fun c => { c with l1i := [line ((0x5000000 + pc) / 128), line ((0x5000000 + pc + 2) / 128)] }) with agenda := [.issue 0] }
/-- The state in which the issue stage's slot fetches, and what it fetches. -/
def fetching (s : State) : State := { s with agenda := [], cur := { core := 0, slot := 0, len := 4, code := none } }
def fetchOf (s : State) : Option (List Byte) := match (fetching s).fetch 0 0 ((fetching s).slotFind 0 0) with
  | .ok bs _ => some bs
  | _ => none
theorem witness_StepRunsDecoded : let s := codeS 0x1000 [0x000E6282] id
    let u : State := { s with agenda := [] }
    s.power = .on ∧ s.agenda = .issue 0 :: [] ∧ u.issueSlot 0 = some (0, 7) ∧ (s.slotAt 0 0).latched = none
      ∧ (s.slotAt 0 0).owes (s.codeInstr 0 (.add 5 6 7)) = false ∧ (s.slotAt 0 0).overrun < 4096
      ∧ (s.slotAt 0 0).budgetDue = false ∧ (s.slotAt 0 0).wound = none ∧ (s.slotAt 0 0).entering = none ∧ fetchOf s = some [0x82, 0x62, 0x0E, 0x00]
      ∧ ({ codeS 0x1000 [0x000E6282] (fun x => { x with wait := .barrier 3 }) with agenda := [] } : State).issueSlot 0 = none := by decide +kernel
/-- Slots that go on: without a task, parked, able to issue; and with an instruction that is decoded: one that can issue, a
load that has, a store that the full buffer holds back, and one that waits for a reply. -/
def latchedS (i : Instr) (owed : List (BitVec 5)) : State :=
  codeS 0x1000 [0x7A] (fun x => { x with latched := some { instr := i, len := 2, code := some 0x0053 }, owed := owed })
def fullS : State :=
  withMe (withCore (latchedS (.st 8 1 2 3 0) []) (fun c => { c with sb := (List.range 32).map (fun i => { hostStore with block := hostStore.block + i }) }))
    (fun x => { x with g := [(1, 0x12000)] })
def able (s : State) : Bool := ({ s with agenda := [] } : State).eligible 0 0
theorem witness_StepRunsDecoded_slot : ((codeS 0x1000 [0x000E6282] (fun x => { x with task := none })).slotAt 0 0).task = none
    ∧ ((codeS 0x1000 [0x000E6282] (fun x => { x with wait := .barrier 3 })).slotAt 0 0).parked = true
    ∧ able (codeS 0x1000 [0x000E6282] id) = true
    ∧ (∀ s ∈ [latchedS (.ld 5 1 3 0) [], fullS], able s = false ∧ (s.slotAt 0 0).latched.all (fun l => !(s.slotAt 0 0).owes l.instr) = true
      ∧ (s.slotAt 0 0).task ≠ none ∧ (s.slotAt 0 0).parked = false ∧ (s.slotAt 0 0).overrun < 4096 ∧ (s.slotAt 0 0).budgetDue = false
      ∧ (s.slotAt 0 0).wound = none)
    ∧ ((latchedS (.add 5 6 7) [6]).slotAt 0 0).owes (.add 5 6 7) = true
    ∧ ({ latchedS (.add 5 6 7) [] with agenda := [] } : State).issueSlot 0 = some (0, 7) := by decide +kernel
/-- 01 R21: a slot that stalls at a decoded instruction goes on with it, whatever its bytes are by now. -/
theorem test_latched : (match step (latchedS (.add 5 6 7) []) with
    | .next t => t.g 5 == 7 && t.base == 0x1002
    | _ => false) = true := by decide +kernel
/-- 13 R336: a store that the full buffer holds back is not chosen, and issues once there is room. -/
theorem test_issue_full_buffer : ({ fullS with agenda := [] } : State).issueSlot 0 = none
    ∧ able (withCore fullS (fun c => { c with sb := c.sb.drop 1 })) = true := by decide +kernel
/-- An instruction across two lines; one that ends past CODEHI; a word that is none. -/
theorem witness_StepRunsDecoded_edges : fetchOf (codeS 0x1FFE [0xFFFE420A] id) = some [0x0A, 0x42, 0xFE, 0xFF]
    ∧ fetchOf (codeS 0x1000 [0x7A] id) = some [0x7A, 0, 0, 0]
    ∧ (match decode [0x7A, 0, 0, 0] with | .ok _ => false | .error _ => true) = true
    ∧ (let s := fetching (withCore (codeS 0x1000 [0x000E6282] id) (fun c => { c with codehi := 0x1002 }))
       match s.fetch 0 0 (s.slotFind 0 0) with
       | .fault _ _ => true
       | _ => false) = true := by decide +kernel
theorem witness_EncodeDecodeAgree : ∀ i ∈ ([.add 5 6 7, .st 31 1 2 3 127, .dictionaryCode 31 1023, .tend,
      .engineQueueEntry (hdr 0 1 2 0 3 0) 0x18C 255 0 0 0 0 0] : List Instr), i.WellFormed ∧ encode i ≠ none := by decide +kernel
theorem witness_IllegalForms : ∀ i ∈ ([.bfx 1 2 60 10, .ld 1 1 7 0, .vlut 1 1 2, .sysrd 1 0x12, .engineQueueEntry (hdr 8 0 0 0 0 0) 0 1 0 0 0 0 0] : List Instr),
    encode i ≠ none ∧ legal i = false ∧ Ready (base [])
      ∧ TrapReady (base []) 0x01 (illegalXval (base []).cur.code (wordOfInstr i) (illegalIndex i)) (base []).base := by
  unfold Ready TrapReady
  decide +kernel
theorem witness_MemoryStaysCanonical : MemoryOk (codeS 0x1000 [0x00D26038] id) := by
  unfold MemoryOk
  decide +kernel
/-- The stored byte enters the list in its place, and a stored 0 leaves it. -/
theorem test_memory_canonical : let s := base [(1, L 0x100), (2, 0x55)]
    (run [.st 0 1 0 0 0] s).mem.length + 1 = s.mem.length ∧ (run [.st 0 1 2 0 0] s).mem.length = s.mem.length := by decide +kernel
theorem witness_OnlySecureWorldConfigures : encode (.domset 1 2 3) ≠ none ∧ (base []).secure = false
    ∧ (match exec (.domset 1 2 3) (base []) with
       | .next t => t.domains == (base []).domains
       | _ => false) = true := by decide +kernel

end Sys2Proof.Tests
end

section
/-! PROOFS: the canonical form of memory under the operations of the state (00 R8, 12 R302). `ok_f` says that the
operation `f` keeps it; an operation that writes no memory keeps it by computation, and each of the others is followed down to `poke`,
`backPut` or a filter of memory, whose lemmas stand in Laws/Memory. -/

namespace Sys2Proof.Laws

open Machine Safety

/-! ### Folds, options and conditionals -/

theorem ok_foldl_fst {β γ : Type} (f : State × γ → β → State × γ) (hf : ∀ p b, MemoryOk p.1 → MemoryOk (f p b).1)
    (l : List β) (p : State × γ) (h : MemoryOk p.1) : MemoryOk (l.foldl f p).1 := by
  induction l generalizing p with
  | nil => exact h
  | cons b t ih => exact ih _ (hf _ _ h)

theorem ok_map_getD {β : Type} {s : State} (o : Option β) (f : β → State) (hf : ∀ b, MemoryOk (f b)) (h : MemoryOk s) :
    MemoryOk ((o.map f).getD s) := by
  cases o with
  | none => exact h
  | some b => exact hf b

theorem ok_elim {β : Type} {s : State} (o : Option β) (f : β → State) (hf : ∀ b, MemoryOk (f b)) (h : MemoryOk s) :
    MemoryOk (o.elim s f) := by
  cases o with
  | none => exact h
  | some b => exact hf b

theorem ok_ite_snd {α : Type} {c : Prop} [Decidable c] {x y : α × State} (hx : MemoryOk x.2) (hy : MemoryOk y.2) :
    MemoryOk (if c then x else y).2 := by
  split
  · exact hx
  · exact hy

/-- Where there is a next state, its memory is canonical. -/
def Gives (o : Option State) : Prop := ∀ t, o = some t → MemoryOk t

theorem Gives.none : Gives none := by
  rintro _ ⟨⟩

theorem Gives.some {s : State} (h : MemoryOk s) : Gives (some s) := by
  rintro _ ⟨⟩
  exact h

theorem Gives.ite {c : Prop} [Decidable c] {a b : Option State} (ha : Gives a) (hb : Gives b) :
    Gives (if c then a else b) := by
  split
  · exact ha
  · exact hb

theorem Gives.getD {s : State} {o : Option State} (ho : Gives o) (h : MemoryOk s) : MemoryOk (o.getD s) := by
  cases o with
  | none => exact h
  | some t => exact ho t rfl

/-! ### Errors, homes, lines and walks -/

theorem ok_sramReport {s : State} (l : Loc) (u : Bool) (h : MemoryOk s) : MemoryOk (s.sramReport l u) := ok_report _ h

theorem ok_cacheReport {s : State} (c : Nat) (i : Bool) (pa : Nat) (h : MemoryOk s) : MemoryOk (s.cacheReport c i pa) :=
  ok_report _ h

theorem ok_noteError {s : State} (l : Loc) (h : MemoryOk s) : MemoryOk (s.noteError l) :=
  have h₁ := ok_atBase l h
  ok_ite (ok_faqAdd _ _ h₁) (ok_sramReport _ _ h₁)

theorem ok_noteAt {s : State} (l : Loc) (h : MemoryOk s) : MemoryOk (s.noteAt l) :=
  ok_ite (ok_faqAdd _ _ h) (ok_noteError _ h)

theorem ok_poison {s : State} (w : Nat) (sl : Bool) (h : MemoryOk s) : MemoryOk (s.poison w sl) := by
  refine ok_ite ?_ (ok_ite h h)
  split
  · exact h
  · exact h

theorem ok_corrected {s : State} (w : Nat) (sl : Bool) (h : MemoryOk s) : MemoryOk (s.corrected w sl) := by
  unfold State.corrected
  extract_lets l
  split
  · exact ok_ite (ok_ite (ok_sramReport _ _ h) h) (ok_faqAdd _ _ h)
  · exact ok_sramReport _ _ h
  · exact ok_sramReport _ _ h
  · exact ok_sramReport _ _ h
  · exact h

theorem ok_useHome {s : State} (l : Loc) (h : MemoryOk s) : MemoryOk (s.useHome l) := by
  unfold State.useHome
  exact ok_ite h (ok_ite (ok_atBase l h) (ok_map_getD _ s.touch (fun _ => h) h))

theorem ok_askLine {s : State} (t : BitVec 10) (l : Loc) (h : MemoryOk s) : MemoryOk (s.askLine t l) := ok_ite h h

theorem ok_askFor {s : State} (t : BitVec 10) (l : Loc) (k : List (Nat × Bool)) (h : MemoryOk s) : MemoryOk (s.askFor t l k) :=
  ok_askLine t l h

theorem ok_fillLine {s : State} (m : Miss) (h : MemoryOk s) : MemoryOk (s.fillLine m) := by
  unfold State.fillLine
  extract_lets l all
  refine ok_ite h ?_
  split
  · exact h
  · split
    · exact h
    · exact ok_ite (ok_allocate _ _ _ _ _ _ h) h

theorem ok_useRun {s : State} (t : BitVec 10) (l : Loc) (n : Nat) (h : MemoryOk s) : MemoryOk (s.useRun t l n) :=
  ok_foldl _ (fun _ _ h => ok_ite (ok_fillLine _ h) (ok_useHome _ h)) _ _ h

theorem ok_putTlb {s : State} (c : Nat) (t : Tlb) (h : MemoryOk s) : MemoryOk (s.putTlb c t) := h
theorem ok_putL2Tlb {s : State} (c : Nat) (t : Tlb) (h : MemoryOk s) : MemoryOk (s.putL2Tlb c t) := h

theorem ok_useWalk {s : State} (vf : BitVec 9) (sec : Bool) (t : BitVec 10) (va : Nat) (h : MemoryOk s) :
    MemoryOk (s.useWalk vf sec t va) := ok_foldl _ (fun _ _ h => ok_useRun _ _ _ h) _ _ h

/-! ### Barriers, counters, locks and tasks -/

theorem ok_setBar {s : State} (b : Nat) (x : Barrier) (h : MemoryOk s) : MemoryOk (s.setBar b x) := h
theorem ok_setLink {s : State} (e : Nat) (x : Link) (h : MemoryOk s) : MemoryOk (s.setLink e x) := h
theorem ok_barRelease {s : State} (b : Nat) (v : Reg) (h : MemoryOk s) : MemoryOk (s.barRelease b v) := h

theorem ok_barAdvance {s : State} (b : Nat) (h : MemoryOk s) : MemoryOk (s.barAdvance b) :=
  ok_barRelease _ _ (ok_setBar _ _ h)

theorem ok_barComplete {s : State} (b : Nat) (h : MemoryOk s) : MemoryOk (s.barComplete b) :=
  ok_barAdvance _ (ok_setBar _ _ h)

theorem ok_linkRelease {s : State} (e : Nat) (h : MemoryOk s) : MemoryOk (s.linkRelease e) :=
  ok_ite (ok_setLink _ _ h) (ok_barAdvance _ h)

theorem ok_masterArrive {s : State} (e m : Nat) (h : MemoryOk s) : MemoryOk (s.masterArrive e m) :=
  ok_ite h (ok_ite (ok_linkRelease e (ok_setLink _ _ h)) (ok_setLink _ _ h))

theorem ok_barPhase {s : State} (b : Nat) (h : MemoryOk s) : MemoryOk (s.barPhase b) := by
  unfold State.barPhase
  split
  · exact ok_barComplete b h
  · exact ok_ite (ok_masterArrive _ _ (ok_setBar _ _ h)) (ok_setBar _ _ h)

theorem ok_barArrive {s : State} (b : Nat) (h : MemoryOk s) : MemoryOk (s.barArrive b) :=
  ok_ite (ok_barPhase b (ok_setBar _ _ h)) (ok_setBar _ _ h)

theorem ok_setReady {s : State} (c : Nat) (es : List Entry) (h : MemoryOk s) : MemoryOk (s.setReady c es) :=
  ok_foldl _ (fun _ _ h => ok_poke _ _ h) _ _ h

theorem ok_admitEntry {s : State} (c : Nat) (e : Entry) (h : MemoryOk s) : MemoryOk (s.admitEntry c e) :=
  ok_ite h (ok_setReady c _ h)

theorem ok_admitTask {s : State} (c : Nat) (r : Record) (a : Reg) (root : Nat) (o : Origin) (h : MemoryOk s) :
    MemoryOk (s.admitTask c r a root o) := ok_admitEntry c _ h

theorem ok_enqueue {s : State} (c : Nat) (r : Record) (a : Reg) (root : Nat) (o : Origin) (h : MemoryOk s) :
    MemoryOk (s.enqueue c r a root o) := ok_setReady c _ h

theorem ok_bound {s : State} (f : Fired) (h : MemoryOk s) : MemoryOk (s.bound f) := by
  unfold State.bound
  extract_lets vf u
  have hu : MemoryOk u := ok_ite (ok_foldl _ (fun _ _ h => ok_useHome _ h) _ _ h) h
  split
  · exact h
  · exact ok_of_mem_eq (ok_askLine _ _ h) rfl
  · refine ok_report _ ?_
    split
    · exact ok_ite (ok_faqAdd _ _ hu) (ok_noteError _ hu)
    · exact hu
  · exact ok_admitTask _ _ _ _ _ (ok_map_getD _ _ (fun _ => ok_useHome _ hu) hu)

theorem ok_fire {s : State} (p : Nat) (h : MemoryOk s) : MemoryOk (s.fire p) := by
  unfold State.fire
  simp only
  split
  · exact h
  · exact ok_ite h (ok_bound _ (ok_poke _ _ h))

theorem ok_leaveWay {s : State} (c k : Nat) (h : MemoryOk s) : MemoryOk (s.leaveWay c k).1 := by
  unfold State.leaveWay
  simp only
  split <;> exact h

theorem ok_cntError {s : State} (p : Nat) (h : MemoryOk s) : MemoryOk (s.cntError p) := ok_noteError _ h

theorem ok_cntUpdate {s : State} (p : Nat) (d : Int) (o : BitVec 32) (h : MemoryOk s) : MemoryOk (s.cntUpdate p d o) :=
  ok_ite (ok_cntError p h) (ok_ite (ok_fire p (ok_poke _ _ (ok_poke _ _ h))) (ok_poke _ _ (ok_poke _ _ h)))

theorem ok_scanWaiters {s : State} (m : BitVec 36) (n : Nat) (l : Lock) (h : MemoryOk s) :
    MemoryOk (s.scanWaiters m n l) := by
  induction n generalizing s l with
  | zero => exact h
  | succ n ih =>
    unfold State.scanWaiters
    split
    · exact ih _ h
    · exact h

theorem ok_lockChanged {s : State} (l : Lock) (h : MemoryOk s) : MemoryOk (s.lockChanged l) := ok_scanWaiters _ _ _ h

theorem ok_woundFor {s : State} (l : Lock) (u : LockUser) (h : MemoryOk s) : MemoryOk (s.woundFor l u) := by
  refine ok_foldl _ (fun _ _ h => ?_) _ _ h
  exact h

theorem ok_withdraw {s : State} (uid : Nat) (h : MemoryOk s) : MemoryOk (s.withdraw uid) :=
  ok_foldl _ (fun _ _ h => ok_lockChanged _ h) _ _ h

theorem ok_dropLock {s : State} (uid : Nat) (l : Lock) (h : MemoryOk s) : MemoryOk (s.dropLock uid l) := ok_lockChanged _ h

theorem ok_dropLocks {s : State} (uid : Nat) (h : MemoryOk s) : MemoryOk (s.dropLocks uid) :=
  ok_foldl _ (fun _ _ h => ok_dropLock _ _ h) _ _ h

theorem ok_leaveGate {s : State} (b : Nat) (a : Bool) (g : BitVec 32) (h : MemoryOk s) : MemoryOk (s.leaveGate b a g) :=
  ok_ite h (ok_ite (ok_setBar _ _ h) (ok_ite (ok_barPhase _ (ok_setBar _ _ h)) (ok_setBar _ _ h)))

/-! ### Traps and the ends of tasks -/

theorem ok_setSlotAt {s : State} (c k : Nat) (x : Slot) (h : MemoryOk s) : MemoryOk (s.setSlotAt c k x) := h
theorem ok_abandon {s : State} (c k : Nat) (h : MemoryOk s) : MemoryOk (s.abandon c k) := h

theorem ok_endTask {s : State} (c k : Nat) (kept : Bool) (h : MemoryOk s) : MemoryOk (s.endTask c k kept) := by
  unfold State.endTask
  extract_lets x uid s₁ group s₂ s₃ s₄ vf n s₅ holds t s₆
  have h₁ : MemoryOk s₁ := by
    refine ok_ite ?_ h
    exact ok_ite (ok_report _ (ok_leaveWay c k h)) (ok_leaveWay c k h)
  have h₃ : MemoryOk s₃ := ok_withdraw uid (ok_ite (ok_leaveGate _ _ _ h₁) h₁)
  have h₅ : MemoryOk s₅ := ok_ite h₃ h₃
  exact ok_setSlotAt c k _ (ok_ite h₅ h₅)

theorem ok_stopTask {s : State} (c k : Nat) (e ca : BitVec 8) (a d : Reg) (h : MemoryOk s) :
    MemoryOk (s.stopTask c k e ca a d) := ok_endTask _ _ _ (ok_report _ h)

theorem ok_nowUse {s : State} (c k va : Nat) (h : MemoryOk s) : MemoryOk (s.nowUse c k va) := ok_ite (ok_useWalk _ _ _ _ h) h

theorem ok_doubleFault {s : State} (c k : Nat) (p : Cause) (h : MemoryOk s) : MemoryOk (s.doubleFault c k p) :=
  ok_stopTask _ _ _ _ _ _ (ok_setSlotAt c k _ h)

theorem ok_noteFault {s : State} (c k : Nat) (ca : Cause) (x : Reg) (h : MemoryOk s) : MemoryOk (s.noteFault c k ca x) := by
  unfold State.noteFault
  refine ok_ite h (ok_ite ?_ ?_)
  · split
    · exact ok_noteError _ h
    · exact ok_elim _ _ (fun _ => ok_noteError _ h) h
    · exact h
  · simp only
    split
    · exact ok_ite (ok_faqAdd _ _ h) (ok_noteError _ h)
    · exact ok_ite (ok_map_getD _ _ (fun _ => ok_noteError _ h) h) h

theorem ok_takeTrap {s : State} (c k : Nat) (ca : Cause) (x p : Reg) (h : MemoryOk s) :
    MemoryOk (s.takeTrap c k ca x p) := by
  unfold State.takeTrap
  extract_lets z s₁ y t
  have h₁ : MemoryOk s₁ := by
    unfold s₁
    split
    · exact ok_withdraw _ h
    · exact h
  have ht : MemoryOk t := ok_setSlotAt _ _ _ (ok_abandon _ _ (ok_noteFault _ _ _ _ h₁))
  refine ok_ite ht ?_
  split
  · exact ht
  · exact ok_doubleFault _ _ _ ht
  · exact ok_setSlotAt _ _ _ ht

theorem ok_trapHere {s : State} (ca : Cause) (x : Reg) (h : MemoryOk s) : MemoryOk (s.trapHere ca x) :=
  ok_takeTrap _ _ _ _ _ h

theorem ok_illegal {s : State} (i : Instr) (h : MemoryOk s) : MemoryOk (s.illegal i) := ok_trapHere _ _ h
theorem ok_acquire {s : State} (c k sc : Nat) (h : MemoryOk s) : MemoryOk (s.acquire c k sc) := ok_ite h h

/-! ### Translation and the lines of a core -/

theorem ok_askWalk {s : State} (c k va : Nat) (f : Bool) (h : MemoryOk s) : MemoryOk (s.askWalk c k va f) := ok_ite h h

theorem ok_keepTlb {s : State} (c k va : Nat) (h : MemoryOk s) : MemoryOk (s.keepTlb c k va) := by
  unfold State.keepTlb
  simp only
  split
  · exact h
  · split <;> exact h

theorem ok_resolved {s : State} (c k va : Nat) (h : MemoryOk s) : MemoryOk (s.resolved c k va) :=
  ok_ite h (ok_ite (ok_keepTlb _ _ _ h) (ok_nowUse _ _ _ h))

theorem ok_dropLine {s : State} (c line : Nat) (h : MemoryOk s) : MemoryOk (s.dropLine c line) := h
theorem ok_fillL1 {s : State} (c : Nat) (l : Loc) (h : MemoryOk s) : MemoryOk (s.fillL1 c l) := ok_ite h h
theorem ok_missLine {s : State} (c k : Nat) (l : Loc) (h : MemoryOk s) : MemoryOk (s.missLine c k l) := ok_askLine _ _ h
theorem ok_unread {s : State} (c k p n : Nat) (h : MemoryOk s) : MemoryOk (s.unread c k p n) := h

theorem ok_putStore {s : State} (l : Loc) (va : Reg) (bs : List Byte) (h : MemoryOk s) : MemoryOk (s.putStore l va bs) :=
  ok_ite (ok_poke _ _ h) h

theorem ok_unbuffer {s : State} (vf : BitVec 9) (p n : Nat) (h : MemoryOk s) : MemoryOk (s.unbuffer vf p n) := h

/-! ### Waystations, epochs, counters and publications -/

theorem ok_freeWay {s : State} (sl : Nat) (h : MemoryOk s) : MemoryOk (s.freeWay sl) := by
  unfold State.freeWay
  split <;> exact h

theorem ok_meetAt {s : State} (sl : Nat) (t : Triple) (mb : Members) (r : Reg) (uid : Nat) (h : MemoryOk s) :
    MemoryOk (s.meetAt sl t mb r uid).2 := by
  unfold State.meetAt
  extract_lets old s₁ full s₂
  have h₂ : MemoryOk s₂ := ok_ite (ok_freeWay sl h) h
  split
  · split <;> exact h
  · split <;> exact h₂

theorem ok_applyElem (e : Epoch) (x : State × List Nat) (i : Nat) (h : MemoryOk x.1) :
    MemoryOk (State.applyElem e x i).1 := by
  unfold State.applyElem
  extract_lets w l tenant line cause s₁ s₂
  split
  · split
    · exact h
    · exact ok_report _ (ok_noteAt l h)
  · exact ok_homeWrite _ _ _ (ok_useRun _ _ _ h)

theorem ok_applyEpoch {s : State} (e : Epoch) (h : MemoryOk s) : MemoryOk (s.applyEpoch e) := by
  have hfold := ok_foldl_fst (State.applyElem e) (fun p i hp => ok_applyElem e p i hp) ((List.range e.n).filter e.touched) (s, []) h
  exact hfold

theorem ok_redDecl {s : State} (c r : Nat) (l : Loc) (b : Bool) (x : Reg) (h : MemoryOk s) :
    MemoryOk (s.redDecl c r l b x).2 := by
  unfold State.redDecl
  extract_lets there
  clear_value there
  refine ok_ite_snd h (ok_ite_snd ?_ ?_)
  · split
    · exact ok_ite_snd h h
    · exact h
  · split
    · refine ok_ite_snd h (ok_ite_snd (ok_ite_snd h ?_) (ok_ite_snd h h))
      exact ok_ite (ok_applyEpoch _ h) h
    · exact ok_ite_snd h (ok_ite_snd h (ok_ite_snd h h))

theorem ok_post {s : State} (va : Reg) (p : Nat) (op : PostedOp) (f : State → State) (hf : MemoryOk (f s)) (h : MemoryOk s) :
    MemoryOk (s.post va p op f) := ok_ite (ok_ite h h) hf

theorem ok_cntReset {s : State} (p : Nat) (h : MemoryOk s) : MemoryOk (s.cntReset p) := h

theorem ok_cntInit {s : State} (p : Nat) (x : Reg) (w : Counter) (h : MemoryOk s) : MemoryOk (s.cntInit p x w).2 := by
  unfold State.cntInit
  extract_lets full s₀ s₁ s₂
  have h₀ : MemoryOk s₀ := ok_cntReset p h
  have h₁ : MemoryOk s₁ := ok_ite h₀ h
  have h₂ : MemoryOk s₂ := ok_poke _ _ h₁
  clear_value s₀ s₁ s₂
  split
  · exact h
  · split
    · exact h₀
    · split
      · exact h
      · exact h₂

theorem ok_pubBegin {s : State} (vf : BitVec 9) (h : MemoryOk s) : MemoryOk (s.pubBegin vf) := h

theorem ok_pubLine {s : State} (k : Nat) (h : MemoryOk s) : MemoryOk (s.pubLine k) := by
  unfold State.pubLine
  split
  · exact h
  · exact ok_ite (ok_foldl _ (fun _ _ h => ok_poke _ _ h) _ _ h) h

theorem ok_pubVersion {s : State} (vf : BitVec 9) (h : MemoryOk s) : MemoryOk (s.pubVersion vf) := ok_poke _ _ h

theorem ok_pubPut {s : State} (vf : BitVec 9) (l : Nat) (b : Tab Byte) (h : MemoryOk s) : MemoryOk (s.pubPut vf l b) := by
  unfold State.pubPut
  split <;> exact h

theorem ok_pubWrite {s : State} (vf : BitVec 9) (p : Nat) (bs : List Byte) (h : MemoryOk s) : MemoryOk (s.pubWrite vf p bs) :=
  ok_foldl _ (fun _ _ h => ok_pubPut _ _ _ h) _ _ h

/-! ### Rings, registers, prefetches and messages -/

theorem ok_putRing {s : State} (c q : Nat) (r : Ring) (h : MemoryOk s) : MemoryOk (s.putRing c q r) := h
theorem ok_setHandle {s : State} (c q : Nat) (r : Option RingDesc) (h : MemoryOk s) : MemoryOk (s.setHandle c q r) := h
theorem ok_setHere {s : State} (x : Core) (h : MemoryOk s) : MemoryOk (s.setHere x) := h

theorem ok_enter {s : State} (m : Cmd) (h : MemoryOk s) : MemoryOk (s.enter m) := by
  unfold State.enter
  extract_lets c data x lines lfsr y s₁ z s₂
  have h₁ : MemoryOk s₁ := ok_setHere _ h
  have h₂ : MemoryOk s₂ := ok_setMe _ h₁
  clear_value s₂
  exact h₂

theorem ok_settle {s : State} (f : Fp) (h : MemoryOk s) : MemoryOk (s.settle f) := by
  unfold State.settle
  extract_lets x s₁
  have h₁ : MemoryOk s₁ := ok_ite h h
  exact h₁

theorem ok_setG {s : State} (d : BitVec 5) (v : Reg) (h : MemoryOk s) : MemoryOk (s.setG d v) := h
theorem ok_setV {s : State} (d : BitVec 5) (v : Vec) (h : MemoryOk s) : MemoryOk (s.setV d v) := h
theorem ok_setP {s : State} (d : Nat) (v : Reg) (h : MemoryOk s) : MemoryOk (s.setP d v) := h
theorem ok_adv {s : State} (h : MemoryOk s) : MemoryOk s.adv := h

theorem ok_setVec {s : State} (d : BitVec 5) (r : Vec × Fp) (h : MemoryOk s) : MemoryOk (s.setVec d r) :=
  ok_setV _ _ (ok_settle _ h)

theorem ok_setFp {s : State} (d : BitVec 5) (r : Nat × Fp) (h : MemoryOk s) : MemoryOk (s.setFp d r) :=
  ok_setG _ _ (ok_settle _ h)

theorem ok_branch {s : State} (b : Bool) (t : Reg) (h : MemoryOk s) : MemoryOk (s.branch b t) := ok_ite h h

theorem ok_bringLine {s : State} (c k : Nat) (l : Loc) (b : Bool) (h : MemoryOk s) : MemoryOk (s.bringLine c k l b) :=
  ok_ite h (ok_ite h (ok_ite (ok_noteError _ h) (ok_ite (ok_askFor _ _ _ h)
    (ok_ite (ok_fillL1 _ _ (ok_useHome _ h)) (ok_useHome _ h)))))

theorem ok_prefetch {s : State} (c k : Nat) (kind : BitVec 5) (va : Nat) (h : MemoryOk s) :
    MemoryOk (s.prefetch c k kind va) := by
  unfold State.prefetch
  extract_lets r sec u
  have hu : MemoryOk u := ok_nowUse _ _ _ h
  split
  · split
    · exact ok_ite (ok_bringLine _ _ _ _ h) h
    · exact h
  · split
    · exact h
    · split
      · exact ok_ite hu (ok_bringLine _ _ _ _ hu)
      · exact ok_map_getD _ _ (fun _ => ok_noteError _ hu) hu

theorem ok_sendMessage {s : State} (ch : BitVec 2) (x d : Reg) (dst : Nat) (code : Option (List Byte)) (p : List Byte) (h : MemoryOk s) :
    MemoryOk (s.sendMessage ch x d dst code p) := ok_ite h h

theorem ok_l1Drop {s : State} (c : Nat) (x : Reg) (l : Option Nat) (h : MemoryOk s) : MemoryOk (s.l1Drop c x l) := h

/-! ### What the secure world and the locks do -/

theorem ok_readTables {s : State} (h : MemoryOk s) : MemoryOk s.readTables :=
  ok_foldl _ (fun _ _ h => ok_noteError _ h) _ _ h

theorem ok_writeBackAll {s : State} (ps : List (Nat × Nat)) (h : MemoryOk s) : MemoryOk (s.writeBackAll ps) :=
  ok_foldl _ (fun _ _ h => ok_cleanCopy _ h) _ _ h

theorem ok_switchDomain {s : State} (d : Nat) (m : Reg) (h : MemoryOk s) : MemoryOk (s.switchDomain d m) := h

theorem ok_filterMem {s : State} (p : Host.Cell → Bool) (h : MemoryOk s) : MemoryOk { s with mem := s.mem.filter p } :=
  wf_filter _ _ p h

theorem ok_setAttic {s : State} (sl : Nat) (w : BitVec 16) (h : MemoryOk s) : MemoryOk (s.setAttic sl w) := by
  unfold State.setAttic
  extract_lets old enter leave s₁ gone
  have h₁ : MemoryOk s₁ := ok_foldl _ (fun _ _ h => ok_evict _ h) _ _ h
  exact ok_filterMem _ h₁

theorem ok_setWays {s : State} (t : Nat) (m : BitVec 16) (h : MemoryOk s) : MemoryOk (s.setWays t m) := by
  unfold State.setWays
  extract_lets old lost mine s₁
  have h₁ : MemoryOk s₁ := ok_foldl _ (fun _ _ h => ok_evict _ h) _ _ h
  exact h₁

theorem ok_lowerLock {s : State} (n : Reg) (u : LockUser) (h : MemoryOk s) : MemoryOk (s.lowerLock n u) :=
  ok_foldl _ (fun _ _ h => ok_woundFor _ _ h) _ _ (ok_lockChanged _ h)

/-- A write of a system register. -/
theorem gives_setSysreg {s : State} (n : BitVec 12) (v : Reg) (h : MemoryOk s) : Gives (s.setSysreg n v) := by
  have hme (x : Slot) : Gives (some (s.setMe x)) := .some (ok_setMe x h)
  have hhere (x : Core) : Gives (some (s.setHere x)) := .some (ok_setHere x h)
  unfold State.setSysreg
  extract_lets x c window
  split
  case h_1 | h_2 | h_3 | h_4 | h_6 => exact hme _
  case h_5 | h_12 | h_13 | h_14 => exact hhere _
  case h_7 | h_8 | h_15 => exact .ite (hhere _) .none
  case h_9 | h_10 | h_11 => exact .some (ok_ite (ok_setMe _ h) h)
  case h_16 => exact .none

end Sys2Proof.Laws
end

section
/-! PROOFS: the canonical form of memory under the pieces that the instructions of a slot are put together from.
`keeps_a` says that the piece `a` keeps it, and `lands_i` that the instruction `i` does, where it leads to a state. -/

namespace Sys2Proof.Laws

open Machine Safety

/-! ### Pieces of work -/

section

variable {α β : Type}

/-- A piece of an instruction's work keeps the canonical form of memory, whatever it answers and wherever it stops. -/
def Keeps (a : Act α) : Prop := ∀ s, MemoryOk s → MemoryOk (a s).2

theorem Keeps.pure (v : α) : Keeps (pure v : Act α) := fun _ h => h
theorem Keeps.stall : Keeps (Act.stall : Act α) := fun _ h => h
theorem Keeps.trap (c : Cause) (x : Reg) : Keeps (Act.trap c x : Act α) := fun _ h => h
theorem Keeps.set {t : State} (h : MemoryOk t) : Keeps (set t : Act PUnit) := fun _ _ => h
theorem Keeps.modify {f : State → State} (hf : ∀ s, MemoryOk s → MemoryOk (f s)) : Keeps (modify f : Act PUnit) := hf

theorem Keeps.bind {a : Act α} {f : α → Act β} (ha : Keeps a) (hf : ∀ v, Keeps (f v)) : Keeps (a >>= f) := by
  intro s h
  have h' := ha s h
  rcases e : a s with ⟨r, t⟩
  rw [e] at h'
  cases r with
  | ok v => rw [Act.bind_ok e]; exact hf v t h'
  | error x => rw [Act.bind_error e]; exact h'

/-- What follows a `get` may use that the state it has read is canonical. -/
theorem Keeps.get {f : State → Act β} (hf : ∀ s, MemoryOk s → Keeps (f s)) : Keeps (get >>= f) := by
  intro s h
  rw [Act.get_bind]
  exact hf s h s h

theorem Keeps.ite {c : Prop} [Decidable c] {a b : Act α} (ha : Keeps a) (hb : Keeps b) : Keeps (if c then a else b) := by
  split
  · exact ha
  · exact hb

theorem Keeps.mapM {f : α → Act β} (hf : ∀ x, Keeps (f x)) (l : List α) : Keeps (l.mapM f) := by
  induction l with
  | nil => exact .pure _
  | cons x l ih =>
    rw [List.mapM_cons]
    exact .bind (hf x) fun _ => .bind ih fun _ => .pure _

end

theorem keeps_illegal {α : Type} (i : Instr) : Keeps (Act.illegal i : Act α) := .get fun _ _ => .trap _ _
theorem keeps_done : Keeps Act.done := .modify fun _ h => h
theorem keeps_result (d : BitVec 5) (v : Reg) : Keeps (Act.result d v) := .modify fun _ h => h
theorem keeps_park (w : Wait) : Keeps (Act.park w) := .modify fun _ h => h
theorem keeps_crossing : Keeps Act.crossing := .get fun _ _ => .ite .stall (.pure _)
theorem keeps_release (sc : Nat) : Keeps (Act.release sc) := .get fun _ _ => .ite (.pure _) .stall
theorem keeps_acquire (sc : Nat) : Keeps (Act.acquire sc) := .modify fun _ h => ok_acquire _ _ _ h
theorem keeps_fenced (p : Nat) : Keeps (Act.fenced p) := .get fun _ _ => .ite .stall (.pure _)

theorem keeps_resolve (u : Use) (va : Reg) (n al : Nat) : Keeps (Act.resolve u va n al) := by
  refine .get fun s h => ?_
  simp only
  split
  · exact .ite (.bind (.set (ok_askWalk _ _ _ _ h)) fun _ => .stall) .stall
  · exact .ite (.bind (.set (ok_nowUse _ _ _ h)) fun _ => .trap _ _) (.trap _ _)
  · exact .bind (.set (ok_resolved _ _ _ h)) fun _ => .pure _

theorem keeps_readLoc (l : Loc) (va : Reg) (n : Nat) (cached : Bool) : Keeps (Act.readLoc l va n cached) := by
  refine .get fun s h => ?_
  extract_lets c k own hit s₁ s₂ bs s₃ rest
  have h₁ : MemoryOk s₁ := h
  have h₂ : MemoryOk s₂ := ok_useHome l h
  have h₃ : MemoryOk s₃ := ok_ite (ok_ite (ok_fillL1 c l h₂) h₂) h₂
  have hrest : Keeps (rest ()) := by
    unfold rest
    split
    · exact .bind (.set (ok_ite h₁ h₁)) fun _ => .pure _
    · exact .bind (.set h₁) fun _ => .pure _
    · refine .ite .stall ?_
      split
      · exact .trap _ _
      · exact .ite (.bind (.set (ok_missLine _ _ _ h)) fun _ => .stall) (.bind (.set h₃) fun _ => .pure _)
  exact .ite (.bind (.trap _ _) fun _ => hrest) hrest

theorem keeps_readWindow (w o n : Nat) (cached : Bool) : Keeps (Act.readWindow w o n cached) :=
  .get fun _ h => .bind (.set (ok_unread _ _ _ _ h)) fun _ => .pure _

theorem keeps_load (va : Reg) (n al : Nat) (cached : Bool) : Keeps (Act.load va n al cached) := by
  refine .bind (keeps_resolve _ _ _ _) fun t => ?_
  split
  · refine .get fun s _ => .ite (keeps_readWindow _ _ _ _) ?_
    split
    · exact .trap _ _
    · exact keeps_readWindow _ _ _ _
  · exact keeps_readLoc _ _ _ _

theorem keeps_storeAll (ws : List (Loc × Reg × List Byte)) : Keeps (Act.storeAll ws) :=
  .get fun _ h => .ite .stall (.set (ok_foldl _ (fun _ _ h => ok_putStore _ _ _ h) _ _ h))

theorem keeps_storeLoc (va : Reg) (n al : Nat) : Keeps (Act.storeLoc va n al) := by
  refine .bind (keeps_resolve _ _ _ _) fun t => ?_
  split
  · exact .trap _ _
  · exact .pure _

theorem keeps_store (va : Reg) (al : Nat) (bs : List Byte) : Keeps (Act.store va al bs) :=
  .bind (keeps_storeLoc _ _ _) fun _ => keeps_storeAll _

theorem keeps_atomic (va : Reg) (n sc : Nat) (f : Nat → Option Nat) : Keeps (Act.atomic va n sc f) := by
  refine .bind (keeps_resolve _ _ _ _) fun t => ?_
  split
  · exact .trap _ _
  · refine .bind (keeps_release _) fun _ => .get fun s h => .ite (.trap _ _) (.ite .stall ?_)
    split
    · exact .trap _ _
    · refine .ite (.bind (.set (ok_missLine _ _ _ h)) fun _ => .stall) (.bind (.set (ok_acquire _ _ _ ?_)) fun _ => .pure _)
      have hu := ok_useHome (s := s) ‹Loc› h
      refine ok_dropLine _ _ ?_
      split
      · exact ok_homeWrite _ _ _ (ok_ite (ok_unbuffer _ _ _ hu) hu)
      · exact hu

theorem keeps_resolveLanes (u : Use) (vas : List Reg) (n al : Nat) : Keeps (Act.resolveLanes u vas n al) := by
  refine .get fun s h => ?_
  simp only
  split
  · exact .ite (.bind (.set (ok_askWalk _ _ _ _ h)) fun _ => .stall) .stall
  · split
    · exact .bind (.set (ok_foldl _ (fun _ _ h => ok_ite (ok_nowUse _ _ _ h) h) _ _ h)) fun _ => .trap _ _
    · exact .bind (.set (ok_foldl _ (fun _ _ h => ok_resolved _ _ _ h) _ _ h)) fun _ => .pure _

theorem keeps_readTarget (va : Reg) (n : Nat) (t : Target) : Keeps (Act.readTarget va n t) := by
  cases t with
  | decoded => exact keeps_readWindow _ _ _ _
  | at' => exact keeps_readLoc _ _ _ _

theorem keeps_loadLanes (vas : List Reg) (n al : Nat) : Keeps (Act.loadLanes vas n al) := by
  refine .bind (keeps_resolveLanes _ _ _ _) fun ts => .get fun s _ => .ite .stall ?_
  split
  · exact .trap _ _
  · exact .mapM (fun _ => .bind (keeps_readTarget _ _ _) fun _ => .pure _) _

theorem keeps_storeLanes (xs : List (Reg × Nat)) (n al : Nat) : Keeps (Act.storeLanes xs n al) :=
  .bind (keeps_resolveLanes _ _ _ _) fun _ => keeps_storeAll _

theorem keeps_caravan (i : Instr) : Keeps (Act.caravan i) := .get fun _ _ => .ite (.pure _) (keeps_illegal _)

theorem keeps_node (va : Reg) : Keeps (Act.node va) := by
  refine .get fun s h => ?_
  simp only
  split
  · exact .bind (.set (ok_askWalk _ _ _ _ h)) fun _ => .stall
  · exact .trap _ _
  · exact .trap _ _
  · exact .ite (.trap _ _) (.bind (.set (ok_keepTlb _ _ _ h)) fun _ => .pure _)

theorem keeps_pushChild (d : BitVec 5) (a : Reg) (r : Record) (m : Members) : Keeps (Act.pushChild d a r m) := by
  refine .get fun s h => .ite (keeps_result _ _) ?_
  extract_lets group jp
  have hpush : Keeps (jp ()) :=
    .bind (.modify fun _ h => h) fun _ => .bind (.modify fun _ h => h) fun _ => keeps_result _ _
  exact .ite (.ite (.bind (.trap _ _) fun _ => hpush) (.bind (.set h) fun _ => hpush)) hpush

theorem keeps_memberAligned (va : Reg) : Keeps (Act.memberAligned va) := .ite (.trap _ _) (.pure _)
theorem keeps_manifest (b : BitVec 5) : Keeps (Act.manifest b) := .get fun _ _ => .ite (.trap _ _) (.pure _)
theorem keeps_unposted (p : Nat) : Keeps (Act.unposted p) := .get fun _ _ => .ite .stall (.pure _)

theorem keeps_barrier (va : Reg) : Keeps (Act.barrier va) := by
  refine .get fun s _ => ?_
  split
  · exact .trap _ _
  · exact .pure _

theorem keeps_counter (va : Reg) : Keeps (Act.counter va) := by
  refine .get fun s _ => ?_
  split
  · exact .trap _ _
  · exact .pure _

theorem keeps_liveCounter (p : Nat) (va : Reg) : Keeps (Act.liveCounter p va) :=
  .get fun _ _ => .ite (.trap _ _) (.ite (.trap _ _) (.pure _))

/-! ### Pieces of the instructions -/

theorem keeps_ringMoveAct (d b : BitVec 5) (q : BitVec 4) (p : Bool) : Keeps (ringMoveAct d b q p) := by
  refine .get fun s h => ?_
  simp only
  split
  · exact .bind (.set (ok_putRing _ _ _ h)) fun _ => keeps_result _ _
  · exact keeps_result _ _

theorem keeps_ringEnd (d b : BitVec 5) (sc : Nat) (v : Reg) : Keeps (Act.ringEnd d b sc v) :=
  .get fun _ _ => .ite (.bind (keeps_acquire _) fun _ => keeps_result _ _) (keeps_result _ _)

theorem keeps_ringWait (d b : BitVec 5) (q : BitVec 4) : Keeps (Act.ringWait d b q) := by
  refine .get fun s h => ?_
  simp only
  split
  · exact .trap _ _
  · exact .ite (.trap _ _) (.ite (keeps_ringEnd _ _ _ _) (keeps_park _))

theorem keeps_vecAligned (ea : Reg) (b : Nat) : Keeps (vecAligned ea b) := .ite (.trap _ _) (.ite (.trap _ _) (.pure _))

theorem keeps_loadTo (d a : BitVec 5) (sz : BitVec 3) (i : BitVec 12) (c : Bool) : Keeps (loadTo d a sz i c) :=
  .get fun _ _ => .bind (keeps_load _ _ _ _) fun _ => keeps_result _ _

theorem keeps_loadRun (va : Reg) (n : Nat) : Keeps (Act.loadRun va n) :=
  .bind (.mapM (fun _ => keeps_load _ _ _ _) _) fun _ => .pure _

theorem keeps_messageAct (d a b : BitVec 5) (ch : BitVec 2) (hd : Bool) : Keeps (messageAct d a b ch hd) := by
  refine .get fun s h => .ite (.trap _ _) ?_
  split
  · exact .trap _ _
  · exact .ite (.trap _ _) (.bind (keeps_loadRun _ _) fun _ =>
      .bind (.modify fun _ h => ok_sendMessage _ _ _ _ _ _ h) fun _ => keeps_done)

theorem keeps_record (va : Reg) : Keeps (Act.record va) := by
  refine .bind (keeps_load _ _ _ _) fun bs => .get fun s _ => ?_
  simp only
  split
  · exact .trap _ _
  · exact .ite (.pure _) (.trap _ _)

theorem keeps_copy (va : Reg) : Keeps (Act.copy va) := by
  refine .get fun s _ => ?_
  split
  · exact .pure _
  · exact keeps_record _

theorem keeps_releaseWith (r : Record) : Keeps (Act.releaseWith r) :=
  .get fun _ h => .ite (.ite (.set (ok_setMe _ h)) (.pure _)) (.bind (.set (ok_setMe _ h)) fun _ => .stall)

theorem keeps_port (x : Reg) : Keeps (Act.port x) := by
  refine .get fun s _ => ?_
  split
  · exact .ite (.pure _) (.trap _ _)
  · exact .trap _ _

theorem keeps_lineOf (va : Reg) : Keeps (Act.lineOf va) := by
  refine .get fun s h => .ite (.pure _) (.ite (.pure _) ?_)
  split
  · exact .ite (.bind (.set (ok_askWalk _ _ _ _ h)) fun _ => .stall) .stall
  · exact .bind (.set (ok_resolved _ _ _ h)) fun _ => .pure _
  · exact .bind (.set (ok_setMe _ (ok_noteFault _ _ _ _ (ok_ite h (ok_nowUse _ _ _ h))))) fun _ => .pure _

theorem keeps_stretches (start : Reg) (n page : Nat) : Keeps (Act.stretches start n page) := by
  induction n generalizing page with
  | zero => exact .pure _
  | succ n ih =>
    refine .get fun s h => .ite (.trap _ _) ?_
    split
    · exact .bind (.set (ok_askWalk _ _ _ _ h)) fun _ => .stall
    · exact .trap _ _
    · exact .trap _ _
    · exact .ite (.trap _ _) (.bind (.set (ok_keepTlb _ _ _ h)) fun _ => .bind (ih _) fun _ => .pure _)

theorem keeps_writeBackRange (va len : Reg) : Keeps (Act.writeBackRange va len) :=
  .ite (.trap _ _) (.ite (.trap _ _) (.bind (keeps_stretches _ _ _) fun _ =>
    .get fun _ h => .ite .stall (.bind (.set (ok_writeBackAll _ h)) fun _ => .pure _)))

theorem keeps_secureOnly (i : Instr) : Keeps (Act.secureOnly i) := .get fun _ _ => .ite (.pure _) (.trap _ _)
theorem keeps_below (x : Reg) (n : Nat) : Keeps (Act.below x n) := .ite (.pure _) (.trap _ _)
theorem keeps_lockName (x : Reg) : Keeps (Act.lockName x) := .ite keeps_crossing (.trap _ _)

theorem keeps_notice (d : BitVec 5) {a : Act Unit} (ha : Keeps a) : Keeps (Act.notice d a) :=
  .get fun _ h => .ite (.bind (.set (ok_setMe _ h)) fun _ => keeps_result _ _) ha

theorem keeps_lockEnd (d : BitVec 5) (v : Reg) : Keeps (Act.lockEnd d v) :=
  .ite (.bind (keeps_acquire _) fun _ => keeps_result _ _) (keeps_result _ _)

theorem keeps_requestLock (d : BitVec 5) (n : Reg) (m : BitVec 3) (w f : Bool) : Keeps (Act.requestLock d n m w f) :=
  .get fun _ h => .ite (.bind (.set (ok_lockChanged _ h)) fun _ => keeps_lockEnd _ _)
    (.ite (keeps_result _ _) (.ite (keeps_result _ _) (.bind (.set (ok_woundFor _ _ h)) fun _ => keeps_park _)))

theorem keeps_newLock (d a : BitVec 5) (m : BitVec 3) (w : Bool) : Keeps (newLock d a m w) :=
  .get fun _ _ => .bind (keeps_lockName _) fun _ => keeps_notice _
    (.ite (keeps_result _ _) (.ite (keeps_result _ _) (.ite (keeps_result _ _) (keeps_requestLock _ _ _ _ _))))

/-! ### Instructions of a slot -/

/-- The memory of the state that an outcome leads to, if it leads to one, is canonical. -/
def Lands (o : Machine.Outcome) : Prop := ∀ t, o = .next t → MemoryOk t

variable {s : State}

theorem Lands.next (h : MemoryOk s) : Lands (.next s) := by
  rintro _ ⟨⟩
  exact h

theorem Lands.ite {c : Prop} [Decidable c] {a b : Machine.Outcome} (ha : Lands a) (hb : Lands b) :
    Lands (if c then a else b) := by
  split
  · exact ha
  · exact hb

theorem ok_next {a : Act Unit} (i : Instr) (ha : Keeps a) (h : MemoryOk s) : MemoryOk (a.next i s) := by
  have h' := ha s h
  unfold Act.next
  split
  next e => rw [e] at h'; exact ok_ite h' h'
  next e => rw [e] at h'; exact h'
  next e => rw [e] at h'; exact ok_trapHere _ _ h'

theorem Lands.simple {i : Instr} {f : State → State} (hf : MemoryOk (f s)) (h : MemoryOk s) : Lands (simple i f s) :=
  .ite (.next (ok_adv hf)) (.next (ok_illegal _ h))

theorem Lands.runWith {i : Instr} {a : Option Reg → Act Unit} (ha : ∀ w, Keeps (a w)) (h : MemoryOk s) :
    Lands (runWith i a s) := by
  refine .ite ?_ (.next (ok_illegal _ h))
  split
  · exact .next (ok_next i (ha _) h)
  · exact .next (ok_next (s := s.unpark) i (ha _) h)
  · exact .next (ok_next (s := s.unpark) i (ha _) h)

theorem Lands.run {i : Instr} {a : Act Unit} (ha : Keeps a) (h : MemoryOk s) : Lands (run i a s) := .runWith (fun _ => ha) h

end Sys2Proof.Laws
end

section
/-! PROOFS: every instruction of one word keeps memory canonical. -/

namespace Sys2Proof.Laws

open Machine Safety

variable {s : State}

/-! ### Shared shapes -/

theorem Lands.branchOp {i : Instr} {p a b : BitVec 5} {o : BitVec 10} {f : Reg → Reg → Bool} (h : MemoryOk s) :
    Lands (branchOp i p a b o f s) := .ite (.next (ok_branch _ _ h)) (.next (ok_illegal _ h))

theorem Lands.regOp {i : Instr} {d a b : BitVec 5} {f : Reg → Reg → Reg} (h : MemoryOk s) : Lands (regOp i d a b f s) :=
  .simple h h

theorem Lands.immOp {i : Instr} {d a : BitVec 5} {f : Reg → Reg} (h : MemoryOk s) : Lands (immOp i d a f s) := .simple h h

theorem Lands.fpOp {i : Instr} {d a b : BitVec 5} {f : BitVec 1} {op : BitVec 5 → Nat → Nat → Fp → Nat × Fp} (h : MemoryOk s) :
    Lands (fpOp i d a b f op s) := .simple (ok_setFp _ _ h) h

theorem Lands.laneOp {i : Instr} {d a b : BitVec 5} {p w : Nat} {f : Nat → Nat → Nat → Fp → Nat × Fp} (h : MemoryOk s) :
    Lands (laneOp i d a b p w f s) := .simple (ok_setVec _ _ h) h

/-! ### Caravans and manifests -/

theorem lands_meet (d a : BitVec 5) (h : MemoryOk s) : Lands (execMeet d a s) := by
  refine .run (.bind (keeps_caravan _) fun _ => .get fun s h => .ite (keeps_illegal _) ?_) h
  refine .bind (keeps_node _) fun l => .bind (keeps_release _) fun _ => .get fun s h => ?_
  extract_lets x node step t slice r rest
  have hrest : Keeps (rest ()) := .bind (.set (ok_setMe _ (ok_meetAt _ _ _ _ _ h))) fun _ => keeps_result _ _
  exact .ite (.bind .stall fun _ => hrest) hrest

theorem lands_depart (d : BitVec 5) (h : MemoryOk s) : Lands (execDepart d s) :=
  .run (.bind (keeps_caravan _) fun _ => .get fun _ h => .ite (keeps_illegal _) (.ite .stall (.ite
    (.bind (.set (ok_setMe _ (ok_leaveWay _ _ h))) fun _ => .bind (keeps_acquire _) fun _ => keeps_result _ _)
    (.bind (.set (ok_setMe _ (ok_leaveWay _ _ h))) fun _ => keeps_result _ _)))) h

theorem lands_gate (d : BitVec 5) (h : MemoryOk s) : Lands (execGate d s) := by
  refine .runWith (fun woken => .bind (keeps_caravan _) fun _ => .get fun s h => ?_) h
  extract_lets group b complete rest
  have hcomplete : Keeps complete :=
    .bind (.modify fun _ h => ok_setMe _ h) fun _ => .bind (keeps_acquire _) fun _ => keeps_result _ _
  have hrest : Keeps (rest ()) := .get fun _ _ => .ite hcomplete (keeps_park _)
  split
  · exact .ite hcomplete (.bind (.set (ok_setMe _ h)) fun _ => .ite (.trap _ _) (keeps_result _ _))
  · exact .ite (keeps_illegal _) (.ite (.trap _ _) (.ite
      (.bind (keeps_release _) fun _ => .get fun _ h => .bind (.set (ok_barArrive _ (ok_setMe _ h))) fun _ => hrest)
      hrest))

theorem lands_split (d a b : BitVec 5) (h : MemoryOk s) : Lands (execSplit d a b s) := by
  refine .run (.bind (keeps_caravan _) fun _ => .get fun s h => ?_) h
  extract_lets x stay go r rest
  have hrest : Keeps (rest ()) := .get fun _ h =>
    .ite (keeps_pushChild _ _ _ _) (.bind (.set (ok_setMe _ h)) fun _ => .stall)
  exact .ite (keeps_illegal _) (.ite (.trap _ _) (.ite (.bind (.set (ok_setMe _ h)) fun _ => keeps_result _ _)
    (.ite (keeps_result _ _) (.ite (.bind (keeps_store _ _ _) fun _ => hrest) hrest))))

theorem lands_mbld (a : BitVec 5) (h : MemoryOk s) : Lands (execMbld a s) :=
  .run (.get fun _ _ => .bind (keeps_memberAligned _) fun _ => .bind (keeps_loadLanes _ _ _) fun _ =>
    .bind (.modify fun _ h => ok_setMe _ h) fun _ => keeps_done) h

theorem lands_mbst (a : BitVec 5) (h : MemoryOk s) : Lands (execMbst a s) :=
  .run (.get fun _ _ => .bind (keeps_memberAligned _) fun _ => .bind (keeps_storeLanes _ _ _) fun _ => keeps_done) h

theorem lands_mfld (v a b : BitVec 5) (k : BitVec 3) (h : MemoryOk s) : Lands (execMfld v a b k s) :=
  .run (.bind (keeps_manifest _) fun _ => .get fun _ _ => .bind (keeps_loadLanes _ _ _) fun _ =>
    .bind (.modify fun _ h => ok_setMe _ h) fun _ => keeps_done) h

theorem lands_mfst (v a b : BitVec 5) (k : BitVec 3) (h : MemoryOk s) : Lands (execMfst v a b k s) :=
  .run (.bind (keeps_manifest _) fun _ => .get fun _ _ => .bind (keeps_storeLanes _ _ _) fun _ => keeps_done) h

theorem lands_mfadd (v a b : BitVec 5) (k : BitVec 3) (h : MemoryOk s) : Lands (execMfadd v a b k s) :=
  .run (.bind (keeps_manifest _) fun _ => .get fun _ _ => .bind (keeps_resolveLanes _ _ _ _) fun _ =>
    .bind (keeps_loadLanes _ _ _) fun _ => .get fun _ _ => .bind (keeps_storeLanes _ _ _) fun _ =>
    .bind (.modify fun _ h => ok_settle _ h) fun _ => keeps_done) h

/-! ### Reductions, barriers, counters and publications -/

theorem lands_redDecl (d a b : BitVec 5) (h : MemoryOk s) : Lands (execRedDecl d a b s) := by
  refine .run (.get fun s h => .ite (.trap _ _) (.bind (keeps_resolve _ _ _ _) fun t => ?_)) h
  split
  · exact .trap _ _
  · refine .ite (.trap _ _) (.get fun s h => ?_)
    extract_lets c k page root r rest
    have hrest : Keeps (rest ()) := .bind (.set (ok_redDecl _ _ _ _ _ h)) fun _ => keeps_result _ _
    exact .ite (.bind .stall fun _ => hrest) hrest

theorem lands_redAdd (d a b : BitVec 5) (p : BitVec 3) (t : BitVec 5) (h : MemoryOk s) : Lands (execRedAdd d a b p t s) := by
  refine .run (.get fun s _ => .bind (keeps_resolveLanes _ _ _ _) fun ts => .get fun s h => ?_) h
  split
  · exact .trap _ _
  · exact keeps_done
  · exact .bind (.set (ok_post _ _ _ _ h h)) fun _ => keeps_done

theorem lands_barInit (a b : BitVec 5) (h : MemoryOk s) : Lands (execBarInit a b s) :=
  .run (.get fun _ h => .bind (keeps_barrier _) fun _ => .ite (.trap _ _) (.bind (.set h) fun _ => keeps_done)) h

theorem lands_barArr (d a : BitVec 5) (h : MemoryOk s) : Lands (execBarArr d a s) :=
  .run (.get fun _ h => .bind (keeps_barrier _) fun _ => .bind (keeps_release _) fun _ =>
    .ite (.trap _ _) (.bind (.set (ok_barArrive _ h)) fun _ => keeps_result _ _)) h

theorem lands_barWait (d a b : BitVec 5) (h : MemoryOk s) : Lands (execBarWait d a b s) := by
  refine .runWith (fun woken => .get fun s _ => .bind (keeps_barrier _) fun o => ?_) h
  have hfinish (sc : Nat) : Keeps (do Act.acquire sc; Act.result d 0) := .bind (keeps_acquire _) fun _ => keeps_result _ _
  split
  · exact .ite (hfinish _) (.ite (.trap _ _) (keeps_result _ _))
  · exact .ite (.trap _ _) (.ite (hfinish _) (keeps_park _))

theorem lands_barInfo (d a : BitVec 5) (h : MemoryOk s) : Lands (execBarInfo d a s) :=
  .run (.get fun _ _ => .bind (keeps_barrier _) fun _ => keeps_result _ _) h

theorem lands_barFree (a : BitVec 5) (h : MemoryOk s) : Lands (execBarFree a s) :=
  .run (.get fun _ h => .bind (keeps_barrier _) fun _ => .ite (.trap _ _) (.bind (.set h) fun _ => keeps_done)) h

theorem lands_cntInit (d a b : BitVec 5) (h : MemoryOk s) : Lands (execCntInit d a b s) :=
  .run (.get fun _ h => .bind (keeps_counter _) fun _ => .ite (.trap _ _) (.ite (.trap _ _)
    (.bind (.set (ok_ite (ok_cntInit _ _ _ h) (ok_post _ _ _ _ (ok_cntInit _ _ _ h) h))) fun _ => keeps_done))) h

theorem lands_cntSig (a : BitVec 5) (h : MemoryOk s) : Lands (execCntSig a s) :=
  .run (.get fun _ h => .bind (keeps_counter _) fun _ => .bind (keeps_release _) fun _ => .bind (keeps_liveCounter _ _) fun _ =>
    .bind (.set (ok_post _ _ _ _ (ok_cntUpdate _ _ _ h) h)) fun _ => keeps_done) h

theorem lands_cntWait (d a : BitVec 5) (h : MemoryOk s) : Lands (execCntWait d a s) := by
  refine .runWith (fun woken => .get fun s _ => ?_) h
  have hfinish (v : Reg) : Keeps (do Act.acquire 3; Act.result d v) := .bind (keeps_acquire _) fun _ => keeps_result _ _
  split
  · exact hfinish _
  · exact .bind (keeps_counter _) fun _ => .bind (keeps_liveCounter _ _) fun _ => .ite (hfinish _) (keeps_park _)

theorem lands_cntAdd (d a b : BitVec 5) (h : MemoryOk s) : Lands (execCntAdd d a b s) :=
  .run (.get fun _ h => .bind (keeps_counter _) fun _ => .bind (keeps_liveCounter _ _) fun _ =>
    .bind (.set (ok_post _ _ _ _ (ok_setMe _ (ok_cntUpdate _ _ _ h)) h)) fun _ => keeps_done) h

theorem lands_publish (d a : BitVec 5) (h : MemoryOk s) : Lands (execPublish d a s) := by
  refine .run (.get fun s h => .ite (.trap _ _) (.ite (.trap _ _) ?_)) h
  extract_lets t x rest
  have ht : MemoryOk t := ok_ite h h
  have hrest : Keeps (rest ()) := .ite (.bind (.set (ok_setMe _ ht)) fun _ => .stall)
    (.bind (.set (ok_pubVersion _ ht)) fun _ => keeps_result _ _)
  exact .ite (.bind (keeps_release _) fun _ => hrest) hrest

/-! ### Engine queues and rings -/

theorem lands_ewait (d a : BitVec 5) (h : MemoryOk s) : Lands (execEwait d a s) :=
  .run (.get fun _ h => .ite (keeps_park _) (.bind (.set (ok_setMe _ h)) fun _ => keeps_result _ _)) h

theorem lands_qcfg (d a : BitVec 5) (q : BitVec 4) (h : MemoryOk s) : Lands (execQcfg d a q s) :=
  .run (.get fun _ h => .ite
    (.ite (keeps_result _ _) (.bind (.set (ok_setHandle _ _ _ h)) fun _ => keeps_result _ _))
    (.bind (keeps_load _ _ _ _) fun _ => .get fun _ h => .ite (keeps_result _ _) (.ite (keeps_result _ _)
      (.bind (.set (ok_setHandle _ _ _ h)) fun _ => keeps_result _ _)))) h

theorem lands_qput (d b : BitVec 5) (q : BitVec 4) (h : MemoryOk s) : Lands (execQput d b q s) := by
  refine .run (.get fun s _ => ?_) h
  simp only
  split
  · exact .bind (keeps_release _) fun _ => keeps_ringMoveAct _ _ _ _
  · exact keeps_ringMoveAct _ _ _ _

theorem lands_qwait (d b : BitVec 5) (q : BitVec 4) (h : MemoryOk s) : Lands (execQwait d b q s) := by
  unfold execQwait
  split
  · exact .next (ok_trapHere (s := s.unpark) _ _ h)
  · exact .run (keeps_ringEnd _ _ _ _) h
  · exact .run (keeps_ringWait _ _ _) h

theorem lands_srw (d a : BitVec 5) (n : BitVec 3) (h : MemoryOk s) : Lands (execSrw d a n s) :=
  .simple (ok_setG _ _ (ok_ite h (ok_setHere _ h))) h

theorem lands_engineQueueEntry (x : BitVec 25) (w1 w2 w3 w4 w5 w6 w7 : BitVec 32) (h : MemoryOk s) :
    Lands (execEngineQueueEntry x w1 w2 w3 w4 w5 w6 w7 s) := by
  refine .run (.get fun s h => .ite .stall ?_) h
  split
  · exact .stall
  · exact .bind (.set (ok_askLine _ _ h)) fun _ => .stall
  · exact .bind (.set (ok_enter _ h)) fun _ => keeps_done

/-! ### Vectors, memory and atomics -/

theorem lands_vld (v a : BitVec 5) (p : BitVec 3) (t : BitVec 5) (i : BitVec 7) (h : MemoryOk s) : Lands (execVld v a p t i s) :=
  .run (.get fun _ _ => .bind (keeps_vecAligned _ _) fun _ => .bind (keeps_loadLanes _ _ _) fun _ =>
    .bind (.modify fun _ h => ok_setV _ _ h) fun _ => keeps_done) h

theorem lands_vst (v a : BitVec 5) (p : BitVec 3) (t : BitVec 5) (i : BitVec 7) (h : MemoryOk s) : Lands (execVst v a p t i s) :=
  .run (.get fun _ _ => .bind (keeps_vecAligned _ _) fun _ => .bind (keeps_storeLanes _ _ _) fun _ => keeps_done) h

theorem lands_vldx (d a b : BitVec 5) (p : BitVec 3) (t : BitVec 5) (k : BitVec 2) (h : MemoryOk s) : Lands (execVldx d a b p t k s) :=
  .run (.get fun _ _ => .bind (keeps_loadLanes _ _ _) fun _ => .bind (.modify fun _ h => ok_setV _ _ h) fun _ => keeps_done) h

theorem lands_vstx (d a b : BitVec 5) (p : BitVec 3) (t : BitVec 5) (k : BitVec 2) (h : MemoryOk s) : Lands (execVstx d a b p t k s) :=
  .run (.get fun _ _ => .bind (keeps_storeLanes _ _ _) fun _ => keeps_done) h

theorem lands_vred (d a : BitVec 5) (o : BitVec 4) (p : BitVec 2) (t : BitVec 5) (m : BitVec 3) (h : MemoryOk s) :
    Lands (execVred d a o p t m s) := .simple (ok_ite (ok_setVec _ _ h) (ok_setV _ _ h)) h

theorem lands_vscan (d a : BitVec 5) (o : BitVec 4) (p : BitVec 2) (t : BitVec 5) (m : BitVec 3) (h : MemoryOk s) :
    Lands (execVscan d a o p t m s) := .simple (ok_ite (ok_setVec _ _ h) (ok_setV _ _ h)) h

theorem lands_st (j a b : BitVec 5) (sz : BitVec 3) (i : BitVec 7) (h : MemoryOk s) : Lands (execSt j a b sz i s) :=
  .run (.get fun _ _ => .bind (keeps_store _ _ _) fun _ => keeps_done) h

theorem lands_pf (k a : BitVec 5) (i : BitVec 15) (h : MemoryOk s) : Lands (execPf k a i s) :=
  .run (.get fun _ h => .ite (.trap _ _) (.ite (.trap _ _)
    (.ite (.bind (.set (ok_prefetch _ _ _ _ h)) fun _ => keeps_done) keeps_done))) h

theorem lands_amo (d a b : BitVec 5) (sc : BitVec 3) (w : BitVec 2) (o : BitVec 4) (h : MemoryOk s) : Lands (execAmo d a b sc w o s) :=
  .run (.get fun _ _ => .bind (keeps_atomic _ _ _ _) fun _ => keeps_result _ _) h

theorem lands_cas (d a b : BitVec 5) (sc : BitVec 3) (w : BitVec 2) (h : MemoryOk s) : Lands (execCas d a b sc w s) :=
  .run (.get fun _ _ => .bind (keeps_atomic _ _ _ _) fun _ => keeps_result _ _) h

theorem lands_amof (d a b : BitVec 5) (sc : BitVec 3) (ty : BitVec 2) (o : BitVec 4) (h : MemoryOk s) :
    Lands (execAmof d a b sc ty o s) :=
  .run (.get fun _ _ => .bind (keeps_atomic _ _ _ _) fun _ => .bind (.modify fun _ h => ok_settle _ h) fun _ => keeps_result _ _) h

theorem lands_fence (k : BitVec 2) (h : MemoryOk s) : Lands (execFence k s) :=
  .run (.get fun _ h => .ite .stall (.ite .stall (.ite (.bind (.set (ok_setHere _ h)) fun _ => keeps_done) keeps_done))) h

/-! ### Tasks, mailboxes and convoys -/

theorem lands_spawn (d a : BitVec 5) (h : MemoryOk s) : Lands (execSpawn d a s) :=
  .run (.get fun _ _ => .bind (keeps_copy _) fun _ => .bind (keeps_releaseWith _) fun _ => .get fun _ h =>
    .ite (keeps_result _ _) (.bind (.set h) fun _ => keeps_result _ _)) h

theorem lands_cntBind (d a b : BitVec 5) (h : MemoryOk s) : Lands (execCntBind d a b s) :=
  .run (.get fun _ _ => .bind (keeps_counter _) fun _ => .bind (keeps_record _) fun _ => .bind (keeps_release _) fun _ =>
    .bind (keeps_liveCounter _ _) fun _ => .get fun _ h => .ite (keeps_result _ _)
      (.ite (.bind (.set (ok_admitTask _ _ _ _ _ h)) fun _ => keeps_result _ _)
        (.bind (keeps_fenced _) fun _ => .bind (keeps_unposted _) fun _ =>
          .bind (.set (ok_of_mem_eq (ok_poke _ _ h) rfl)) fun _ => keeps_result _ _))) h

theorem lands_nput (v : BitVec 5) (e : BitVec 2) (h : MemoryOk s) : Lands (execNput v e s) := by
  refine .run (.get fun s h => ?_) h
  split
  · exact .trap _ _
  · exact .ite .stall (.bind (.set h) fun _ => keeps_done)

theorem lands_nget (v : BitVec 5) (e : BitVec 2) (h : MemoryOk s) : Lands (execNget v e s) := by
  refine .run (.get fun s h => ?_) h
  split
  · exact .bind (.set (ok_setV _ _ h)) fun _ => keeps_done
  · exact .bind (.set (ok_setV _ _ h)) fun _ => keeps_done
  · exact keeps_park _

theorem lands_ncfg (d a : BitVec 5) (h : MemoryOk s) : Lands (execNcfg d a s) :=
  .run (.get fun _ h => .ite (.trap _ _) (.ite (.bind (.set (ok_setHere _ h)) fun _ => keeps_result _ _) (keeps_result _ _))) h

theorem lands_convOpen (d b : BitVec 5) (h : MemoryOk s) : Lands (execConvOpen d b s) := by
  refine .run (.get fun s h => ?_) h
  simp only
  split
  · exact .trap _ _
  · split
    · exact keeps_result _ _
    · exact .bind (.set h) fun _ => keeps_result _ _

theorem lands_convPut (a v : BitVec 5) (h : MemoryOk s) : Lands (execConvPut a v s) :=
  .run (.get fun _ h => .bind (keeps_port _) fun _ => .ite .stall (.bind (.set h) fun _ => keeps_done)) h

theorem lands_convClose (d a : BitVec 5) (h : MemoryOk s) : Lands (execConvClose d a s) := by
  refine .run (.get fun s h => .bind (keeps_port _) fun p => ?_) h
  split
  · exact .bind (.set (ok_setHere _ h)) fun _ => keeps_result _ _
  · exact .ite .stall (.bind (.set h) fun _ => .stall)

/-! ### Traps, system registers, maintenance and the secure world -/

theorem lands_xret (h : MemoryOk s) : Lands (execXret s) := .ite (.next h) (.next (ok_illegal _ h))

theorem lands_smc (a : BitVec 5) (h : MemoryOk s) : Lands (execSmc a s) :=
  .ite (.next (ok_illegal _ h)) (.next (ok_takeTrap _ _ _ _ _ h))

theorem lands_sysrd (d : BitVec 5) (n : BitVec 12) (h : MemoryOk s) : Lands (execSysrd d n s) := by
  refine .run (.get fun s _ => ?_) h
  split
  · exact keeps_result _ _
  · exact keeps_illegal _

theorem lands_syswr (a : BitVec 5) (n : BitVec 12) (h : MemoryOk s) : Lands (execSyswr a n s) := by
  refine .run (.get fun s h => ?_) h
  split
  case h_1 t e => exact .bind (.set (gives_setSysreg _ _ h _ e)) fun _ => keeps_done
  case h_2 => exact keeps_illegal _

theorem lands_yield (a : BitVec 5) (h : MemoryOk s) : Lands (execYield a s) :=
  .run (.get fun _ _ => .bind (keeps_copy _) fun _ => .get fun _ _ => .ite (keeps_illegal _)
    (.bind (keeps_releaseWith _) fun _ => .get fun _ h => .ite (.set (ok_admitTask _ _ _ _ _ (ok_endTask _ _ _ h)))
      (.set (ok_endTask _ _ _ (ok_admitTask _ _ _ _ _ h))))) h

theorem lands_dict (a b : BitVec 5) (h : MemoryOk s) : Lands (execDict a b s) :=
  .run (.get fun _ _ => .ite (.trap _ _) (.bind
    (.mapM (fun _ => .ite (.pure _) (.bind (keeps_load _ _ _ _) fun _ => .pure _)) _) fun _ =>
    .bind (.modify fun _ h => ok_setHere _ h) fun _ => keeps_done)) h

theorem lands_l1inv (a b : BitVec 5) (h : MemoryOk s) : Lands (execL1inv a b s) := by
  refine .run (.get fun s h => .ite (.trap _ _) (.ite (.bind (.set h) fun _ => keeps_done) ?_)) h
  extract_lets rest
  have hrest (l : Option Nat) : Keeps (rest l) := .bind (.modify fun _ h => ok_l1Drop _ _ _ h) fun _ => keeps_done
  exact .ite (hrest _) (.bind (keeps_lineOf _) hrest)

theorem lands_tlbi (a b : BitVec 5) (h : MemoryOk s) : Lands (execTlbi a b s) :=
  .run (.get fun _ _ => .ite (.trap _ _) (.ite (.trap _ _) (.bind (keeps_release _) fun _ => .get fun _ h =>
    .ite .stall (.bind (.set (ok_ite (ok_readTables h) h)) fun _ => keeps_done)))) h

theorem lands_wbr (a b : BitVec 5) (h : MemoryOk s) : Lands (execWbr a b s) :=
  .run (.get fun _ _ => .bind (keeps_writeBackRange _ _) fun _ => keeps_done) h

theorem lands_invr (a b : BitVec 5) (h : MemoryOk s) : Lands (execInvr a b s) :=
  .run (.get fun _ _ => .bind (keeps_writeBackRange _ _) fun _ => .bind (.modify fun _ h => h) fun _ =>
    .bind (.modify fun _ h => ok_setHere _ h) fun _ => keeps_done) h

theorem lands_domset (d a b : BitVec 5) (h : MemoryOk s) : Lands (execDomset d a b s) := by
  refine .run (.bind (keeps_secureOnly _) fun _ => .get fun s h => .bind (keeps_below _ _) fun _ =>
    .ite (.trap _ _) (.ite (.trap _ _) (.bind keeps_crossing fun _ => ?_))) h
  extract_lets rest
  have hrest : Keeps (rest ()) := .bind (.set (ok_switchDomain _ _ h)) fun _ => keeps_result _ _
  exact .ite (.bind (.set (ok_setMe _ h)) fun _ => .bind .stall fun _ => hrest) hrest

theorem lands_attset (d a b : BitVec 5) (h : MemoryOk s) : Lands (execAttset d a b s) := by
  refine .run (.bind (keeps_secureOnly _) fun _ => .get fun s h => .bind (keeps_below _ _) fun _ =>
    .bind (keeps_below _ _) fun _ => ?_) h
  extract_lets slice ways now old leave t x rest
  have hrest : Keeps (rest ()) :=
    .ite (.bind (.set (ok_setMe _ (ok_ite (ok_setAttic _ _ h) h))) fun _ => .stall)
      (.bind (.set (ok_setAttic _ _ h)) fun _ => keeps_result _ _)
  exact .ite (.bind keeps_crossing fun _ => hrest) hrest

theorem lands_waymask (d a b : BitVec 5) (h : MemoryOk s) : Lands (execWaymask d a b s) :=
  .run (.bind (keeps_secureOnly _) fun _ => .get fun _ h => .bind (keeps_below _ _) fun _ => .bind (keeps_below _ _) fun _ =>
    .bind keeps_crossing fun _ => .bind (.set (ok_setWays _ _ h)) fun _ => keeps_result _ _) h

theorem lands_keydel (d a : BitVec 5) (h : MemoryOk s) : Lands (execKeydel d a s) :=
  .run (.bind (keeps_secureOnly _) fun _ => .get fun _ h => .bind (keeps_below _ _) fun _ =>
    .bind keeps_crossing fun _ => .ite (keeps_result _ _) (.bind (.set h) fun _ => keeps_result _ _)) h

theorem lands_snap (d : BitVec 5) (h : MemoryOk s) : Lands (execSnap d s) :=
  .run (.get fun _ h => .ite .stall (.bind (.set h) fun _ => keeps_result _ _)) h

/-! ### Locks -/

theorem lands_lkreq (d a : BitVec 5) (m : BitVec 3) (h : MemoryOk s) : Lands (execLkreq d a m s) := by
  refine .runWith (fun woken => ?_) h
  split
  · exact keeps_lockEnd _ _
  · exact keeps_newLock _ _ _ _

theorem lands_lkup (d a : BitVec 5) (m : BitVec 3) (h : MemoryOk s) : Lands (execLkup d a m s) := by
  refine .runWith (fun woken => ?_) h
  split
  · exact keeps_lockEnd _ _
  · refine .get fun s _ => .bind (keeps_lockName _) fun _ => keeps_notice _ ?_
    split
    · exact keeps_result _ _
    · exact .ite (keeps_result _ _) (.ite (keeps_result _ _) (keeps_requestLock _ _ _ _ _))

theorem lands_lkdn (d a : BitVec 5) (m : BitVec 3) (h : MemoryOk s) : Lands (execLkdn d a m s) := by
  refine .run (.get fun s _ => .bind (keeps_lockName _) fun _ => .bind (keeps_release _) fun _ => keeps_notice _ ?_) h
  split
  · exact keeps_result _ _
  · exact .ite (keeps_result _ _) (.ite (keeps_result _ _) (.bind (.modify fun _ h => ok_lowerLock _ _ h) fun _ => keeps_result _ _))

theorem lands_lkrel (d a : BitVec 5) (h : MemoryOk s) : Lands (execLkrel d a s) := by
  refine .run (.get fun s _ => ?_) h
  extract_lets name rest
  have hrest : Keeps (rest ()) := .bind (keeps_release _) fun _ => keeps_notice _ (.ite
    (.bind (.modify fun _ h => ok_dropLocks _ h) fun _ => keeps_result _ _) (.ite (keeps_result _ _) (.ite (keeps_result _ _)
      (.bind (.modify fun _ h => ok_dropLock _ _ h) fun _ => keeps_result _ _))))
  exact .ite (.bind (keeps_lockName _) fun _ => hrest) (.bind keeps_crossing fun _ => hrest)

theorem lands_lkq (d a : BitVec 5) (h : MemoryOk s) : Lands (execLkq d a s) :=
  .run (.get fun _ _ => .bind (keeps_lockName _) fun _ => keeps_result _ _) h

theorem lands_lktab (d a : BitVec 5) (h : MemoryOk s) : Lands (execLktab d a s) :=
  .run (.get fun _ h => .ite (keeps_result _ _) (.ite (keeps_result _ _) (.bind keeps_crossing fun _ =>
    .ite (keeps_result _ _) (.bind (.set h) fun _ => keeps_result _ _)))) h

/-! ### Every instruction of one word -/

theorem lands_execWord (i : Instr) (h : MemoryOk s) : Lands (execWord i s) := by
  cases i with dsimp only [execWord]
  | add | sub | and | or | xor | shl | shr | sha | min | max | minu | maxu | slt | sltu | mul | mulh | mulhu | div | divu
  | rem | remu | bfi | lea => exact .regOp h
  | clz | ctz | popc | brev | bfx | bfxs | addi | andi | ori | xori | slti | sltui | shli | shri | shai => exact .immOp h
  | sel | lui | addpc | mbpop | mbfst | mbnxt | qstat | skrd | vmovg | ppop | tself | npeek | budgetRead | caprd =>
    exact .simple (ok_setG _ _ h) h
  | hint => exact .simple h h
  | fadd | fsub | fmul | fdiv | fsqrt | fmin | fmax | fcmp => exact .fpOp h
  | ffma => exact .simple (ok_setFp _ _ h) h
  | fcvt => exact .simple (ok_setG _ _ (ok_settle _ h)) h
  | beq | bne | blt | bge | bltu | bgeu => exact .branchOp h
  | jal | jalr => exact .next h
  | loop => exact .next (ok_branch _ _ (ok_setG _ _ h))
  | ld | ldf => exact .run (keeps_loadTo _ _ _ _ _) h
  | st => exact lands_st _ _ _ _ _ h
  | pf => exact lands_pf _ _ _ h
  | amo => exact lands_amo _ _ _ _ _ _ h
  | cas => exact lands_cas _ _ _ _ _ h
  | amof => exact lands_amof _ _ _ _ _ _ h
  | redAdd => exact lands_redAdd _ _ _ _ _ h
  | acq => exact .simple (ok_acquire _ _ _ h) h
  | rel => exact .run (.bind (keeps_release _) fun _ => keeps_done) h
  | fence => exact lands_fence _ h
  | barInit => exact lands_barInit _ _ h
  | barArr => exact lands_barArr _ _ h
  | barWait => exact lands_barWait _ _ _ h
  | barInfo => exact lands_barInfo _ _ h
  | barFree => exact lands_barFree _ h
  | cntInit => exact lands_cntInit _ _ _ h
  | cntSig => exact lands_cntSig _ h
  | cntWait => exact lands_cntWait _ _ h
  | cntAdd => exact lands_cntAdd _ _ _ h
  | publish => exact lands_publish _ _ h
  | redDecl => exact lands_redDecl _ _ _ h
  | vld => exact lands_vld _ _ _ _ _ h
  | vst => exact lands_vst _ _ _ _ _ h
  | vldx => exact lands_vldx _ _ _ _ _ _ h
  | vstx => exact lands_vstx _ _ _ _ _ _ h
  | vadd | vsub | vmul | vfma | vfms | vrcp | vrsq | vexp2 | vlog2 | vabs | vneg | vmin | vmax | vand | vor | vxor | vshl | vshr
  | vsha => exact .laneOp h
  | vcvt => exact .simple (ok_setV _ _ (ok_settle _ h)) h
  | vred => exact lands_vred _ _ _ _ _ _ h
  | vscan => exact lands_vscan _ _ _ _ _ _ h
  | vdot => exact .simple (ok_setVec _ _ h) h
  | vcmp => exact .simple (ok_setP _ _ (ok_settle _ h)) h
  | vsel | vperm | vpack | vunpk | vbcast | vlut => exact .simple (ok_setV _ _ h) h
  | skwr | vlutset => exact .simple (ok_setHere _ h) h
  | pand | por | pxor | pnot => exact .simple (ok_setP _ _ h) h
  | ewait => exact lands_ewait _ _ h
  | qcfg => exact lands_qcfg _ _ _ h
  | qput => exact lands_qput _ _ _ h
  | qpop => exact .run (keeps_ringMoveAct _ _ _ _) h
  | qwait => exact lands_qwait _ _ _ h
  | srw => exact lands_srw _ _ _ h
  | msg | msgh => exact .run (keeps_messageAct _ _ _ _ _) h
  | cntBind => exact lands_cntBind _ _ _ h
  | spawn => exact lands_spawn _ _ h
  | tend => exact .next (ok_endTask _ _ _ h)
  | nput => exact lands_nput _ _ h
  | nget => exact lands_nget _ _ h
  | ncfg => exact lands_ncfg _ _ h
  | convOpen => exact lands_convOpen _ _ h
  | convPut => exact lands_convPut _ _ h
  | convClose => exact lands_convClose _ _ h
  | meet => exact lands_meet _ _ h
  | depart => exact lands_depart _ h
  | split => exact lands_split _ _ _ h
  | gate => exact lands_gate _ h
  | mbld => exact lands_mbld _ h
  | mbst => exact lands_mbst _ h
  | mband | mbor | mbandn | mtset => exact .simple (ok_setMe _ h) h
  | mfld => exact lands_mfld _ _ _ _ h
  | mfst => exact lands_mfst _ _ _ _ h
  | mfadd => exact lands_mfadd _ _ _ _ h
  | lkreq => exact lands_lkreq _ _ _ h
  | lktry => exact .run (keeps_newLock _ _ _ _) h
  | lkup => exact lands_lkup _ _ _ h
  | lkdn => exact lands_lkdn _ _ _ h
  | lkrel => exact lands_lkrel _ _ h
  | lkq => exact lands_lkq _ _ h
  | lktab => exact lands_lktab _ _ h
  | xret => exact lands_xret h
  | halt => exact .next (ok_stopTask _ _ _ _ _ _ h)
  | dict => exact lands_dict _ _ h
  | tlbi => exact lands_tlbi _ _ h
  | l1inv => exact lands_l1inv _ _ h
  | wbr => exact lands_wbr _ _ h
  | invr => exact lands_invr _ _ h
  | domset => exact lands_domset _ _ _ h
  | attset => exact lands_attset _ _ _ h
  | waymask => exact lands_waymask _ _ _ h
  | snap => exact lands_snap _ h
  | smc => exact lands_smc _ h
  | keydel => exact lands_keydel _ _ h
  | yield => exact lands_yield _ h
  | sysrd => exact lands_sysrd _ _ h
  | syswr => exact lands_syswr _ _ h
  | trap => exact .next (ok_takeTrap _ _ _ _ _ h)
  | _ => exact .next (ok_illegal _ h)

end Sys2Proof.Laws
end

section
/-! PROOFS: every command of the two engines keeps memory canonical. -/

namespace Sys2Proof.Laws

open Machine Safety

variable {s : State}

/-! ### What a command's work may do -/

theorem ok_engPoison (c : Nat) (data : Bool) (m : Cmd) (l : Loc) (h : MemoryOk s) : MemoryOk (s.engPoison c data m l) :=
  ok_report _ (ok_noteError _ h)

theorem ok_noteCheck (m : Cmd) (w : Who) (u : Use) (va : Reg) (n : Nat) (h : MemoryOk s) :
    MemoryOk (s.noteCheck m w u va n) := by
  unfold State.noteCheck
  split
  · exact h
  · split
    · exact ok_ite (ok_faqAdd _ _ h) h
    · exact ok_ite (ok_map_getD _ _ (fun _ => ok_engPoison _ _ _ _ h) h) h

theorem ok_noteChecks (c : Nat) (m : Cmd) (r : Nat) (h : MemoryOk s) : MemoryOk (s.noteChecks c m r) := by
  unfold State.noteChecks
  refine ok_ite h ?_
  split
  · exact ok_noteCheck _ _ _ _ _ h
  · exact h

theorem ok_dropRun (c p n : Nat) (h : MemoryOk s) : MemoryOk (s.dropRun c p n) :=
  ok_foldl _ (fun _ _ h => ok_dropLine _ _ h) _ _ h

theorem ok_engPut (w : Who) (va : Reg) (l : Loc) (bs : List Byte) (h : MemoryOk s) : MemoryOk (s.engPut w va l bs) :=
  ok_setCore _ _ h

theorem ok_putNow (w : Who) (l : Loc) (bs : List Byte) (h : MemoryOk s) : MemoryOk (s.putNow w l bs) :=
  ok_ite (ok_pubWrite _ _ _ (ok_dropRun _ _ _ h)) (ok_homeWrite _ _ _ (ok_dropRun _ _ _ h))

theorem ok_bankPut (p : Nat) (bs : List Byte) (h : MemoryOk s) : MemoryOk (s.bankPut p bs) :=
  ok_ite (ok_foldl _ (fun _ _ h => ok_ite h (ok_poke _ _ h)) _ _ h) (ok_poke _ _ h)

theorem ok_performStaged (c : Nat) (x : Staged) (h : MemoryOk s) : MemoryOk (s.performStaged c x) := by
  unfold State.performStaged
  extract_lets l s₁
  have h₁ : MemoryOk s₁ := ok_dropLine _ _ h
  split
  · exact ok_writeLine _ _ _ (ok_backInvalidate _ h₁)
  · exact ok_pubPut _ _ _ h₁
  · exact ok_foldl _ (fun _ _ h => ok_bankPut _ _ h) _ _ h₁

theorem ok_engWrite (w : Who) (va : Reg) (ts : List (Target × Nat)) (bs : List Byte) (h : MemoryOk s) :
    MemoryOk (s.engWrite w va ts bs) := by
  induction ts generalizing s va bs with
  | nil => exact h
  | cons t ts ih =>
    obtain ⟨t, n⟩ := t
    cases t with
    | at' l => exact ih _ _ (ok_engPut _ _ _ _ h)
    | decoded => exact ih _ _ h

theorem ok_engPoisons (c : Nat) (data : Bool) (m : Cmd) (p : Progress) (ls : List Loc) (h : MemoryOk s) :
    MemoryOk (s.engPoisons c data m p ls).1 := by
  induction ls generalizing s p with
  | nil => exact h
  | cons l ls ih =>
    unfold State.engPoisons
    extract_lets at0 q
    split
    · exact ih _ h
    · exact ih _ (ok_engPoison _ _ _ _ h)

theorem ok_noteSlot (c q k n : Nat) (h : MemoryOk s) : MemoryOk (s.noteSlot c q k n) := by
  unfold State.noteSlot
  split
  · exact ok_foldl _ (fun _ _ h => ok_noteError _ h) _ _ h
  · exact h

theorem ok_dstPut (c q k off : Nat) (bs : List Byte) (h : MemoryOk s) : MemoryOk (s.dstPut c q k off bs) := by
  unfold State.dstPut
  split
  · exact ok_bankPut _ _ (ok_dropRun _ _ _ h)
  · exact h

theorem ok_noteHeads (c : Nat) (xs : List (Nat × Nat)) (h : MemoryOk s) : MemoryOk (s.noteHeads c xs) :=
  ok_foldl _ (fun _ _ h => ok_noteSlot _ _ _ _ h) _ _ h

theorem ok_slotAhead (c : Nat) (data : Bool) (q k off n : Nat) (h : MemoryOk s) :
    MemoryOk (s.slotAhead c data q k off n) := by
  unfold State.slotAhead
  split
  · exact ok_ite h (ok_setCore _ _ h)
  · exact h

theorem ok_wakeEngine (c : Nat) (data : Bool) (h : MemoryOk s) : MemoryOk (s.wakeEngine c data) := h

/-- Ring moves made one after the other. -/
theorem ok_moveRings (c : Nat) (f : Ring → Nat → Ring) (xs : List (Nat × Nat)) (h : MemoryOk s) :
    MemoryOk (xs.foldl (fun s x => match (s.core c).ring x.1 with
      | some r => s.putRing c x.1 (f r x.2)
      | none => s) s) := by
  refine ok_foldl _ (fun s x h => ?_) _ _ h
  split
  · exact ok_putRing _ _ _ h
  · exact h

theorem ok_retire (c : Nat) (data : Bool) (m : Cmd) (f : BitVec 5) (r : Nat) (h : MemoryOk s) :
    MemoryOk (s.retire c data m f r) := by
  unfold State.retire
  extract_lets ok ctr s₁ s₂ s₃ s₄ err part live s₅ reason x s₆
  have h₁ : MemoryOk s₁ := ok_ite (ok_moveRings c Ring.pop m.pops h) h
  have h₂ : MemoryOk s₂ := ok_ite (ok_moveRings c Ring.push m.pushes h₁) h₁
  have h₄ : MemoryOk s₄ := ok_of_mem_eq h₂ rfl
  have h₅ : MemoryOk s₅ := by
    unfold s₅
    clear_value ctr s₄
    split
    · exact ok_ite (ok_cntUpdate _ _ _ h₄) h₄
    · exact h₄
  exact ok_wakeEngine _ _ (ok_ite (ok_setSlotAt _ _ _ h₅) h₅)

theorem ok_releaseDone (c : Nat) (data : Bool) (m : Cmd) (h : MemoryOk s) : MemoryOk (s.releaseDone c data m) := h

theorem ok_carry (c : Nat) (data : Bool) (m : Cmd) (w : Work) (h : MemoryOk s) : MemoryOk (s.carry c data m w) := by
  unfold State.carry
  split
  · exact ok_setCore _ _ h
  · exact ok_ite (ok_retire _ _ _ _ _ h) (ok_releaseDone (s := s.setCore c _) _ _ _ (ok_setCore _ _ h))

theorem ok_engRefused (c : Nat) (m : Cmd) (p : Nat) (e : Cause × Nat) (h : MemoryOk s) : MemoryOk (s.engRefused c m p e) :=
  ok_report _ (ok_faqAdd _ _ h)

theorem ok_engineWrite (c : Nat) (data : Bool) (k : Nat) (h : MemoryOk s) : MemoryOk (s.engineWrite c data k) := by
  unfold State.engineWrite
  extract_lets xs
  split
  · refine ok_ite h ?_
    simp only
    split
    · have ht (x : Core) (m : Cmd) (p : Nat) (e : Cause × Nat) : MemoryOk ((s.setCore c x).engRefused c m p e) :=
        ok_engRefused _ _ _ _ (ok_setCore _ _ h)
      exact ok_ite (ok_releaseDone _ _ _ (ht _ _ _ _)) (ht _ _ _ _)
    · have ht (x : Core) (y : Staged) : MemoryOk ((s.setCore c x).performStaged c y) := ok_performStaged _ _ (ok_setCore _ _ h)
      exact ok_ite (ok_releaseDone _ _ _ (ht _ _)) (ht _ _)
  · exact h

/-! ### A command's run -/

/-- A command's work leaves a canonical memory. -/
def WorkOk (work : State → Nat → Cmd → Work) : Prop := ∀ s c m, MemoryOk s → MemoryOk (work s c m).s

theorem ok_useHomes (ls : List Loc) (h : MemoryOk s) : MemoryOk (ls.foldl State.useHome s) :=
  ok_foldl _ (fun _ _ h => ok_useHome _ h) _ _ h

theorem ok_engStep (c : Nat) (data : Bool) (m : Cmd) (next : State → Nat → Cmd → Option (List (Use × Reg × Nat)))
    {work : State → Nat → Cmd → Work} (hw : WorkOk work) (h : MemoryOk s) : MemoryOk (s.engStep c data m next work) := by
  unfold State.engStep
  split
  · exact h
  · exact ok_askLine _ _ h
  · exact ok_carry _ _ _ _ (hw _ _ _ (ok_useHomes _ h))

theorem lands_engineRun (core : BitVec 12) (data : Bool) (op : Nat) (reason : State → Nat → Cmd → Option Nat)
    (next : State → Nat → Cmd → Option (List (Use × Reg × Nat))) {work : State → Nat → Cmd → Work} (hw : WorkOk work)
    (h : MemoryOk s) : Lands (engineRun core data op reason next work s) := by
  unfold engineRun
  extract_lets c
  split
  · exact .next h
  · refine .ite (.next h) (.ite ?_ (.ite (.next (ok_retire _ _ _ _ _ h)) (.ite (.next h) ?_)))
    · exact .ite (.next (ok_ite (ok_retire _ _ _ _ _ h) h)) (.next (ok_engStep _ _ _ _ hw h))
    · split
      · exact .next h
      · exact .next (ok_askLine _ _ h)
      · split
        · exact .next (ok_retire _ _ _ _ _ h)
        · exact .next (ok_retire _ _ _ _ _ (ok_noteChecks _ _ _ (ok_useHomes _ h)))
        · exact .next (ok_ite h (ok_engStep _ _ _ _ hw h))

/-! ### The commands' own work -/

theorem ok_putAcc (c k : Nat) (xs : List Nat) (h : MemoryOk s) : MemoryOk (s.putAcc c k xs) := ok_setCore _ _ h

theorem ok_noteRead (c : Nat) (m : Cmd) (r : Nat → Nat → Bool) (h : MemoryOk s) : MemoryOk (s.noteRead c m r) :=
  ok_foldl _ (fun _ _ h => ok_foldl _ (fun _ _ h => ok_noteSlot _ _ _ _ h) _ _ h) _ _ h

theorem ok_noteSources (c : Nat) (m : Cmd) (h : MemoryOk s) : MemoryOk (s.noteSources c m) := ok_noteRead _ _ _ h

theorem ok_tilesOut (c : Nat) (m : Cmd) (o : Bool) (x : Array Machine.Num) (k n : Nat) (f : BitVec 5) (h : MemoryOk s) :
    MemoryOk (s.tilesOut c m o x k n f).1 := ok_foldl_fst _ (fun _ _ h => ok_dstPut _ _ _ _ _ h) _ _ h

theorem ok_scanTake (c : Nat) (m : Cmd) (h : MemoryOk s) : MemoryOk (s.scanTake c m) := h

theorem ok_scanCarry (c : Nat) (m : Cmd) (h : MemoryOk s) : MemoryOk (s.scanCarry c m) :=
  ok_ite h (ok_foldl _ (fun _ _ h => ok_setCore _ _ h) _ _ h)

theorem ok_scanEntry (c : Nat) (m : Cmd) (e : Nat) (d : State) (h : MemoryOk s) : MemoryOk (s.scanEntry c m e d) := by
  unfold State.scanEntry
  split <;> exact h

theorem ok_scanChain (src : State) (c : Nat) (m : Cmd) (j : Nat) (f : BitVec 5) (h : MemoryOk s) :
    MemoryOk (s.scanChain src c m j f).1 := by
  unfold State.scanChain
  extract_lets k h0 r back
  have hr : MemoryOk r.1 := by
    refine ok_foldl_fst _ (fun p t hp => ?_) _ _ h
    exact ok_tilesOut _ _ _ _ _ _ _ hp
  clear_value r
  exact ok_setCore _ _ hr

theorem ok_scanChains (c : Nat) (m : Cmd) (h : MemoryOk s) : MemoryOk (s.scanChains c m).1 :=
  ok_foldl_fst _ (fun _ _ h => ok_scanChain _ _ _ _ _ h) _ _ (ok_scanCarry _ _ h)

theorem ok_rowPut (c : Nat) (m : Cmd) (x : Nat × Nat × Reg × Reg) (a b : List Byte) (h : MemoryOk s) : MemoryOk (s.rowPut c m x a b) :=
  ok_ite (ok_setCore _ _ h) (ok_dstPut _ _ _ _ _ (ok_dstPut _ _ _ _ _ h))

theorem ok_rowLost (m : Cmd) (w : Who) (xs : List (Use × Reg × Nat)) (r : Nat) (h : MemoryOk s) : MemoryOk (s.rowLost m w xs r).s :=
  ok_setCore _ _ (ok_foldl _ (fun _ _ h => ok_noteCheck _ _ _ _ _ h) _ _ h)

theorem ok_tcvtTile (src : State) (c : Nat) (m : Cmd) (t : Nat) (f : BitVec 5) (h : MemoryOk s) :
    MemoryOk (s.tcvtTile src c m t f).1 := by
  unfold State.tcvtTile
  extract_lets x
  split
  · exact h
  · split
    · exact ok_dstPut _ _ _ _ _ h
    · exact ok_tilesOut _ _ _ _ _ _ _ h

theorem ok_cpyRow (c : Nat) (m : Cmd) (r : Nat) (h : MemoryOk s) : MemoryOk (s.cpyRow c m r).1 :=
  ok_ite (ok_dstPut _ _ _ _ _ h) (ok_engWrite _ _ _ _ h)

theorem ok_elemStep (c : Nat) (m : Cmd) (h : MemoryOk s) : MemoryOk (s.elemStep c m).1 := by
  unfold State.elemStep
  simp only
  split
  · exact h
  · split
    · exact ok_noteCheck _ _ _ _ _ h
    · split
      · exact ok_engPoisons _ _ _ _ _ h
      · split
        · exact ok_dstPut _ _ _ _ _ h
        · split
          · exact ok_engRefused _ _ _ _ h
          · exact ok_putNow _ _ _ h

theorem ok_work (p : Progress) (n : Nat) (h : MemoryOk s) : MemoryOk (p.work s n).s := h

theorem mmaWork_ok : WorkOk mmaWork := by
  intro s c m h
  unfold mmaWork
  split
  · exact h
  · exact ok_putAcc _ _ _ (ok_noteSources _ _ h)

theorem bflyWork_ok : WorkOk bflyWork := by
  refine fun s c m h => ok_noteRead _ _ _ (ok_foldl_fst _ (fun p i hp => ?_) _ _ h)
  simp only
  split
  · exact hp
  · exact ok_tilesOut _ _ _ _ _ _ _ hp

theorem scanWork_ok : WorkOk scanWork := by
  intro s c m h
  have hr := ok_scanChains c m h
  unfold scanWork
  extract_lets r e t
  split
  · exact ok_scanEntry _ _ _ _ h
  · exact ok_ite (ok_scanEntry _ _ _ _ (ok_noteSources _ _ hr)) (ok_noteSources _ _ hr)

theorem tsigWork_ok : WorkOk tsigWork := fun _ _ _ h =>
  ok_noteSources _ _ (ok_foldl_fst _ (fun _ _ h => ok_dstPut _ _ _ _ _ h) _ _ h)

theorem tskipWork_ok : WorkOk tskipWork := fun _ _ _ h => ok_setCore _ _ (ok_noteSlot _ _ _ _ h)

theorem ecfgWork_ok : WorkOk ecfgWork := by
  intro s c m h
  unfold ecfgWork
  simp only
  split
  · exact ok_setCore _ _ h
  · exact ok_setCore _ _ h
  · exact ok_setCore _ _ (ok_noteSlot _ _ _ _ h)
  · exact ok_foldl _ (fun _ _ h => ok_dstPut _ _ _ _ _ h) _ _ h

theorem tldWork_ok : WorkOk tldWork := by
  intro s c m h
  unfold tldWork
  extract_lets p w r y
  have hy : MemoryOk y.1 := ok_engPoisons _ _ _ _ _ h
  clear_value y
  split
  · exact ok_rowLost _ _ _ _ h
  · exact ok_work _ _ (ok_ite hy (ok_foldl _ (fun _ _ h => ok_rowPut _ _ _ _ _ h) _ _ hy))

theorem tstWork_ok : WorkOk tstWork := fun _ _ _ h => ok_noteSources _ _
  (ok_foldl _ (fun _ _ h => ok_ite (ok_engWrite _ _ _ _ (ok_engWrite _ _ _ _ h)) (ok_engWrite _ _ _ _ h)) _ _ h)

theorem tzeroWork_ok :
    WorkOk (fun s c m => { s := s.putAcc c m.acc ((List.range 1024).map (fun _ => 0)), flags := 0, reason := 0 }) :=
  fun _ _ _ h => ok_putAcc _ _ _ h

theorem tcvtWork_ok : WorkOk tcvtWork := fun _ _ _ h =>
  ok_noteRead _ _ _ (ok_foldl_fst _ (fun _ _ h => ok_tcvtTile _ _ _ _ _ h) _ _ h)

theorem cpyWork_ok : WorkOk cpyWork := by
  intro s c m h
  unfold cpyWork
  simp only
  split
  · exact ok_rowLost _ _ _ _ h
  · exact ok_work _ _ (ok_engPoisons _ _ _ _ _ (ok_cpyRow _ _ _ h))

theorem elemWork_ok : WorkOk elemWork := by
  intro s c m h
  unfold elemWork
  extract_lets start y
  have hy : MemoryOk y.1 := by
    unfold y
    split
    · exact ok_elemStep _ _ h
    · exact ok_elemStep _ _ (ok_noteHeads _ _ h)
  clear_value y
  split
  · exact hy
  · refine ok_work _ _ ?_
    split
    · exact ok_engWrite _ _ _ _ hy
    · exact hy

/-! ### The commands with a run of their own -/

theorem lands_scan (core : BitVec 12) (h : MemoryOk s) : Lands (execScan core s) := by
  unfold execScan
  extract_lets c
  split
  · exact .ite (.next (ok_scanTake _ _ h)) (lands_engineRun _ _ _ _ _ scanWork_ok h)
  · exact .next h

theorem lands_ecfgRun (core : BitVec 12) (k : Nat) (h : MemoryOk s) : Lands (ecfgRun core k s) := by
  unfold ecfgRun
  split
  · exact .ite (.next h) (lands_engineRun _ _ _ _ _ ecfgWork_ok h)
  · exact .next h

theorem ok_collNote (c : Nat) (m : Cmd) (bad : List Loc) (h : MemoryOk s) : MemoryOk (s.collNote c m bad).1 :=
  ok_engPoisons _ _ _ _ _ h

theorem ok_collRun (ranks : List Member) (m : Cmd) (h : MemoryOk s) : MemoryOk (s.collRun ranks m) := by
  refine ok_foldl _ (fun t x ht => ?_) _ _ h
  split
  · exact ht
  · split
    · exact ht
    · split
      · exact ok_retire _ _ _ _ _ ht
      · exact ok_retire _ _ _ _ _ (ok_collNote _ _ _ (ok_noteSlot _ _ _ _ (ok_foldl _ (fun _ _ h => ok_dstPut _ _ _ _ _ h) _ _ ht)))

theorem ok_collBreak (tag : Nat) (heads : List (Nat × Cmd)) (h : MemoryOk s) : MemoryOk (s.collBreak tag heads) := by
  unfold State.collBreak
  extract_lets all s₁ s₂
  have h₁ : MemoryOk s₁ := ok_foldl _ (fun _ _ h => ok_setCore _ _ h) _ _ h
  have h₂ : MemoryOk s₂ := ok_of_mem_eq h₁ rfl
  exact ok_foldl _ (fun _ _ h => ok_retire _ _ _ _ _ (ok_collNote _ _ _ h)) _ _ h₂

theorem lands_coll (core : BitVec 12) (h : MemoryOk s) : Lands (execColl core s) := by
  unfold execColl
  extract_lets c
  split
  · exact .next h
  · refine .ite (.next h) ?_
    split
    · exact .next h
    · exact .next (ok_askLine _ _ h)
    · refine .ite (.next (ok_retire _ _ _ _ _ (ok_setCore _ _ h))) ?_
      split
      · exact .next (ok_retire _ _ _ _ _ (ok_ite h (ok_noteChecks _ _ _ h)))
      · refine .ite (.next h) ?_
        split
        · exact .next h
        · exact .next (ok_askLine _ _ h)
        next ls _ =>
          extract_lets s₁
          have h₁ : MemoryOk s₁ := ok_useHomes ls h
          clear_value s₁
          split
          · exact .next (ok_retire _ _ _ _ _ (ok_collNote _ _ _ h₁))
          · split
            · exact .next h₁
            · exact .next (ok_askLine _ _ h₁)
            next ls₂ _ =>
              have h₂ := ok_useHomes ls₂ h₁
              exact .ite (.next (ok_collBreak _ _ h₂)) (.ite (.next h₂) (.next (ok_collRun _ _ h₂)))

theorem ok_packetLost (c : Nat) (h : MemoryOk s) : MemoryOk (s.packetLost c) := by
  unfold State.packetLost
  split
  · exact ok_ite (ok_setCore _ _ h) h
  · exact h

theorem lands_engineStallTimeout (core : BitVec 12) (data : Bool) (h : MemoryOk s) :
    Lands (execEngineStallTimeout core data s) := by
  unfold execEngineStallTimeout
  extract_lets c
  split
  · exact .next h
  · exact .ite (.next (ok_retire _ _ _ _ _ h)) (.next h)

end Sys2Proof.Laws
end

section
/-! PROOFS: every event outside the slots keeps memory canonical. -/

namespace Sys2Proof.Laws

open Machine Safety

variable {s : State}

/-! ### Messages, mailboxes, convoys -/

theorem lands_boundTaskReady (k : Nat) (h : MemoryOk s) : Lands (execBoundTaskReady k s) := by
  refine .next ?_
  split
  · exact h
  · exact ok_bound _ h

theorem ok_deliver (c : Nat) (d : BitVec 2) (v : Vec) (h : MemoryOk s) : MemoryOk (s.deliver c d v) := by
  have hgive (j : Nat) (x : Slot) : MemoryOk (State.deliver.give c v s j x) := ok_setSlotAt _ _ _ h
  have htake (m : Cmd) : MemoryOk (State.deliver.take c v s m) := h
  unfold State.deliver
  simp only
  split
  · exact ok_ite (hgive _ _) (htake _)
  · exact htake _
  · exact hgive _ _
  · exact ok_setCore _ _ h

theorem lands_mailboxEntryArrival (k : Nat) (h : MemoryOk s) : Lands (execMailboxEntryArrival k s) := by
  unfold execMailboxEntryArrival
  split
  · exact .next h
  · exact .ite (.next h) (.next (ok_deliver _ _ _ h))

theorem ok_setStream (c : Nat) (x : ConvStream) (y : Option ConvStream) (h : MemoryOk s) : MemoryOk (s.setStream c x y) :=
  ok_setCore _ _ h

theorem ok_signalAt (c : Nat) (ctr : Option Nat) (o : BitVec 32) (h : MemoryOk s) : MemoryOk (s.signalAt c ctr o) := by
  unfold State.signalAt
  split
  · exact ok_ite (ok_cntUpdate _ _ _ h) h
  · exact h

theorem ok_abortStream (c : Nat) (x : ConvStream) (h : MemoryOk s) : MemoryOk (s.abortStream c x) :=
  ok_signalAt _ _ _ (ok_setStream _ _ _ h)

theorem ok_answerPort (f : ConvFlit) (a : Bool) (h : MemoryOk s) : MemoryOk (s.answerPort f a) := by
  unfold State.answerPort
  split
  · exact ok_ite (ok_setCore _ _ h) h
  · exact h

theorem gives_flitAt (f : ConvFlit) (h : MemoryOk s) : Gives (s.flitAt f) := by
  unfold State.flitAt
  extract_lets c foreign y x q x₁ s₁
  have hstream (z : ConvStream) (o : Option ConvStream) : MemoryOk (s.setStream c z o) := ok_setStream _ _ _ h
  have habort (z : ConvStream) : MemoryOk (s.abortStream c z) := ok_abortStream _ _ h
  split
  · exact .ite (.some (hstream _ _)) (.some (ok_ite (ok_abortStream _ _ (hstream _ _)) (hstream _ _)))
  · refine .ite (.some h) ?_
    split
    · exact .some (habort _)
    · refine .ite .none (.ite (.some (habort _)) (.ite (.some ?_) (.some ?_)))
      · exact ok_putRing _ _ _ (ok_setStream _ _ _ (ok_poke _ _ h))
      · exact ok_setStream _ _ _ (ok_poke _ _ h)
  · refine .ite (.some (ok_answerPort _ _ (hstream _ _))) ?_
    split
    · exact .some (ok_answerPort _ _ (ok_setStream _ _ _ (habort _)))
    · exact .ite .none (.some (ok_answerPort _ _ (ok_signalAt _ _ _ (ok_setStream _ _ _ (ok_ite (ok_putRing _ _ _ h) h)))))
  · exact .ite (.some (hstream _ _)) (.some (ok_signalAt _ _ _ (hstream _ _)))

theorem lands_convoyFlitArrival (k : Nat) (h : MemoryOk s) : Lands (execConvoyFlitArrival k s) := by
  unfold execConvoyFlitArrival
  split
  · exact .next h
  · refine .ite (.next h) ?_
    split
    · exact .next h
    case h_2 t e => exact .next (gives_flitAt (s := { s with cnet := s.cnet.eraseIdx k }) _ h t e)

/-! ### Traps and other events of a slot -/

theorem lands_budgetTrap (c : BitVec 12) (k : BitVec 3) (h : MemoryOk s) : Lands (execBudgetTrap c k s) :=
  .next (ok_ite (ok_takeTrap _ _ _ _ _ h) h)

theorem lands_woundTrap (c : BitVec 12) (k : BitVec 3) (h : MemoryOk s) : Lands (execWoundTrap c k s) := by
  refine .next ?_
  split
  · exact ok_ite (ok_takeTrap _ _ _ _ _ h) h
  · exact h

theorem lands_kill (c : BitVec 12) (k : BitVec 3) (h : MemoryOk s) : Lands (execKill c k s) :=
  .next (ok_ite (ok_stopTask _ _ _ _ _ _ h) h)

theorem lands_fetchFault (c : BitVec 8) (x : BitVec 64) (h : MemoryOk s) : Lands (execFetchFault c x s) := by
  refine .next ?_
  split
  · exact ok_doubleFault _ _ _ h
  · exact ok_trapHere _ _ h

/-! ### Memory events -/

theorem ok_performWord (e : SbEntry) (l : Loc) (b : Tab Byte) (h : MemoryOk s) : MemoryOk (s.performWord e l b) := by
  unfold State.performWord
  simp only
  split
  · exact ok_writeLine _ _ _ (ok_backInvalidate _ h)
  · exact ok_pubPut _ _ _ h
  · exact ok_ite (ok_poke _ _ h) (ok_foldl _ (fun _ _ h => ok_poke _ _ h) _ _ h)

theorem lands_storeBufferDrain (c : BitVec 12) (k : Nat) (h : MemoryOk s) : Lands (execStoreBufferDrain c k s) := by
  unfold execStoreBufferDrain
  extract_lets c sb
  split
  · exact .next h
  · split
    · exact .next h
    · extract_lets bytes first l earlier put s₁ s₂
      have hput (y : SbEntry) : MemoryOk (put s y) := ok_setCore _ _ h
      clear_value put
      have h₁ : MemoryOk s₁ := hput _
      have h₂ : MemoryOk s₂ := by
        unfold s₂
        split
        · exact ok_faqAdd _ _ h₁
        · exact h₁
      clear_value s₁ s₂
      refine .ite (.next h) ?_
      split
      · exact .next (ok_report _ h₂)
      · exact .next (ok_dropLine _ _ (ok_performWord _ _ _ (hput _)))

theorem ok_reply (p : Posted) (d : BitVec 5) (v : Reg) (h : MemoryOk s) : MemoryOk (s.reply p d v) :=
  ok_ite (ok_setSlotAt _ _ _ h) h

theorem ok_contribute (b : Nat) (q : Contribution) (h : MemoryOk s) : MemoryOk (s.contribute b q) := h

theorem ok_performPosted (k : Nat) (h : MemoryOk s) : MemoryOk (s.performPosted k) := by
  unfold State.performPosted
  split
  · exact h
  · extract_lets s₁
    have h₁ : MemoryOk s₁ := h
    refine ok_ite h ?_
    split
    · exact ok_contribute _ _ h₁
    · exact ok_ite (ok_cntUpdate _ _ _ h₁) h₁
    · exact ok_ite (ok_reply _ _ _ (ok_cntUpdate _ _ _ h₁)) (ok_reply _ _ _ (ok_ite (ok_cntError _ h₁) h₁))
    · exact ok_reply _ _ _ (ok_cntInit _ _ _ h₁)

theorem ok_keepEarly (c k p : Nat) (b l : Bool) (hit : Option L1Line) (r : BitVec 16) (bs : List Byte) (h : MemoryOk s) :
    MemoryOk (s.keepEarly c k p b l hit r bs) := h

theorem ok_readAhead (c k : Nat) (va : Reg) (n : Nat) (l : Bool) (h : MemoryOk s) : MemoryOk (s.readAhead c k va n l) := by
  unfold State.readAhead
  split
  · extract_lets hit keep tenant
    have hkeep (bs : List Byte) : MemoryOk (keep bs) := ok_keepEarly _ _ _ _ _ _ _ _ h
    clear_value keep hit
    refine ok_ite h ?_
    split
    · exact hkeep _
    · refine ok_ite h ?_
      split
      · exact h
      · exact ok_ite (ok_askLine _ _ h) (ok_useHome _ (hkeep _))
  · extract_lets p
    refine ok_ite h ?_
    split
    · exact h
    · exact ok_keepEarly _ _ _ _ _ _ _ _ h
  · exact h

theorem lands_claimRecord (k : Nat) (h : MemoryOk s) : Lands (execClaimRecord k s) := by
  unfold execClaimRecord
  split
  · exact .next h
  · exact .ite (.next h) (.next (ok_backInvalidate _ h))

theorem lands_l2Fill (k : Nat) (h : MemoryOk s) : Lands (execL2Fill k s) := by
  unfold execL2Fill
  split
  · exact .next h
  · extract_lets s₁ s₂ l s₃
    have h₃ : MemoryOk s₃ := ok_fillLine _ h
    exact .ite (.next h) (.next (ok_ite h₃ (ok_ite (ok_ite h₃ (ok_noteError _ h₃)) (ok_foldl _ (fun _ _ h => ok_fillL1 _ _ h) _ _ h₃))))

theorem ok_installTlb (c : Nat) (t : Tlb) (h : MemoryOk s) : MemoryOk (s.installTlb c t) := ok_putL2Tlb _ _ (ok_putTlb _ _ h)

theorem lands_pageWalk (d : BitVec 2) (k : Nat) (h : MemoryOk s) : Lands (execPageWalk d k s) := by
  unfold execPageWalk
  extract_lets d q
  split
  · exact .next h
  · refine .ite (.next h) ?_
    split
    · exact .next (ok_askLine _ _ h)
    · extract_lets s₁ same
      have h₁ : MemoryOk s₁ := ok_foldl _ (fun _ _ h => ok_touchLine _ h) _ _ h
      clear_value s₁
      split
      · exact .next (ok_foldl _ (fun _ _ h => ok_installTlb _ _ h) _ _ h₁)
      · exact .next (ok_foldl _ (fun _ _ h => ok_setSlotAt _ _ _ h) _ _ h₁)

theorem lands_hostMemAccess (w keep : Bool) (lg : BitVec 2) (pa : BitVec 56) (d : BitVec 64) (h : MemoryOk s) :
    Lands (execHostMemAccess w keep lg pa d s) := by
  unfold execHostMemAccess
  extract_lets p n l₀ l line s₁ s₂ die mine s₃
  have h₁ : MemoryOk s₁ := ok_ite (ok_homeWrite _ _ _ h) (ok_ite (ok_noteError _ h) (ok_useRun _ _ _ h))
  have h₂ : MemoryOk s₂ := ok_backInvalidate _ h₁
  have h₃ : MemoryOk s₃ := ok_ite (ok_backInvalidate _ h₂) h₂
  clear_value s₁ s₂ s₃
  exact .ite (.next h) (.next (ok_ite h₃ h₂))

theorem ok_setNgamon (vf : BitVec 9) (n : Ngamon) (h : MemoryOk s) : MemoryOk (s.setNgamon vf n) := h

theorem lands_publicationAdvance (vf : BitVec 9) (h : MemoryOk s) : Lands (execPublicationAdvance vf s) :=
  .next (ok_ite (ok_ite h (ok_setNgamon _ _ (ok_pubVersion _ h))) (ok_ite (ok_setNgamon _ _ (ok_pubBegin _ h)) h))

theorem lands_remoteAccessArrival (op : BitVec 3) (sub : BitVec 9) (lg : BitVec 2) (sec : Bool) (pa : BitVec 56) (d : BitVec 128)
    (h : MemoryOk s) : Lands (execRemoteAccessArrival op sub lg sec pa d s) := by
  unfold execRemoteAccessArrival
  extract_lets how p n l₀ l reads t
  have ht : MemoryOk t := ok_ite (ok_useRun _ _ _ h) h
  refine .ite (.next h) (.ite (.next (ok_noteError _ h)) (.next ?_))
  split
  · exact ok_homeWrite _ _ _ ht
  · exact ht

theorem lands_keyInstall (h : MemoryOk s) : Lands (execKeyInstall s) := by
  unfold execKeyInstall
  extract_lets l₀ l key status s₁
  have h₁ : MemoryOk s₁ := ok_ite h h
  clear_value s₁ status key
  exact .ite (.next h) (.ite (.next (ok_noteError _ h)) (.ite (.next h)
    (.next (ok_devPutNat _ _ _ (ok_devPutNat _ _ _ (ok_devPutNat _ _ _ h₁))))))

theorem ok_setStack (k : Nat) (x : Stack) (h : MemoryOk s) : MemoryOk (s.setStack k x) := h

theorem ok_retirePage (k p : Nat) (h : MemoryOk s) : MemoryOk (s.retirePage k p) :=
  ok_ite h (ok_ite (ok_faqAdd _ _ h) (ok_setStack _ _ h))

/-! ### Dispatch and steal -/

theorem ok_enterWaiting (c n : Nat) (h : MemoryOk s) : MemoryOk (s.enterWaiting c n) := by
  induction n generalizing s with
  | zero => exact h
  | succ n ih =>
    unfold State.enterWaiting
    split
    · exact h
    · exact ok_ite h (ih (ok_setReady _ _ (ok_setCore _ _ h)))

theorem ok_dispatch (c k : Nat) (e : Entry) (h : MemoryOk s) : MemoryOk (s.dispatch c k e) :=
  ok_acquire _ _ _ (ok_enterWaiting _ _ (ok_setSlotAt _ _ _ (ok_setReady _ _ (ok_setCore _ _ h))))

theorem lands_taskDispatch (c : BitVec 12) (k : BitVec 3) (h : MemoryOk s) : Lands (execTaskDispatch c k s) := by
  refine .next (ok_ite ?_ h)
  split
  · exact ok_dispatch _ _ _ h
  · exact ok_enterWaiting _ _ h

theorem ok_askWork (c : Nat) (h : MemoryOk s) : MemoryOk (s.askWork c) := by
  unfold State.askWork
  split
  · exact h
  · extract_lets rs pick r x s₁
    have h₁ : MemoryOk s₁ := ok_setCore _ _ h
    clear_value s₁
    split
    · exact h₁
    · exact ok_setCore _ _ (ok_setCore _ _ h₁)

theorem ok_stealArrives (c : Nat) (e : Entry) (h : MemoryOk s) : MemoryOk (s.stealArrives c e) := by
  unfold State.stealArrives
  extract_lets x t
  have ht : MemoryOk t := ok_setCore _ _ h
  split
  · exact ok_ite (ok_dispatch _ _ _ ht) (ok_admitEntry _ _ ht)
  · exact ok_admitEntry _ _ ht

theorem lands_steal (c : BitVec 12) (d : BitVec 2) (h : MemoryOk s) : Lands (execSteal c d s) := by
  refine .next ?_
  split
  · exact ok_ite (ok_stealArrives _ _ h) h
  · exact ok_ite h (ok_askWork _ h)

theorem ok_coreClock (c n : Nat) (h : MemoryOk s) : MemoryOk (s.coreClock c n) := ok_setCore _ _ h
theorem ok_uncoreClock (n : Nat) (h : MemoryOk s) : MemoryOk (s.uncoreClock n) := h

/-! ### The host's queues -/

theorem ok_complete (vf : BitVec 9) (tag : Word) (st k r : Nat) (h : MemoryOk s) : MemoryOk (s.complete vf tag st k r) :=
  ok_raise _ (ok_setNgamon _ _ (ok_poke _ _ h))

theorem ok_nextEntryRead (vf : BitVec 9) (h : MemoryOk s) : MemoryOk (s.nextEntryRead vf) := ok_setNgamon _ _ h

theorem ok_answerTo (vf : BitVec 9) (tag : Option Word) (st k r : Nat) (h : MemoryOk s) :
    MemoryOk (s.answerTo vf tag st k r) := by
  cases tag with
  | none => exact h
  | some t => exact ok_complete _ _ _ _ _ h

theorem ok_entryStep (vf : BitVec 9) (op : Nat) (work : Submission → State → Option State)
    (hw : ∀ e t, MemoryOk t → Gives (work e t)) (h : MemoryOk s) : MemoryOk (s.entryStep vf op work) := by
  unfold State.entryStep
  split
  · exact h
  next e he =>
    extract_lets t
    have ht : MemoryOk t := ok_nextEntryRead _ h
    refine ok_ite (ok_complete _ _ _ _ _ ht) (ok_ite (ok_complete _ _ _ _ _ ht) (ok_ite ?_ h))
    exact (hw e t ht).getD h

theorem ok_doorbell (vf : BitVec 9) (tail : BitVec 16) (h : MemoryOk s) : MemoryOk (s.doorbell vf tail) :=
  ok_ite (ok_setNgamon _ _ h) h

theorem lands_lsqtail (vf : BitVec 9) (tail : BitVec 16) (h : MemoryOk s) : Lands (execLsqtail vf tail s) :=
  .next (ok_doorbell _ _ h)

theorem lands_nop (vf : BitVec 9) (h : MemoryOk s) : Lands (execNop vf s) :=
  .next (ok_entryStep _ _ _ (fun _ _ ht => .some (ok_complete _ _ _ _ _ ht)) h)

theorem ok_selectVersion (vf : BitVec 9) (v : BitVec 16) (h : MemoryOk s) : MemoryOk (s.selectVersion vf v) :=
  ok_ite (ok_setNgamon _ _ h) h

theorem lands_ngsel (vf : BitVec 9) (v : BitVec 16) (h : MemoryOk s) : Lands (execNgsel vf v s) :=
  .next (ok_selectVersion _ _ h)

/-! ### A function's memory -/

theorem ok_vfUse (vf : BitVec 9) (sec : Bool) (va n : Nat) (h : MemoryOk s) : MemoryOk (s.vfUse vf sec va n) :=
  ok_foldl _ (fun _ _ h => ok_map_getD _ _ (fun _ => ok_useRun _ _ _ (ok_useWalk _ _ _ _ h)) (ok_useWalk _ _ _ _ h)) _ _ h

theorem ok_vfUses (vf : BitVec 9) (sec : Bool) (rs : List (Nat × Nat)) (h : MemoryOk s) : MemoryOk (s.vfUses vf sec rs) :=
  ok_foldl _ (fun _ _ h => ok_vfUse _ _ _ _ h) _ _ h

theorem ok_noteHalt (x : Halt) (h : MemoryOk s) : MemoryOk (s.noteHalt x) := ok_map_getD _ _ (fun _ => ok_noteAt _ h) h

theorem ok_vfWrite (vf : BitVec 9) (sec : Bool) (f va : Nat) (bs : List Byte) (h : MemoryOk s) :
    MemoryOk (s.vfWrite vf sec f va bs) := by
  induction f generalizing s va bs with
  | zero => exact h
  | succ f ih =>
    unfold State.vfWrite
    extract_lets m u s₁
    have hu : MemoryOk u := ok_useWalk _ _ _ _ h
    refine ok_ite h (ih _ _ ?_)
    unfold s₁
    split
    · exact ok_ite hu (ok_homeWrite _ _ _ hu)
    · exact ok_map_getD _ _ (fun _ => ok_noteAt _ hu) hu

/-! ### Placing a region tree -/

theorem ok_findOrigin {top : Region} {given : Option (Nat × Nat)} {ok : Nat → Nat → Bool} {o : (Nat × Nat) × State} (h : MemoryOk s)
    (e : s.findOrigin top given ok = some o) : MemoryOk o.2 := by
  unfold State.findOrigin at e
  split at e
  · split at e
    · exact Option.some.inj e ▸ h
    · cases e
  · split at e
    · cases e
    · exact Option.some.inj e ▸ h

theorem ok_clear (p n : Nat) (h : MemoryOk s) : MemoryOk (s.clear p n) := ok_of_mem_eq (ok_filterMem _ h) rfl

theorem ok_placeCore (clo chi : Reg) (c : Nat) (h : MemoryOk s) : MemoryOk (s.placeCore clo chi c) :=
  ok_clear _ _ (ok_setCore _ _ h)

theorem ok_clearCellar (cl : Nat) (h : MemoryOk s) : MemoryOk (s.clearCellar cl) :=
  ok_of_mem_eq (ok_clear (cellarAt cl 0) Config.cellarSize h) rfl

theorem ok_freeBars (r : Region) (h : MemoryOk s) : MemoryOk (s.freeBars r) := h

theorem ok_placeRoot (rs : List Region) (x y : Nat) (vf : BitVec 9) (tag : Option Word) (clo chi : Reg) (h : MemoryOk s) :
    MemoryOk (s.placeRoot rs x y vf tag clo chi).2 := by
  unfold State.placeRoot
  extract_lets rs top alone s₁ s₂ s₃ root
  have h₁ : MemoryOk s₁ := ok_setWays _ _ h
  have h₂ : MemoryOk s₂ := ok_foldl _ (fun _ _ h => ok_placeCore _ _ _ h) _ _ h₁
  have h₃ : MemoryOk s₃ := ok_freeBars _ (ok_foldl _ (fun _ _ h => ok_clearCellar _ h) _ _ h₂)
  exact h₃

theorem ok_launchPlan (vf : BitVec 9) (tag : Option Word) (p : Plan) (h : MemoryOk s) :
    MemoryOk (s.launchPlan vf tag p) := by
  unfold State.launchPlan
  split
  · exact ok_answerTo _ _ _ _ _ h
  next x y s₁ e =>
    have h₁ : MemoryOk s₁ := ok_findOrigin h e
    exact ok_answerTo _ _ _ _ _ (ok_foldl _ (fun _ _ h => ok_enqueue _ _ _ _ _ h) _ _ (ok_placeRoot _ _ _ _ _ _ _ h₁))

theorem gives_launchFrom (vf : BitVec 9) (sec : Bool) (tag : Option Word) (desc : Nat) (h : MemoryOk s) :
    Gives (s.launchFrom vf sec tag desc) := by
  unfold State.launchFrom
  extract_lets r u
  have hu : MemoryOk u := ok_vfUses _ _ _ h
  split
  · exact .ite .none (.some (ok_answerTo _ _ _ _ _ (ok_noteHalt _ hu)))
  · exact .some (ok_launchPlan _ _ _ hu)

theorem lands_launch (vf : BitVec 9) (h : MemoryOk s) : Lands (execLaunch vf s) :=
  .next (ok_entryStep _ _ _ (fun _ _ ht => gives_launchFrom _ _ _ _ ht) h)

theorem ok_secureLaunch (vf : BitVec 9) (desc : Nat) (h : MemoryOk s) : MemoryOk (s.secureLaunch vf desc) :=
  (gives_launchFrom _ _ _ _ h).getD h

theorem ok_dropBindings (root : Nat) (h : MemoryOk s) : MemoryOk (s.dropBindings root) :=
  ok_foldl _ (fun _ _ h => ok_poke _ _ (ok_report _ h)) _ _ h

theorem lands_launchComplete (root : Nat) (h : MemoryOk s) : Lands (execLaunchComplete root s) := by
  refine .next ?_
  split
  · exact h
  · exact ok_ite (ok_answerTo _ _ _ _ _ (ok_of_mem_eq (ok_dropBindings root h) rfl)) h

/-! ### Preemption and restore -/

theorem ok_stopTree (root : Nat) (r : Root) (p : Preempt) (h : MemoryOk s) : MemoryOk (s.stopTree root r p) := h

theorem lands_preempt (vf : BitVec 9) (h : MemoryOk s) : Lands (execPreempt vf s) := by
  refine .next (ok_entryStep _ _ _ (fun e t ht => .some ?_) h)
  split
  · exact ok_ite (ok_complete _ _ _ _ _ (ok_stopTree _ _ _ ht)) (ok_complete _ _ _ _ _ ht)
  · exact ok_complete _ _ _ _ _ ht

theorem ok_securePreempt (root : Nat) (image : Reg) (h : MemoryOk s) : MemoryOk (s.securePreempt root image) := by
  unfold State.securePreempt
  split
  · exact ok_ite (ok_stopTree _ _ _ h) h
  · exact h

theorem ok_putSaved (c root : Nat) (dq : Bool) (es : List (Record × Reg)) (h : MemoryOk s) :
    MemoryOk (s.putSaved c root dq es) := by
  induction es generalizing s with
  | nil => exact h
  | cons e es ih => exact ih (ok_ite (ok_setCore _ _ h) (ok_ite (ok_setCore _ _ h) (ok_setReady _ _ h)))

theorem ok_loadCluster (root : Nat) (top : Region) (cl : Nat) (bs : List Byte) (h : MemoryOk s) :
    MemoryOk (s.loadCluster root top cl bs) := by
  unfold State.loadCluster
  extract_lets s₁ s₂
  have h₁ : MemoryOk s₁ := by
    unfold s₁
    refine ok_foldl _ (fun t i h => ?_) _ _ h
    exact ok_ite h (ok_of_mem_eq h rfl)
  clear_value s₁
  have h₂ : MemoryOk s₂ := ok_foldl _ (fun _ _ h => ok_setBar _ _ h) _ _ h₁
  exact ok_poke _ _ h₂

theorem ok_abandonEpochs (root : Nat) (top : Region) (h : MemoryOk s) : MemoryOk (s.abandonEpochs root top) := by
  refine ok_foldl _ (fun _ _ h => ok_report _ ?_) _ _ h
  exact h

theorem ok_linksAbsent (top : Region) (image : Reg) (h : MemoryOk s) : MemoryOk (s.linksAbsent top image) := by
  refine ok_foldl _ (fun t _ h => ?_) _ _ h
  extract_lets l k
  split
  · exact h
  · exact ok_ite h (ok_setLink _ _ h)

theorem ok_freeRoot (root : Nat) (top : Region) (h : MemoryOk s) : MemoryOk (s.freeRoot root top) := by
  unfold State.freeRoot
  extract_lets s₁ s₂ gone
  exact ok_freeBars top (ok_foldl _ (fun _ _ h => ok_setCore _ _ h) _ _ h)

theorem lands_preemptSave (root : Nat) (h : MemoryOk s) : Lands (execPreemptSave root s) := by
  refine .next ?_
  split
  · exact h
  · split
    · exact h
    · extract_lets held s₁ s₂
      have h₁ : MemoryOk s₁ := ok_abandonEpochs _ _ h
      have h₂ : MemoryOk s₂ := ok_foldl _ (fun _ _ h => ok_vfWrite _ _ _ _ _ h) _ _ h₁
      exact ok_ite (ok_answerTo _ _ _ _ _ (ok_freeRoot _ _ (ok_linksAbsent _ _ h₂))) h

theorem ok_loadCore (vf : BitVec 9) (root c a : Nat) (h : MemoryOk s) : MemoryOk (s.loadCore vf root c a) := by
  unfold State.loadCore
  extract_lets u
  have hu : MemoryOk u := ok_vfUse _ _ _ _ h
  split
  · exact ok_noteHalt _ hu
  · exact ok_poke _ _ (ok_putSaved _ _ _ _ (ok_putSaved _ _ _ _ (ok_setCore _ _ hu)))

theorem ok_linksPresent (top : Region) (image : Reg) (h : MemoryOk s) : MemoryOk (s.linksPresent top image) := by
  refine ok_foldl _ (fun t _ h => ?_) _ _ h
  extract_lets l
  split
  · exact h
  · exact ok_ite h (ok_setBar _ _ (ok_setLink _ _ h))

theorem ok_loadClusterAt (vf : BitVec 9) (root : Nat) (top : Region) (cl a : Nat) (h : MemoryOk s) :
    MemoryOk (match s.vfRead vf false (clusterSection / 4096 + 2) a clusterSection with
      | .error x => (s.vfUse vf false a clusterSection).noteHalt x
      | .ok bs => (s.vfUse vf false a clusterSection).loadCluster root top cl bs) := by
  have hu := ok_vfUse vf false a clusterSection h
  split
  · exact ok_noteHalt _ hu
  · exact ok_loadCluster _ _ _ _ hu

theorem ok_restoreAt (vf : BitVec 9) (tag : Word) (image : Reg) (hd : Header) (rs : List Region) (x y : Nat) (h : MemoryOk s) :
    MemoryOk (s.restoreAt vf tag image hd rs x y) := by
  unfold State.restoreAt
  extract_lets p top₀ top cores0 s₁ s₂
  have hp : MemoryOk p.2 := ok_placeRoot _ _ _ _ _ _ _ h
  have h₁ : MemoryOk s₁ := ok_foldl _ (fun _ _ h => ok_loadCore _ _ _ _ h) _ _ hp
  have h₂ : MemoryOk s₂ := by
    refine ok_ite (ok_foldl _ (fun t e h => ?_) _ _ h₁) h₁
    exact ok_loadClusterAt _ _ _ _ _ h
  exact ok_complete _ _ _ _ _ (ok_linksPresent _ _ h₂)

theorem lands_restore (vf : BitVec 9) (h : MemoryOk s) : Lands (execRestore vf s) := by
  refine .next (ok_entryStep _ _ _ (fun e t ht => ?_) h)
  extract_lets o r u given
  have hu : MemoryOk u := ok_vfUses _ _ _ ht
  refine .ite (.some (ok_complete _ _ _ _ _ ht)) ?_
  split
  · exact .ite .none (.some (ok_complete _ _ _ _ _ (ok_noteHalt _ hu)))
  · refine .ite .none ?_
    split
    · exact .some (ok_complete _ _ _ _ _ hu)
    next x y s₁ e₁ =>
      have h₁ : MemoryOk s₁ := ok_findOrigin hu e₁
      exact .some (ok_ite (ok_restoreAt _ _ _ _ _ _ _ h₁) (ok_complete _ _ _ _ _ h₁))

/-! ### Ports and links -/

theorem ok_setPort (k : Nat) (x : Port) (h : MemoryOk s) : MemoryOk (s.setPort k x) := h

theorem ok_linkExpire (e : Nat) (h : MemoryOk s) : MemoryOk (s.linkExpire e) :=
  ok_report _ (ok_setLink _ _ (ok_ite h (ok_barRelease _ _ h)))

theorem ok_linkLost (lost : List Nat) (e : Nat) (h : MemoryOk s) : MemoryOk (State.linkLost lost s e) :=
  ok_ite h (ok_ite (ok_linkExpire _ h) (ok_ite (ok_ite (ok_linkExpire _ h) h) h))

theorem ok_mayLose {α : Type} (on : α → Bool) (l : List α) (h : MemoryOk s) : MemoryOk (State.mayLose on l s).2 := by
  induction l generalizing s with
  | nil => exact h
  | cons x l ih =>
    refine ih ?_
    split
    · exact h
    · exact h

theorem ok_messageLost (m : Message) (h : MemoryOk s) : MemoryOk (s.messageLost m) := ok_report _ h
theorem ok_storeLost (c : Nat) (e : SbEntry) (h : MemoryOk s) : MemoryOk (State.storeLost c s e) := ok_report _ h

theorem ok_portLost (k : Nat) (h : MemoryOk s) : MemoryOk (s.portLost k) := by
  unfold State.portLost
  extract_lets old x x₀ s₁ y y₀ s₂
  have h₁ : MemoryOk s₁ := ok_mayLose _ _ h
  have h₂ : MemoryOk s₂ := ok_foldl _ (fun _ _ h => ok_messageLost _ h) _ _ (ok_mayLose _ _ h₁)
  refine ok_foldl _ (fun t c h => ?_) _ _ h₂
  exact ok_foldl _ (fun _ _ h => ok_storeLost _ _ h) _ _ (ok_setCore _ _ (ok_mayLose _ _ h))

theorem ok_portChanged (k : Nat) (x : Port) (gone : BitVec 8) (h : MemoryOk s) : MemoryOk (s.portChanged k x gone) := by
  unfold State.portChanged
  extract_lets y down t u
  have ht : MemoryOk t := ok_setPort _ _ (ok_ite (ok_portLost _ h) h)
  have hu : MemoryOk u := ok_ite (ok_report _ ht) ht
  exact ok_foldl _ (fun _ _ h => ok_linkLost _ _ h) _ _ hu

theorem lands_crcReplay (p : BitVec 4) (h : MemoryOk s) : Lands (execCrcReplay p s) := .next (ok_setPort _ _ h)

theorem lands_retrainStart (p : BitVec 4) (tx : Bool) (w : BitVec 3) (n : BitVec 32) (h : MemoryOk s) :
    Lands (execRetrainStart p tx w n s) :=
  .next (ok_ite h (ok_ite (ok_setPort _ _ h) (ok_ite (ok_setPort _ _ h) (ok_portChanged _ _ _ h))))

theorem lands_retrainEnd (p : BitVec 4) (tx : Bool) (w : BitVec 3) (good : Bool) (h : MemoryOk s) :
    Lands (execRetrainEnd p tx w good s) :=
  .next (ok_ite h (ok_ite (ok_portChanged _ _ _ h) (ok_ite (ok_setPort _ _ h) (ok_portChanged _ _ _ h))))

theorem lands_portTraining (p : BitVec 4) (l : BitVec 8) (lo hi : BitVec 16) (h : MemoryOk s) : Lands (execPortTraining p l lo hi s) :=
  .next (ok_ite h (ok_portChanged _ _ _ h))

theorem lands_arrivalToken (e : BitVec 6) (m : BitVec 12) (h : MemoryOk s) : Lands (execArrivalToken e m s) :=
  .next (ok_ite (ok_masterArrive _ _ h) h)

theorem lands_releaseToken (e : BitVec 6) (h : MemoryOk s) : Lands (execReleaseToken e s) :=
  .next (ok_ite (ok_linkRelease _ h) h)

theorem lands_proxyAbsenceToken (e : BitVec 6) (m : BitVec 12) (h : MemoryOk s) : Lands (execProxyAbsenceToken e m s) :=
  .next (ok_ite (ok_setLink _ _ h) h)

theorem lands_presenceToken (e : BitVec 6) (m : BitVec 12) (h : MemoryOk s) : Lands (execPresenceToken e m s) :=
  .next (ok_ite (ok_setLink _ _ h) h)

theorem lands_barrierTimeout (e : BitVec 6) (h : MemoryOk s) : Lands (execBarrierTimeout e s) :=
  .next (ok_ite (ok_linkExpire _ h) (ok_ite (ok_linkExpire _ h) h))

/-! ### Memory-mapped registers -/

theorem lands_retadd (k : BitVec 3) (p : BitVec 25) (h : MemoryOk s) : Lands (execRetadd k p s) :=
  .next (ok_retirePage _ _ h)

theorem ok_setCrossbar (die : Nat) (x : Crossbar) (h : MemoryOk s) : MemoryOk (s.setCrossbar die x) := h

theorem ok_writeCrossbar (die off : Nat) (v : Reg) (h : MemoryOk s) : MemoryOk (s.writeCrossbar die off v) :=
  ok_ite h (ok_ite (ok_setCrossbar _ _ h) (ok_ite (ok_setCrossbar _ _ h) (ok_ite (ok_setCrossbar _ _ h) h)))

theorem ok_writeLinkHalf (off : Nat) (v : Reg) (h : MemoryOk s) : MemoryOk (s.writeLinkHalf off v) :=
  ok_ite h (ok_setLink _ _ h)

theorem ok_writeStack (k off : Nat) (v : Reg) (h : MemoryOk s) : MemoryOk (s.writeStack k off v) := by
  have hset (x : Stack) : MemoryOk (s.setStack k x) := ok_setStack _ _ h
  exact ok_ite h (ok_ite (hset _) (ok_ite (ok_ite (hset _) h) (ok_ite (ok_retirePage _ _ h)
    (ok_ite (ok_ite (hset _) h) (ok_ite (ok_ite (hset _) h) (ok_ite (hset _) h))))))

theorem ok_writeNgamon (vf : BitVec 9) (off : Nat) (v : Reg) (h : MemoryOk s) : MemoryOk (s.writeNgamon vf off v) := by
  have hset (n : Ngamon) : MemoryOk (s.setNgamon vf n) := ok_setNgamon _ _ h
  exact ok_ite (ok_selectVersion _ _ h) (ok_ite (hset _) (ok_ite (hset _) (ok_ite (ok_doorbell _ _ h)
    (ok_ite (hset _) (ok_ite (hset _) (ok_ite (hset _) (ok_ite (hset _) (ok_ite (hset _) h))))))))

theorem ok_writeRegister (sec : Bool) (off : Nat) (v : Reg) (h : MemoryOk s) : MemoryOk (s.writeRegister sec off v) :=
  ok_ite h (ok_ite (ok_writeCrossbar _ _ _ h) (ok_ite (ok_ite (ok_setPort _ _ h) h) (ok_ite (ok_ite (ok_writeLinkHalf _ _ h) h)
    (ok_ite (ok_writeStack _ _ _ h) (ok_ite h (ok_ite (ok_writeNgamon _ _ _ h) h))))))

theorem ok_registerWriteVf (vf : BitVec 9) (off : Nat) (v : Reg) (h : MemoryOk s) : MemoryOk (s.registerWriteVf vf off v) :=
  ok_ite (ok_writeNgamon _ _ _ h) h

theorem lands_registerWrite (sec : Bool) (off : BitVec 32) (v : BitVec 64) (h : MemoryOk s) : Lands (execRegisterWrite sec off v s) :=
  .next (ok_writeRegister _ _ _ h)

theorem lands_partitionSwitch (die : BitVec 2) (h : MemoryOk s) : Lands (execPartitionSwitch die s) :=
  .next (ok_setCrossbar _ _ h)

/-! ### Power, reset and snapshots -/

theorem ok_setIsland (k : Nat) (x : Island) (h : MemoryOk s) : MemoryOk (s.setIsland k x) := h
theorem lands_throttle (k : BitVec 10) (h : MemoryOk s) : Lands (execThrottle k s) := .next (ok_ite (ok_setIsland _ _ h) h)
theorem lands_recovery (k : BitVec 10) (h : MemoryOk s) : Lands (execRecovery k s) := .next (ok_ite h (ok_setIsland _ _ h))
theorem ok_lost (p : Power) (h : MemoryOk s) : MemoryOk (s.lost p) := ok_of_mem_eq (ok_filterMem _ h) rfl
theorem lands_trip (h : MemoryOk s) : Lands (execTrip s) := .next (ok_raise _ (ok_of_mem_eq (ok_lost .tripped h) rfl))
theorem lands_lossOfPower (h : MemoryOk s) : Lands (execLossOfPower s) := .next (ok_lost _ h)

theorem ok_firmware (pkg : BitVec 12) (area : Memory) (h : MemoryOk s) : MemoryOk (s.firmware pkg area) := by
  have hput (l : Memory) (m : Memory) (hm : Memory.wf m = true) :
      Memory.wf (l.foldl (fun m b => Tab.set Memory.blank m b.1 b.2) m) = true := by
    induction l generalizing m with
    | nil => exact hm
    | cons b l ih => exact ih _ (wf_set _ _ _ _ hm)
  exact ok_ite h (hput _ _ h)

theorem ok_hostWrite (pa : Nat) (bs : List Byte) (h : MemoryOk s) : MemoryOk (s.hostWrite pa bs) := ok_ite (ok_poke _ _ h) h
theorem lands_powerOn (h : MemoryOk s) : Lands (execPowerOn s) := .next (ok_ite (ok_of_mem_eq (ok_lost .on h) rfl) h)
theorem lands_snapshotLatch (h : MemoryOk s) : Lands (execSnapshotLatch s) := .next (ok_ite h h)

theorem ok_writeSnap (base : Nat) (n : Word) (t : Tab Byte) (h : MemoryOk s) : MemoryOk (s.writeSnap base n t) :=
  ok_devPutNat _ _ _ (ok_devWrite _ _ h)

theorem ok_dropSnapshot (h : MemoryOk s) : MemoryOk { s with snapshot := none } := h

theorem lands_snapshotCopy (h : MemoryOk s) : Lands (execSnapshotCopy s) := by
  refine .next ?_
  split
  · exact h
  · exact ok_ite h (ok_dropSnapshot (ok_writeSnap _ _ _ (ok_writeSnap _ _ _ h)))

/-! ### Locks -/

theorem ok_revokeLocks (uid : Nat) (name : Reg) (h : MemoryOk s) : MemoryOk (s.revokeLocks uid name) := by
  unfold State.revokeLocks
  extract_lets slots drop s₁ s₂
  have h₁ : MemoryOk s₁ := by
    unfold s₁
    clear_value slots drop
    split
    · exact ok_report _ h
    · exact ok_report _ h
    · exact h
  exact ok_dropLocks _ (ok_withdraw _ (ok_mapSlots _ h₁))

theorem lands_lockRevocation (k : Nat) (h : MemoryOk s) : Lands (execLockRevocation k s) := by
  unfold execLockRevocation
  split
  · exact .next h
  · exact .ite (.next h) (.next (ok_ite (ok_revokeLocks _ _ h) h))

theorem lands_lockDropAtEnd (k : Nat) (h : MemoryOk s) : Lands (execLockDropAtEnd k s) := by
  unfold execLockDropAtEnd
  split
  · exact .next h
  · exact .ite (.next h) (.next (ok_dropLocks _ h))

end Sys2Proof.Laws
end

section
/-! PROOFS: a turn and a step keep memory canonical, which settles O59. -/

namespace Sys2Proof.Laws

open Machine Safety

variable {s : State}

/-! ### Instructions inside others: the dictionary and message handlers -/

theorem ok_past (c k : Nat) (i : Instr) (a : Bool) (h : MemoryOk s) : MemoryOk (s.past c k i a) := h
theorem ok_dropEarly (c k : Nat) (h : MemoryOk s) : MemoryOk (s.dropEarly c k) := h

theorem lands_dictionaryCode (sz : BitVec 5) (im : BitVec 10) (h : MemoryOk s) : Lands (execDictionaryCode sz im s) := by
  unfold execDictionaryCode
  extract_lets code cur s₁
  have h₁ : MemoryOk s₁ := h
  clear_value s₁
  split
  · exact .next (ok_trapHere _ _ h₁)
  · refine .ite (.next (ok_trapHere _ _ h₁)) ?_
    split
    · exact lands_execWord _ h₁
    · exact .next (ok_trapHere _ _ h₁)

theorem ok_tellSender (m : Message) (r : Reg) (h : MemoryOk s) : MemoryOk (s.tellSender m r) := ok_ite h (ok_report _ h)

theorem ok_finishMessage (c : Nat) (m : Message) (o : BitVec 32) (h : MemoryOk s) : MemoryOk (s.finishMessage c m o) := by
  have hs := ok_signalAt c m.ctr o h
  exact ok_setCore _ _ (ok_ite (ok_tellSender _ _ hs) hs)

theorem ok_discardMessage (c : Nat) (m : Message) (r : Reg) (h : MemoryOk s) : MemoryOk (s.discardMessage c m r) :=
  ok_setCore _ _ (ok_tellSender _ _ h)

/-- The state that a step of a handler leaves. -/
def stateAfter : HandlerStep → State
  | .goesOn s => s
  | .ended s => s
  | .fault s _ _ => s

theorem stateAfter_ite (p : Prop) [Decidable p] {a b : HandlerStep} (ha : MemoryOk (stateAfter a)) (hb : MemoryOk (stateAfter b)) :
    MemoryOk (stateAfter (if p then a else b)) := by
  split
  · exact ha
  · exact hb

theorem ok_handlerStep (c : Nat) (code : List Byte) (h : MemoryOk s) : MemoryOk (stateAfter (s.handlerStep c code)) := by
  unfold State.handlerStep
  extract_lets x pc u
  have hu : MemoryOk u := ok_setSlotAt _ _ _ h
  refine stateAfter_ite _ h (stateAfter_ite _ h (stateAfter_ite _ h ?_))
  split
  · exact h
  next i n e =>
    refine stateAfter_ite _ h (stateAfter_ite _ h ?_)
    split
    next t et =>
      have ht : MemoryOk t := lands_execWord i (ok_past _ _ _ _ hu) t et
      exact stateAfter_ite _ ht (stateAfter_ite _ (ok_setSlotAt _ _ _ ht) (stateAfter_ite _ h ht))
    · exact h

theorem ok_goOnHandler (c : Nat) (code : List Byte) (h : MemoryOk s) : MemoryOk (s.goOnHandler c code) := by
  have hstep := ok_handlerStep c code h
  unfold State.goOnHandler
  extract_lets finish
  have hfinish {t : State} (f : Bool) (ht : MemoryOk t) : MemoryOk (finish t f) :=
    ok_setCore _ _ (ok_setSlotAt _ _ _ (ok_dropEarly _ _ ht))
  clear_value finish
  split
  next t e => rw [e] at hstep; exact hstep
  next t e => rw [e] at hstep; exact hfinish _ hstep
  next t cause off e => rw [e] at hstep; exact hfinish _ (ok_report _ hstep)

theorem lands_messageDelivery (c : BitVec 12) (h : MemoryOk s) : Lands (execMessageDelivery c s) := by
  unfold execMessageDelivery
  extract_lets c
  split
  · exact .next h
  · split
    · exact .next (ok_goOnHandler _ _ h)
    · exact .ite (.next h) (.next (ok_finishMessage _ _ _ h))
    · extract_lets p
      split
      · exact .next (ok_discardMessage _ _ _ h)
      · refine .ite (.next (ok_discardMessage _ _ _ h)) (.ite (.next (ok_discardMessage _ _ _ h)) ?_)
        split
        · exact .next (ok_finishMessage _ _ _ (ok_poke _ _ h))
        · exact .next (ok_setCore _ _ (ok_setSlotAt _ _ _ (ok_poke _ _ h)))

theorem lands_illegalInstruction (w : BitVec 32) (k : BitVec 3) (h : MemoryOk s) : Lands (execIllegalInstruction w k s) :=
  .next (ok_trapHere _ _ h)

/-! ### Every instruction -/

theorem lands_exec (i : Instr) (h : MemoryOk s) : Lands (exec i s) := by
  have hw : Lands (execWord i s) := lands_execWord i h
  cases i with (dsimp only [exec]; dsimp only [execWord] at hw)
  | dictionaryCode => exact lands_dictionaryCode _ _ h
  | engineQueueEntry => exact lands_engineQueueEntry _ _ _ _ _ _ _ _ h
  | mma => exact lands_engineRun _ _ _ _ _ mmaWork_ok h
  | bfly | bflyc => exact lands_engineRun _ _ _ _ _ bflyWork_ok h
  | scan => exact lands_scan _ h
  | tsig => exact lands_engineRun _ _ _ _ _ tsigWork_ok h
  | tskip => exact lands_engineRun _ _ _ _ _ tskipWork_ok h
  | tld => exact lands_engineRun _ _ _ _ _ tldWork_ok h
  | tst => exact lands_engineRun _ _ _ _ _ tstWork_ok h
  | tzero => exact lands_engineRun _ _ _ _ _ tzeroWork_ok h
  | tcvt => exact lands_engineRun _ _ _ _ _ tcvtWork_ok h
  | ecfgClr | ecfgSet | ecfgLd | ecfgSt => exact lands_ecfgRun _ _ h
  | cpy => exact lands_engineRun _ _ _ _ _ cpyWork_ok h
  | gth | sct => exact lands_engineRun _ _ _ _ _ elemWork_ok h
  | coll => exact lands_coll _ h
  | engineStallTimeout => exact lands_engineStallTimeout _ _ h
  | messageDelivery => exact lands_messageDelivery _ h
  | boundTaskReady => exact lands_boundTaskReady _ h
  | mailboxEntryArrival => exact lands_mailboxEntryArrival _ h
  | convoyFlitArrival => exact lands_convoyFlitArrival _ h
  | lockRevocation => exact lands_lockRevocation _ h
  | lockDropAtEnd => exact lands_lockDropAtEnd _ h
  | budgetTrap => exact lands_budgetTrap _ _ h
  | woundTrap => exact lands_woundTrap _ _ h
  | kill => exact lands_kill _ _ h
  | storeBufferDrain => exact lands_storeBufferDrain _ _ h
  | claimRecord => exact lands_claimRecord _ h
  | l2Fill => exact lands_l2Fill _ h
  | pageWalk => exact lands_pageWalk _ _ h
  | taskDispatch => exact lands_taskDispatch _ _ h
  | steal => exact lands_steal _ _ h
  | hostMemAccess => exact lands_hostMemAccess _ _ _ _ _ h
  | publicationAdvance => exact lands_publicationAdvance _ h
  | lsqtail => exact lands_lsqtail _ _ h
  | launch => exact lands_launch _ h
  | launchComplete => exact lands_launchComplete _ h
  | preempt => exact lands_preempt _ h
  | preemptSave => exact lands_preemptSave _ h
  | restore => exact lands_restore _ h
  | nop => exact lands_nop _ h
  | ngsel => exact lands_ngsel _ _ h
  | retadd => exact lands_retadd _ _ h
  | keyInstall => exact lands_keyInstall h
  | registerWrite => exact lands_registerWrite _ _ _ h
  | partitionSwitch => exact lands_partitionSwitch _ h
  | crcReplay => exact lands_crcReplay _ h
  | retrainStart => exact lands_retrainStart _ _ _ _ h
  | retrainEnd => exact lands_retrainEnd _ _ _ _ h
  | portTraining => exact lands_portTraining _ _ _ _ h
  | arrivalToken => exact lands_arrivalToken _ _ h
  | releaseToken => exact lands_releaseToken _ h
  | proxyAbsenceToken => exact lands_proxyAbsenceToken _ _ h
  | presenceToken => exact lands_presenceToken _ _ h
  | barrierTimeout => exact lands_barrierTimeout _ h
  | throttle => exact lands_throttle _ h
  | recovery => exact lands_recovery _ h
  | trip => exact lands_trip h
  | powerOn => exact lands_powerOn h
  | snapshotLatch => exact lands_snapshotLatch h
  | snapshotCopy => exact lands_snapshotCopy h
  | fetchFault => exact lands_fetchFault _ _ h
  | illegalInstruction => exact lands_illegalInstruction _ _ h
  | lossOfPower => exact lands_lossOfPower h
  | remoteAccessArrival => exact lands_remoteAccessArrival _ _ _ _ _ _ h
  | _ => exact hw

/-! ### Turns -/

theorem ok_keepCode (c : Nat) (l : Loc) (h : MemoryOk s) : MemoryOk (s.keepCode c l) := by
  unfold State.keepCode
  extract_lets line at0
  split
  · exact h
  · exact ok_ite h (ok_setCore _ _ (ok_useHome _ h))

theorem ok_fetchTurn (c k : Nat) (h : MemoryOk s) : MemoryOk (s.fetchTurn c k).2 := by
  unfold State.fetchTurn
  split
  · exact ok_ite (ok_askWalk _ _ _ _ h) h
  · exact ok_ite h (ok_missLine _ _ _ h)
  · exact h
  · extract_lets pc opn s₁ cur s₂ x s₃
    have h₁ : MemoryOk s₁ := ok_foldl _ (fun _ _ h => ok_keepCode _ _ h) _ _ (ok_keepTlb _ _ _ (ok_keepTlb _ _ _ h))
    have h₂ : MemoryOk s₂ := h₁
    have h₃ : MemoryOk s₃ := ok_ite h₂ (ok_setSlotAt _ _ _ h₂)
    refine ok_ite_snd h₂ ?_
    split
    · exact h₃
    · exact h₃

theorem ok_andEarly (c k : Nat) (a : Bool) (r : Option Instr × State) (h : MemoryOk r.2) :
    MemoryOk (State.andEarly c k a r).2 := by
  unfold State.andEarly
  split
  · exact ok_past _ _ _ _ h
  · exact h

theorem ok_slotWork (c k : Nat) (h : MemoryOk s) : MemoryOk (s.slotWork c k).2 := by
  unfold State.slotWork
  extract_lets s₁ x
  have h₁ : MemoryOk s₁ := h
  refine ok_ite_snd h₁ (ok_ite_snd h₁ (ok_ite_snd h₁ (ok_ite_snd h₁ (ok_ite_snd h₁ ?_))))
  split
  · exact ok_ite_snd h₁ (ok_setSlotAt _ _ _ h₁)
  · exact ok_ite_snd h₁ (ok_fetchTurn _ _ h₁)

theorem ok_slotTurn (c k : Nat) (h : MemoryOk s) : MemoryOk (s.slotTurn c k).2 := ok_andEarly _ _ _ _ (ok_slotWork _ _ h)

theorem ok_arrive (k : Nat) (h : MemoryOk s) : MemoryOk (s.arrive k) := by
  unfold State.arrive
  split
  · exact ok_ite h (ok_setCore _ _ h)
  · extract_lets j
    split
    · exact h
    · exact ok_ite h (ok_ite h (ok_messageLost _ h))

theorem ok_packageMessage (m : Message) (h : MemoryOk s) : MemoryOk (s.packageMessage m) := ok_ite h h

theorem ok_parity (c : Nat) (i : Bool) (k : Nat) (h : MemoryOk s) : MemoryOk (s.parity c i k) := by
  unfold State.parity
  extract_lets x
  split
  · exact h
  · exact ok_cacheReport _ _ _ (ok_setCore _ _ h)

theorem ok_invAhead (c k : Nat) (a ctl : Reg) (h : MemoryOk s) : MemoryOk (s.invAhead c k a ctl) := by
  unfold State.invAhead
  extract_lets line
  clear_value line
  split
  · exact h
  next l => exact ok_ite h (ok_l1Drop c ctl l h)

theorem ok_fetchAhead (c k va : Nat) (h : MemoryOk s) : MemoryOk (s.fetchAhead c k va) := by
  unfold State.fetchAhead
  split
  · exact ok_ite h (ok_keepCode _ _ h)
  · exact h

theorem ok_reportDue (k : Nat) (h : MemoryOk s) : MemoryOk (s.reportDue k) := by
  unfold State.reportDue
  split
  · exact h
  · exact ok_ite h (ok_writeReport _ h)

/-- What a turn does before its instruction keeps the canonical form. -/
theorem ok_turn (t : Turn) (h : MemoryOk s) : MemoryOk (s.turn t).2 := by
  cases t with
  | issue c =>
    dsimp only [State.turn]
    split
    · exact h
    · exact ok_slotTurn _ _ (ok_setCore _ _ h)
  | slot c k => exact ok_ite_snd (ok_slotTurn _ _ h) h
  | event i => exact ok_ite_snd h h
  | clock c n => exact ok_ite (ok_coreClock _ _ h) h
  | uncore n => exact ok_uncoreClock _ h
  | arrive k => exact ok_arrive _ h
  | parity c i k => exact ok_parity _ _ _ h
  | dropL1 | dropL1i | dropTlb => exact ok_setCore _ _ h
  | dropL2Tlb | collArrive | hostIrq | registerRead => exact h
  | readAhead => exact ok_ite (ok_readAhead _ _ _ _ _ h) h
  | invAhead => exact ok_ite (ok_invAhead _ _ _ _ h) h
  | fetchAhead => exact ok_ite (ok_fetchAhead _ _ _ h) h
  | slotAhead => exact ok_slotAhead _ _ _ _ _ _ h
  | post => exact ok_performPosted _ h
  | reportDue => exact ok_reportDue _ h
  | engineWrite => exact ok_engineWrite _ _ _ h
  | packetLost => exact ok_packetLost _ h
  | poison => exact ok_poison _ _ h
  | corrected => exact ok_corrected _ _ h
  | pubLine => exact ok_pubLine _ h
  | packageMessage => exact ok_packageMessage _ h
  | hostWrite => exact ok_hostWrite _ _ h
  | registerWriteVf => exact ok_registerWriteVf _ _ _ h
  | secureLaunch => exact ok_secureLaunch _ _ h
  | securePreempt => exact ok_securePreempt _ _ h
  | firmware => exact ok_firmware _ _ h

theorem lands_runTurn (t : Turn) (h : MemoryOk s) : Lands (runTurn t s) := by
  have ht := ok_turn t h
  unfold runTurn
  split
  next i u e =>
    rw [e] at ht
    exact lands_exec i ht
  next u e =>
    rw [e] at ht
    exact .next ht

theorem ok_takeTurn (h : MemoryOk s) : MemoryOk s.takeTurn.2 := by
  unfold State.takeTurn
  split
  · exact h
  · exact h

theorem lands_step (h : MemoryOk s) : Lands (step s) := by
  unfold step
  extract_lets t
  split
  · exact lands_runTurn _ (ok_takeTurn h)
  · intro u hu
    cases hu

/-- Settles O59, by following every turn and every instruction down to the writes of memory, each of which is made of
`Tab.set` (`wf_set`) or is a filter (`wf_filter`). -/
theorem memoryStaysCanonical : Obligations.MemoryStaysCanonical :=
  fun _ t h e => lands_step h t e

end Sys2Proof.Laws
end

section
/-! PROOFS: the scheduler's queues, dispatch and stealing (01 R26, 13 R331 to R335). What an operation does to the queues,
to the slots and to memory is said once for each of them; dispatch and the two halves of a steal are put together from
that. O49 is refuted by a record longer than its place in the spill area; all else that it says is proved. -/

namespace Sys2Proof.Laws

open Machine Safety

variable {s : State}

/-! ### The ready queue (13 R332) -/

theorem insertKey_perm (s : State) (e : Entry) (es : List Entry) : (s.insertKey e es).Perm (e :: es) := by
  induction es with
  | nil => exact .refl _
  | cons x t ih =>
    unfold State.insertKey
    split
    · exact .refl _
    · exact (ih.cons x).trans (.swap e x t)

/-- Entries written to the spill area of a core, each at its place (log 38). -/
def spill (s : State) (c : Nat) (xs : List (Entry × Nat)) (t : State) : State :=
  xs.foldl (fun t x => t.poke (larderAt c (Config.spillBase + 80 * x.2)) (s.entryBytes x.1)) t

theorem setReady_eq_spill (s : State) (c : Nat) (es : List Entry) : s.setReady c es
    = spill s c (es.drop Config.readyInHardware).zipIdx (s.setCore c { s.core c with ready := es }) := rfl

theorem spill_keeps {α : Type} (f : State → α) (hf : ∀ t p bs, f (t.poke p bs) = f t) (s : State) (c : Nat)
    (xs : List (Entry × Nat)) (t : State) : f (spill s c xs t) = f t := by
  induction xs generalizing t with
  | nil => rfl
  | cons x xs ih => exact (ih _).trans (hf ..)

@[simp] theorem setReady_early (s : State) (c : Nat) (es : List Entry) : (s.setReady c es).early = s.early :=
  spill_keeps State.early (fun _ _ _ => rfl) ..

@[simp] theorem core_setReady (s : State) (c c' : Nat) (es : List Entry) :
    (s.setReady c es).core c' = if c = c' then { s.core c with ready := es } else s.core c' :=
  (spill_keeps (fun t => t.core c') (fun _ _ _ => rfl) ..).trans (core_setCore ..)

theorem length_bytesOfNat (n w : Nat) : (bytesOfNat n w).length = n := by
  induction n generalizing w with
  | zero => rfl
  | succ n ih => simp [bytesOfNat, ih]

theorem length_entryBytes (s : State) (e : Entry) : (s.entryBytes e).length = 32 + 8 * e.record.args.length := by
  simp [State.entryBytes, Record.bytes, length_bytesOfNat, List.length_flatMap]
  omega

/-- Every record of a list has at most the six arguments of 01 Table 1.4, so that its entry fits its 80 bytes. -/
def SixArgs (es : List Entry) : Prop := ∀ e ∈ es, e.record.args.length ≤ 6

/-- A record read from memory has six arguments. -/
theorem length_args_recordOf (bs : List Byte) : (recordOf bs).args.length = 6 := by simp [recordOf]

/-- The spill area of a core's larder (01 R30). -/
def InSpill (c q : Nat) : Prop := larderAt c 0xF000 ≤ q ∧ q < larderAt c 0x10000

theorem byte_spill_outside (s : State) (c : Nat) {xs : List (Entry × Nat)} (hx : ∀ x ∈ xs, x.2 < 48 ∧ x.1.record.args.length ≤ 6)
    {q : Nat} (hq : ¬InSpill c q) (t : State) : (spill s c xs t).byte q = t.byte q := by
  induction xs generalizing t with
  | nil => rfl
  | cons x xs ih =>
    obtain ⟨⟨hi, hargs⟩, hxs⟩ := List.forall_mem_cons.mp hx
    refine (ih hxs _).trans (byte_poke_outside _ _ _ _ ?_)
    simp only [InSpill, larderAt, Config.spillBase, length_entryBytes] at hq ⊢
    omega

/-- A ready queue of 80 entries keeps to the spill area. -/
theorem byte_setReady_outside (c : Nat) {es : List Entry} (hn : es.length ≤ 80) (ha : SixArgs es) {q : Nat} (hq : ¬InSpill c q) :
    (s.setReady c es).byte q = s.byte q := by
  refine byte_spill_outside s c (fun x hx => ?_) hq _
  obtain ⟨-, hi, he⟩ := List.mem_zipIdx hx
  have hlen : (es.drop Config.readyInHardware).length ≤ 48 := by simp [Config.readyInHardware]; omega
  exact ⟨by omega, ha _ (List.mem_of_mem_drop (he ▸ List.getElem_mem _))⟩

theorem byte_spill_congr (s : State) (c : Nat) (xs : List (Entry × Nat)) {t u : State} (h : ∀ q, t.byte q = u.byte q) (q : Nat) :
    (spill s c xs t).byte q = (spill s c xs u).byte q := by
  induction xs generalizing t u with
  | nil => exact h q
  | cons x xs ih => exact ih fun q => by rw [byte_poke, byte_poke, h]

/-- The last of more than 32 entries is written after the others, at its place in the spill area. -/
theorem byte_setReady_concat (c : Nat) {es : List Entry} (e : Entry) (h : 32 ≤ es.length) (q : Nat) :
    (s.setReady c (es ++ [e])).byte q
      = ((s.setReady c es).poke (larderAt c (0xF000 + 80 * (es.length - 32))) (s.entryBytes e)).byte q := by
  have drop : ((es ++ [e]).drop Config.readyInHardware).zipIdx
      = (es.drop Config.readyInHardware).zipIdx ++ [(e, es.length - 32)] := by
    simp [Config.readyInHardware, List.drop_append_of_le_length h, List.zipIdx_append]
  have before (p : Nat) : (spill s c (es.drop Config.readyInHardware).zipIdx
      (s.setCore c { s.core c with ready := es ++ [e] })).byte p = (s.setReady c es).byte p := by
    rw [setReady_eq_spill]
    exact byte_spill_congr s c _ (by intro; rfl) p
  rw [setReady_eq_spill, drop, spill, List.foldl_append, List.foldl_cons, List.foldl_nil, byte_poke, byte_poke, ← before]
  rfl

theorem SixArgs.insertKey {u : State} {e : Entry} {es : List Entry} (h : SixArgs (e :: es)) : SixArgs (u.insertKey e es) :=
  fun y hy => h y ((insertKey_perm u e es).mem_iff.mp hy)

@[simp] theorem enter'_early (s : State) (c : Nat) (e : Entry) : (s.enter' c e).early = s.early := setReady_early ..

@[simp] theorem core_enter' (s : State) (c c' : Nat) (e : Entry) : (s.enter' c e).core c'
    = if c = c' then { s.core c with ready := s.insertKey e (s.core c).ready } else s.core c' := core_setReady ..

theorem byte_enter'_outside {c : Nat} {e : Entry} (hn : (s.core c).ready.length < 80) (ha : SixArgs (e :: (s.core c).ready))
    {q : Nat} (hq : ¬InSpill c q) : (s.enter' c e).byte q = s.byte q := by
  refine byte_setReady_outside c ?_ ha.insertKey hq
  rw [(insertKey_perm s e _).length_eq, List.length_cons]
  omega

theorem readyFull_iff (x : Core) : x.readyFull = true ↔ 80 ≤ x.ready.length := decide_eq_true_iff

/-! ### Entries that wait for the ready queue (13 R332) -/

/-- What entries that waited and enter the ready queue leave as it was: all but memory and the two queues of their core.
None leaves the ready queue, and memory is written in the spill area alone. -/
structure Entered (s t : State) (c : Nat) : Prop where
  early : t.early = s.early
  core : { t.core c with ready := [], waiting := [] } = { s.core c with ready := [], waiting := [] }
  other : ∀ c', c' ≠ c → t.core c' = s.core c'
  keeps : ∀ y ∈ (s.core c).ready, y ∈ (t.core c).ready
  from_waiting : ∀ y ∈ (t.core c).ready, y ∈ (s.core c).ready ∨ y ∈ (s.core c).waiting
  byte : (s.core c).ready.length ≤ 80 → SixArgs ((s.core c).ready ++ (s.core c).waiting) → ∀ q, ¬InSpill c q → t.byte q = s.byte q

theorem Entered.refl (s : State) (c : Nat) : Entered s s c :=
  ⟨rfl, rfl, fun _ _ => rfl, fun _ h => h, fun _ h => .inl h, fun _ _ _ _ => rfl⟩

/-- A field of the core that is neither of the two queues is as it was. -/
theorem Entered.field {t : State} {c : Nat} (h : Entered s t c) {α : Type} (f : Core → α)
    (hf : ∀ x : Core, f { x with ready := [], waiting := [] } = f x) : f (t.core c) = f (s.core c) := by
  rw [← hf (t.core c), h.core, hf]

theorem Entered.slotAt {t : State} {c : Nat} (h : Entered s t c) (c' k : Nat) : t.slotAt c' k = s.slotAt c' k := by
  by_cases hc : c' = c
  · subst hc
    exact congrArg (Tab.get Slot.reset · k) (h.field Core.slots fun _ => rfl)
  · exact congrArg (Core.slot · k) (h.other c' hc)

theorem enterWaiting_nil {c : Nat} (n : Nat) (h : (s.core c).waiting = []) : s.enterWaiting c n = s := by
  cases n with
  | zero => rfl
  | succ n => simp [State.enterWaiting, h]

/-- The first entry that waits enters a queue with room, and others after it. -/
theorem Entered.cons {t : State} {c : Nat} {e : Entry} {w : List Entry} (hw : (s.core c).waiting = e :: w)
    (room : (s.core c).ready.length < 80)
    (h : Entered ((s.setCore c { s.core c with waiting := w }).enter' c e) t c) : Entered s t c := by
  generalize hu : s.setCore c { s.core c with waiting := w } = u at h
  have ready : (u.core c).ready = (s.core c).ready := by simp [← hu]
  have waiting : (u.core c).waiting = w := by simp [← hu]
  have perm := insertKey_perm u e (s.core c).ready
  obtain ⟨early, core, other, keeps, from_waiting, byte⟩ := h
  simp only [enter'_early, core_enter', if_true, ready, waiting] at early core other keeps from_waiting byte
  refine ⟨by simp [early, ← hu], by simp [core, ← hu], fun c' hc => ?_, fun y hy => ?_, fun y hy => ?_, fun hn ha q hq => ?_⟩
  · simp [other c' hc, ← hu, hc.symm]
  · exact keeps y (perm.mem_iff.mpr (.tail _ hy))
  · have := from_waiting y hy
    rw [perm.mem_iff, List.mem_cons] at this
    rw [hw, List.mem_cons]
    tauto
  · rw [hw] at ha
    have six : SixArgs (e :: (s.core c).ready ++ w) := fun y hy => ha y (List.perm_middle.mem_iff.mpr hy)
    have sixReady : SixArgs (e :: (s.core c).ready) := fun y hy => six y (List.mem_append_left _ hy)
    calc t.byte q
      _ = (u.enter' c e).byte q := by
        refine byte ?_ ?_ q hq
        · rw [perm.length_eq, List.length_cons]
          omega
        · intro y hy
          exact (List.mem_append.mp hy).elim (sixReady.insertKey y) fun hy => six y (List.mem_append_right _ hy)
      _ = u.byte q := byte_enter'_outside (by rwa [ready]) (by rwa [ready]) hq
      _ = s.byte q := by rw [← hu, byte_setCore]

theorem enterWaiting_entered (s : State) (c n : Nat) : Entered s (s.enterWaiting c n) c := by
  induction n generalizing s with
  | zero => exact .refl s c
  | succ n ih =>
    unfold State.enterWaiting
    split
    · exact .refl s c
    · next e w hw =>
      split
      · exact .refl s c
      · next full =>
        rw [readyFull_iff, Nat.not_le] at full
        exact .cons hw full (ih _)

/-! ### Acquire (06 R137) -/

/-- The L1 after an acquire at cluster scope or wider. -/
theorem core_acquire (s : State) (c k c' : Nat) {sc : Nat} (h : sc ≠ 0) : (s.acquire c k sc).core c' =
    if c = c' then { s.core c with l1 := (s.core c).l1.filter (fun x => x.ro && storeOf (x.line * 128) ≠ .attic) } else s.core c' := by
  rw [State.acquire, if_neg h]
  exact core_setCore ..

@[simp] theorem byte_acquire (s : State) (c k sc q : Nat) : (s.acquire c k sc).byte q = s.byte q := by
  unfold State.acquire
  split <;> rfl

@[simp] theorem slotAt_acquire (s : State) (c k sc c' k' : Nat) : (s.acquire c k sc).slotAt c' k' = s.slotAt c' k' := by
  by_cases h : sc = 0
  · rw [h]
    rfl
  · rw [State.slotAt, core_acquire _ _ _ _ h]
    split
    · next hc => rw [← hc]; rfl
    · rfl

theorem not_early_acquire (s : State) (c k sc : Nat) : ∀ y ∈ (s.acquire c k sc).early, ¬(y.core = c ∧ y.slot = k) := by
  intro y hy
  have : y ∈ (s.dropEarly c k).early := by
    unfold State.acquire at hy
    split at hy
    · exact hy
    · exact List.mem_of_mem_filter hy
  have kept := (List.mem_filter.mp this).2
  simpa only [Bool.not_eq_true', Bool.and_eq_false_iff, decide_eq_false_iff_not, not_and_or] using kept

/-! ### The slot that dispatch sets (01 R26) -/

section
variable (e : Entry) (codelo : Reg) (cycles : BitVec 32) (uid : Nat)

/-- The slot of a task before its arguments are set. -/
def taskSlot : Slot :=
  ({ Slot.reset with
    pc := codelo + e.record.entry.setWidth 64
    budget := cycles
    task := some { root := e.root, rid := e.record.rid, ts := e.record.ts, flags := e.record.flags, addr := e.addr, uid := uid } }
    : Slot).setG 3 e.addr

theorem dispatchSlot_ordinary (h : e.record.caravan = false) : dispatchSlot e codelo cycles uid
    = ((((taskSlot e codelo cycles uid).setG 4 (e.record.arg 0)).setG 5 (e.record.arg 1)).setG 6 (e.record.arg 2)).setG 7
        (e.record.arg 3) := if_neg (by simp [h])

theorem dispatchSlot_caravan (h : e.record.caravan = true) : dispatchSlot e codelo cycles uid
    = { (taskSlot e codelo cycles uid).setG 31 ((e.record.arg 1) >>> 32) with
        cvgroup := e.record.group
        cvnode := (e.record.arg 0).setWidth 52
        cvstep := (e.record.arg 1).setWidth 32
        mb := e.record.arg 5 ++ e.record.arg 4 ++ e.record.arg 3 ++ e.record.arg 2 } := if_pos h

theorem gReg_taskSlot (j : BitVec 5) : (taskSlot e codelo cycles uid).gReg j = if j = 3 then e.addr else 0 := by
  rw [taskSlot, Slot.gReg_setG]
  by_cases hj : j = 3
  · rw [if_pos hj, if_pos ⟨hj, by simp [hj]⟩]
  · rw [if_neg hj, if_neg fun h => hj h.1]
    exact ite_self 0

theorem gReg_dispatchSlot_ordinary (h : e.record.caravan = false) (j : BitVec 5) : (dispatchSlot e codelo cycles uid).gReg j
    = if j = 3 then e.addr else if j = 4 then e.record.arg 0 else if j = 5 then e.record.arg 1
      else if j = 6 then e.record.arg 2 else if j = 7 then e.record.arg 3 else 0 := by
  rw [dispatchSlot_ordinary _ _ _ _ h]
  simp only [Slot.gReg_setG, gReg_taskSlot]
  split_ifs <;> simp_all

theorem gReg_dispatchSlot_caravan (h : e.record.caravan = true) (j : BitVec 5) : (dispatchSlot e codelo cycles uid).gReg j
    = if j = 3 then e.addr else if j = 31 then (e.record.arg 1) >>> 32 else 0 := by
  rw [dispatchSlot_caravan _ _ _ _ h]
  change ((taskSlot e codelo cycles uid).setG 31 _).gReg j = _
  rw [Slot.gReg_setG, gReg_taskSlot]
  split_ifs <;> simp_all

/-- What every task finds: its place, its budget, its record's address, and nothing left by an earlier task. -/
theorem dispatchSlot_common : let x := dispatchSlot e codelo cycles uid
    x.task = some { root := e.root, rid := e.record.rid, ts := e.record.ts, flags := e.record.flags, addr := e.addr, uid := uid }
      ∧ x.pc = codelo + e.record.entry.setWidth 64 ∧ x.budget = cycles
      ∧ x.v = [] ∧ x.p = [] ∧ x.mt = 0 ∧ x.fstat = 0 ∧ x.xcause = 0 ∧ x.wait = .none := by
  cases h : e.record.caravan
  case false =>
    rw [dispatchSlot_ordinary _ _ _ _ h]
    simp [taskSlot, Slot.reset]
  case true =>
    rw [dispatchSlot_caravan _ _ _ _ h]
    simp [taskSlot, Slot.reset]

end

/-! ### Dispatch (13 R333, R335) -/

/-- The package once an entry has left its queue and its task has a number. -/
def unqueue (s : State) (c : Nat) (e : Entry) : State :=
  (({ s with stamp := s.stamp + 1 } : State).setCore c
    { s.core c with deque := (s.core c).deque.filter (fun y => y.arrival ≠ e.arrival) }).setReady c
      ((s.core c).ready.filter (fun y => y.arrival ≠ e.arrival))

/-- The slot that an entry's task begins in. -/
def startSlot (s : State) (c : Nat) (e : Entry) : Slot :=
  dispatchSlot e (s.core c).codelo (s.regionBy e.root e.record.rid).cycles s.stamp

/-- The scope of the acquire with which a task begins (09 R235, 13 R328). -/
def originScope (o : Origin) : Nat := match o with
  | .package => 3
  | .system => 4

theorem originScope_ne_zero (o : Origin) : originScope o ≠ 0 := by cases o <;> decide

theorem dispatch_eq (s : State) (c k : Nat) (e : Entry) : s.dispatch c k e
    = (((unqueue s c e).setSlotAt c k (startSlot s c e)).enterWaiting c (s.core c).waiting.length).acquire c k
        (originScope e.origin) := rfl

theorem core_unqueue (s : State) (c c' : Nat) (e : Entry) : (unqueue s c e).core c' =
    if c = c' then { s.core c with
      deque := (s.core c).deque.filter (fun y => y.arrival ≠ e.arrival)
      ready := (s.core c).ready.filter (fun y => y.arrival ≠ e.arrival) } else s.core c' := by
  rw [unqueue, core_setReady]
  simp only [core_setCore]
  split <;> rfl

/-- What a dispatch does (01 R26; 13 R332, R335): the slot's state, the queues, the acquire, and what stays. -/
structure Starts (s t : State) (c k : Nat) (e : Entry) : Prop where
  slot : t.slotAt c k = startSlot s c e
  l1 : (t.core c).l1 = (s.core c).l1.filter (fun y => y.ro && storeOf (y.line * 128) ≠ .attic)
  early : ∀ y ∈ t.early, ¬(y.core = c ∧ y.slot = k)
  deque : (t.core c).deque = (s.core c).deque.filter (fun y => y.arrival ≠ e.arrival)
  keeps : ∀ y ∈ (s.core c).ready, y.arrival ≠ e.arrival → y ∈ (t.core c).ready
  from_waiting : ∀ y ∈ (t.core c).ready, (y ∈ (s.core c).ready ∧ y.arrival ≠ e.arrival) ∨ y ∈ (s.core c).waiting
  none_waits : (s.core c).waiting = [] → (t.core c).ready = (s.core c).ready.filter (fun y => y.arrival ≠ e.arrival)
  slots : ∀ c' k', (c' ≠ c ∨ k' ≠ k) → t.slotAt c' k' = s.slotAt c' k'
  byte : (s.core c).ready.length ≤ 80 → SixArgs ((s.core c).ready ++ (s.core c).waiting) → ∀ q, ¬InSpill c q → t.byte q = s.byte q

theorem SixArgs.filter {es : List Entry} (h : SixArgs es) (p : Entry → Bool) : SixArgs (es.filter p) :=
  fun y hy => h y (List.mem_of_mem_filter hy)

theorem byte_unqueue_outside {c : Nat} (e : Entry) (hn : (s.core c).ready.length ≤ 80) (ha : SixArgs (s.core c).ready) {q : Nat}
    (hq : ¬InSpill c q) : (unqueue s c e).byte q = s.byte q :=
  byte_setReady_outside c ((List.length_filter_le _ _).trans hn) (ha.filter _) hq

/-- The slot and the core whose entry has left its queue, before those that wait enter. -/
theorem core_started (s : State) (c k : Nat) (e : Entry) (x : Slot) : ((unqueue s c e).setSlotAt c k x).core c =
    { (s.core c).setSlot k x with
      deque := (s.core c).deque.filter (fun y => y.arrival ≠ e.arrival)
      ready := (s.core c).ready.filter (fun y => y.arrival ≠ e.arrival) } := by
  rw [State.setSlotAt, core_setCore, if_pos rfl, core_unqueue, if_pos rfl]
  rfl

theorem slotAt_unqueue (s : State) (c c' k : Nat) (e : Entry) : (unqueue s c e).slotAt c' k = s.slotAt c' k := by
  rw [State.slotAt, core_unqueue]
  split
  · next h => rw [← h]; rfl
  · rfl

theorem dispatch_starts (s : State) (c k : Nat) (e : Entry) : Starts s (s.dispatch c k e) c k e := by
  rw [dispatch_eq]
  generalize hu : (unqueue s c e).setSlotAt c k (startSlot s c e) = u
  have wide := originScope_ne_zero e.origin
  generalize originScope e.origin = sc at wide
  have here : u.core c = _ := hu ▸ core_started s c k e _
  have entered := enterWaiting_entered u c (s.core c).waiting.length
  have nothing (h : (s.core c).waiting = []) : u.enterWaiting c (s.core c).waiting.length = u :=
    enterWaiting_nil _ (by rw [here]; exact h)
  generalize u.enterWaiting c (s.core c).waiting.length = v at entered nothing
  have acquired := core_acquire v c k c wide
  rw [if_pos rfl] at acquired
  have slots (c' k' : Nat) : (v.acquire c k sc).slotAt c' k' = if c = c' ∧ k = k' then startSlot s c e else s.slotAt c' k' := by
    calc (v.acquire c k sc).slotAt c' k'
      _ = v.slotAt c' k' := slotAt_acquire ..
      _ = u.slotAt c' k' := entered.slotAt ..
      _ = _ := by rw [← hu, slotAt_setSlotAt, slotAt_unqueue]
  exact {
    slot := by rw [slots, if_pos ⟨rfl, rfl⟩]
    l1 := by rw [acquired, entered.field Core.l1 (fun _ => rfl), here]; rfl
    early := not_early_acquire v c k sc
    deque := by rw [acquired, entered.field Core.deque (fun _ => rfl), here]
    keeps := fun y hy hne => by
      rw [acquired]
      refine entered.keeps y ?_
      rw [here]
      exact List.mem_filter.mpr ⟨hy, decide_eq_true hne⟩
    from_waiting := fun y hy => by
      rw [acquired] at hy
      refine (entered.from_waiting y hy).imp (fun h => ?_) fun h => ?_
      · rw [here] at h
        exact (List.mem_filter.mp h).imp_right of_decide_eq_true
      · rw [here] at h
        exact h
    none_waits := fun h => by rw [acquired, nothing h, here]
    slots := fun c' k' h => by rw [slots, if_neg (by rintro ⟨rfl, rfl⟩; simp at h)]
    byte := fun hn ha q hq => by
      rw [byte_acquire, entered.byte _ _ q hq, ← hu]
      · exact byte_unqueue_outside e hn (fun y hy => ha y (List.mem_append_left _ hy)) hq
      · rw [here]
        exact (List.length_filter_le _ _).trans hn
      · rw [here]
        intro y hy
        exact ha y ((List.mem_append.mp hy).elim (fun h => List.mem_append_left _ (List.mem_of_mem_filter h)) (List.mem_append_right _)) }

theorem stolen_dispatch (s : State) (c k : Nat) (e : Entry) : ((s.dispatch c k e).core c).stolen = (s.core c).stolen := by
  rw [dispatch_eq, core_acquire _ _ _ _ (originScope_ne_zero _), if_pos rfl]
  have entered := enterWaiting_entered ((unqueue s c e).setSlotAt c k (startSlot s c e)) c (s.core c).waiting.length
  exact (entered.field Core.stolen fun _ => rfl).trans (by rw [core_started]; rfl)

/-- A slot that has a task takes no other. -/
theorem exec_taskDispatch_busy {core : BitVec 12} {slot : BitVec 3} (busy : (s.slotAt core.toNat slot.toNat).task ≠ none) :
    exec (.taskDispatch core slot) s = .next s := by
  have full : ¬(s.core core.toNat).freeSlot slot.toNat = true := fun h => busy (Option.isNone_iff_eq_none.mp h)
  simp only [exec, execTaskDispatch, full, if_false, Bool.false_eq_true]

theorem exec_taskDispatch_next {core : BitVec 12} {slot : BitVec 3} {e : Entry}
    (free : (s.slotAt core.toNat slot.toNat).task = none) (next : s.nextEntry core.toNat = some e) :
    exec (.taskDispatch core slot) s = .next (s.dispatch core.toNat slot.toNat e) := by
  have hf : (s.core core.toNat).freeSlot slot.toNat = true := Option.isNone_iff_eq_none.mpr free
  simp only [exec, execTaskDispatch, hf, next, if_true]

/-- The entry that a core would dispatch enters a free slot (13 R333). -/
theorem taskDispatch_starts {core : BitVec 12} {slot : BitVec 3} {e : Entry}
    (free : (s.slotAt core.toNat slot.toNat).task = none) (next : s.nextEntry core.toNat = some e) :
    Completes (.taskDispatch core slot) s (fun t => Starts s t core.toNat slot.toNat e) :=
  ⟨_, exec_taskDispatch_next free next, dispatch_starts ..⟩

/-! ### An idle core asks a neighbour for work (13 R334) -/

/-- An entry that a neighbour gives up for a region. -/
def stealable (rg : Nat × BitVec 16) (y : Entry) : Bool := !y.record.noSteal && y.root = rg.1 && y.record.rid == rg.2

/-- What an idle core's request does: of a region it may ask for, the neighbour's oldest entry that may be stolen leaves its
deque and is on its way; the next request goes to the next direction. -/
structure Asks (s t : State) (c d n : Nat) : Prop where
  given : ∃ rg ∈ s.stealRegions c n, (t.core c).stolen = (s.core n).deque.find? (stealable rg)
    ∧ ∀ y, (s.core n).deque.find? (stealable rg) = some y →
        (t.core n).deque = (s.core n).deque.filter (fun z => z.arrival ≠ y.arrival)
  askNext : (t.core c).askNext = BitVec.ofNat 2 (d + 1)
  slots : ∀ c' k, t.slotAt c' k = s.slotAt c' k
  bytes : SameBytes s t

theorem stealFrom_some {c d n : Nat} (h : s.stealFrom c = some (d, n)) : d < 4 ∧ s.stealRegions c n ≠ [] := by
  obtain ⟨x, hx, hd⟩ := List.exists_of_findSome?_eq_some h
  obtain ⟨i, -, rfl⟩ := List.mem_map.mp hx
  obtain ⟨m, -, hm⟩ := Option.bind_eq_some_iff.mp hd
  split at hm
  · cases hm
  · next regions =>
    cases hm
    exact ⟨Nat.mod_lt _ (by decide), fun e => regions (by rw [e]; rfl)⟩

/-- A core's slots do not change with its queues. -/
theorem slotAt_setCore_of_slots {c : Nat} {x : Core} (h : x.slots = (s.core c).slots) (c' k : Nat) :
    (s.setCore c x).slotAt c' k = s.slotAt c' k := by
  rw [State.slotAt, core_setCore]
  split
  · next hc => rw [← hc]; exact congrArg (Tab.get Slot.reset · k) h
  · rfl

/-- A core's entry has left its deque and is on its way to another. -/
def giveUp (s : State) (c n : Nat) (y : Entry) : State :=
  let t := s.setCore n { s.core n with deque := (s.core n).deque.filter (fun z => z.arrival ≠ y.arrival) }
  t.setCore c { t.core c with stolen := some y }

theorem stolen_giveUp (s : State) (c n : Nat) (y : Entry) : ((giveUp s c n y).core c).stolen = some y := by
  rw [giveUp, core_setCore, if_pos rfl]

theorem askNext_giveUp (s : State) (c n : Nat) (y : Entry) : ((giveUp s c n y).core c).askNext = (s.core c).askNext := by
  rw [giveUp, core_setCore, if_pos rfl, core_setCore]
  split
  · next h => rw [h]
  · rfl

theorem deque_giveUp (s : State) (c n : Nat) (y : Entry) :
    ((giveUp s c n y).core n).deque = (s.core n).deque.filter (fun z => z.arrival ≠ y.arrival) := by
  rw [giveUp, core_setCore]
  split
  · next h => rw [h, core_setCore, if_pos rfl]
  · rw [core_setCore, if_pos rfl]

theorem slotAt_giveUp (s : State) (c n : Nat) (y : Entry) (c' k : Nat) : (giveUp s c n y).slotAt c' k = s.slotAt c' k := by
  rw [giveUp, slotAt_setCore_of_slots, slotAt_setCore_of_slots] <;> rfl

/-- A core that has asked in a direction, with the choice of the region made. -/
def asked (s : State) (c d : Nat) : State :=
  ({ s with free := s.free + 1 } : State).setCore c { s.core c with askNext := BitVec.ofNat 2 (d + 1) }

theorem core_asked (s : State) (c d c' : Nat) :
    (asked s c d).core c' = if c = c' then { s.core c with askNext := BitVec.ofNat 2 (d + 1) } else s.core c' := core_setCore ..

theorem deque_asked (s : State) (c d n : Nat) : ((asked s c d).core n).deque = (s.core n).deque := by
  rw [core_asked]
  split
  · next h => rw [h]
  · rfl

theorem slotAt_asked (s : State) (c d c' k : Nat) : (asked s c d).slotAt c' k = s.slotAt c' k := by
  rw [asked, slotAt_setCore_of_slots] <;> rfl

/-- The region asked for is one of those that the core may ask for, and its entry is given up if there is one. -/
theorem askWork_some {c d n : Nat} (h : s.stealFrom c = some (d, n)) : ∃ rg ∈ s.stealRegions c n,
    s.askWork c = match (s.core n).deque.find? (stealable rg) with
      | none => asked s c d
      | some y => giveUp (asked s c d) c n y := by
  have regions := (stealFrom_some h).2
  refine ⟨(s.stealRegions c n).getD (s.choose (s.stealRegions c n).length).1 (0, 0), ?_, ?_⟩
  · have lt : (s.choose (s.stealRegions c n).length).1 < (s.stealRegions c n).length :=
      Nat.mod_lt _ (List.length_pos_iff.mpr regions)
    rw [← List.getElem_eq_getD (h := lt)]
    exact List.getElem_mem lt
  · rw [← deque_asked s c d, State.askWork, h]
    rfl

theorem askWork_asks {c d n : Nat} (none_comes : (s.core c).stolen = none) (h : s.stealFrom c = some (d, n)) :
    Asks s (s.askWork c) c d n := by
  obtain ⟨rg, mem, eq⟩ := askWork_some h
  have next : ((asked s c d).core c).askNext = BitVec.ofNat 2 (d + 1) := by rw [core_asked, if_pos rfl]
  rw [eq]
  cases found : (s.core n).deque.find? (stealable rg) with
  | none =>
    refine ⟨⟨rg, mem, ?_, ?_⟩, next, slotAt_asked s c d, fun _ => rfl⟩
    · rw [core_asked, if_pos rfl, found]
      exact none_comes
    · rw [found]
      rintro y ⟨⟩
  | some y =>
    refine ⟨⟨rg, mem, ?_, ?_⟩, ?_, fun c' k => ?_, fun _ => rfl⟩
    · rw [found]
      exact stolen_giveUp ..
    · rw [found]
      rintro _ ⟨⟩
      exact (deque_giveUp ..).trans (by rw [deque_asked])
    · exact (askNext_giveUp ..).trans next
    · exact (slotAt_giveUp ..).trans (slotAt_asked ..)

theorem free_isSome_iff (x : Core) : x.free.isSome = true ↔ ∃ j, j < 8 ∧ (x.slot j).task = none := by
  simp [Core.free, Core.freeSlot]

/-- The request of a core with a free slot and nothing to dispatch. -/
theorem steal_asks {core : BitVec 12} {d n : Nat} (none_comes : (s.core core.toNat).stolen = none)
    (free : ∃ j, j < 8 ∧ (s.slotAt core.toNat j).task = none) (idle : s.nextEntry core.toNat = none)
    (h : s.stealFrom core.toNat = some (d, n)) :
    Completes (.steal core (BitVec.ofNat 2 d)) s (fun t => Asks s t core.toNat d n) := by
  refine ⟨_, ?_, askWork_asks none_comes h⟩
  have dir : (BitVec.ofNat 2 d).toNat = d := by
    rw [BitVec.toNat_ofNat]
    exact Nat.mod_eq_of_lt (stealFrom_some h).1
  have room : (s.core core.toNat).free.isSome = true := (free_isSome_iff _).mpr free
  have may_ask : ¬((s.core core.toNat).free.isNone || (s.nextEntry core.toNat).isSome
      || (s.stealFrom core.toNat).map (·.1) ≠ some (BitVec.ofNat 2 d).toNat) = true := by
    rw [← Option.not_isSome, room, idle, h, dir]
    simp
  simp only [exec, execSteal, none_comes]
  rw [if_neg may_ask]

/-! ### A stolen entry arrives (13 R334, R335) -/

/-- An entry enters a core's ready queue, or waits for it where it is full; the slots stay (13 R332). -/
structure Admits (s t : State) (c : Nat) (e : Entry) : Prop where
  room : (s.core c).ready.length < 80 → e ∈ (t.core c).ready ∧ (t.core c).ready.length = (s.core c).ready.length + 1
  full : 80 ≤ (s.core c).ready.length → (t.core c).waiting = (s.core c).waiting ++ [e]
  slots : ∀ c' k, t.slotAt c' k = s.slotAt c' k

theorem slotAt_enter' (s : State) (c c' k : Nat) (e : Entry) : (s.enter' c e).slotAt c' k = s.slotAt c' k := by
  rw [State.slotAt, core_enter']
  split
  · next h => rw [← h]; rfl
  · rfl

theorem admitEntry_admits (s : State) (c : Nat) (e : Entry) : Admits s (s.admitEntry c e) c e := by
  unfold State.admitEntry
  split
  · next full =>
    rw [readyFull_iff] at full
    refine ⟨fun room => absurd full (Nat.not_le.mpr room), fun _ => ?_, slotAt_setCore_of_slots (by rfl)⟩
    rw [core_setCore, if_pos rfl]
  · next room =>
    rw [readyFull_iff] at room
    have perm := insertKey_perm s e (s.core c).ready
    refine ⟨fun _ => ?_, fun full => absurd full room, fun c' k => slotAt_enter' s c c' k e⟩
    rw [core_enter', if_pos rfl]
    exact ⟨perm.mem_iff.mpr List.mem_cons_self, perm.length_eq⟩

theorem stolen_admitEntry (s : State) (c : Nat) (e : Entry) : ((s.admitEntry c e).core c).stolen = (s.core c).stolen := by
  unfold State.admitEntry
  split
  · rw [core_setCore, if_pos rfl]
  · rw [core_enter', if_pos rfl]

section
variable {core : BitVec 12} {dir : BitVec 2} {e : Entry}

theorem exec_steal_arrives (coming : (s.core core.toNat).stolen = some e) (turn : (s.core core.toNat).askNext = dir + 1) :
    exec (.steal core dir) s = .next (s.stealArrives core.toNat e) := by
  simp only [exec, execSteal, coming, turn, if_true]

/-- The package once a stolen entry is no longer on its way. -/
def arrived (s : State) (c : Nat) : State := s.setCore c { s.core c with stolen := none }

theorem core_arrived (s : State) (c : Nat) : (arrived s c).core c = { s.core c with stolen := none } := by
  rw [arrived, core_setCore, if_pos rfl]

theorem free_arrived (s : State) (c : Nat) : ((arrived s c).core c).free = (s.core c).free := by
  rw [core_arrived]
  rfl

theorem slotAt_arrived (s : State) (c c' k : Nat) : (arrived s c).slotAt c' k = s.slotAt c' k := by
  rw [arrived, slotAt_setCore_of_slots]
  rfl

theorem stealArrives_dispatch {c j : Nat} (free : (s.core c).free = some j) (may : (arrived s c).mayRun c e = true) :
    s.stealArrives c e = (arrived s c).dispatch c j e := by
  rw [← free_arrived] at free
  unfold State.stealArrives
  extract_lets x t
  split
  · next k hk =>
    cases free.symm.trans hk
    exact if_pos may
  · next hk => cases free.symm.trans hk

theorem stealArrives_admit {c : Nat} (h : (s.core c).free = none ∨ (arrived s c).mayRun c e = false) :
    s.stealArrives c e = (arrived s c).admitEntry c e := by
  rw [← free_arrived] at h
  unfold State.stealArrives
  extract_lets x t
  split
  · next k hk =>
    have may := h.resolve_left fun hn => nomatch hn.symm.trans hk
    exact if_neg (Bool.eq_false_iff.mp may)
  · rfl

/-- To a dispatch it does not matter whether the entry is still on its way. -/
theorem Starts.of_arrived {t : State} {c k : Nat} (h : Starts (arrived s c) t c k e) : Starts s t c k e := by
  obtain ⟨slot, l1, early, deque, keeps, from_waiting, none_waits, slots, byte⟩ := h
  simp only [core_arrived, slotAt_arrived] at l1 deque keeps from_waiting none_waits slots byte
  refine ⟨?_, l1, early, deque, keeps, from_waiting, none_waits, slots, byte⟩
  rw [slot, startSlot, core_arrived]
  rfl

theorem Admits.of_arrived {t : State} {c : Nat} (h : Admits (arrived s c) t c e) : Admits s t c e := by
  obtain ⟨room, full, slots⟩ := h
  simp only [core_arrived, slotAt_arrived] at room full slots
  exact ⟨room, full, slots⟩

/-- It is dispatched where a slot is free that it may take. -/
theorem steal_starts {j : Nat} (coming : (s.core core.toNat).stolen = some e) (turn : (s.core core.toNat).askNext = dir + 1)
    (free : (s.core core.toNat).free = some j) (may : (arrived s core.toNat).mayRun core.toNat e = true) :
    Completes (.steal core dir) s (fun t => Starts s t core.toNat j e ∧ (t.core core.toNat).stolen = none) := by
  refine ⟨_, exec_steal_arrives coming turn, ?_⟩
  rw [stealArrives_dispatch free may]
  exact ⟨(dispatch_starts ..).of_arrived, by rw [stolen_dispatch, core_arrived]⟩

/-- Where none is, it enters the ready queue, or waits for it. -/
theorem steal_admits (coming : (s.core core.toNat).stolen = some e) (turn : (s.core core.toNat).askNext = dir + 1)
    (h : (s.core core.toNat).free = none ∨ (arrived s core.toNat).mayRun core.toNat e = false) :
    Completes (.steal core dir) s (fun t => Admits s t core.toNat e ∧ (t.core core.toNat).stolen = none) := by
  refine ⟨_, exec_steal_arrives coming turn, ?_⟩
  rw [stealArrives_admit h]
  exact ⟨(admitEntry_admits ..).of_arrived, by rw [stolen_admitEntry, core_arrived]⟩

end

/-! ### A record too long for its place in the spill area -/

theorem byte_dispatch_of_none_waits {c : Nat} (k : Nat) (e : Entry) (h : (s.core c).waiting = []) (q : Nat) :
    (s.dispatch c k e).byte q = (unqueue s c e).byte q := by
  rw [dispatch_eq, byte_acquire, enterWaiting_nil]
  · rfl
  · rw [core_started]
    exact h

/-- An entry of region 0 of the root placed at core 0, whose record has these arguments. -/
def entryOf (args : List Reg) (n : Nat) : Entry :=
  { record := { entry := 0, flags := 0, group := 0, ts := 0, rid := 0, args := args }
    addr := 0, root := 1, arrival := n, origin := .package }

/-- Of 41 arguments, the first 40 end with the spill area where the entry is the 80th, and the last, 1, is beyond it. -/
def longEntry : Entry := entryOf (List.replicate 40 0 ++ [1]) 80

/-- An entry with six arguments. -/
def shortEntry (n : Nat) : Entry := entryOf (List.replicate 6 0) n

def shortEntries : List Entry := (List.range 79).map (fun i => shortEntry (i + 1))

/-- Core 0 has a task in its deque and a full ready queue with a long entry at its end. -/
def overlongState : State :=
  { State.reset with
    cores := [(0, { Core.reset with deque := [shortEntry 0], ready := shortEntries ++ [longEntry] })]
    roots := [(1, { regions := [Region.default], vf := 1, tag := none, clo := 0, chi := 0, preempt := none })] }

theorem overlongState_dispatches : (overlongState.slotAt 0 0).task = none
    ∧ overlongState.nextEntry 0 = some (shortEntry 0) ∧ (overlongState.core 0).ready.length ≤ 80 := by
  decide +kernel

theorem overlongState_ready : (overlongState.core 0).ready.filter (fun y => y.arrival ≠ (shortEntry 0).arrival)
    = shortEntries ++ [longEntry] := by decide +kernel

/-- The byte after the spill area of core 0 is the first of core 1's larder; the long entry reaches it. -/
theorem overlongState_byte : overlongState.byte (larderAt 0 0x10000) = 0
    ∧ (overlongState.dispatch 0 0 (shortEntry 0)).byte (larderAt 0 0x10000) = 1 := by
  refine ⟨rfl, ?_⟩
  rw [byte_dispatch_of_none_waits _ _ rfl, unqueue, overlongState_ready, byte_setReady_concat _ _ (by decide), byte_poke]
  decide +kernel

/-- Refutes O49: of every state with at most 80 entries in the ready queue it says that a dispatch leaves each byte outside
the spill area as it was, but an entry there fits its 80 bytes only while its record has the six arguments of 01 Table 1.4,
and the model's `Record` may hold more. In `overlongState` one of 41 is written on into the larder of core 1. Of records of
six arguments, and in all else, what O49 says holds: `taskDispatch_starts` with `dispatchSlot_common` and the lemmas beside it,
`exec_taskDispatch_busy`, `steal_asks`, `steal_starts` and `steal_admits`. -/
theorem not_dispatchAndSteal : ¬ Obligations.DispatchAndSteal := by
  unfold Obligations.DispatchAndSteal
  intro h
  obtain ⟨free, next, room⟩ := overlongState_dispatches
  obtain ⟨before, after⟩ := overlongState_byte
  obtain ⟨dispatches, -⟩ := h overlongState 0 0 (shortEntry 0)
  obtain ⟨t, ht, starts⟩ := dispatches free next
  cases (exec_taskDispatch_next free next).symm.trans ht
  obtain ⟨-, -, -, -, -, -, -, -, -, -, -, -, -, -, -, -, -, -, -, bytes⟩ := starts
  have same := bytes room (larderAt 0 0x10000) (by decide)
  exact absurd (after.symm.trans (same.trans before)) (by decide)

end Sys2Proof.Laws
end

section
/-! PROOFS: decoding undoes encoding for every row of the opcode table, and words of the tables decoded (03 R63 to R80). -/

namespace Sys2Proof.Laws.RoundTrip

/-- The rows put together: those with bits by the lemma about their fields, the operations and events without bits by
having no encoding (03 R63 to R80). -/
theorem statement_all : ∀ i : Instr, Statement i
  | .add .. => add _ _ _ | .sub .. => sub _ _ _ | .and .. => and _ _ _ | .or .. => or _ _ _ | .xor .. => xor _ _ _
  | .shl .. => shl _ _ _ | .shr .. => shr _ _ _ | .sha .. => sha _ _ _ | .min .. => min _ _ _ | .max .. => max _ _ _
  | .minu .. => minu _ _ _ | .maxu .. => maxu _ _ _ | .slt .. => slt _ _ _ | .sltu .. => sltu _ _ _
  | .sel .. => sel _ _ _ | .hint .. => hint _ _ _ _ | .mul .. => mul _ _ _ | .mulh .. => mulh _ _ _
  | .mulhu .. => mulhu _ _ _ | .div .. => div _ _ _ | .divu .. => divu _ _ _ | .rem .. => rem _ _ _
  | .remu .. => remu _ _ _ | .clz .. => clz _ _ | .ctz .. => ctz _ _ | .popc .. => popc _ _ | .brev .. => brev _ _
  | .bfx .. => bfx _ _ _ _ | .bfxs .. => bfxs _ _ _ _ | .bfi .. => bfi _ _ _ _ | .addi .. => addi _ _ _
  | .andi .. => andi _ _ _ | .ori .. => ori _ _ _ | .xori .. => xori _ _ _ | .slti .. => slti _ _ _
  | .sltui .. => sltui _ _ _ | .shli .. => shli _ _ _ | .shri .. => shri _ _ _ | .shai .. => shai _ _ _
  | .lea .. => lea _ _ _ _ _ | .lui .. => lui _ _ | .addpc .. => addpc _ _ | .fadd .. => fadd _ _ _ _ _
  | .fsub .. => fsub _ _ _ _ _ | .fmul .. => fmul _ _ _ _ _ | .ffma .. => ffma _ _ _ _ _ | .fdiv .. => fdiv _ _ _ _ _
  | .fsqrt .. => fsqrt _ _ _ _ | .fmin .. => fmin _ _ _ _ | .fmax .. => fmax _ _ _ _ | .fcmp .. => fcmp _ _ _ _ _
  | .fcvt .. => fcvt _ _ _ _ _ | .beq .. => beq _ _ _ _ | .bne .. => bne _ _ _ _ | .blt .. => blt _ _ _ _
  | .bge .. => bge _ _ _ _ | .bltu .. => bltu _ _ _ _ | .bgeu .. => bgeu _ _ _ _ | .jal .. => jal _ _
  | .jalr .. => jalr _ _ _ | .loop .. => loop _ _ _ | .dictionaryCode .. => dictionaryCode _ _ | .ld .. => ld _ _ _ _
  | .ldf .. => ldf _ _ _ _ | .st .. => st _ _ _ _ _ | .pf .. => pf _ _ _ | .amo .. => amo _ _ _ _ _ _
  | .cas .. => cas _ _ _ _ _ | .amof .. => amof _ _ _ _ _ _ | .redAdd .. => redAdd _ _ _ _ _ | .acq .. => acq _
  | .rel .. => rel _ | .fence .. => fence _ | .barInit .. => barInit _ _ | .barArr .. => barArr _ _
  | .barWait .. => barWait _ _ _ | .barInfo .. => barInfo _ _ | .barFree .. => barFree _
  | .cntInit .. => cntInit _ _ _ | .cntSig .. => cntSig _ | .cntWait .. => cntWait _ _ | .cntAdd .. => cntAdd _ _ _
  | .publish .. => publish _ _ | .redDecl .. => redDecl _ _ _ | .vld .. => vld _ _ _ _ _ | .vst .. => vst _ _ _ _ _
  | .vldx .. => vldx _ _ _ _ _ _ | .vstx .. => vstx _ _ _ _ _ _ | .vadd .. => vadd _ _ _ _ _ _
  | .vsub .. => vsub _ _ _ _ _ _ | .vmul .. => vmul _ _ _ _ _ _ | .vfma .. => vfma _ _ _ _ _ _
  | .vfms .. => vfms _ _ _ _ _ _ | .vrcp .. => vrcp _ _ _ _ _ | .vrsq .. => vrsq _ _ _ _ _
  | .vexp2 .. => vexp2 _ _ _ _ _ | .vlog2 .. => vlog2 _ _ _ _ _ | .vabs .. => vabs _ _ _ _ _
  | .vneg .. => vneg _ _ _ _ _ | .vcvt .. => vcvt _ _ _ _ _ _ | .vred .. => vred _ _ _ _ _ _
  | .vscan .. => vscan _ _ _ _ _ _ | .vdot .. => vdot _ _ _ _ _ _ | .vmin .. => vmin _ _ _ _ _
  | .vmax .. => vmax _ _ _ _ _ | .vand .. => vand _ _ _ _ _ | .vor .. => vor _ _ _ _ _ | .vxor .. => vxor _ _ _ _ _
  | .vshl .. => vshl _ _ _ _ _ | .vshr .. => vshr _ _ _ _ _ | .vsha .. => vsha _ _ _ _ _
  | .vcmp .. => vcmp _ _ _ _ _ _ _ | .vsel .. => vsel _ _ _ _ _ | .vperm .. => vperm _ _ _ _ _
  | .vpack .. => vpack _ _ _ _ | .vunpk .. => vunpk _ _ _ _ | .vbcast .. => vbcast _ _ _ _
  | .vmovg .. => vmovg _ _ _ _ | .vlut .. => vlut _ _ _ | .vlutset .. => vlutset _ | .pand .. => pand _ _ _
  | .por .. => por _ _ _ | .pxor .. => pxor _ _ _ | .pnot .. => pnot _ _ | .ppop .. => ppop _ _
  | .ewait .. => ewait _ _ | .qcfg .. => qcfg _ _ _ | .qput .. => qput _ _ _ | .qpop .. => qpop _ _ _
  | .qwait .. => qwait _ _ _ | .qstat .. => qstat _ _ | .skrd .. => skrd _ _ | .skwr .. => skwr _ _
  | .srw .. => srw _ _ _ | .engineQueueEntry .. => engineQueueEntry _ _ _ _ _ _ _ _ | .msg .. => msg _ _ _ _
  | .msgh .. => msgh _ _ _ _ | .cntBind .. => cntBind _ _ _ | .spawn .. => spawn _ _ | .tself .. => tself _
  | .nput .. => nput _ _ | .nget .. => nget _ _ | .npeek .. => npeek _ _ | .ncfg .. => ncfg _ _
  | .convOpen .. => convOpen _ _ | .convPut .. => convPut _ _ | .convClose .. => convClose _ _ | .meet .. => meet _ _
  | .depart .. => depart _ | .split .. => split _ _ _ | .gate .. => gate _ | .mbld .. => mbld _ | .mbst .. => mbst _
  | .mbpop .. => mbpop _ | .mbfst .. => mbfst _ | .mbnxt .. => mbnxt _ _ | .mtset .. => mtset _ _ _
  | .mfld .. => mfld _ _ _ _ | .mfst .. => mfst _ _ _ _ | .mfadd .. => mfadd _ _ _ _ | .lkreq .. => lkreq _ _ _
  | .lktry .. => lktry _ _ _ | .lkup .. => lkup _ _ _ | .lkdn .. => lkdn _ _ _ | .lkrel .. => lkrel _ _
  | .lkq .. => lkq _ _ | .lktab .. => lktab _ _ | .dict .. => dict _ _ | .tlbi .. => tlbi _ _ | .l1inv .. => l1inv _ _
  | .wbr .. => wbr _ _ | .invr .. => invr _ _ | .domset .. => domset _ _ _ | .attset .. => attset _ _ _
  | .waymask .. => waymask _ _ _ | .snap .. => snap _ | .caprd .. => caprd _ _ | .smc .. => smc _
  | .keydel .. => keydel _ _ | .budgetRead .. => budgetRead _ | .yield .. => yield _ | .sysrd .. => sysrd _ _
  | .syswr .. => syswr _ _ | .trap .. => trap _ | .tend => tend | .mband => mband | .mbor => mbor | .mbandn => mbandn
  | .xret => xret | .halt => halt
  | .mma .. | .bfly .. | .bflyc .. | .scan .. | .tsig .. | .tskip .. | .tld .. | .tst .. | .tzero ..
  | .tcvt .. | .ecfgClr .. | .ecfgSet .. | .ecfgLd .. | .ecfgSt .. | .cpy .. | .gth .. | .sct .. | .coll ..
  | .engineStallTimeout .. | .messageDelivery .. | .boundTaskReady .. | .mailboxEntryArrival ..
  | .convoyFlitArrival .. | .lockRevocation .. | .lockDropAtEnd .. | .budgetTrap .. | .woundTrap ..
  | .kill .. | .storeBufferDrain .. | .claimRecord .. | .l2Fill .. | .pageWalk .. | .taskDispatch ..
  | .steal .. | .hostMemAccess .. | .publicationAdvance .. | .lsqtail .. | .launch .. | .launchComplete ..
  | .preempt .. | .preemptSave .. | .restore .. | .nop .. | .ngsel .. | .retadd .. | .registerWrite ..
  | .partitionSwitch .. | .crcReplay .. | .retrainStart .. | .retrainEnd .. | .portTraining ..
  | .arrivalToken .. | .releaseToken .. | .proxyAbsenceToken .. | .presenceToken .. | .barrierTimeout ..
  | .throttle .. | .recovery .. | .fetchFault .. | .illegalInstruction .. | .remoteAccessArrival ..
  | .keyInstall | .trip | .powerOn | .snapshotLatch | .snapshotCopy | .lossOfPower => none' _ rfl

end Sys2Proof.Laws.RoundTrip

namespace Sys2Proof.Laws

/-- Settles O57, row by row of the opcode table: a field reads back from its own place (`place_read`), no other field
reaches it (`place_apart`), and the fixed bits of a row let no earlier row of the decoder match (`find_row`). -/
theorem encodeDecodeAgree : Obligations.EncodeDecodeAgree := RoundTrip.statement_all

/-- Words of the majors that no family has (03 R71). -/
theorem reserved_words : ∀ w ∈ [0x00000000, 0x0000007A, 0x0000007C],
    decode (bytesOfNat 4 w) = .error (.reservedMajor (BitVec.ofNat 32 w)) := by
  decide +kernel

/-- Settles O55: each of the 22 words is decoded, and then those of the reserved majors. -/
theorem decodeWords : Obligations.DecodeWords := by
  unfold Obligations.DecodeWords
  iterate 22 refine ⟨by decide +kernel, ?_⟩
  exact fun w h => ⟨_, reserved_words w h⟩

end Sys2Proof.Laws
end

section
/-! PROOFS: what a synchronous trap changes (11 R276 to R280), and that an instruction with a field that its entry does not
accept takes one and does nothing else (03 R67). -/

namespace Sys2Proof.Laws

open Machine Safety

variable {s t : State}

/-! ### A slot replaced -/

/-- The running slot has become x, and nothing else of the package has changed. -/
structure Becomes (s : State) (x : Slot) (t : State) : Prop where
  me : t.me = x
  others : OtherSlots s t
  package : SamePackage s t
  cores : SameCores s t

theorem cur_of_samePackage (h : SamePackage s t) : t.cur = s.cur := by
  unfold SamePackage at h
  have cur := congrArg State.cur h
  exact cur

theorem sameBytes_of_samePackage (h : SamePackage s t) : SameBytes s t := by
  unfold SamePackage at h
  have mem := congrArg (fun u => Tab.get Memory.blank u.mem) h
  exact congrFun mem

theorem not_running {c k : Nat} (h : c ≠ s.cur.core ∨ k ≠ s.cur.slot) : ¬(s.cur.core = c ∧ s.cur.slot = k) := by
  rintro ⟨rfl, rfl⟩
  exact h.elim (· rfl) (· rfl)

theorem setMe_becomes (s : State) (x : Slot) : Becomes s x (s.setMe x) where
  me := me_setMe s x
  others c k h := by
    rw [slotAt_setMe, if_neg (not_running h)]
  package := rfl
  cores c := by
    unfold SameCore State.setMe State.setSlotAt
    rw [core_setCore]
    split
    next h => subst h; rfl
    next => rfl

theorem Becomes.trans {x y : Slot} {u : State} (h : Becomes s x t) (g : Becomes t y u) : Becomes s y u where
  me := g.me
  others c k hk := (g.others c k (by rwa [cur_of_samePackage h.package])).trans (h.others c k hk)
  package := g.package.trans h.package
  cores c := (g.cores c).trans (h.cores c)

/-! ### The registers that a trap writes (11 Tables 11.1, 11.3) -/

/-- XCAUSE field by field. -/
theorem trapCause_fields (x : Slot) (q : Core) (k : Nat) (cause : Cause) :
    let v := trapCause x q k cause 0
    v.getLsbD 63 = true ∧ v.getLsbD 62 = x.xcause.getLsbD 63 ∧ v.getLsbD 61 = decide (cause = 0x11)
      ∧ v.extractLsb' 0 8 = cause ∧ v.extractLsb' 8 8 = 0
      ∧ v.extractLsb' 48 5 = BitVec.ofNat 5 (pending q.mixq k x.runId)
      ∧ v.extractLsb' 40 5 = BitVec.ofNat 5 (pending q.dataq k x.runId) := by
  unfold trapCause
  simp (disch := omega) only [BitVec.extractLsb'_append_eq_of_le, BitVec.extractLsb'_append_eq_of_add_le]
  refine ⟨?_, ?_, ?_, BitVec.extractLsb'_eq_self, BitVec.extractLsb'_eq_self, BitVec.extractLsb'_eq_self,
    BitVec.extractLsb'_eq_self⟩
  all_goals simp only [BitVec.getLsbD_append]
  · simp
  · simp [Slot.hnd]
  · simp [Cause.smc, Bool.beq_eq_decide_eq]

/-- A slot set as a trap sets it, whether or not the fetch of the handler waits, has taken the trap. -/
theorem Becomes.traps {u : State} {cause : Cause} {xval xpc : Reg} {e : Option Cause}
    (h : Becomes u { trapSlot s.me s.here s.cur.slot cause xval xpc with entering := e } t) : Traps s t cause xval xpc := by
  obtain ⟨hnd, phnd, nsret, hcause, prior, mpend, dpend⟩ := trapCause_fields s.me s.here s.cur.slot cause
  have hme := h.me
  unfold Traps State.base State.g State.v State.p
  rw [hme]
  exact ⟨hnd, phnd, nsret, hcause, prior, mpend, dpend, rfl, rfl, rfl, rfl, fun _ => rfl, fun _ => rfl, fun _ => rfl,
    rfl, rfl, rfl, rfl, rfl⟩

/-! ### Taking a trap (11 R276 to R280) -/

/-- A fault that is no memory error and no key fault is recorded nowhere else. -/
theorem noteFault_of_plain {cause : Cause} (hm : cause ≠ Cause.memory) (hk : cause ≠ Cause.key) (c k : Nat)
    (xval : Reg) : s.noteFault c k cause xval = s := by
  simp [State.noteFault, hm, hk]

/-- A synchronous trap of a slot that waits for nothing: all that changes is the slot, which becomes as the trap sets it, and
what the trap abandons. -/
theorem trapHere_becomes {cause : Cause} {xval : Reg} (hm : cause ≠ Cause.memory) (hk : cause ≠ Cause.key)
    (ready : Ready s) (may : TrapReady s cause xval s.base) :
    ∃ e, Becomes (s.abandon s.cur.core s.cur.slot)
      { trapSlot s.me s.here s.cur.slot cause xval s.base with entering := e } (s.trapHere cause xval) := by
  obtain ⟨slot, fetched⟩ := may
  rw [noteFault_of_plain hm hk] at fetched
  have first := setMe_becomes (s.abandon s.cur.core s.cur.slot) (trapSlot s.me s.here s.cur.slot cause xval s.base)
  have hs : s.trapHere cause xval =
      let u := (s.abandon s.cur.core s.cur.slot).setMe (trapSlot s.me s.here s.cur.slot cause xval s.base)
      match u.handlerFaults s.cur.core s.cur.slot cause with
      | some false => u
      | some true => u.doubleFault s.cur.core s.cur.slot cause
      | none => u.setMe { trapSlot s.me s.here s.cur.slot cause xval s.base with entering := some cause } := by
    have ready' : (s.slotAt s.cur.core s.cur.slot).wait = .none := ready
    unfold State.trapHere State.takeTrap
    simp only [ready', noteFault_of_plain hm hk, Nat.not_le.mpr slot, if_false]
    rfl
  rw [hs]
  dsimp only
  split
  next => exact ⟨none, first⟩
  next faults => exact absurd faults fetched
  next => exact ⟨some cause, first.trans (setMe_becomes _ _)⟩

/-- What a trap that is no memory error and no key fault does, and that it does nothing else. -/
theorem trapHere_traps {cause : Cause} {xval : Reg} (hm : cause ≠ Cause.memory) (hk : cause ≠ Cause.key)
    (ready : Ready s) (may : TrapReady s cause xval s.base) :
    let t := s.trapHere cause xval
    Traps s t cause xval s.base ∧ SameBytes s t ∧ OtherSlots s t ∧ SamePackage (s.abandon s.cur.core s.cur.slot) t
      ∧ SameCores s t := by
  obtain ⟨e, h⟩ := trapHere_becomes hm hk ready may
  exact ⟨h.traps, sameBytes_of_samePackage (s := s.abandon _ _) h.package, h.others, h.package, h.cores⟩

/-! ### Illegal fields (03 R67) -/

section

variable {i : Instr} (h : legal i = false)

include h

theorem regOp_illegal {d a b : BitVec 5} {f : Reg → Reg → Reg} :
    regOp i d a b f s = .next (s.illegal i) := simple_illegal h
theorem immOp_illegal {d a : BitVec 5} {f : Reg → Reg} : immOp i d a f s = .next (s.illegal i) := simple_illegal h
theorem fpOp_illegal {d a b : BitVec 5} {f : BitVec 1} {op : BitVec 5 → Nat → Nat → Fp → Nat × Fp} :
    fpOp i d a b f op s = .next (s.illegal i) := simple_illegal h
theorem laneOp_illegal {d a b : BitVec 5} {p w : Nat} {f : Nat → Nat → Nat → Fp → Nat × Fp} :
    laneOp i d a b p w f s = .next (s.illegal i) := simple_illegal h

end

/-- Every instruction tries its fields first: one that it does not accept takes the illegal-instruction trap. -/
theorem exec_illegal {i : Instr} (h : legal i = false) : exec i s = .next (s.illegal i) := by
  cases i with dsimp only [exec]
  | bfx | bfxs => exact immOp_illegal h
  | bfi => exact regOp_illegal h
  | fadd | fsub | fmul | fdiv | fsqrt | fcmp => exact fpOp_illegal h
  | vadd | vsub | vmul | vfma | vfms | vrcp | vrsq | vexp2 | vlog2 | vabs | vneg | vmin | vmax | vand | vor | vxor | vshl
  | vshr | vsha => exact laneOp_illegal h
  | ffma | fcvt | acq | vcvt | vred | vscan | vdot | vcmp | vsel | vperm | vbcast | vmovg | vpack | vunpk | vlut | pand | por
  | pxor | pnot | ppop | mtset => exact simple_illegal h
  | ld | ldf | st | amo | cas | amof | redAdd | rel | vld | vst | vldx | vstx | engineQueueEntry | lktry | lkdn | yield
  | sysrd | syswr => exact run_illegal h
  | lkreq | lkup => exact runWith_illegal h
  | _ => cases h

/-- Settles O58: an instruction tries its fields before anything else (`exec_illegal`), and the trap that it then takes
changes the slot alone, but for what it abandons (`trapHere_becomes`). -/
theorem illegalForms : Obligations.IllegalForms := by
  intro s i _ illegal ready x may
  exact ⟨s.illegal i, exec_illegal illegal, trapHere_traps (by decide) (by decide) ready may⟩

end Sys2Proof.Laws
end

section
/-! PROOFS: an engine command captured as it enters its queue, and what its entry changes (01 R20, 03 R78, 08 R197). -/

namespace Sys2Proof.Laws

open Machine Safety

variable {s : State}

/-! ### A core beside its slots -/

/-- What is said of the running core beside its slots is not changed by a write of the running slot. -/
theorem here_setMe {α : Type} (f : Core → α) (hf : ∀ x k y, f (x.setSlot k y) = f x) (s : State) (x : Slot) :
    f (s.setMe x).here = f s.here := by
  simp only [State.here, State.setMe, State.setSlotAt, setCore_cur, core_setCore, if_true, hf]

theorem me_adv (s : State) : s.adv.me = { s.me with pc := s.after } := me_setMe ..

theorem slotAt_adv_other {c k : Nat} (h : c ≠ s.cur.core ∨ k ≠ s.cur.slot) : s.adv.slotAt c k = s.slotAt c k := by
  rw [State.adv, State.goto, slotAt_setMe, if_neg (not_running h)]

/-! ### A command captured (01 R20, 08 R197) -/

theorem bits_lt (w : Word) (hi lo : Nat) : bits w hi lo < 2 ^ (hi + 1 - lo) := Nat.mod_lt _ (Nat.two_pow_pos _)

/-- The counter's register field is 0 as a register where it is 0 as a number. -/
theorem counterField_eq_zero_iff (w : Word) : BitVec.ofNat 5 (bits w 30 26) = 0 ↔ bits w 30 26 = 0 := by
  have small : bits w 30 26 < 32 := bits_lt w 30 26
  constructor
  · intro h
    have := congrArg BitVec.toNat h
    simpa [Nat.mod_eq_of_lt small] using this
  · intro h
    rw [h]
    rfl

/-! ### A command in its queue (03 R78, 08 R197) -/

variable (s) (m : Cmd)

/-- Whether a command is one of the data engine. -/
def isData (m : Cmd) : Bool := decide (11 ≤ m.op)

/-- The core whose queue a command has entered. -/
def enteredCore : Core :=
  let x := s.here
  let lfsr := if m.rm = 5 then lfsrSteps m.draws x.lfsr else x.lfsr
  let y := if isData m then { x with dataq := x.dataq ++ [m], dseq := m.seq, lfsr := lfsr }
    else { x with mixq := x.mixq ++ [m], mseq := m.seq, lfsr := lfsr }
  { y with l1 := y.l1.filter (fun z => !(s.claimLines (s.whoCmd s.cur.core m) m).any (fun e => e.1 = z.line)) }

/-- The slot that has put a command into its queue. -/
def enteredSlot (x : Slot) : Slot := if isData m then { x with dqseq := m.seq } else { x with mqseq := m.seq }

/-- The claims that a command makes as it enters its queue, not yet recorded at their homes (06 R128). -/
def enteredClaims : List Claim := (s.claimLines (s.whoCmd s.cur.core m) m).map (fun e =>
  { line := e.1, unit := e.2, core := s.cur.core, data := isData m, seq := m.seq, slot := m.slot, recorded := false })

theorem wait_enteredSlot (x : Slot) : (enteredSlot m x).wait = x.wait := by
  unfold enteredSlot
  split <;> rfl

/-- The package with more claims. -/
def claiming (s : State) (qs : List Claim) : State := { s with claims := s.claims ++ qs }

theorem slotAt_claiming (s : State) (qs : List Claim) (c k : Nat) : (claiming s qs).slotAt c k = s.slotAt c k := rfl
theorem here_claiming (s : State) (qs : List Claim) : (claiming s qs).here = s.here := rfl
theorem cur_claiming (s : State) (qs : List Claim) : (claiming s qs).cur = s.cur := rfl
theorem claims_claiming (s : State) (qs : List Claim) : (claiming s qs).claims = s.claims ++ qs := rfl
theorem byte_claiming (s : State) (qs : List Claim) (p : Nat) : (claiming s qs).byte p = s.byte p := rfl

theorem enter_eq : s.enter m = claiming
    ((s.setHere (enteredCore s m)).setMe (enteredSlot m (s.setHere (enteredCore s m)).me)) (enteredClaims s m) := rfl

theorem cur_enter : (s.enter m).cur = s.cur := by
  rw [enter_eq, cur_claiming, setMe_cur, setHere_cur]

theorem claims_enter_adv : (s.enter m).adv.claims = s.claims ++ enteredClaims s m := by
  rw [State.adv, State.goto, setMe_claims, enter_eq, claims_claiming, setMe_claims, setHere_claims]

theorem sameBytes_enter_adv : SameBytes s (s.enter m).adv := by
  intro p
  rw [State.adv, State.goto, byte_setMe, enter_eq, byte_claiming, byte_setMe, State.setHere, byte_setCore]

theorem slots_enteredCore : (enteredCore s m).slots = s.here.slots := by
  unfold enteredCore
  dsimp only
  split <;> rfl

theorem queue_enteredCore (d : Bool) :
    (enteredCore s m).queue d = if d = isData m then s.here.queue d ++ [m] else s.here.queue d := by
  unfold enteredCore
  cases d <;> cases isData m <;> rfl

theorem seq_enteredCore : (if isData m then (enteredCore s m).dseq else (enteredCore s m).mseq) = m.seq := by
  unfold enteredCore
  cases isData m <;> rfl

theorem lfsr_enteredCore :
    (enteredCore s m).lfsr = if m.rm = 5 then lfsrSteps m.draws s.here.lfsr else s.here.lfsr := by
  unfold enteredCore
  cases isData m <;> rfl

theorem slotAt_setHere_entered (c k : Nat) : (s.setHere (enteredCore s m)).slotAt c k = s.slotAt c k :=
  slotAt_setCore_of_slots (slots_enteredCore s m) c k

theorem me_setHere_entered : (s.setHere (enteredCore s m)).me = s.me := by
  rw [State.me, setHere_cur, slotAt_setHere_entered, State.me]

theorem slotAt_enter (c k : Nat) : (s.enter m).slotAt c k
    = if s.cur.core = c ∧ s.cur.slot = k then enteredSlot m s.me else s.slotAt c k := by
  rw [enter_eq, slotAt_claiming, slotAt_setMe, slotAt_setHere_entered, me_setHere_entered, setHere_cur]

theorem me_enter : (s.enter m).me = enteredSlot m s.me := by
  rw [State.me, cur_enter, slotAt_enter, if_pos ⟨rfl, rfl⟩]

theorem here_enter {α : Type} (f : Core → α) (hf : ∀ x k y, f (x.setSlot k y) = f x) :
    f (s.enter m).here = f (enteredCore s m) := by
  rw [enter_eq, here_claiming, here_setMe f hf, here_setHere]

theorem me_enter_adv : (s.enter m).adv.me = { enteredSlot m s.me with pc := s.after } := by
  have pc : (enteredSlot m s.me).pc = s.me.pc := by
    unfold enteredSlot
    split <;> rfl
  rw [me_adv, State.after, me_enter, cur_enter, pc, State.after]

theorem here_enter_adv {α : Type} (f : Core → α) (hf : ∀ x k y, f (x.setSlot k y) = f x) :
    f (s.enter m).adv.here = f (enteredCore s m) :=
  (here_setMe f hf (s.enter m) _).trans (here_enter s m f hf)

theorem queue_enter_adv (d : Bool) : (s.enter m).adv.here.queue d
    = if d = isData m then s.here.queue d ++ [m] else s.here.queue d :=
  (here_enter_adv s m (Core.queue · d) (fun _ _ _ => by cases d <;> rfl)).trans (queue_enteredCore s m d)

theorem otherQueue_enter_adv : if isData m then (s.enter m).adv.here.mixq = s.here.mixq
    else (s.enter m).adv.here.dataq = s.here.dataq := by
  split
  next data => exact (queue_enter_adv s m false).trans (if_neg (by simp [data]))
  next mixing => exact (queue_enter_adv s m true).trans (if_neg (by simp [mixing]))

theorem seq_enter_adv :
    (if isData m then (s.enter m).adv.here.dseq else (s.enter m).adv.here.mseq) = m.seq
      ∧ (if isData m then (s.enter m).adv.me.dqseq else (s.enter m).adv.me.mqseq) = m.seq := by
  constructor
  · exact (here_enter_adv s m (fun x => if isData m then x.dseq else x.mseq) (fun _ _ _ => rfl)).trans (seq_enteredCore s m)
  · rw [me_enter_adv, enteredSlot]
    cases isData m <;> rfl

theorem lfsr_enter_adv : (s.enter m).adv.here.lfsr = if m.rm = 5 then lfsrSteps m.draws s.here.lfsr else s.here.lfsr :=
  (here_enter_adv s m Core.lfsr (fun _ _ _ => rfl)).trans (lfsr_enteredCore s m)

theorem g_enter_adv (r : BitVec 5) : (s.enter m).adv.g r = s.g r := by
  rw [State.g, me_enter_adv, enteredSlot]
  cases isData m <;> rfl

theorem advanced_enter_adv : Advanced s (s.enter m).adv := by
  unfold Advanced
  rw [State.base, me_enter_adv]

theorem otherSlots_enter_adv : OtherSlots s (s.enter m).adv := by
  intro c k h
  rw [slotAt_adv_other (by rwa [cur_enter]), slotAt_enter, if_neg (not_running h)]

/-! ### The command's instruction -/

variable {s}

/-- What a command's entry into its queue comes to, as the queue and the gate of its walks stand. -/
theorem exec_engineQueueEntry {h : BitVec 25} {w1 w2 w3 w4 w5 w6 w7 : BitVec 32}
    (ok : legal (.engineQueueEntry h w1 w2 w3 w4 w5 w6 w7) = true) (ready : Ready s) :
    let i : Instr := .engineQueueEntry h w1 w2 w3 w4 w5 w6 w7
    let m := s.capture h w1 w2 w3 w4 w5 w6 w7
    let gate := s.walkGate (s.whoCmd s.cur.core m) (m.runs.filter (fun x => x.1.writes))
    (16 ≤ (s.here.queue (isData m)).length ∨ gate = .wait → exec i s = .next (s.latch i))
      ∧ ((s.here.queue (isData m)).length < 16 → gate = .go [] → exec i s = .next (s.enter m).adv) := by
  intro i m gate
  have go : exec i s = .next _ := run_ready ok ready
  rw [go, Host.Outcome.next.injEq, Host.Outcome.next.injEq]
  constructor
  · intro held
    apply Act.next_stall
    rw [Act.get_bind]
    split
    next => rfl
    next room =>
      rw [show s.walkGate _ _ = .wait from held.resolve_left room]
      rfl
  · intro room opened
    apply Act.next_ok
    · rw [Act.get_bind]
      split
      next full => exact absurd full (Nat.not_le.mpr room)
      next =>
        rw [show s.walkGate _ _ = .go [] from opened]
        rfl
    · rw [me_enter_adv]
      exact (wait_enteredSlot m s.me).trans ready

section

variable (h : BitVec 25) (w1 w2 w3 w4 w5 w6 w7 : BitVec 32)

theorem ctr_capture : (s.capture h w1 w2 w3 w4 w5 w6 w7).ctr = if bits (cmdHeader h) 30 26 = 0 then none
    else some (s.g (BitVec.ofNat 5 (bits (cmdHeader h) 30 26))) :=
  if_congr (counterField_eq_zero_iff _) rfl rfl

theorem seq_capture : (s.capture h w1 w2 w3 w4 w5 w6 w7).seq
    = (if decide (11 ≤ bits (cmdHeader h) 10 7) then s.here.dseq else s.here.mseq) + 1 :=
  congrArg (· + 1) (if_congr decide_eq_true_iff.symm rfl rfl)

end

/-- Settles O21: the command captured is the one that the statement writes out (`ctr_capture`, `seq_capture`), and what its
entry changes is said field by field (`queue_enter_adv`, `seq_enter_adv`, `lfsr_enter_adv`, `claims_enter_adv`). -/
theorem commandEntry : Obligations.CommandEntry := by
  unfold Obligations.CommandEntry
  intro s h w1 w2 w3 w4 w5 w6 w7 ready i op data queue seq ring m w gate ok
  have captured : s.capture h w1 w2 w3 w4 w5 w6 w7 = m := calc
    _ = { s.capture h w1 w2 w3 w4 w5 w6 w7 with
          ctr := (s.capture h w1 w2 w3 w4 w5 w6 w7).ctr, seq := (s.capture h w1 w2 w3 w4 w5 w6 w7).seq } := rfl
    _ = m := by
      rw [ctr_capture, seq_capture]
      rfl
  obtain ⟨stays, enters⟩ := exec_engineQueueEntry ok ready
  rw [captured] at stays enters
  refine ⟨fun room opened => ⟨(s.enter m).adv, enters room opened, ?_⟩, stays⟩
  obtain ⟨seqCore, seqSlot⟩ := seq_enter_adv s m
  exact ⟨(queue_enter_adv s m data).trans (if_pos rfl), otherQueue_enter_adv s m, seqCore, seqSlot, lfsr_enter_adv s m,
    claims_enter_adv s m, g_enter_adv s m, advanced_enter_adv s m, sameBytes_enter_adv s m, otherSlots_enter_adv s m⟩

end Sys2Proof.Laws
end

section
/-! PROOFS: the cores and the cursor under what memory's homes do. `seat_f` says that the operation `f` changes neither;
what a fetch brings into a core's caches then leaves every slot as it is (03 R64, 12 R304). -/

namespace Sys2Proof.Laws

open Machine Safety

variable {s t : State}

/-! ### Operations that reach no core and not the cursor -/

/-- The cursor and the cores: what the homes of memory, the base dies and the report rings do not change. -/
def seat (s : State) : Cursor × Tab Core := (s.cur, s.cores)

theorem seat_ite {c : Prop} [Decidable c] {a b : State} {x : Cursor × Tab Core} (ha : seat a = x) (hb : seat b = x) :
    seat (if c then a else b) = x := by
  split
  · exact ha
  · exact hb

theorem seat_foldl {β : Type} (f : State → β → State) (hf : ∀ s b, seat (f s b) = seat s) (l : List β) (s : State) :
    seat (l.foldl f s) = seat s := by
  induction l generalizing s with
  | nil => rfl
  | cons b l ih => exact (ih _).trans (hf s b)

theorem seat_map_getD {β : Type} (o : Option β) (f : β → State) (hf : ∀ b, seat (f b) = seat s) :
    seat ((o.map f).getD s) = seat s := by
  cases o with
  | none => rfl
  | some b => exact hf b

theorem seat_faqAdd (s : State) (k pa : Nat) : seat (s.faqAdd k pa) = seat s := by
  unfold State.faqAdd
  extract_lets _ _ _ _
  refine seat_ite ?_ rfl
  split <;> rfl

theorem seat_devPut (s : State) (p : Nat) (b : Byte) : seat (s.devPut p b) = seat s := by
  unfold State.devPut
  split <;> rfl

theorem seat_touchLine (s : State) (line : Nat) : seat (s.touchLine line) = seat s := seat_map_getD _ _ fun _ => rfl

theorem seat_devWrite (s : State) (p : Nat) (bs : List Byte) : seat (s.devWrite p bs) = seat s := by
  induction bs generalizing s p with
  | nil => rfl
  | cons b bs ih => exact (ih ..).trans ((seat_devPut ..).trans (seat_touchLine ..))

theorem seat_raise (s : State) (fn : Nat) : seat (s.raise fn) = seat s := seat_ite rfl rfl

theorem seat_writeReport (s : State) (r : Report) : seat (s.writeReport r) = seat s := by
  unfold State.writeReport
  extract_lets _ _ t
  have ht : seat t = seat s := (seat_devWrite ..).trans (seat_devWrite ..)
  exact seat_ite (seat_faqAdd ..) (seat_ite (seat_ite ((seat_raise ..).trans ht) ht) (seat_devWrite ..))

theorem seat_report (s : State) (r : Report) : seat (s.report r) = seat s := seat_ite rfl (seat_writeReport ..)

theorem seat_lowSpace (s : State) (k : Nat) : seat (s.lowSpace k) = seat s := seat_ite (seat_report ..) rfl

theorem seat_compressTo (s : State) (line : Nat) (old : State) (need : Nat) (reserve : Bool) :
    seat (s.compressTo line old need reserve).1 = seat s := by
  unfold State.compressTo
  extract_lets
  split
  · exact seat_faqAdd ..
  · exact seat_lowSpace ..

theorem seat_compress (s : State) (line : Nat) (old : State) : seat (s.compress line old).1 = seat s := by
  unfold State.compress
  extract_lets _ zero t
  exact seat_compressTo t ..

theorem seat_backTry (s : State) (key : BitVec 12) (line : Nat) (bytes : Tab Byte) (bad : List Nat) :
    seat (s.backTry key line bytes bad).1 = seat s := by
  unfold State.backTry
  extract_lets
  split
  · exact seat_faqAdd ..
  · split
    · exact seat_faqAdd ..
    · split
      · exact seat_compress ..
      · rfl

theorem seat_writeBack (s : State) (l : L2Line) : seat (s.writeBack l) = seat s :=
  seat_ite (seat_ite ((seat_faqAdd ..).trans (seat_backTry ..)) (seat_backTry ..)) rfl

theorem seat_evict (s : State) (l : L2Line) : seat (s.evict l) = seat s := seat_writeBack ..

theorem seat_atBase (s : State) (l : Loc) : seat (s.atBase l) = seat s := seat_ite (seat_foldl _ seat_evict _ _) rfl

theorem seat_useHome (s : State) (l : Loc) : seat (s.useHome l) = seat s :=
  seat_ite rfl (seat_ite (seat_atBase ..) (seat_map_getD _ _ fun _ => rfl))

/-! ### Fills of a core's caches -/

/-- The cursor and every slot are as they were. -/
def SameSlots (s t : State) : Prop := t.cur = s.cur ∧ ∀ c k, t.slotAt c k = s.slotAt c k

theorem SameSlots.refl (s : State) : SameSlots s s := ⟨rfl, fun _ _ => rfl⟩

theorem SameSlots.trans {u : State} (h : SameSlots s t) (g : SameSlots t u) : SameSlots s u :=
  ⟨g.1.trans h.1, fun c k => (g.2 c k).trans (h.2 c k)⟩

theorem sameSlots_of_seat (h : seat t = seat s) : SameSlots s t := by
  obtain ⟨cur, cores⟩ := Prod.mk.inj h
  exact ⟨cur, fun c k => by rw [State.slotAt, State.core, cores, State.slotAt, State.core]⟩

theorem sameSlots_setCore {c : Nat} {x : Core} (h : x.slots = (s.core c).slots) : SameSlots s (s.setCore c x) :=
  ⟨rfl, slotAt_setCore_of_slots h⟩

theorem sameSlots_keepTlb (s : State) (c k va : Nat) : SameSlots s (s.keepTlb c k va) := by
  unfold State.keepTlb
  extract_lets
  split
  · exact .refl s
  · split
    · exact sameSlots_setCore (s := { s with free := s.free + 1 }) rfl
    · exact .refl s

theorem sameSlots_keepCode (s : State) (c : Nat) (l : Loc) : SameSlots s (s.keepCode c l) := by
  unfold State.keepCode
  extract_lets line at0 x d ls
  split
  · exact .refl s
  · split
    · exact .refl s
    · exact .trans (sameSlots_of_seat (seat_useHome s at0)) (sameSlots_setCore (s := d.2) rfl)

/-- What the fetch of an instruction has brought in: the translations of its first and its last byte, and the lines of
its parcels. -/
def fetchKeeps (s : State) (c k pc : Nat) (bs : List Byte) (locs : List Loc) : State :=
  locs.foldl (fun v l => v.keepCode c l) ((s.keepTlb c k pc).keepTlb c k (pc + bs.length - 1))

theorem sameSlots_fetchKeeps (s : State) (c k pc : Nat) (bs : List Byte) (locs : List Loc) :
    SameSlots s (fetchKeeps s c k pc bs locs) := by
  have lines (ls : List Loc) (u : State) : SameSlots u (ls.foldl (fun v l => v.keepCode c l) u) := by
    induction ls generalizing u with
    | nil => exact .refl u
    | cons l ls ih => exact (sameSlots_keepCode u c l).trans (ih _)
  exact ((sameSlots_keepTlb ..).trans (sameSlots_keepTlb ..)).trans (lines ..)

end Sys2Proof.Laws
end

section
/-! PROOFS: a step runs the instruction decoded at the pc of the slot that the issue stage chooses, or the one that the slot
has decoded (01 R21, 03 R63 to R65, 13 R336). What a turn of a slot runs is said first, then what a turn of the agenda does. -/

namespace Sys2Proof.Laws

open Machine Safety

variable {s u : State} {c k tie : Nat} {i : Instr} {rest : List Turn}

/-! ### The choice of the issue stage (13 R336) -/

/-- A slot that may be chosen holds a task and waits for nothing. -/
theorem eligible_task (h : s.eligible c k = true) : (s.slotAt c k).task ≠ none ∧ (s.slotAt c k).wait = .none := by
  unfold State.eligible at h
  simp only [Bool.and_eq_true] at h
  obtain ⟨⟨⟨task, wait⟩, -⟩, -⟩ := h
  exact ⟨by rintro e; simp [e] at task, by simpa using wait⟩

/-- Whichever slot the issue stage chooses may be chosen. -/
theorem eligible_of_issueSlot (h : s.issueSlot c = some (k, tie)) : s.eligible c k = true := by
  unfold State.issueSlot at h
  extract_lets x able g t at h
  split at h
  next favoured =>
    obtain ⟨e, -⟩ := Prod.mk.inj (Option.some.inj h)
    exact e ▸ favoured
  next all oldest order _ =>
    have able_of_oldest {j : Nat} (hj : j ∈ oldest) : s.eligible c j = true :=
      (List.mem_filter.mp (List.mem_filter.mp hj).1).2
    clear_value oldest order
    match oldest, h with
    | [j], h =>
      obtain ⟨e, -⟩ := Prod.mk.inj (Option.some.inj h)
      exact e ▸ able_of_oldest (List.mem_singleton_self _)
    | _ :: _ :: _, h =>
      obtain ⟨j, found, e⟩ := Option.map_eq_some_iff.mp h
      cases e
      exact able_of_oldest (List.contains_iff_mem.mp (List.find?_some found))

/-! ### A turn of a slot -/

/-- No kill and no trap is due at a slot. -/
def Calm (s : State) (c k : Nat) : Prop :=
  (s.slotAt c k).overrun < 4096
    ∧ (s.takesPending c k = false ∨ ((s.slotAt c k).budgetDue = false ∧ (s.slotAt c k).wound = none))

theorem Calm.checks (h : Calm s c k) : ¬Config.killGrace ≤ (s.slotAt c k).overrun
    ∧ (s.takesPending c k && (s.slotAt c k).budgetDue) = false
    ∧ (s.takesPending c k && (s.slotAt c k).wound.isSome) = false := by
  obtain ⟨alive, quiet⟩ := h
  refine ⟨Nat.not_le.mpr alive, ?_⟩
  rcases quiet with no | ⟨budget, wound⟩
  · simp [no]
  · simp [budget, wound]

/-- The cursor at the beginning of a slot's turn. -/
def atTurn (s : State) (c k : Nat) : State := { s with cur := { core := c, slot := k, len := 4, code := none } }

/-- The slot goes on with the instruction that it has decoded. -/
def atLatched (s : State) (c k : Nat) (l : Latched) : State :=
  ({ s with cur := { core := c, slot := k, len := l.len, code := l.code } } : State).setSlotAt c k
    { s.slotAt c k with latched := none }

/-- The state in which an instruction of some bytes that have been fetched runs. -/
def atFetched (s : State) (c k pc : Nat) (bs : List Byte) (locs : List Loc) : State :=
  { fetchKeeps s c k pc bs locs with cur := { core := c, slot := k, len := bs.length, code := none } }

theorem slotWork_idle (h : (s.slotAt c k).task = none) : s.slotWork c k = (none, atTurn s c k) := by
  have idle : (s.slotAt c k).task.isNone = true := by simp [h]
  exact if_pos idle

/-- A slot with a task and with nothing due that is parked does nothing. -/
theorem slotWork_parked (task : (s.slotAt c k).task ≠ none) (calm : Calm s c k) (h : (s.slotAt c k).parked = true) :
    s.slotWork c k = (none, atTurn s c k) := by
  obtain ⟨alive, budget, wound⟩ := calm.checks
  have busy : ¬(s.slotAt c k).task.isNone = true := by simp [task]
  exact (if_neg busy).trans ((if_neg alive).trans ((if_neg (ne_true_of_eq_false budget)).trans
    ((if_neg (ne_true_of_eq_false wound)).trans (if_pos h))))

/-- What a slot with a task and with nothing due does that is not parked. -/
def slotGoesOn (s : State) (c k : Nat) : Option Instr × State :=
  match (s.slotAt c k).latched with
  | some l => if (s.slotAt c k).owes (s.codeInstr c l.instr) then (none, s) else (some l.instr, atLatched s c k l)
  | none =>
    if (s.nextInstr c k).any (fun i => (s.slotAt c k).owes (s.codeInstr c i.1)) then (none, s) else s.fetchTurn c k

theorem slotWork_goesOn (task : (s.slotAt c k).task ≠ none) (calm : Calm s c k) (h : (s.slotAt c k).parked = false) :
    s.slotWork c k = slotGoesOn (atTurn s c k) c k := by
  obtain ⟨alive, budget, wound⟩ := calm.checks
  have busy : ¬(s.slotAt c k).task.isNone = true := by simp [task]
  exact (if_neg busy).trans ((if_neg alive).trans ((if_neg (ne_true_of_eq_false budget)).trans
    ((if_neg (ne_true_of_eq_false wound)).trans (if_neg (ne_true_of_eq_false h)))))

/-- A slot that has decoded an instruction for which it still waits for a reply does nothing. -/
theorem slotGoesOn_owes {l : Latched} (h : (s.slotAt c k).latched = some l)
    (owes : (s.slotAt c k).owes (s.codeInstr c l.instr) = true) : slotGoesOn s c k = (none, s) := by
  unfold slotGoesOn
  rw [h]
  exact if_pos owes

theorem slotGoesOn_latched {l : Latched} (h : (s.slotAt c k).latched = some l)
    (owes : (s.slotAt c k).owes (s.codeInstr c l.instr) = false) : slotGoesOn s c k = (some l.instr, atLatched s c k l) := by
  unfold slotGoesOn
  rw [h]
  exact if_neg (ne_true_of_eq_false owes)

theorem slotGoesOn_fetch (h : (s.slotAt c k).latched = none)
    (owes : ∀ i at', s.nextInstr c k = some (i, at') → (s.slotAt c k).owes (s.codeInstr c i) = false) :
    slotGoesOn s c k = s.fetchTurn c k := by
  have free : (s.nextInstr c k).any (fun i => (s.slotAt c k).owes (s.codeInstr c i.1)) = false := by
    cases next : s.nextInstr c k with
    | none => rfl
    | some p => exact owes p.1 p.2 next
  unfold slotGoesOn
  rw [h]
  exact if_neg (ne_true_of_eq_false free)

/-! ### The instruction at a slot's pc (03 R63, R64) -/

/-- The instruction that some bytes are run as: what they decode to, else the illegal instruction. -/
def fetchedInstr (bs : List Byte) : Instr :=
  match decode bs with
  | .ok (i, _) => i
  | .error _ => .illegalInstruction ((wordsOf bs).headD 0) 0

theorem nextInstr_fetched {bs : List Byte} {locs : List Loc} (h : (s.slotAt c k).latched = none)
    (fetch : s.fetch c k (s.slotFind c k) = .ok bs locs) {at' : Cursor} (e : s.nextInstr c k = some (i, at')) :
    ∃ n, decode bs = .ok (i, n) := by
  unfold State.nextInstr at e
  rw [h] at e
  simp only [fetch] at e
  split at e
  next j n decoded =>
    cases e
    exact ⟨n, decoded⟩
  next => cases e

theorem nextInstr_faulted {cause : Cause} {w : Reg} (h : (s.slotAt c k).latched = none)
    (fetch : s.fetch c k (s.slotFind c k) = .fault cause w) : s.nextInstr c k = none := by
  unfold State.nextInstr
  rw [h]
  simp only [fetch]

theorem fetchTurn_faulted {cause : Cause} {w : Reg} (fetch : s.fetch c k (s.slotFind c k) = .fault cause w) :
    s.fetchTurn c k = (some (.fetchFault cause w), s) := by
  unfold State.fetchTurn
  rw [fetch]

/-- A fetch that brings in bytes, of a slot that is not on its way into a handler. -/
theorem fetchTurn_fetched {bs : List Byte} {locs : List Loc}
    (fetch : (atTurn s c k).fetch c k ((atTurn s c k).slotFind c k) = .ok bs locs)
    (entering : (s.slotAt c k).entering = none) : (atTurn s c k).fetchTurn c k
      = (some (fetchedInstr bs), atFetched (atTurn s c k) c k (s.slotAt c k).pc.toNat bs locs) := by
  unfold State.fetchTurn
  split
  case h_4 bs' locs' e =>
    cases e.symm.trans fetch
    extract_lets pc smcFault s₁ cur s₂ x s₃
    have kept : SameSlots (atTurn s c k) s₁ := sameSlots_fetchKeeps ..
    have noFault : ¬smcFault = true := by
      have : ((atTurn s c k).slotAt c k).entering = none := entering
      simp [smcFault, this]
    have still : s₃ = s₂ := if_pos (show (s₁.slotAt c k).entering = none by rw [kept.2]; exact entering)
    have cursor : s₂ = atFetched (atTurn s c k) c k (s.slotAt c k).pc.toNat bs locs :=
      congrArg (fun cur : Cursor => { s₁ with cur := { cur with len := bs.length } }) kept.1
    rw [if_neg noFault, still, cursor]
    unfold fetchedInstr
    cases decode bs with
    | ok p => rfl
    | error e => rfl
  all_goals next e => nomatch fetch.symm.trans e

/-! ### What a turn of a slot runs -/

theorem slotTurn_rests (h : s.slotWork c k = (none, u)) : s.slotTurn c k = (none, u) := by
  unfold State.slotTurn
  rw [h]
  rfl

theorem slotTurn_runs (h : s.slotWork c k = (some i, u)) :
    s.slotTurn c k = (some i, u.past c k i (s.slotAt c k).latched.isSome) := by
  unfold State.slotTurn
  rw [h]
  rfl

section

variable (task : (s.slotAt c k).task ≠ none) (calm : Calm s c k) (awake : (s.slotAt c k).parked = false)

include task calm awake

/-- A slot goes on with the instruction that it has decoded, whatever its bytes are by now (01 R21, 03 R64). -/
theorem slotTurn_latched {l : Latched} (h : (s.slotAt c k).latched = some l)
    (owes : (s.slotAt c k).owes (s.codeInstr c l.instr) = false) :
    s.slotTurn c k = (some l.instr, (atLatched s c k l).past c k l.instr true) := by
  have work := (slotWork_goesOn task calm awake).trans (slotGoesOn_latched (s := atTurn s c k) h owes)
  exact (slotTurn_runs work).trans (by rw [h]; rfl)

theorem slotTurn_owes {l : Latched} (h : (s.slotAt c k).latched = some l)
    (owes : (s.slotAt c k).owes (s.codeInstr c l.instr) = true) : s.slotTurn c k = (none, atTurn s c k) :=
  slotTurn_rests ((slotWork_goesOn task calm awake).trans (slotGoesOn_owes (s := atTurn s c k) h owes))

variable (h : (s.slotAt c k).latched = none)

include h

/-- A slot that has decoded nothing runs what the bytes at its pc decode to. -/
theorem slotTurn_fetched {bs : List Byte} {locs : List Loc} (entering : (s.slotAt c k).entering = none)
    (fetch : (atTurn s c k).fetch c k ((atTurn s c k).slotFind c k) = .ok bs locs)
    (owes : ∀ i n, decode bs = .ok (i, n) → (s.slotAt c k).owes (s.codeInstr c i) = false) :
    s.slotTurn c k = (some (fetchedInstr bs),
      (atFetched (atTurn s c k) c k (s.slotAt c k).pc.toNat bs locs).past c k (fetchedInstr bs) false) := by
  have free (i : Instr) (at' : Cursor) (e : (atTurn s c k).nextInstr c k = some (i, at')) :
      (s.slotAt c k).owes (s.codeInstr c i) = false := by
    obtain ⟨n, decoded⟩ := nextInstr_fetched (s := atTurn s c k) h fetch e
    exact owes i n decoded
  have work := (slotWork_goesOn task calm awake).trans
    ((slotGoesOn_fetch (s := atTurn s c k) h free).trans (fetchTurn_fetched fetch entering))
  exact (slotTurn_runs work).trans (by rw [h]; rfl)

/-- A fetch that faults is a fetch fault. -/
theorem slotTurn_faulted {cause : Cause} {w : Reg}
    (fetch : (atTurn s c k).fetch c k ((atTurn s c k).slotFind c k) = .fault cause w) :
    s.slotTurn c k = (some (.fetchFault cause w), (atTurn s c k).past c k (.fetchFault cause w) false) := by
  have nothing : (atTurn s c k).nextInstr c k = none := nextInstr_faulted (s := atTurn s c k) h fetch
  have work := (slotWork_goesOn task calm awake).trans
    ((slotGoesOn_fetch (s := atTurn s c k) h (by simp [nothing])).trans (fetchTurn_faulted fetch))
  exact (slotTurn_runs work).trans (by rw [h]; rfl)

end

theorem fetchedInstr_ok {bs : List Byte} {n : Nat} (h : decode bs = .ok (i, n)) : fetchedInstr bs = i := by
  simp only [fetchedInstr, h]

theorem fetchedInstr_error {bs : List Byte} {e : Reject} (h : decode bs = .error e) :
    fetchedInstr bs = .illegalInstruction ((wordsOf bs).headD 0) 0 := by
  simp only [fetchedInstr, h]

/-! ### A turn of the agenda, and a step -/

theorem step_of_agenda {a : Turn} (on : s.power = .on) (h : s.agenda = a :: rest) :
    step s = runTurn a { s with agenda := rest } := by
  have taken : s.takeTurn = (a, { s with agenda := rest }) := by
    unfold State.takeTurn
    rw [h]
  unfold step
  rw [taken]
  exact if_pos (by simp [on])

/-- With an empty agenda the core that the cursor names issues, or its slot goes on (log 4). -/
theorem step_of_no_agenda (on : s.power = .on) (h : s.agenda = []) : step s
    = runTurn (if (s.issueSlot s.cur.core).isSome then .issue s.cur.core else .slot s.cur.core s.cur.slot) s := by
  have taken : s.takeTurn
      = (if (s.issueSlot s.cur.core).isSome then .issue s.cur.core else .slot s.cur.core s.cur.slot, s) := by
    unfold State.takeTurn
    rw [h]
  unfold step
  rw [taken]
  exact if_pos (by simp [on])

theorem runTurn_runs {a : Turn} (h : s.turn a = (some i, u)) : runTurn a s = exec i u := by
  unfold runTurn
  rw [h]

theorem runTurn_rests {a : Turn} (h : s.turn a = (none, u)) : runTurn a s = .next u := by
  unfold runTurn
  rw [h]

/-- A core after the issue stage has chosen: it remembers which slot last won a tie. -/
def chosen (s : State) (c tie : Nat) : State := s.setCore c { s.core c with lastTie := tie }

theorem core_chosen (s : State) (c tie : Nat) : (chosen s c tie).core c = { s.core c with lastTie := tie } := by
  simp [chosen]

theorem slotAt_chosen (s : State) (c tie c' k : Nat) : (chosen s c tie).slotAt c' k = s.slotAt c' k :=
  slotAt_setCore_of_slots (s := s) (x := { s.core c with lastTie := tie }) rfl c' k

theorem codeInstr_chosen (s : State) (c tie : Nat) (i : Instr) : (chosen s c tie).codeInstr c i = s.codeInstr c i := by
  unfold State.codeInstr
  rw [core_chosen]

theorem takesPending_chosen (s : State) (c tie k : Nat) : (chosen s c tie).takesPending c k = s.takesPending c k := by
  unfold State.takesPending State.replyDue
  rw [slotAt_chosen, core_chosen]

theorem turn_issue_some (hc : c < 4096) (h : s.issueSlot c = some (k, tie)) :
    s.turn (.issue c) = (chosen s c tie).slotTurn c k := by
  have stage : (if c < Config.cores then s.issueSlot c else none) = some (k, tie) := (if_pos hc).trans h
  simp only [State.turn, stage]
  rfl

theorem turn_issue_none (h : s.issueSlot c = none) : s.turn (.issue c) = (none, s) := by
  have stage : (if c < Config.cores then s.issueSlot c else none) = none := by rw [h, ite_self]
  simp only [State.turn, stage]

theorem turn_slot (hc : c < 4096) (hk : k < 8) (h : s.goesOn c k = true) : s.turn (.slot c k) = s.slotTurn c k :=
  if_pos (by simp [Config.cores, hc, hk, h])

theorem turn_slot_waits (h : s.goesOn c k = false) : s.turn (.slot c k) = (none, s) :=
  if_neg (by simp [h])

theorem goesOn_of_not_eligible (h : s.eligible c k = false) : s.goesOn c k = true := by
  simp [State.goesOn, h]

theorem goesOn_of_calm (calm : Calm s c k) (h : s.eligible c k = true) : s.goesOn c k = false := by
  obtain ⟨alive, budget, wound⟩ := calm.checks
  simp [State.goesOn, alive, h, Bool.and_or_distrib_left, budget, wound]

/-! ### The issue stage's choice runs (13 R336, 03 R63 to R65) -/

/-- The slot that the issue stage has chosen holds a task and is not parked; what is due at it is what was. -/
theorem chosen_ready (h : s.issueSlot c = some (k, tie)) (calm : Calm s c k) : ((chosen s c tie).slotAt c k).task ≠ none
    ∧ Calm (chosen s c tie) c k ∧ ((chosen s c tie).slotAt c k).parked = false := by
  obtain ⟨task, wait⟩ := eligible_task (eligible_of_issueSlot h)
  unfold Calm
  rw [slotAt_chosen, takesPending_chosen]
  exact ⟨task, calm, by simp [Slot.parked, wait]⟩

section

variable (on : s.power = .on) (agenda : s.agenda = .issue c :: rest) (hc : c < 4096)
  (h : ({ s with agenda := rest } : State).issueSlot c = some (k, tie))

include on agenda hc h

theorem step_issue
    (turn : (chosen { s with agenda := rest } c tie).slotTurn c k = (some i, u)) : step s = exec i u :=
  (step_of_agenda on agenda).trans (runTurn_runs ((turn_issue_some hc h).trans turn))

variable (calm : Calm s c k)

include calm

theorem step_issue_latched {l : Latched} (latched : (s.slotAt c k).latched = some l)
    (owes : (s.slotAt c k).owes (s.codeInstr c l.instr) = false) : step s = exec l.instr
      (({ chosen { s with agenda := rest } c tie with
          cur := { core := c, slot := k, len := l.len, code := l.code } }.setSlotAt c k
        { s.slotAt c k with latched := none }).past c k l.instr true) := by
  obtain ⟨task, calm, awake⟩ := chosen_ready h calm
  have slot : (chosen { s with agenda := rest } c tie).slotAt c k = s.slotAt c k := slotAt_chosen ..
  have turn := slotTurn_latched task calm awake (by rwa [slot]) (by rwa [slot, codeInstr_chosen])
  rw [atLatched, slot] at turn
  exact step_issue on agenda hc h turn

variable (latched : (s.slotAt c k).latched = none)

include latched

theorem step_issue_fetched (entering : (s.slotAt c k).entering = none) {bs : List Byte} {locs : List Loc}
    (fetch : let v := atTurn (chosen { s with agenda := rest } c tie) c k
      v.fetch c k (v.slotFind c k) = .ok bs locs)
    (owes : ∀ i n, decode bs = .ok (i, n) → (s.slotAt c k).owes (s.codeInstr c i) = false) :
    step s = exec (fetchedInstr bs)
      ((atFetched (atTurn (chosen { s with agenda := rest } c tie) c k) c k (s.slotAt c k).pc.toNat bs locs).past c k
        (fetchedInstr bs) false) := by
  obtain ⟨task, calm, awake⟩ := chosen_ready h calm
  have slot : (chosen { s with agenda := rest } c tie).slotAt c k = s.slotAt c k := slotAt_chosen ..
  have turn := slotTurn_fetched task calm awake (by rwa [slot]) (by rwa [slot]) fetch
    (fun i n decoded => by rw [slot, codeInstr_chosen]; exact owes i n decoded)
  rw [slot] at turn
  exact step_issue on agenda hc h turn

theorem step_issue_faulted {cause : Cause} {w : Reg}
    (fetch : let v := atTurn (chosen { s with agenda := rest } c tie) c k
      v.fetch c k (v.slotFind c k) = .fault cause w) : step s = exec (.fetchFault cause w)
      ((atTurn (chosen { s with agenda := rest } c tie) c k).past c k (.fetchFault cause w) false) := by
  obtain ⟨task, calm, awake⟩ := chosen_ready h calm
  have slot : (chosen { s with agenda := rest } c tie).slotAt c k = s.slotAt c k := slotAt_chosen ..
  exact step_issue on agenda hc h (slotTurn_faulted task calm awake (by rwa [slot]) fetch)

end

/-! ### A slot goes on in its own turn (01 R21) -/

section

variable (on : s.power = .on) (agenda : s.agenda = .slot c k :: rest) (hc : c < 4096) (hk : k < 8)

include on agenda

theorem step_slot_waits (calm : Calm s c k) (h : ({ s with agenda := rest } : State).eligible c k = true) :
    step s = .next { s with agenda := rest } :=
  (step_of_agenda on agenda).trans
    (runTurn_rests (turn_slot_waits (goesOn_of_calm (s := { s with agenda := rest }) calm h)))

include hc hk

variable (h : ({ s with agenda := rest } : State).eligible c k = false)

include h

theorem step_slot_runs
    (turn : ({ s with agenda := rest } : State).slotTurn c k = (some i, u)) : step s = exec i u :=
  (step_of_agenda on agenda).trans (runTurn_runs ((turn_slot hc hk (goesOn_of_not_eligible h)).trans turn))

theorem step_slot_rests (turn : ({ s with agenda := rest } : State).slotTurn c k = (none, u)) :
    step s = .next u :=
  (step_of_agenda on agenda).trans (runTurn_rests ((turn_slot hc hk (goesOn_of_not_eligible h)).trans turn))

end

theorem not_eligible_of_idle (h : (s.slotAt c k).task = none) : s.eligible c k = false :=
  Bool.eq_false_iff.mpr fun e => (eligible_task e).1 h

theorem not_eligible_of_parked (h : (s.slotAt c k).parked = true) : s.eligible c k = false :=
  Bool.eq_false_iff.mpr fun e => by simp [Slot.parked, (eligible_task e).2] at h

theorem not_eligible_of_owes {l : Latched} (h : (s.slotAt c k).latched = some l)
    (owes : (s.slotAt c k).owes (s.codeInstr c l.instr) = true) : s.eligible c k = false := by
  have next : s.nextInstr c k = some (l.instr, { core := c, slot := k, len := l.len, code := l.code }) := by
    unfold State.nextInstr
    rw [h]
  simp [State.eligible, next, owes]

/-- Settles O54: what a turn of the agenda is follows from what the slot's turn runs (`slotTurn_fetched`,
`slotTurn_latched`, `slotTurn_owes`), and the issue stage changes nothing that such a turn looks at (`slotAt_chosen`,
`codeInstr_chosen`, `takesPending_chosen`). -/
theorem stepRunsDecoded : Obligations.StepRunsDecoded := by
  unfold Obligations.StepRunsDecoded
  refine ⟨fun s c rest on agenda hc => ⟨fun h => ?_, fun k tie h => ?_, fun k tie l h => ?_⟩,
    fun s c k rest on agenda hc hk => ?_, fun s on agenda => ?_⟩
  · exact (step_of_agenda on agenda).trans (runTurn_rests (turn_issue_none h))
  · rintro x pc v runs fetched ⟨latched, alive, quiet, entering⟩
    refine ⟨fun bs locs fetch => ?_, fun e w fetch => step_issue_faulted on agenda hc h ⟨alive, quiet⟩ latched fetch⟩
    have run := step_issue_fetched on agenda hc h ⟨alive, quiet⟩ latched entering fetch
    refine ⟨fun i n decoded owes => ?_, fun e undecoded => ?_⟩
    · rw [fetchedInstr_ok decoded] at run
      refine run fun j m e => ?_
      rw [decoded] at e
      cases e
      exact owes
    · rw [fetchedInstr_error undecoded] at run
      exact run fun j m e => nomatch undecoded.symm.trans e
  · intro x w alive quiet latched owes
    exact step_issue_latched on agenda hc h ⟨alive, quiet⟩ latched owes
  · intro u v x calm
    refine ⟨fun idle => ?_, fun calm task parked => ?_, fun calm able => ?_, fun l calm task awake latched owes => ?_,
      fun l calm task awake latched owes able => ?_⟩
    · exact step_slot_rests on agenda hc hk (not_eligible_of_idle idle) (slotTurn_rests (slotWork_idle idle))
    · exact step_slot_rests on agenda hc hk (not_eligible_of_parked parked)
        (slotTurn_rests (slotWork_parked (s := u) task calm parked))
    · exact step_slot_waits on agenda calm able
    · exact step_slot_rests on agenda hc hk (not_eligible_of_owes latched owes)
        (slotTurn_owes (s := u) task calm awake latched owes)
    · exact step_slot_runs on agenda hc hk able (slotTurn_latched (s := u) task calm awake latched owes)
  · have same : ({ s with agenda := [] } : State) = s := by rw [← agenda]
    have one (a : Turn) : step { s with agenda := [a] } = runTurn a { s with agenda := [] } :=
      step_of_agenda (s := { s with agenda := [a] }) on rfl
    rw [step_of_no_agenda on agenda, one, same]

end Sys2Proof.Laws
end

section
/-! PROOFS: what the shapes of the scalar instructions do: a result in a general register, and a transfer of control (05 R103
to R119), and nothing else. -/

namespace Sys2Proof.Laws

open Machine Safety

variable {s t : State} {x : Slot} {d a b : BitVec 5} {v pc : Reg} {i : Instr}

/-! ### The running slot replaced by itself with a register written and another pc -/

theorem Becomes.onlyMe (h : Becomes s x t) : OnlyMe s t :=
  ⟨h.package, sameBytes_of_samePackage h.package, h.cores, h.others⟩

theorem Becomes.goto (h : Becomes s x t) (pc : Reg) : Becomes s { x with pc := pc } (t.goto pc) := by
  have next := setMe_becomes t { t.me with pc := pc }
  rw [h.me] at next
  exact h.trans (by rwa [State.goto, h.me])

theorem Becomes.setG (h : Becomes s x t) (d : BitVec 5) (v : Reg) : Becomes s (x.setG d v) (t.setG d v) := by
  have next := setMe_becomes t (t.me.setG d v)
  rw [h.me] at next
  exact h.trans (by rwa [State.setG, h.me])

theorem setG_becomes (s : State) (d : BitVec 5) (v : Reg) : Becomes s (s.me.setG d v) (s.setG d v) := setMe_becomes ..

@[simp] theorem pc_setG (x : Slot) (d : BitVec 5) (v : Reg) : (x.setG d v).pc = x.pc := by
  unfold Slot.setG
  split <;> rfl

/-- A write of a general register changes the registers alone. -/
theorem but_g_setG (x : Slot) (d : BitVec 5) (v : Reg) : { x.setG d v with g := [] } = { x with g := [] } := by
  unfold Slot.setG
  split <;> rfl

theorem Becomes.after_eq (h : Becomes s x t) (pc : x.pc = s.me.pc) : t.after = s.after := by
  unfold State.after
  rw [h.me, pc, cur_of_samePackage h.package]

theorem after_setG (s : State) (d : BitVec 5) (v : Reg) : (s.setG d v).after = s.after :=
  (setG_becomes s d v).after_eq (pc_setG ..)

/-- The slot goes on at an address. -/
theorem goto_goesTo (s : State) (pc : Reg) : GoesTo s (s.goto pc) pc := by
  have h : Becomes s { s.me with pc := pc } (s.goto pc) := setMe_becomes ..
  unfold GoesTo SameSlotButPc State.base
  rw [h.me]
  exact ⟨rfl, rfl, h.onlyMe⟩

/-- A register is written and the slot goes on at an address. -/
theorem setG_goto (s : State) (d : BitVec 5) (v pc : Reg) : let t := (s.setG d v).goto pc
    WritesG s t d v ∧ SameSlotButG s t ∧ OnlyMe s t ∧ t.base = pc := by
  have h := (setG_becomes s d v).goto pc
  refine ⟨fun r => ?_, ?_, h.onlyMe, ?_⟩
  · unfold State.g
    rw [h.me]
    exact Slot.gReg_setG s.me d r v
  · unfold SameSlotButG
    rw [h.me]
    exact congrArg (fun y : Slot => { y with pc := 0 }) (but_g_setG s.me d v)
  · unfold State.base
    rw [h.me]

theorem setG_adv_gives (s : State) (d : BitVec 5) (v : Reg) : Safety.Gives s (s.setG d v).adv d v := by
  rw [State.adv, after_setG]
  obtain ⟨writes, slot, only, next⟩ := setG_goto s d v s.after
  exact ⟨writes, next, slot, only⟩

/-! ### The shapes -/

/-- An instruction that writes a register. -/
theorem completes_setG (f : State → Reg) (ok : legal i = true) (runs : exec i s = simple i (fun s => s.setG d (f s)) s) :
    Completes i s (Safety.Gives s · d (f s)) := ⟨_, runs.trans (simple_legal ok), setG_adv_gives s d (f s)⟩

/-- One whose value is a function of two registers. -/
theorem completes_regOp (f : Reg → Reg → Reg) (ok : legal i = true) (runs : exec i s = regOp i d a b f s)
    (hv : f (s.g a) (s.g b) = v) : Completes i s (Safety.Gives s · d v) := hv ▸ completes_setG _ ok runs

/-- One whose value is a function of a register. -/
theorem completes_immOp (f : Reg → Reg) (ok : legal i = true) (runs : exec i s = immOp i d a f s)
    (hv : f (s.g a) = v) : Completes i s (Safety.Gives s · d v) := hv ▸ completes_setG _ ok runs

end Sys2Proof.Laws
end

section
/-! PROOFS: words laid out as the formats of 03 Table 3.3 decoded, from the agreement of the decoder with the encoder. -/

namespace Sys2Proof.Laws

open Machine Safety

variable {i : Instr} {w : Word}

/-- A word whose bytes decode to an instruction of four bytes is that instruction's word. -/
theorem decodeWord_of_decode (h : decode (bytesOfWord w) = .ok (i, 4)) : decodeWord w = .ok i := by
  simp only [bytesOfWord, decode, wordsOf, word_bytes] at h
  split at h
  next => simp at h
  next => cases h
  next =>
    split at h
    next j decoded =>
      cases h
      exact decoded
    next => cases h

theorem decodeWord_of_encode (ok : legal i = true) (h : encode i = some (bytesOfWord w)) : decodeWord w = .ok i :=
  decodeWord_of_decode (encodeDecodeAgree i ok _ h)

/-! ### Fields side by side, each at its place -/

/-- A word is its own field at place 0. -/
theorem place_zero (w : Word) : place w 0 = w := by simp [place]

theorem place_append {m n : Nat} (x : BitVec m) (y : BitVec n) (lo : Nat) :
    place (x ++ y) lo = place y lo ||| place x (lo + n) := by
  apply BitVec.eq_of_getLsbD_eq
  intro j hj
  rw [BitVec.getLsbD_or, place_bit _ _ _ hj, place_bit _ _ _ hj, place_bit _ _ _ hj, BitVec.getLsbD_append]
  by_cases below : j < lo + n
  · simp only [Nat.not_le.mpr below, decide_false, Bool.false_and, Bool.or_false]
    by_cases h : lo ≤ j
    · rw [if_pos (by omega)]
    · simp [h]
  · have past : y.getLsbD (j - lo) = false := BitVec.getLsbD_of_ge y _ (by omega)
    rw [if_neg (by omega), past, Nat.sub_sub]
    simp [show lo ≤ j by omega, show lo + n ≤ j by omega]

theorem place_nothing (n lo : Nat) : place (0 : BitVec n) lo = 0#32 := by simp [place]

section

variable (op major : BitVec 6) (a b d lo : BitVec 5) (hi : BitVec 10) (m : BitVec 15) (u : BitVec 20)

theorem regWord_places :
    regWord op b a d major = place op 26 ||| place major 1 ||| place d 7 ||| place a 12 ||| place b 17 := calc
  _ = place (op ++ (0 : BitVec 4) ++ b ++ a ++ d ++ major ++ (0 : BitVec 1)) 0 := (place_zero _).symm
  _ = place major 1 ||| place d 7 ||| place a 12 ||| place b 17 ||| place op 26 := by
    simp only [place_append, place_nothing, BitVec.zero_or, BitVec.or_assoc]
  _ = _ := by
    rw [BitVec.or_comm]
    simp only [BitVec.or_assoc]

theorem immWord_places : immWord m a d major = place major 1 ||| place d 7 ||| place a 12 ||| place m 17 := calc
  _ = place (m ++ a ++ d ++ major ++ (0 : BitVec 1)) 0 := (place_zero _).symm
  _ = _ := by
    simp only [place_append, place_nothing, BitVec.zero_or, BitVec.or_assoc]

theorem braWord_places :
    braWord hi b a lo major = place major 1 ||| place lo 7 ||| place a 12 ||| place b 17 ||| place hi 22 := calc
  _ = place (hi ++ b ++ a ++ lo ++ major ++ (0 : BitVec 1)) 0 := (place_zero _).symm
  _ = _ := by
    simp only [place_append, place_nothing, BitVec.zero_or, BitVec.or_assoc]

theorem upiWord_places : upiWord u d major = place major 1 ||| place d 7 ||| place u 12 := calc
  _ = place (u ++ d ++ major ++ (0 : BitVec 1)) 0 := (place_zero _).symm
  _ = _ := by
    simp only [place_append, place_nothing, BitVec.zero_or, BitVec.or_assoc]

theorem leaWord_places (k : BitVec 2) (e : BitVec 8) : (e ++ k ++ b ++ a ++ d ++ major ++ (0 : BitVec 1) : Word)
    = place major 1 ||| place d 7 ||| place a 12 ||| place b 17 ||| place k 22 ||| place e 24 := calc
  _ = place (e ++ k ++ b ++ a ++ d ++ major ++ (0 : BitVec 1)) 0 := (place_zero _).symm
  _ = _ := by
    simp only [place_append, place_nothing, BitVec.zero_or, BitVec.or_assoc]

theorem hintWord_places (x : BitVec 4) (h : BitVec 6) : (x ++ h ++ b ++ a ++ d ++ major ++ (0 : BitVec 1) : Word)
    = place x 28 ||| place major 1 ||| place d 7 ||| place a 12 ||| place b 17 ||| place h 22 := calc
  _ = place (x ++ h ++ b ++ a ++ d ++ major ++ (0 : BitVec 1)) 0 := (place_zero _).symm
  _ = place major 1 ||| place d 7 ||| place a 12 ||| place b 17 ||| place h 22 ||| place x 28 := by
    simp only [place_append, place_nothing, BitVec.zero_or, BitVec.or_assoc]
  _ = _ := by
    rw [BitVec.or_comm]
    simp only [BitVec.or_assoc]

end

section

variable {op major : BitVec 6} {a b d lo : BitVec 5} {hi : BitVec 10} {m : BitVec 15} {u : BitVec 20} (ok : legal i = true)

include ok

theorem decodeWord_regWord
    (h : encode i = some (bytesOfWord (place op 26 ||| place major 1 ||| place d 7 ||| place a 12 ||| place b 17))) :
    decodeWord (regWord op b a d major) = .ok i := by
  rw [regWord_places]
  exact decodeWord_of_encode ok h

theorem decodeWord_immWord
    (h : encode i = some (bytesOfWord (place major 1 ||| place d 7 ||| place a 12 ||| place m 17))) :
    decodeWord (immWord m a d major) = .ok i := by
  rw [immWord_places]
  exact decodeWord_of_encode ok h

theorem decodeWord_braWord
    (h : encode i = some (bytesOfWord (place major 1 ||| place lo 7 ||| place a 12 ||| place b 17 ||| place hi 22))) :
    decodeWord (braWord hi b a lo major) = .ok i := by
  rw [braWord_places]
  exact decodeWord_of_encode ok h

theorem decodeWord_upiWord (h : encode i = some (bytesOfWord (place major 1 ||| place d 7 ||| place u 12))) :
    decodeWord (upiWord u d major) = .ok i := by
  rw [upiWord_places]
  exact decodeWord_of_encode ok h

end

/-! ### Words that no row has -/

/-- A word is no instruction if its bits outside its fields, those of the mask, keep every row from matching. -/
theorem decodeWord_error {mask fixed : Word} (hw : w &&& mask = fixed)
    (h : decodeRows.all (fun q => fixed &&& q.mask != q.pat &&& mask) = true) : ∃ e, decodeWord w = .error e := by
  have unmatched : decodeRows.find? (fun q => w &&& q.mask == q.pat) = none := by
    rw [List.find?_eq_none]
    intro q hq hm
    have matched : w &&& q.mask = q.pat := by simpa using hm
    have same : fixed &&& q.mask = q.pat &&& mask := by
      rw [← hw, ← matched]
      ac_rfl
    have apart := List.all_eq_true.mp h q hq
    simp [same] at apart
  unfold decodeWord
  rw [unmatched]
  dsimp only
  split <;> exact ⟨_, rfl⟩

/-- The bits of a REG word outside its three registers. -/
def regFixed (op major : BitVec 6) : Word := (place op 26 ||| place major 1) &&& 0xFFC0007F

theorem regWord_masked (op major : BitVec 6) (a b d : BitVec 5) :
    regWord op b a d major &&& 0xFFC0007F = regFixed op major := by
  rw [regWord_places]
  simp (disch := decide) only [or_masked, place_masked, BitVec.or_zero, regFixed]

/-- No row has these bits outside the registers of a REG word. -/
def noReg (op major : BitVec 6) : Bool :=
  decodeRows.all (fun q => regFixed op major &&& q.mask != q.pat &&& 0xFFC0007F)

theorem decodeWord_noReg {op major : BitVec 6} (a b d : BitVec 5) (h : noReg op major = true) :
    ∃ e, decodeWord (regWord op b a d major) = .error e := decodeWord_error (regWord_masked ..) h

/-- The ops of major 1 above 14, but for those of the hint space (05 R103). -/
theorem noReg_arithmetic : ∀ n, n < 45 → noReg (BitVec.ofNat 6 (15 + n)) 1 = true := by decide +kernel

/-- The ops of major 2 above 6 (05 R104). -/
theorem noReg_products : ∀ n, n < 57 → noReg (BitVec.ofNat 6 (7 + n)) 2 = true := by decide +kernel

end Sys2Proof.Laws
end

section
/-! PROOFS: integer arithmetic (05 R103, R104): what the model computes is what Table 5.2 says, and the words of majors 1
and 2. -/

namespace Sys2Proof.Laws

open Machine Safety

variable (a b : Reg)

/-! ### The values of Table 5.2 -/

theorem shiftCount_eq : shiftCount b = (b.extractLsb' 0 6).toNat := by simp [shiftCount]

/-- The branches of a minimum or a maximum agree where the operands do. -/
theorem ite_lt_eq_ite_le {α β : Type} [LinearOrder β] {x y : α} {m n : β} (h : m = n → x = y) :
    (if m < n then x else y) = if m ≤ n then x else y := by
  rcases lt_trichotomy m n with less | same | more
  · rw [if_pos less, if_pos less.le]
  · rw [if_neg same.not_lt, if_pos same.le, h same]
  · rw [if_neg more.not_gt, if_neg more.not_ge]

theorem minS_eq : minS a b = if a.toInt ≤ b.toInt then a else b :=
  (if_congr BitVec.slt_iff_toInt_lt rfl rfl).trans (ite_lt_eq_ite_le BitVec.eq_of_toInt_eq)

theorem maxS_eq : maxS a b = if a.toInt ≤ b.toInt then b else a :=
  (if_congr BitVec.slt_iff_toInt_lt rfl rfl).trans (ite_lt_eq_ite_le fun h => (BitVec.eq_of_toInt_eq h).symm)

theorem minU_eq : minU a b = if a.toNat ≤ b.toNat then a else b :=
  (if_congr BitVec.lt_def rfl rfl).trans (ite_lt_eq_ite_le BitVec.eq_of_toNat_eq)

theorem maxU_eq : maxU a b = if a.toNat ≤ b.toNat then b else a :=
  (if_congr BitVec.lt_def rfl rfl).trans (ite_lt_eq_ite_le fun h => (BitVec.eq_of_toNat_eq h).symm)

theorem flag_slt : flag (a.slt b) = if a.toInt < b.toInt then 1 else 0 := if_congr BitVec.slt_iff_toInt_lt rfl rfl

theorem flag_lt : flag (decide (a < b)) = if a.toNat < b.toNat then 1 else 0 :=
  if_congr (decide_eq_true_iff.trans BitVec.lt_def) rfl rfl

/-! ### Products -/

theorem extractLsb'_ofInt (p : Int) : (BitVec.ofInt 128 p).extractLsb' 64 64 = BitVec.ofInt 64 (p / 2 ^ 64) := by
  apply BitVec.eq_of_toNat_eq
  rw [BitVec.extractLsb'_toNat, BitVec.toNat_ofInt, BitVec.toNat_ofInt, Nat.shiftRight_eq_div_pow]
  omega

theorem mulHigh_eq : mulHigh a b = (a.signExtend 128 * b.signExtend 128).extractLsb' 64 64 := calc
  _ = (BitVec.ofInt 128 (a.toInt * b.toInt)).extractLsb' 64 64 := (extractLsb'_ofInt _).symm
  _ = _ := by
    rw [BitVec.ofInt_mul]
    rfl

theorem mulHighU_eq : mulHighU a b = (a.setWidth 128 * b.setWidth 128).extractLsb' 64 64 := calc
  _ = BitVec.ofInt 64 (((a.toNat * b.toNat : Nat) : Int) / 2 ^ 64) := (BitVec.ofInt_natCast ..).symm
  _ = (BitVec.ofInt 128 ((a.toNat * b.toNat : Nat) : Int)).extractLsb' 64 64 := (extractLsb'_ofInt _).symm
  _ = _ := by
    rw [BitVec.ofInt_natCast, BitVec.ofNat_mul, BitVec.ofNat_toNat, BitVec.ofNat_toNat]

/-! ### Quotients and remainders -/

/-- In the one overflow the quotient wraps to the dividend. -/
theorem divS_eq : divS a b = if b = 0 then 0xFFFFFFFFFFFFFFFF#64
    else if a = 0x8000000000000000#64 ∧ b = 0xFFFFFFFFFFFFFFFF#64 then a else BitVec.ofInt 64 (a.toInt.tdiv b.toInt) := by
  unfold divS
  refine ite_congr rfl (fun _ => rfl) fun _ => ?_
  split
  next h =>
    obtain ⟨rfl, rfl⟩ := h
    decide
  next => rfl

theorem ofInt_tmod : BitVec.ofInt 64 (a.toInt.tmod b.toInt) = a - b * BitVec.ofInt 64 (a.toInt.tdiv b.toInt) := by
  have whole := congrArg (BitVec.ofInt 64) (Int.tmod_add_mul_tdiv a.toInt b.toInt)
  rw [BitVec.ofInt_add, BitVec.ofInt_mul, BitVec.ofInt_toInt, BitVec.ofInt_toInt] at whole
  exact eq_sub_of_add_eq whole

theorem remS_eq : remS a b = if b = 0 then a
    else if a = 0x8000000000000000#64 ∧ b = 0xFFFFFFFFFFFFFFFF#64 then 0
    else a - b * BitVec.ofInt 64 (a.toInt.tdiv b.toInt) := by
  unfold remS
  refine ite_congr rfl (fun _ => rfl) fun _ => ?_
  split
  next h =>
    obtain ⟨rfl, rfl⟩ := h
    decide
  next => exact ofInt_tmod a b

theorem divU_eq : divU a b = if b = 0 then 0xFFFFFFFFFFFFFFFF#64 else a / b :=
  ite_congr rfl (fun _ => rfl) fun _ => BitVec.udiv_def.symm

theorem remU_eq : remU a b = if b = 0 then a else a - b * (a / b) := by
  unfold remU
  refine ite_congr rfl (fun _ => rfl) fun _ => ?_
  have whole := congrArg (BitVec.ofNat 64) (Nat.mod_add_div a.toNat b.toNat)
  rw [BitVec.ofNat_add, BitVec.ofNat_mul, BitVec.ofNat_toNat, BitVec.ofNat_toNat, BitVec.setWidth_eq, BitVec.setWidth_eq,
    ← BitVec.udiv_def] at whole
  exact eq_sub_of_add_eq whole

/-! ### A word that is no instruction -/

theorem illegalXval_word (w : Word) : illegalXval none w 0 = w.setWidth 64 := by
  simp [illegalXval]

/-- Settles O1: each operation is a result in a register (`completes_regOp`), whose value is the one that Table 5.2 gives;
the words decode by the format that they have (`decodeWord_regWord`), and no row has the other ops. -/
theorem integerArithmetic : Obligations.IntegerArithmetic := by
  unfold Obligations.IntegerArithmetic
  refine ⟨fun s d a b => ?_, fun s d a b => ?_, fun d a b h => ?_, fun s word ready may => ?_⟩
  · exact ⟨completes_regOp (· + ·) rfl rfl rfl, completes_regOp (· - ·) rfl rfl rfl, completes_regOp (· &&& ·) rfl rfl rfl,
      completes_regOp (· ||| ·) rfl rfl rfl, completes_regOp (· ^^^ ·) rfl rfl rfl,
      completes_regOp (fun x y => x <<< shiftCount y) rfl rfl (by rw [shiftCount_eq]),
      completes_regOp (fun x y => x >>> shiftCount y) rfl rfl (by rw [shiftCount_eq]),
      completes_regOp (fun x y => x.sshiftRight (shiftCount y)) rfl rfl (by rw [shiftCount_eq]),
      completes_regOp minS rfl rfl (minS_eq ..), completes_regOp maxS rfl rfl (maxS_eq ..),
      completes_regOp minU rfl rfl (minU_eq ..), completes_regOp maxU rfl rfl (maxU_eq ..),
      completes_regOp (fun x y => flag (x.slt y)) rfl rfl (flag_slt ..),
      completes_regOp (fun x y => flag (decide (x < y))) rfl rfl (flag_lt ..),
      completes_setG (fun s => if s.g d ≠ 0 then s.g a else s.g b) rfl rfl⟩
  · exact ⟨completes_regOp (· * ·) rfl rfl rfl, completes_regOp mulHigh rfl rfl (mulHigh_eq ..),
      completes_regOp mulHighU rfl rfl (mulHighU_eq ..), completes_regOp divS rfl rfl (divS_eq ..),
      completes_regOp divU rfl rfl (divU_eq ..), completes_regOp remS rfl rfl (remS_eq ..),
      completes_regOp remU rfl rfl (remU_eq ..)⟩
  · iterate 22 refine ⟨decodeWord_regWord rfl rfl, ?_⟩
    refine ⟨?_, fun n hn => decodeWord_noReg a b d (noReg_arithmetic n hn),
      fun n hn => decodeWord_noReg a b d (noReg_products n hn)⟩
    rw [hintWord_places]
    exact decodeWord_of_encode rfl rfl
  · obtain ⟨traps, -⟩ := trapHere_traps (by decide) (by decide) ready may
    refine ⟨_, ?_, traps⟩
    rw [← illegalXval_word]
    rfl

end Sys2Proof.Laws
end

section
/-! PROOFS: bit counts and fields, immediates, addresses and constants (05 R105 to R111), with their words. -/

namespace Sys2Proof.Laws

open Machine Safety

/-! ### Counts of bits (05 R105) -/

/-- The first number below n that a test accepts, or n. -/
theorem firstBelow_spec (n : Nat) (p : Nat → Bool) : let k := ((List.range n).find? p).getD n
    k ≤ n ∧ (∀ i, i < k → p i = false) ∧ (k < n → p k = true) := by
  intro k
  cases found : (List.range n).find? p with
  | none =>
    have hk : k = n := by simp [k, found]
    rw [List.find?_range_eq_none] at found
    rw [hk]
    exact ⟨Nat.le_refl n, fun i hi => by simpa using found i hi, fun h => absurd h (Nat.lt_irrefl n)⟩
  | some j =>
    have hk : k = j := by simp [k, found]
    rw [List.find?_range_eq_some] at found
    obtain ⟨here, below, before⟩ := found
    rw [hk]
    exact ⟨(List.mem_range.mp below).le, fun i hi => by simpa using before i hi, fun _ => here⟩

theorem getLsbD_revBits (a : Reg) {i : Nat} (h : i < 64) : (revBits a).getLsbD i = a.getLsbD (63 - i) := by
  rw [revBits, BitVec.getLsbD_reverse, BitVec.getMsbD]
  simp [h]

/-! ### Bit fields (05 R106) -/

/-- A number's low n bits as a signed number. -/
theorem intOf_true (n x : Nat) : intOf true n x = (BitVec.ofNat n x).toInt := by
  rw [BitVec.toInt_eq_msb_cond, BitVec.msb_eq_getLsbD_last, ← BitVec.testBit_toNat, BitVec.toNat_ofNat]
  simp [intOf]

theorem sext64_eq (n x : Nat) : sext64 n x = (BitVec.ofNat n x).signExtend 64 :=
  congrArg (BitVec.ofInt 64) (intOf_true n x)

theorem zext64_eq (n x : Nat) : zext64 n x = (BitVec.ofNat n x).setWidth 64 := by
  apply BitVec.eq_of_toNat_eq
  simp [zext64]

theorem ofNat_fieldOf (a : Reg) (p n : Nat) : BitVec.ofNat n (fieldOf a p n) = a.extractLsb' p n := by
  apply BitVec.eq_of_toNat_eq
  simp [fieldOf, Nat.shiftRight_eq_div_pow]

theorem getLsbD_fieldMask (p n : Nat) {i : Nat} (h : i < 64) :
    (fieldMask p n).getLsbD i = decide (p ≤ i ∧ i < p + n) := by
  rw [fieldMask, BitVec.getLsbD_ofNat, Nat.mul_comm, Nat.testBit_two_pow_mul, Nat.testBit_two_pow_sub_one]
  by_cases low : p ≤ i
  · simp [h, low, Nat.sub_lt_iff_lt_add low, Nat.add_comm]
  · simp [low]

theorem getLsbD_insertField (old a : Reg) (p n : Nat) {i : Nat} (h : i < 64) : (insertField old a p n).getLsbD i =
    if p ≤ i ∧ i < p + n then a.getLsbD (i - p) else old.getLsbD i := by
  simp only [insertField, BitVec.getLsbD_or, BitVec.getLsbD_and, BitVec.getLsbD_not, BitVec.getLsbD_shiftLeft,
    getLsbD_fieldMask p n h]
  split
  next within => simp [within, h, Nat.not_lt.mpr within.1]
  next outside => simp [outside, h]

/-- An instruction with a field that its entry does not accept traps, and changes neither memory nor another slot (03
R67). -/
theorem completes_illegal {s : State} {i : Instr} (illegal : legal i = false) (idx : illegalIndex i = 0)
    (ready : Ready s) :
    let x := illegalXval s.cur.code (wordOfInstr i) 0
    TrapReady s 0x01 x s.base → Completes i s (fun t => Traps s t 0x01 x s.base ∧ SameBytes s t ∧ OtherSlots s t) := by
  intro x may
  obtain ⟨traps, bytes, others, -⟩ := trapHere_traps (by decide) (by decide) ready may
  refine ⟨_, exec_illegal illegal, ?_⟩
  unfold State.illegal
  rw [idx]
  exact ⟨traps, bytes, others⟩

/-! ### Constants (05 R110, R111) -/

theorem sx_upper (u : BitVec 20) : sx (u ++ (0 : BitVec 12)) = ((u.setWidth 32 <<< 12) : BitVec 32).signExtend 64 := by
  have shifted : (u ++ (0 : BitVec 12) : BitVec 32) = u.setWidth 32 <<< 12 := by
    apply BitVec.eq_of_getLsbD_eq
    intro j hj
    simp only [BitVec.getLsbD_append, BitVec.getLsbD_shiftLeft, BitVec.getLsbD_setWidth]
    by_cases low : j < 12
    · simp [low]
    · simp [low, hj, show j - 12 < 32 by omega]
  exact congrArg (BitVec.signExtend 64) shifted

/-- Settles O2: a count is the first bit that is set (`firstBelow_spec`), a field is read as its bits (`ofNat_fieldOf`) and
written bit by bit (`getLsbD_insertField`), and one past bit 63 is illegal (`completes_illegal`). -/
theorem bitAndImmediateOps : Obligations.BitAndImmediateOps := by
  unfold Obligations.BitAndImmediateOps
  refine ⟨fun s d a p l => ⟨?clz, ?ctz, ?popc, ?brev, fun fits => ⟨?bfx, ?bfxs, ?bfi⟩, fun past ready i mem => ?_⟩,
    fun s d a b i n h k e u => ?_, fun d a b i k e u => ?_⟩
  case clz =>
    exact ⟨countLead (s.g a), completes_immOp (fun x => BitVec.ofNat 64 (countLead x)) rfl rfl rfl,
      firstBelow_spec 64 fun i => (s.g a).getLsbD (63 - i)⟩
  case ctz => exact ⟨countTrail (s.g a), completes_immOp (fun x => BitVec.ofNat 64 (countTrail x)) rfl rfl rfl,
      firstBelow_spec 64 (s.g a).getLsbD⟩
  case popc => exact completes_immOp (fun x => BitVec.ofNat 64 (countOnes x)) rfl rfl rfl
  case brev => exact ⟨revBits (s.g a), completes_immOp revBits rfl rfl rfl, fun i => getLsbD_revBits (s.g a)⟩
  case bfx =>
    refine completes_immOp (fun x => zext64 (l.toNat + 1) (fieldOf x p.toNat (l.toNat + 1))) (decide_eq_true fits) rfl ?_
    rw [zext64_eq, ofNat_fieldOf]
  case bfxs =>
    refine completes_immOp (fun x => sext64 (l.toNat + 1) (fieldOf x p.toNat (l.toNat + 1))) (decide_eq_true fits) rfl ?_
    rw [sext64_eq, ofNat_fieldOf]
  case bfi =>
    exact ⟨_, completes_regOp (fun old x => insertField old x p.toNat (l.toNat + 1)) (decide_eq_true fits) rfl rfl,
      fun i => getLsbD_insertField (s.g d) (s.g a) p.toNat (l.toNat + 1)⟩
  · have refused : ¬p.toNat + l.toNat + 1 ≤ 64 := Nat.not_le.mpr past
    simp only [List.mem_cons, List.not_mem_nil, or_false] at mem
    rcases mem with rfl | rfl | rfl <;> exact completes_illegal (decide_eq_false refused) rfl ready
  · exact ⟨completes_immOp (· + sx i) rfl rfl rfl, completes_immOp (· &&& sx i) rfl rfl rfl,
      completes_immOp (· ||| sx i) rfl rfl rfl, completes_immOp (· ^^^ sx i) rfl rfl rfl,
      completes_immOp (fun x => flag (x.slt (sx i))) rfl rfl (flag_slt ..),
      completes_immOp (fun x => flag (decide (x < sx i))) rfl rfl (flag_lt ..),
      completes_immOp (· <<< n.toNat) rfl rfl rfl, completes_immOp (· >>> n.toNat) rfl rfl rfl,
      completes_immOp (·.sshiftRight n.toNat) rfl rfl rfl,
      completes_regOp (fun x y => x + (y <<< k.toNat) + sx e) rfl rfl rfl,
      sx_upper u ▸ completes_setG (fun _ => sx (u ++ (0 : BitVec 12))) rfl rfl,
      sx_upper u ▸ completes_setG (fun s => s.base + sx (u ++ (0 : BitVec 12))) rfl rfl,
      _, rfl, goto_goesTo s s.after⟩
  · iterate 6 refine ⟨decodeWord_immWord rfl rfl, ?_⟩
    refine ⟨?_, decodeWord_upiWord rfl rfl, decodeWord_upiWord rfl rfl⟩
    rw [leaWord_places]
    exact decodeWord_of_encode rfl rfl

end Sys2Proof.Laws
end

section
/-! PROOFS: where branches, LOOP, JAL and JALR go and what they write (05 R117 to R119), with their words. -/

namespace Sys2Proof.Laws

open Machine Safety

variable {s : State} {i : Instr} {p a b : BitVec 5} {o : BitVec 10}

theorem branch_eq_goto (s : State) (taken : Bool) (target : Reg) :
    s.branch taken target = s.goto (if taken then target else s.after) := by
  unfold State.branch
  split <;> rfl

/-- A branch goes on at its target where its condition holds, else at the next instruction, and does nothing else. -/
theorem completes_branchOp (c : Reg → Reg → Bool) {P : Prop} [Decidable P] (ok : legal i = true)
    (runs : exec i s = branchOp i p a b o c s) (holds : c (s.g a) (s.g b) = true ↔ P) :
    Completes i s
      (GoesTo s · (if P then s.base + ((o ++ p ++ (0 : BitVec 1)) : BitVec 16).signExtend 64 else s.after)) := by
  refine ⟨_, runs.trans (if_pos ok), ?_⟩
  rw [branch_eq_goto, if_congr holds rfl rfl]
  exact goto_goesTo ..

theorem not_slt_iff (x y : Reg) : (!x.slt y) = true ↔ y.toInt ≤ x.toInt := by
  rw [Bool.not_eq_true', ← Bool.not_eq_true, BitVec.slt_iff_toInt_lt, not_lt]

theorem not_lt_iff (x y : Reg) : (!decide (x < y)) = true ↔ y.toNat ≤ x.toNat := by
  rw [Bool.not_eq_true', decide_eq_false_iff_not, BitVec.lt_def, not_lt]

/-- Settles O3: a branch goes on at one of two addresses (`completes_branchOp`), and LOOP, JAL and JALR write a register
and go on at an address (`setG_goto`). -/
theorem controlTransfer : Obligations.ControlTransfer := by
  unfold Obligations.ControlTransfer
  refine ⟨fun s p a b o => ?_, fun s p d a o j i => ⟨⟨_, rfl, ?_⟩, ⟨_, rfl, setG_goto ..⟩, ⟨_, rfl, setG_goto ..⟩⟩,
    fun p d a b o j i => ?_⟩
  · exact ⟨completes_branchOp (· == ·) rfl rfl beq_iff_eq, completes_branchOp (· != ·) rfl rfl bne_iff_ne,
      completes_branchOp (·.slt ·) rfl rfl BitVec.slt_iff_toInt_lt, completes_branchOp (!·.slt ·) rfl rfl (not_slt_iff ..),
      completes_branchOp (fun x y => decide (x < y)) rfl rfl (decide_eq_true_iff.trans BitVec.lt_def),
      completes_branchOp (fun x y => !decide (x < y)) rfl rfl (not_lt_iff ..)⟩
  · rw [branch_eq_goto, after_setG]
    obtain ⟨writes, slot, only, next⟩ := setG_goto s a (s.g a - 1)
      (if s.g a - 1 != 0 then s.base + braOff p o else s.after)
    refine ⟨writes, slot, only, next.trans (if_congr ?_ rfl rfl)⟩
    rw [bne_iff_ne, ne_eq, ne_eq, sub_eq_zero]
  · exact ⟨decodeWord_braWord rfl rfl, decodeWord_braWord rfl rfl, decodeWord_braWord rfl rfl, decodeWord_braWord rfl rfl,
      decodeWord_braWord rfl rfl, decodeWord_braWord rfl rfl, decodeWord_upiWord rfl rfl, decodeWord_immWord rfl rfl,
      decodeWord_braWord rfl (by rw [place_nothing, BitVec.or_zero]; rfl)⟩

end Sys2Proof.Laws
end

section
/-! PROOFS: scalar floating point (05 R112 to R116): a result in a general register, the flags it raises and the LFSR. -/

namespace Sys2Proof.Laws

open Machine Safety

variable {s : State} {i : Instr} {d a b : BitVec 5} {f : BitVec 1}

/-! ### The LFSR of the running core moves on (02 R52) -/

/-- The package with the LFSR of the running core at l. -/
def drawn (s : State) (l : Word) : State := if l = s.here.lfsr then s else s.setHere { s.here with lfsr := l }

/-- Flags go into the slot's FSTAT once the LFSR has moved on. -/
theorem settle_eq (s : State) (r : Fp) : let u := drawn s r.lfsr
    s.settle r = u.setMe { u.me with fstat := u.me.fstat ||| r.flags } := rfl

theorem core_drawn (s : State) (l : Word) (c : Nat) :
    (drawn s l).core c = if s.cur.core = c then { s.core c with lfsr := l } else s.core c := by
  unfold drawn
  split
  next same =>
    subst same
    split
    next h => subst h; rfl
    next => rfl
  next =>
    rw [State.setHere, core_setCore]
    split
    next h => subst h; rfl
    next => rfl

/-- Cores that differ in their slots alone agree beside their slots and their LFSR. -/
theorem blank_lfsr {x y : Core} (h : { x with slots := [] } = { y with slots := [] }) :
    { x with slots := [], lfsr := 0 } = { y with slots := [], lfsr := 0 } :=
  congrArg (fun z : Core => { z with lfsr := 0 }) h

theorem blank_lfsr_drawn (s : State) (l : Word) (c : Nat) :
    { (drawn s l).core c with slots := [], lfsr := 0 } = { s.core c with slots := [], lfsr := 0 } := by
  rw [core_drawn]
  split <;> rfl

theorem samePackage_drawn (s : State) (l : Word) : SamePackage s (drawn s l) := by
  unfold drawn
  split <;> rfl

theorem slotAt_drawn (s : State) (l : Word) (c k : Nat) : (drawn s l).slotAt c k = s.slotAt c k := by
  unfold State.slotAt
  rw [core_drawn]
  split <;> rfl

theorem me_drawn (s : State) (l : Word) : (drawn s l).me = s.me := by
  unfold State.me
  rw [cur_of_samePackage (samePackage_drawn s l), slotAt_drawn]

/-! ### A result with its flags -/

/-- The slot after a floating-point result: the register, the flags, and the next instruction. -/
def fpSlot (s : State) (d : BitVec 5) (v : Reg) (r : Fp) : Slot :=
  { ({ s.me with fstat := s.me.fstat ||| r.flags } : Slot).setG d v with pc := s.after }

theorem settle_becomes (s : State) (d : BitVec 5) (v : Reg) (r : Fp) :
    Becomes (drawn s r.lfsr) (fpSlot s d v r) ((s.settle r).setG d v).adv := by
  have written := (setMe_becomes (drawn s r.lfsr) { s.me with fstat := s.me.fstat ||| r.flags }).setG d v
  rw [settle_eq, me_drawn, State.adv, written.after_eq (by rw [pc_setG, me_drawn]), State.after, me_drawn,
    cur_of_samePackage (samePackage_drawn s r.lfsr)]
  exact written.goto s.after

theorem settle_givesFp (s : State) (d : BitVec 5) (v : Reg) (r : Fp) : GivesFp s ((s.settle r).setG d v).adv d v r := by
  have h := settle_becomes s d v r
  have cur := cur_of_samePackage (samePackage_drawn s r.lfsr)
  have kept := but_g_setG { s.me with fstat := s.me.fstat ||| r.flags } d v
  have package : SamePackage s ((s.settle r).setG d v).adv := h.package.trans (samePackage_drawn s r.lfsr)
  refine ⟨fun q => ?_, ?_, ?_, ?_, ?_, package, sameBytes_of_samePackage package, fun c k other => ?_, fun c => ?_⟩
  · unfold State.g
    rw [h.me]
    exact Slot.gReg_setG { s.me with fstat := s.me.fstat ||| r.flags } d q v
  · rw [Advanced, State.base, h.me]
    rfl
  · rw [h.me]
    exact congrArg Slot.fstat kept
  · have same := congrArg Core.lfsr (h.cores s.cur.core)
    rw [State.here, cur_of_samePackage package]
    exact same.trans (by rw [core_drawn, if_pos rfl])
  · rw [h.me]
    exact congrArg (fun y : Slot => { y with pc := 0, fstat := 0 }) kept
  · rw [h.others c k (by rwa [cur]), slotAt_drawn]
  · exact (blank_lfsr (h.cores c)).trans (blank_lfsr_drawn s r.lfsr c)

/-! ### The shapes -/

/-- An instruction that writes a register and settles its flags and its draws. -/
theorem completes_settle (v : State → Reg) (r : State → Fp) (ok : legal i = true)
    (runs : exec i s = simple i (fun s => (s.settle (r s)).setG d (v s)) s) : Completes i s (GivesFp s · d (v s) (r s)) :=
  ⟨_, runs.trans (simple_legal ok), settle_givesFp s d (v s) (r s)⟩

theorem completes_setFp (r : State → Nat × Fp) (ok : legal i = true)
    (runs : exec i s = simple i (fun s => s.setFp d (r s)) s) :
    Completes i s (GivesFp s · d (BitVec.ofNat 64 (r s).1) (r s).2) :=
  completes_settle (fun s => BitVec.ofNat 64 (r s).1) (fun s => (r s).2) ok runs

/-- One whose result is a function of two registers, as operands of the type that the d bit selects. -/
theorem completes_fpOp (op : BitVec 5 → Nat → Nat → Fp → Nat × Fp) (ok : legal i = true)
    (runs : exec i s = fpOp i d a b f op s) :
    let r := op (fpType f) (fpArg (fpType f) (s.g a)) (fpArg (fpType f) (s.g b)) s.fp
    Completes i s (GivesFp s · d (BitVec.ofNat 64 r.1) r.2) :=
  completes_setFp (fun s => op (fpType f) (fpArg (fpType f) (s.g a)) (fpArg (fpType f) (s.g b)) s.fp) ok runs

/-! ### Comparison and conversion (05 R114, R116) -/

theorem condOf_eq (c : BitVec 3) : condOf c = if c = 0 then 0 else if c = 1 then 2 else if c = 2 then 3 else 6 := by
  decide +revert

theorem ofNat_toNat_bool (c : Bool) : BitVec.ofNat 64 c.toNat = if c then 1 else 0 := by cases c <;> rfl

theorem raiseIf_fp (s : State) (c : Bool) (f : BitVec 5) :
    s.fp.raiseIf c f = { s.fp with flags := if c then f else 0 } := by
  cases c
  · rfl
  · exact congrArg (fun g => { s.fp with flags := g }) BitVec.zero_or

theorem convReg_eq (ty : BitVec 5) (n : Nat) : convReg ty n = if isInt ty && isSigned ty
    then (BitVec.ofNat (typeWidth ty) n).signExtend 64 else BitVec.ofNat 64 (n % 2 ^ typeWidth ty) :=
  ite_congr rfl (fun _ => sext64_eq ..) fun _ => rfl

/-- Settles O4 (log 85, and log 10 for a NaN of E4M3 or E5M2 converted to its own format): every operation is a result with
its flags (`completes_fpOp`), a comparison's is 1 or 0, and a conversion's is extended by its type (`convReg_eq`). -/
theorem scalarFloat : Obligations.ScalarFloat := by
  unfold Obligations.ScalarFloat
  refine ⟨fun s d a b f m rounds => ?_, fun s d a b f c src dst m => ⟨fun listed => ?_, fun ok => ?_⟩⟩
  · have ok := decide_eq_true rounds
    exact ⟨completes_fpOp (fun t x y => fadd t m x y) ok rfl, completes_fpOp (fun t x y => fsub t m x y) ok rfl,
      completes_fpOp (fun t x y => fmul t m x y) ok rfl,
      completes_setFp (fun s => ffma (fpType f) m false (fpArg (fpType f) (s.g a)) (fpArg (fpType f) (s.g b))
        (fpArg (fpType f) (s.g d)) s.fp) ok rfl,
      completes_fpOp (fun t x y => fdiv t m x y) ok rfl, completes_fpOp (b := a) (fun t x _ => fsqrt t m x) ok rfl,
      completes_fpOp (fun t x y => fminmax t false x y) rfl rfl, completes_fpOp (fun t x y => fminmax t true x y) rfl rfl⟩
  · have ok : legal (.fcmp d a b f c) = true := decide_eq_true (by bv_omega)
    have h : Completes (.fcmp d a b f c) s _ := completes_fpOp (fun t x y fp =>
      ((fpCond (condOf c) t x y).1.toNat, fp.raiseIf (fpCond (condOf c) t x y).2 flagNV)) ok rfl
    dsimp only at h
    rw [ofNat_toNat_bool, raiseIf_fp, condOf_eq] at h
    exact h
  · have h : Completes (.fcvt d a dst m src) s _ := completes_settle
      (fun s => convReg dst (cvtElem src dst m (fpArg src (s.g a)) s.fp).1)
      (fun s => (cvtElem src dst m (fpArg src (s.g a)) s.fp).2) ok rfl
    rw [convReg_eq] at h
    exact h

end Sys2Proof.Laws
end

section
/-! PROOFS: the claims that a load, and a store into the store buffer, leave every byte of memory as it was (06 R125, R132) fail
for a message handler whose address needs a walk: the walk reads its entries at once (09 R231), and bringing the line of an entry
into its slice writes back a copy that it replaces (12 R305). -/

namespace Sys2Proof.Laws

open Machine Safety

/-! ### A handler whose walk writes a copy back -/

/-- The one page table: its entry 0 names the table itself, and its entry 1 is a page of 1 GiB at 0. -/
def walkTable : Nat := 0x5000000

/-- An address in that page, of the line of plain memory at 0x4000000. -/
def walkedAddress : Reg := 0x44000000

/-- A copy of the table's line that the secure world has left in its home slice, with a byte that is not yet in memory. -/
def staleCopy : L2Line :=
  { slice := State.reset.homeSlice walkTable, line := walkTable / 128, way := 0, bytes := [(64, 1)], dirty := true, bad := []
    tenant := 0, wrote := [], key := 0, secure := true }

/-- A handler is to use an address that no TLB holds; the L1 holds its line. -/
def walkingHandler : State :=
  { State.reset with
    cur := { core := 0, slot := 8, len := 4, code := none }
    cores := [(0, { Core.reset with
      slots := [(8, { Slot.reset with g := [(1, walkedAddress)] })]
      l1 := [{ line := 0x80000, bytes := [], ro := false, secure := false }] })]
    tables := [(3, 5), (7, 0x80)]
    mem := [(walkTable, 1), (walkTable + 3, 5), (walkTable + 8, 3)]
    l2 := [staleCopy] }

/-- What the address names. -/
def walkedLoc : Loc := Loc.plain 0x4000000

theorem walkingHandler_names (use : Use) : Names walkingHandler use walkedAddress 1 1 walkedLoc := by
  unfold Names
  cases use <;> decide +kernel

/-- The walk writes the copy back. -/
theorem walkingHandler_resolved_byte : walkingHandler.byte (walkTable + 64) = 0
    ∧ (Resolved walkingHandler walkedAddress).byte (walkTable + 64) = 1 := by
  decide +kernel

/-- A load that the L1 answers, and a store into the store buffer, leave memory as the walk has left it. -/
theorem walkingHandler_loads : ∃ t, exec (.ld 2 1 0 0) walkingHandler = .next t ∧ t.byte (walkTable + 64) = 1 :=
  ⟨_, rfl, by decide +kernel⟩

theorem walkingHandler_stores : ∃ t, exec (.st 0 1 2 0 0) walkingHandler = .next t ∧ t.byte (walkTable + 64) = 1 :=
  ⟨_, rfl, by decide +kernel⟩

/-- Refutes O9: `SameBytes` fails for a message handler whose address no TLB holds. The handler's walk is done at once, as part of
the load (`walkingHandler`), and the line of a table entry that it brings into its slice pushes out a copy of the other world, whose
dirty byte is so written to memory: no byte that the load names, but one that the statement says has not changed. What misses in the
statement is that the address is translated without such a walk; any other slot whose address needs one waits for it first. -/
theorem not_loads : ¬ Obligations.Loads := by
  unfold Obligations.Loads
  rintro ⟨h, -⟩
  obtain ⟨before, -⟩ := walkingHandler_resolved_byte
  obtain ⟨t, ht, after⟩ := walkingHandler_loads
  obtain ⟨-, -, l1, -⟩ := h walkingHandler 2 1 0 0 walkedLoc rfl (by decide) (walkingHandler_names .load) rfl
  obtain ⟨t', ht', ⟨-, -, -, -, same⟩⟩ := l1 rfl _ rfl rfl
  cases ht.symm.trans ht'
  exact absurd (after.symm.trans ((same rfl _).trans before)) (by decide)

/-- Refutes O10 in the same way: that no byte of memory changes yet, where the store goes into the store buffer, fails for the
message handler whose walk writes a copy back (`walkingHandler`). -/
theorem not_stores : ¬ Obligations.Stores := by
  unfold Obligations.Stores
  rintro ⟨h, -⟩
  obtain ⟨before, -⟩ := walkingHandler_resolved_byte
  obtain ⟨t, ht, after⟩ := walkingHandler_stores
  obtain ⟨t', ht', -, -, -, -, buffered⟩ := h walkingHandler 0 1 2 0 0 walkedLoc rfl (by decide) (walkingHandler_names .store)
    (by decide) (fun _ => rfl)
  obtain ⟨same, -⟩ := buffered (by decide)
  cases ht.symm.trans ht'
  exact absurd (after.symm.trans ((same _).trans before)) (by decide)

end Sys2Proof.Laws
end

section
/-! PROOFS: the claim that an epoch, when it applies, sums with what its elements read before (06 R149) fails for a copy of the L2
that lists a byte twice: reading takes the first of the two, and the rewriting of the line the last. -/

namespace Sys2Proof.Laws

open Machine Safety

/-- A copy of the line at 0x4000000 that lists its first byte twice, and no other. -/
def doubledCopy : L2Line :=
  { slice := State.reset.homeSlice 0x4000000, line := 0x80000, way := 0, bytes := [(0, 1), (0, 2)], dirty := false, bad := []
    tenant := 0, wrote := [], key := 0, secure := false }

def doubledState : State := { State.reset with l2 := [doubledCopy] }

/-- An epoch of one integer element there, to which core 0 has contributed 0. -/
def zeroEpoch : Epoch :=
  { base := 0x4000000, type := 4, n := 1, p := 1, declared := [0], closed := [0], contributions := [{ core := 0, parts := [(0, 0)] }]
    root := 0, ms := false, key := 0, secure := false }

theorem doubledState_reads : leNat (doubledState.homeBytes (zeroEpoch.loc 0) 4) = 1
    ∧ leNat ((doubledState.applyEpoch zeroEpoch).homeBytes (zeroEpoch.loc 0) 4) = 2 := by decide +kernel

/-- Refutes O15: its last clause, the application of an epoch, holds of every state whose slices list a byte of a line once, but is
claimed of all. Of `doubledCopy`, which lists its first byte twice, a read gives the first entry, and to apply the epoch the line is
filled up anew entry by entry, so that the second one remains: an epoch to which only 0 was contributed changes the element from 1
to 2. No step of the model makes such a copy; that the bytes of each copy are listed once is the hypothesis that is missing. -/
theorem not_reductionEpochs : ¬ Obligations.ReductionEpochs := by
  unfold Obligations.ReductionEpochs
  rintro ⟨-, -, h⟩
  obtain ⟨before, after⟩ := doubledState_reads
  have one : ∀ i, i < zeroEpoch.n → storeOf (zeroEpoch.loc i).place = .hbm ∧ (zeroEpoch.touched i = true →
      (doubledState.l2Hit ((zeroEpoch.loc i).place / 128) zeroEpoch.secure).isSome ∧ doubledState.homeBad (zeroEpoch.loc i) 4 = false) := by
    decide +kernel
  obtain ⟨reads, -⟩ := h doubledState zeroEpoch (by decide) rfl rfl rfl (by decide) (by decide) one
  have first := reads 0 (by decide)
  rw [if_pos (by decide)] at first
  exact absurd (after.symm.trans first) (by decide +kernel)

end Sys2Proof.Laws
end

section
/-! PROOFS: a word of the store buffer that nothing holds back and that its home takes is performed (06 R132). -/

namespace Sys2Proof.Laws

open Machine Safety

/-! ### A word that leaves the buffer -/

section

variable {s : State} {core : BitVec 12} {k i w : Nat} {e : SbEntry} {l : Loc}

/-- Where a word of an entry begins: its lowest byte that the entry writes. -/
def wordLoc (e : SbEntry) (w : Nat) : Loc :=
  { place := e.block * 64 + ((e.word w).headD (0, 0)).1, ms := e.ms, ro := false, sec := e.secure, key := e.key }

/-- A byte at a place once a word of an entry is performed, where it was some byte before. -/
def overWord (e : SbEntry) (w q : Nat) (old : Byte) : Byte :=
  if decide (e.block * 64 + 8 * w ≤ q ∧ q < e.block * 64 + 8 * w + 8) = true then (Tab.find e.bytes (q - e.block * 64)).getD old else old

/-- The package once a word of the i-th entry has left a core's store buffer. -/
def wordLeft (s : State) (c i w : Nat) (e : SbEntry) : State :=
  s.setCore c { s.core c with sb := sbReplace (s.core c).sb i (e.without w) }

/-- Nothing holds back the k-th word of a core's store buffer: the word w of its i-th entry (06 R128, R132, R139, R150; 14 R347,
R353). -/
structure WordDue (s : State) (c k i w : Nat) (e : SbEntry) : Prop where
  word : (sbWords (s.core c).sb)[k]? = some (i, w)
  entry : (s.core c).sb[i]? = some e
  first : ∀ x ∈ (s.core c).sb.take i, x.slot = e.slot → x.block = e.block → x.word w = []
  fence : s.fenceHoldsAt c e.slot e.fence (e.block * 64) = false
  home : s.waits { wordLoc e w with place := e.block * 64 + 8 * w } 8 = false
  crossbar : s.mute c (wordLoc e w).place = false
  room : storeOf (wordLoc e w).place = .host → s.inPub e.vf (wordLoc e w).place 1 = true
    → s.pubRoom e.vf ((wordLoc e w).place / 128) = true

theorem WordDue.not_held {c : Nat} (due : WordDue s c k i w e) : ¬ (((s.core c).sb.take i).any
      (fun x => x.slot = e.slot && x.block = e.block && !(x.word w).isEmpty) || s.fenceHoldsAt c e.slot e.fence (e.block * 64)
      || s.waits { wordLoc e w with place := e.block * 64 + 8 * w } 8 || s.mute c (wordLoc e w).place
      || (storeOf (wordLoc e w).place = .host && s.inPub e.vf (wordLoc e w).place 1
        && !s.pubRoom e.vf ((wordLoc e w).place / 128))) = true := by
  obtain ⟨-, -, first, fence, home, crossbar, room⟩ := due
  simp only [fence, home, crossbar, Bool.or_false, Bool.or_eq_true, List.any_eq_true, Bool.and_eq_true, decide_eq_true_eq,
    Bool.not_eq_true', List.isEmpty_eq_false_iff, not_or, not_exists, not_and, ne_eq, not_not, Bool.not_eq_false]
  exact ⟨fun x hx ⟨slot, block⟩ => first x hx slot block, fun ⟨host, pub⟩ => room host pub⟩

/-- Its home performs it. -/
theorem exec_drain_performs (due : WordDue s core.toNat k i w e) (takes : s.refusedStore core.toNat e (wordLoc e w) = none) :
    exec (.storeBufferDrain core k) s = .next (((wordLeft s core.toNat i w e).performWord e (wordLoc e w) (e.word w)).dropLine
      core.toNat ((wordLoc e w).place / 128)) := by
  have held := due.not_held
  unfold wordLoc at held takes
  change execStoreBufferDrain core k s = _
  simp only [execStoreBufferDrain, due.word, due.entry, if_neg held, takes]
  rfl

end

end Sys2Proof.Laws
end

section
/-! PROOFS: a line that is allocated in its slice in place of a copy there, and the bytes of lines with a copy and without one
(12 R305, R313). -/

namespace Sys2Proof.Laws

open Machine Safety

/-! ### A line allocated where its set is full (12 R305, R313) -/

section

variable {s : State} {l : Loc} {m : L2Line}

/-- A line that its home holds no copy of, for a tenant that may use one way alone, takes the place of the one copy of its set in
that way, which leaves its slice first. -/
theorem allocate_replaces (tenant : BitVec 10) (bytes : Tab Byte) (none' : s.l2At (l.place / 128) = none)
    (mates : s.setMates (s.homeSlice l.place) (l.place / 128) = [m]) :
    let v := ({ s with free := s.free + 1 } : State).evict m
    s.allocate l tenant bytes true [] [m.way] = { v with l2 :=
      { slice := s.homeSlice l.place, line := l.place / 128, way := m.way, bytes := bytes, dirty := true, bad := []
        tenant := tenant, wrote := [tenant], key := l.key, secure := l.sec } :: v.l2 } := by
  simp [State.allocate, none', mates]

/-- A byte of a copy that stands before all others is read from the copy, or behind the slices where it does not hold it. -/
theorem homeByte_of_copy {x : L2Line} (hbm : storeOf l.place = .hbm) (ms : l.ms = false)
    (slice : x.slice = s.homeSlice (l.place / 128 * 128)) (line : x.line = l.place / 128) (sec : x.secure = l.sec) (rest : List L2Line) :
    ({ s with l2 := x :: rest } : State).homeByte l = (Tab.find x.bytes (l.place % 128)).getD (s.backByte l.key l.place) := by
  have hit : ({ s with l2 := x :: rest } : State).copyFor l = some x := by
    have there : ({ s with l2 := x :: rest } : State).l2At (l.place / 128) = some x :=
      List.find?_cons_of_pos (by simp only [slice, line]; simp; rfl)
    simp [State.copyFor, ms, State.l2Hit, there, sec]
  simp only [State.homeByte, hbm, hit]
  rfl

/-- A line of which its home holds no copy is allocated when it is written, if the tenant may do so. -/
theorem writeLine_allocates {tenant : BitVec 10} {bytes : Tab Byte} (ms : l.ms = false) (none' : s.l2At (l.place / 128) = none)
    (ways : s.openWays tenant (s.homeSlice l.place) ≠ []) :
    s.writeLine l tenant bytes = s.allocate l tenant bytes true [] (s.openWays tenant (s.homeSlice l.place)) := by
  simp only [State.writeLine, ms, State.l2Hit, none', Option.filter_none, Bool.false_eq_true, if_false]

/-- A line of which no slice holds a copy leaves the slices as they are when it is flushed, -/
theorem flushLine_of_no_copy {line : Nat} (h : ∀ x ∈ s.l2, x.line ≠ line) : s.flushLine line = s := by
  have none' : s.l2.filter (fun x => x.line = line) = [] := List.filter_eq_nil_iff.mpr fun x hx => by simpa using h x hx
  simp [State.flushLine, none']

/-- and is in none of them. -/
theorem l2At_of_no_copy {line : Nat} (h : ∀ x ∈ s.l2, x.line ≠ line) : s.l2At line = none :=
  List.find?_eq_none.mpr fun x hx => by simp [h x hx]

/-- Its bytes are read behind the slices. -/
theorem homeByte_of_no_copy (hbm : storeOf l.place = .hbm) (h : ∀ x ∈ s.l2, x.line ≠ l.place / 128) :
    s.homeByte l = s.backByte l.key l.place := by
  have none' : s.copyFor l = none := by simp [State.copyFor, State.l2Hit, l2At_of_no_copy h]
  simp [State.homeByte, hbm, none', State.atBase, flushLine_of_no_copy h]

end

end Sys2Proof.Laws
end

section
/-! PROOFS: the claim that a drained word leaves the other bytes of its line as they were (06 R132) fails where the copy that its
line replaces lists a byte beyond its own line. -/

namespace Sys2Proof.Laws

open Machine Safety

/-! ### A copy that reaches past its line -/

/-- A word at offset 8 of the line n lines after 0x4000000. -/
def wordOf (n : Nat) : SbEntry :=
  { slot := 0, uid := 0, fence := 0, block := 2 * (0x80000 + n), bytes := [(8, 5)], ms := false, key := 0, va := 0, root := 0, rid := 0
    vf := 0, tenant := 0, secure := false, route := 0 }

/-- A copy of the m-th line that lists a byte of the n-th. -/
def longCopy (m n : Nat) : L2Line :=
  { slice := State.reset.homeSlice (128 * (0x80000 + n)), line := 0x80000 + m, way := 0, bytes := [(128 * (n - m), 1)], dirty := true
    bad := [], tenant := 0, wrote := [], key := 0, secure := false }

/-- The word is in the store buffer, and the copy holds the one way of the slice that the word's tenant may use. -/
def longState (m n : Nat) : State :=
  { State.reset with
    cores := [(0, { Core.reset with sb := [wordOf n] })]
    tenantWays := [(0, 1)]
    l2 := [longCopy m n] }

/-- The first byte of the n-th line. -/
def firstOf (n : Nat) : Nat := 128 * (0x80000 + n)

/-- The package once the word has left the store buffer. -/
abbrev longLeft (m n : Nat) : State := wordLeft (longState m n) 0 0 1 (wordOf n)

/-- The word's place. -/
abbrev longLoc (n : Nat) : Loc := wordLoc (wordOf n) 1

/-- The lines are plain memory, and no base die refuses to write one. -/
theorem line_writes : ∀ n < 65, storeOf (128 * (0x80000 + n) + 8) = .hbm ∧ storeOf (firstOf n) = .hbm
    ∧ State.reset.retiredPage (128 * (0x80000 + n)) = false ∧ State.reset.poolError (128 * (0x80000 + n)) = false
    ∧ isCmp (128 * (0x80000 + n)) = false ∧ State.reset.poolError (128 * (0x80000 + n) + 8) = false
    ∧ State.reset.retiredPage (128 * (0x80000 + n) + 8) = false ∧ isCmp (128 * (0x80000 + n) + 8) = false := by
  decide +kernel

variable {m n : Nat}

theorem place_longLoc : (longLoc n).place = 128 * (0x80000 + n) + 8 := by
  change 2 * (0x80000 + n) * 64 + 8 = _
  omega

theorem longState_takes (hn : n < 65) : (longState m n).refusedStore 0 (wordOf n) (longLoc n) = none := by
  obtain ⟨hbm, -, -, -, -, pool, retired, -⟩ := line_writes n hn
  have keyed : (longState m n).keyGone (longLoc n).key = false := rfl
  have pool : (longState m n).poolError (longLoc n).place = false := by rw [place_longLoc]; exact pool
  have retired : (longState m n).retiredPage (longLoc n).place = false := by rw [place_longLoc]; exact retired
  rw [← place_longLoc] at hbm
  simp [State.refusedStore, State.writeFails, hbm, keyed, pool, retired]

theorem longState_due (hn : n < 65) : WordDue (longState m n) 0 0 0 1 (wordOf n) where
  word := rfl
  entry := rfl
  first := by simp
  fence := by simp [State.fenceHoldsAt, State.fenceHolds, State.core, longState, Tab.get, Tab.find, wordOf, State.reset,
    State.undelivered, Core.reset]
  home := by simp [State.waits, State.claimed, State.inEpoch, longState, State.reset]
  crossbar := by simp [State.mute, State.silent, longState, State.reset, Crossbar.reset]
  room := by
    obtain ⟨hbm, -⟩ := line_writes n hn
    rw [place_longLoc, hbm]
    simp

/-- A byte of plain memory without a key is read as it stands. -/
theorem backByte_plain {s : State} (p : Nat) (h : s.writtenUnder = []) : s.backByte 0 p = s.byte p := by
  simp [State.backByte, State.keyOf, h]

/-- No copy of the word's line is anywhere. -/
theorem longState_no_copy (hm : m < n) : ∀ x ∈ (longState m n).l2, x.line ≠ firstOf n / 128 := by
  simp [longState, longCopy, firstOf]
  omega

theorem homeSlice_congr {s t : State} (h : t.domains = s.domains) (p : Nat) : t.homeSlice p = s.homeSlice p := by
  simp [State.homeSlice, State.domainMask, h]

/-- The package as the word comes to its home. -/
abbrev longHome (m n : Nat) : State := (longLeft m n).backInvalidate (0x80000 + n)

/-- The word's line. -/
abbrev lineLoc (n : Nat) : Loc := { longLoc n with place := (0x80000 + n) * 128 }

theorem line_lineLoc : (lineLoc n).place / 128 = 0x80000 + n := Nat.mul_div_cancel _ (by decide)

theorem slice_lineLoc : (longHome m n).homeSlice (lineLoc n).place = (longCopy m n).slice := by
  have same := homeSlice_congr (s := State.reset) (t := longHome m n) rfl (lineLoc n).place
  rwa [show (lineLoc n).place = 128 * (0x80000 + n) from Nat.mul_comm ..] at same ⊢

/-- A tenant with one way. -/
theorem openWays_one {s : State} (mask : s.tenantWays = [(0, 1)]) (attic : s.attic = []) (slice : Nat) : s.openWays 0 slice = [0] := by
  unfold State.openWays
  rw [mask, attic]
  simp only [get_nil]
  decide

theorem longHome_no_copy (hm : m < n) : ∀ x ∈ (longHome m n).l2, x.line ≠ (lineLoc n).place / 128 := by
  rw [line_lineLoc]
  have h := longState_no_copy hm
  rwa [show firstOf n / 128 = 0x80000 + n by unfold firstOf; omega] at h

/-- Of its set, where the two lines fall in one, the slice holds the copy alone. -/
theorem mates_lineLoc (set : Config.l2Set (0x80000 + m) % 64 = Config.l2Set (0x80000 + n) % 64) :
    (longHome m n).setMates ((longHome m n).homeSlice (lineLoc n).place) ((lineLoc n).place / 128) = [longCopy m n] := by
  rw [line_lineLoc, slice_lineLoc]
  refine List.filter_eq_self.mpr fun x hx => ?_
  obtain rfl : x = longCopy m n := List.mem_singleton.mp hx
  rw [Bool.and_eq_true, decide_eq_true_eq, decide_eq_true_eq]
  exact ⟨rfl, set⟩

/-- The word performed: its line is allocated. -/
theorem longState_performs (hn : n < 65) (hm : m < n) : (longLeft m n).performWord (wordOf n) (longLoc n) ((wordOf n).word 1)
    = (longHome m n).allocate (lineLoc n) 0 ([(8, 5)].map fun b => (((wordOf n).block * 64 + b.1) % 128, b.2)) true [] [0] := by
  obtain ⟨hbm, -⟩ := line_writes n hn
  rw [← place_longLoc] at hbm
  have line : (longLoc n).place / 128 = 0x80000 + n := by rw [place_longLoc]; omega
  have allocates := writeLine_allocates (tenant := 0) (bytes := [(8, 5)].map fun b => (((wordOf n).block * 64 + b.1) % 128, b.2))
    (l := lineLoc n) rfl (l2At_of_no_copy (longHome_no_copy hm)) (by rw [openWays_one rfl rfl]; simp)
  rw [openWays_one rfl rfl] at allocates
  simp only [State.performWord, hbm, line]
  exact allocates

/-- The package once the copy has been written back and has left its slice. -/
abbrev longEvicted (m n : Nat) : State :=
  (({ longHome m n with free := (longHome m n).free + 1 } : State).backPut 0 (0x80000 + m) (longCopy m n).bytes []).dropCopy (longCopy m n)

theorem evict_longCopy (hn : n < 65) (hm : m < n) :
    ({ longHome m n with free := (longHome m n).free + 1 } : State).evict (longCopy m n) = longEvicted m n := by
  obtain ⟨-, -, retired, pool, cmp, -⟩ := line_writes m (by omega)
  rw [Nat.mul_comm] at retired pool cmp
  let u : State := { longHome m n with free := (longHome m n).free + 1 }
  have copy : u.copyOf (longCopy m n) = longCopy m n := by
    simp [u, State.copyOf, State.backInvalidate, wordLeft, longState, L2Line.same]
  have retired : u.retiredPage ((0x80000 + m) * 128) = false := retired
  have pool : u.poolError ((0x80000 + m) * 128) = false := pool
  have back : u.writeBack (longCopy m n) = u.backPut 0 (0x80000 + m) (longCopy m n).bytes [] := by
    simp [State.writeBack, State.backTry, longCopy, retired, pool, cmp]
  change (u.writeBack (u.copyOf (longCopy m n))).dropCopy (longCopy m n) = _
  rw [copy, back]

/-- It has written the byte that it lists beyond its line. -/
theorem backByte_longEvicted (hm : m < n) : (longEvicted m n).backByte 0 (firstOf n) = 1 := by
  rw [backByte_plain]
  · change Tab.get Memory.blank (Tab.set Memory.blank [] ((0x80000 + m) * 128 + 128 * (n - m)) 1) (firstOf n) = 1
    rw [get_set, if_pos (by unfold firstOf; omega)]
  · rfl

theorem longState_after (hn : n < 65) (hm : m < n) (set : Config.l2Set (0x80000 + m) % 64 = Config.l2Set (0x80000 + n) % 64) :
    ((longLeft m n).performWord (wordOf n) (longLoc n) ((wordOf n).word 1)).homeByte { longLoc n with place := firstOf n } = 1 := by
  obtain ⟨-, first, -⟩ := line_writes n hn
  have replaced := allocate_replaces (m := longCopy m n) 0 ([(8, 5)].map fun b => (((wordOf n).block * 64 + b.1) % 128, b.2))
    (l2At_of_no_copy (longHome_no_copy hm)) (mates_lineLoc set)
  have here : firstOf n / 128 = 0x80000 + n := by unfold firstOf; omega
  have missed : ¬ firstOf n % 128 = ((wordOf n).block * 64 + 8) % 128 := by unfold firstOf wordOf; dsimp only; omega
  rw [longState_performs hn hm, show [0] = [(longCopy m n).way] from rfl, replaced, evict_longCopy hn hm]
  rw [homeByte_of_copy (s := longEvicted m n) first rfl]
  · simp only [List.map_cons, List.map_nil, Tab.find, if_neg missed, Option.getD_none]
    exact backByte_longEvicted hm
  · dsimp only
    rw [here]
    exact homeSlice_congr (s := longEvicted m n) (t := longHome m n) rfl _
  · dsimp only
    rw [line_lineLoc, here]
  · rfl

/-- Of 65 lines two fall in one of the 64 sets of a slice. -/
theorem two_lines_of_a_set : ∃ n < 65, ∃ m < n, Config.l2Set (0x80000 + m) % 64 = Config.l2Set (0x80000 + n) % 64 := by
  obtain ⟨a, b, ne, same⟩ := Fintype.exists_ne_map_eq_of_card_lt
    (fun i : Fin 65 => (⟨Config.l2Set (0x80000 + i) % 64, Nat.mod_lt _ (by decide)⟩ : Fin 64)) (by decide)
  have same := congrArg Fin.val same
  rcases Nat.lt_or_gt_of_ne (fun h => ne (Fin.ext h)) with h | h
  · exact ⟨b, b.isLt, a, h, same⟩
  · exact ⟨a, a.isLt, b, h, same.symm⟩

/-- Refutes O46: that the line of a drained word reads as before but for the word, where the line is allocated for it, fails of a
state whose slice holds a copy with a byte beyond its line (`longCopy`). The new line takes the place of that copy, which is written
back first, and its far byte falls into the new line (`longState_after`). The home slice and its sets are left open by the model, so
the two lines are found by counting (`two_lines_of_a_set`). No step of the model makes such a copy; that a copy lists bytes of its
own line only is the hypothesis that is missing. -/
theorem not_storeBufferDrain : ¬ Obligations.StoreBufferDrain := by
  unfold Obligations.StoreBufferDrain
  intro h
  obtain ⟨n, hn, m, hm, set⟩ := two_lines_of_a_set
  have due : WordDue (longState m n) 0 0 0 1 (wordOf n) := longState_due hn
  have takes := longState_takes (m := m) hn
  obtain ⟨hbm, first, -⟩ := line_writes n hn
  rw [← place_longLoc] at hbm
  obtain ⟨-, performed⟩ := h (longState m n) 0 0 0 1 (wordOf n) due.word due.entry rfl due.first due.fence due.home due.crossbar
    due.room
  obtain ⟨t, ht, -, -, -, -, bytes⟩ := performed takes
  cases (exec_drain_performs (core := 0) due takes).symm.trans ht
  have line : firstOf n / 128 = (longLoc n).place / 128 := by rw [place_longLoc]; unfold firstOf; omega
  have ways : (longState m n).openWays 0 ((longState m n).homeSlice (longLoc n).place) ≠ [] := by
    rw [openWays_one rfl rfl]
    simp
  have same : ((longLeft m n).performWord (wordOf n) (longLoc n) ((wordOf n).word 1)).homeByte { longLoc n with place := firstOf n }
      = overWord (wordOf n) 1 (firstOf n) ((longState m n).homeByte { longLoc n with place := firstOf n }) :=
    bytes hbm (line ▸ longState_no_copy hm) (.inr ⟨rfl, ways⟩) (firstOf n) line
  have before : (longState m n).homeByte { longLoc n with place := firstOf n } = 0 := by
    rw [homeByte_of_no_copy first (longState_no_copy hm)]
    exact backByte_plain _ rfl
  rw [longState_after hn hm set, before, overWord, if_neg] at same
  · exact absurd same (by decide)
  · unfold firstOf wordOf
    simp only [decide_eq_true_eq]
    omega

end Sys2Proof.Laws
end

section
/-! PROOFS: an instruction that first acts on objects of the package, or on the core beside its slots, and then writes its
register and goes on: what is said of the first part carries over to the whole. -/

namespace Sys2Proof.Laws

open Machine Safety

variable {s t u : State} {d : BitVec 5} {v : Reg}

/-! ### The running slot as it was -/

/-- The same slot runs, and it is as it was. -/
structure SameMe (s u : State) : Prop where
  cur : u.cur = s.cur
  me : u.me = s.me

theorem SameMe.refl (s : State) : SameMe s s := ⟨rfl, rfl⟩

theorem SameMe.trans (h : SameMe s t) (g : SameMe t u) : SameMe s u := ⟨g.cur.trans h.cur, g.me.trans h.me⟩

/-- The state differs in nothing that a slot shows. -/
theorem sameMe_of_slots (cur : u.cur = s.cur) (slots : ∀ c k, u.slotAt c k = s.slotAt c k) : SameMe s u :=
  ⟨cur, by rw [State.me, cur, slots, State.me]⟩

theorem SameMe.after (h : SameMe s u) : u.after = s.after := by rw [State.after, h.me, h.cur, State.after]

theorem SameMe.g (h : SameMe s u) (r : BitVec 5) : u.g r = s.g r := by rw [State.g, h.me, State.g]

/-- Which slots do not run. -/
theorem SameMe.other (h : SameMe s u) {c k : Nat} (hk : c ≠ s.cur.core ∨ k ≠ s.cur.slot) : c ≠ u.cur.core ∨ k ≠ u.cur.slot := by
  rwa [h.cur]

/-! ### Going on -/

/-- What is left of u once the running slot has gone on, with a register written: everything but the slot. -/
structure Rest (s u t : State) : Prop where
  package : SamePackage u t
  bytes : SameBytes u t
  cores : SameCores u t
  slots : ∀ c k, (c ≠ s.cur.core ∨ k ≠ s.cur.slot) → t.slotAt c k = u.slotAt c k

theorem rest_of_onlyMe (h : SameMe s u) (only : OnlyMe u t) : Rest s u t := by
  obtain ⟨package, bytes, cores, others⟩ := only
  exact ⟨package, bytes, cores, fun c k hk => others c k (h.other hk)⟩

/-- The slot goes on with its register written. -/
theorem result_of_sameMe (h : SameMe s u) (d : BitVec 5) (v : Reg) : let t := (u.setG d v).adv
    WritesG s t d v ∧ Advanced s t ∧ SameSlotButG s t ∧ Rest s u t := by
  obtain ⟨writes, next, slot, only⟩ := setG_adv_gives u d v
  refine ⟨fun r => ?_, next.trans h.after, ?_, rest_of_onlyMe h only⟩
  · rw [writes r, h.g]
  · rw [SameSlotButG, slot, h.me]

/-- The slot goes on. -/
theorem adv_of_sameMe (h : SameMe s u) : let t := u.adv
    Advanced s t ∧ SameSlotButPc s t ∧ Rest s u t := by
  obtain ⟨next, slot, only⟩ := goto_goesTo u u.after
  refine ⟨next.trans h.after, ?_, rest_of_onlyMe h only⟩
  rw [SameSlotButPc, State.adv, slot, h.me]

/-- It waits for what it waited for. -/
theorem wait_adv (u : State) : u.adv.me.wait = u.me.wait := by rw [me_adv]

theorem wait_result (u : State) (d : BitVec 5) (v : Reg) : (u.setG d v).adv.me.wait = u.me.wait := by
  rw [me_adv, State.setG, me_setMe, Slot.setG_wait]

/-- What the package shows beside its cores, where those alone have changed. -/
theorem field_of_samePackage {α : Type} (h : SamePackage s t) (f : State → α) (hf : ∀ u : State, f { u with cores := [] } = f u) :
    f t = f s := by
  rw [← hf, h, hf]

/-- What a core shows beside its slots, where those alone have changed. -/
theorem core_of_sameCore {α : Type} {c : Nat} (h : SameCore s t c) (f : Core → α) (hf : ∀ x : Core, f { x with slots := [] } = f x) :
    f (t.core c) = f (s.core c) := by
  rw [← hf, h, hf]

/-! ### Parking and waking (06 R154, R161) -/

theorem unpark_becomes (s : State) : Becomes s { s.me with wait := .none } s.unpark := setMe_becomes ..

theorem me_unpark (s : State) : s.unpark.me = { s.me with wait := .none } := (unpark_becomes s).me

theorem ready_unpark (s : State) : Ready s.unpark := by rw [Ready, me_unpark]

theorem base_unpark (s : State) : s.unpark.base = s.base := by rw [State.base, me_unpark, State.base]

theorem g_unpark (s : State) (r : BitVec 5) : s.unpark.g r = s.g r := by
  rw [State.g, me_unpark]
  rfl

theorem after_unpark (s : State) : s.unpark.after = s.after := by
  rw [State.after, me_unpark]
  rfl

theorem here_unpark {α : Type} (f : Core → α) (hf : ∀ x k y, f (x.setSlot k y) = f x) (s : State) : f s.unpark.here = f s.here :=
  here_setMe f hf ..

/-- The region of the running slot is that of its task. -/
theorem regionOf_unpark (s : State) : s.unpark.regionOf s.cur.core s.cur.slot = s.regionOf s.cur.core s.cur.slot := by
  have me : s.unpark.slotAt s.cur.core s.cur.slot = { s.me with wait := .none } := me_unpark s
  unfold State.regionOf
  rw [me]
  rfl

/-- Whatever the work of a woken instruction does to u, it does to the package before it. -/
theorem writesG_unpark (h : WritesG s.unpark t d v) : WritesG s t d v := fun r => by rw [h r, g_unpark]

theorem advanced_unpark (h : Advanced s.unpark t) : Advanced s t := by rw [Advanced, h, after_unpark]

theorem otherSlots_unpark (h : OtherSlots s.unpark t) : OtherSlots s t :=
  fun c k hk => (h c k hk).trans ((unpark_becomes s).others c k hk)

theorem sameBytes_unpark (h : SameBytes s.unpark t) : SameBytes s t := h

theorem acquired_unpark (h : Acquired s.unpark t) : Acquired s t := by
  obtain ⟨l1, early⟩ := h
  exact ⟨by rw [l1, here_unpark Core.l1 fun _ _ _ => rfl], early⟩

/-- A slot that stays at its instruction keeps it. -/
theorem Becomes.latch {x : Slot} (h : Becomes s x t) (i : Instr) :
    Becomes s { x with latched := some { instr := i, len := s.cur.len, code := s.cur.code } } (t.latch i) := by
  have next := setMe_becomes t { t.me with latched := some { instr := i, len := t.cur.len, code := t.cur.code } }
  rw [h.me, cur_of_samePackage h.package] at next
  exact h.trans (by rwa [State.latch, h.me, cur_of_samePackage h.package])

theorem Becomes.self (s : State) : Becomes s s.me s := ⟨rfl, fun _ _ _ => rfl, rfl, fun _ => rfl⟩

/-- A slot that parks keeps its instruction, and nothing else changes. -/
theorem park_parks (s : State) (w : Wait) (i : Instr) : Parks s ((s.park w).latch i) w := by
  have parked := setMe_becomes s { s.me with wait := w, parkedAt := s.stamp }
  have me : (s.park w).me = { s.me with wait := w, parkedAt := s.stamp } := parked.me
  have latched := (Becomes.self (s.park w)).latch i
  rw [me] at latched
  unfold Parks State.base
  rw [latched.me]
  exact ⟨rfl, rfl, rfl, rfl, fun p => sameBytes_of_samePackage latched.package p,
    fun c k hk => (latched.others c k hk).trans (parked.others c k hk)⟩

theorem wait_park (s : State) (w : Wait) : (s.park w).me.wait = w := by
  have parked := setMe_becomes s { s.me with wait := w, parkedAt := s.stamp }
  exact congrArg Slot.wait parked.me

/-! ### Running to the end -/

section

variable {i : Instr} {a : Act Unit}

/-- The work of an instruction that begins, done: the slot waits for nothing, and has gone on. -/
theorem exec_of_next (runs : exec i s = run i a s) (ok : legal i = true) (ready : Ready s) (h : a s = (.ok ⟨⟩, t))
    (w : t.me.wait = .none) : exec i s = .next t := by
  rw [runs, run_ready ok ready, Act.next_ok h w]

theorem exec_of_trap {e : Cause} {x : Reg} (runs : exec i s = run i a s) (ok : legal i = true) (ready : Ready s)
    (h : a s = (.error (.trap e x), t)) : exec i s = .next (t.trapHere e x) := by
  rw [runs, run_ready ok ready, Act.next_trap h]

end

end Sys2Proof.Laws
end

section
/-! PROOFS: release, acquire and the fences (06 R136 to R139). -/

namespace Sys2Proof.Laws

open Machine Safety

variable {s t : State} {sc : BitVec 3} {i : Instr}

/-! ### An acquire (06 R137) -/

@[simp] theorem cur_acquire (s : State) (c k sc : Nat) : (s.acquire c k sc).cur = s.cur := by
  unfold State.acquire
  split <;> rfl

/-- The running slot and every other are as they were. -/
theorem sameMe_acquire (s : State) (c k sc : Nat) : SameMe s (s.acquire c k sc) :=
  sameMe_of_slots (cur_acquire ..) (slotAt_acquire s c k sc)

/-- What is read ahead after an acquire of the running slot. -/
theorem reread_acquire (s : State) (sc : Nat) : Reread s (s.acquire s.cur.core s.cur.slot sc) (decide (sc ≠ 0)) := by
  unfold Reread State.acquire
  split
  next core =>
    simp only [core, State.dropEarly]
    refine List.filter_congr fun e _ => ?_
    by_cases h : e.core = s.cur.core <;> simp [h]
  next wide =>
    simp only [State.dropEarly, setCore_early, List.filter_filter]
    refine List.filter_congr fun e _ => ?_
    by_cases h : e.core = s.cur.core <;> simp [h, wide, Bool.and_comm]

/-- The L1 after it. -/
theorem l1_acquire (s : State) (sc : Nat) : (s.acquire s.cur.core s.cur.slot sc).here.l1 = if sc = 0 then s.here.l1
    else s.here.l1.filter (fun x => x.ro && storeOf (x.line * 128) ≠ .attic) := by
  rw [State.here, cur_acquire]
  split
  next core => rw [core]; rfl
  next wide => rw [core_acquire _ _ _ _ wide, if_pos rfl]; rfl

/-- Beside that nothing changes. -/
theorem package_acquire (s : State) (c k sc : Nat) :
    SamePackage { s with early := (s.acquire c k sc).early } (s.acquire c k sc) := by
  unfold State.acquire
  split <;> rfl

theorem but_l1_acquire (s : State) (c k sc c' : Nat) : { (s.acquire c k sc).core c' with l1 := [] } = { s.core c' with l1 := [] } := by
  by_cases h : sc = 0
  · rw [h]; rfl
  · rw [core_acquire _ _ _ _ h]
    split
    next same => rw [same]
    next => rfl

/-! ### The fences -/

theorem engineIdle_of (h : ∀ m ∈ s.here.mixq ++ s.here.dataq, m.slot ≠ s.cur.slot) :
    s.engineIdle s.cur.core s.cur.slot = true := by
  simpa [State.engineIdle, State.here, or_imp, forall_and] using h

theorem drained_of (h : ∀ e ∈ s.here.sb, e.slot ≠ s.cur.slot) : s.drained s.cur.core s.cur.slot = true := by
  simpa [State.drained, State.here] using h

/-- The package once the running slot has issued one more FENCE.net. -/
def fencedOnce (s : State) : State := s.setHere { s.here with fences := Tab.put s.here.fences s.cur.slot (s.fence + 1) }

theorem core_fencedOnce (s : State) (c : Nat) : (fencedOnce s).core c
    = if s.cur.core = c then { s.here with fences := Tab.put s.here.fences s.cur.slot (s.fence + 1) } else s.core c :=
  core_setCore ..

theorem slotAt_fencedOnce (s : State) (c k : Nat) : (fencedOnce s).slotAt c k = s.slotAt c k := by
  rw [fencedOnce, State.setHere, slotAt_setCore_of_slots]
  rfl

theorem sameMe_fencedOnce (s : State) : SameMe s (fencedOnce s) := sameMe_of_slots rfl (slotAt_fencedOnce s)

theorem fenceOf_fencedOnce (s : State) (c k : Nat) : (fencedOnce s).fenceOf c k
    = if c = s.cur.core ∧ k = s.cur.slot then s.fence + 1 else s.fenceOf c k := by
  unfold State.fenceOf
  rw [core_fencedOnce]
  by_cases hc : c = s.cur.core
  · subst hc
    simp only [if_true, true_and, Tab.get, find_put, eq_comm (a := s.cur.slot)]
    split <;> rfl
  · simp [hc, eq_comm (a := s.cur.core)]

/-- A fence completes once the stores and the commands that it waits for are performed; one that has .net in it numbers the
network writes after it. -/
theorem exec_fence {kind : BitVec 2} (ready : Ready s)
    (sb : kind = 0 ∨ kind = 3 → s.drained s.cur.core s.cur.slot = true)
    (eng : kind = 2 ∨ kind = 3 → s.engineIdle s.cur.core s.cur.slot = true) :
    exec (.fence kind) s = .next (if kind = 1 ∨ kind = 3 then (fencedOnce s).adv else s.adv) := by
  refine exec_of_next rfl rfl ready ?_ ?_
  · have stores : ¬ ((kind = 0 || kind = 3) && !s.drained s.cur.core s.cur.slot) = true := by simpa using sb
    have engines : ¬ ((kind = 2 || kind = 3) && !s.engineIdle s.cur.core s.cur.slot) = true := by simpa using eng
    simp only [Act.get_bind, if_neg stores, if_neg engines, Bool.or_eq_true, decide_eq_true_eq]
    split <;> rfl
  · split
    · rw [wait_adv, (sameMe_fencedOnce s).me]; exact ready
    · rw [wait_adv]; exact ready

/-- What it leaves: the slot goes on, its network writes have the next number, and nothing else changes. -/
theorem fencedOnce_adv (s : State) : let t := (fencedOnce s).adv
    Advanced s t ∧ t.fence = s.fence + 1 ∧ SameSlotButPc s t
      ∧ (∀ c k, (c ≠ s.cur.core ∨ k ≠ s.cur.slot) → t.fenceOf c k = s.fenceOf c k)
      ∧ SamePackage s t ∧ SameBytes s t ∧ OtherSlots s t
      ∧ ∀ c, { t.core c with slots := [], fences := [] } = { s.core c with slots := [], fences := [] } := by
  have kept := sameMe_fencedOnce s
  obtain ⟨next, slot, ⟨package, bytes, cores, slots⟩⟩ := adv_of_sameMe kept
  have number (c k : Nat) : (fencedOnce s).adv.fenceOf c k = (fencedOnce s).fenceOf c k :=
    core_of_sameCore (cores c) (fun x => Tab.get 0 x.fences k) fun _ => rfl
  have outside : SamePackage s (fencedOnce s) := rfl
  refine ⟨next, ?_, slot, fun c k other => ?_, package.trans outside, fun p => bytes p, fun c k other => ?_, fun c => ?_⟩
  · rw [State.fence, cur_of_samePackage package, number, kept.cur, fenceOf_fencedOnce, if_pos ⟨rfl, rfl⟩]
  · rw [number, fenceOf_fencedOnce, if_neg fun h => not_running other ⟨h.1.symm, h.2.symm⟩]
  · exact (slots c k other).trans (slotAt_fencedOnce s c k)
  · refine (core_of_sameCore (cores c) (fun x => { x with slots := [], fences := [] }) fun _ => rfl).trans ?_
    rw [core_fencedOnce]
    split
    next here => subst here; rfl
    next => rfl

/-- What an acquire leaves. -/
theorem acquire_adv (s : State) (sc : Nat) : let t := (s.acquire s.cur.core s.cur.slot sc).adv
    Advanced s t ∧ SameSlotButPc s t ∧ OtherSlots s t
      ∧ SamePackage { s with early := t.early } t ∧ Reread s t (decide (sc ≠ 0)) ∧ SameBytes s t
      ∧ (∀ c, { t.core c with slots := [], l1 := [] } = { s.core c with slots := [], l1 := [] })
      ∧ t.here.l1 = if sc = 0 then s.here.l1
          else s.here.l1.filter (fun x => x.ro && storeOf (x.line * 128) ≠ .attic) := by
  have kept := sameMe_acquire s s.cur.core s.cur.slot sc
  obtain ⟨next, slot, ⟨package, bytes, cores, slots⟩⟩ := adv_of_sameMe kept
  have early : (s.acquire s.cur.core s.cur.slot sc).adv.early = (s.acquire s.cur.core s.cur.slot sc).early := rfl
  refine ⟨next, slot, fun c k other => ?_, ?_, ?_, fun p => ?_, fun c => ?_, ?_⟩
  · rw [slots c k other, slotAt_acquire]
  · exact package.trans (package_acquire ..)
  · exact early.trans (reread_acquire s sc)
  · rw [bytes p, byte_acquire]
  · refine (core_of_sameCore (cores c) (fun x => { x with slots := [], l1 := [] }) fun _ => rfl).trans ?_
    exact congrArg (fun x : Core => { x with slots := [] }) (but_l1_acquire ..)
  · refine Eq.trans ?_ (l1_acquire s sc)
    rw [State.here, State.here, cur_of_samePackage package]
    exact core_of_sameCore (cores _) Core.l1 fun _ => rfl

/-- An acquire beyond the core, after which a register is written and the slot goes on. -/
theorem acquire_result (s : State) {sc : Nat} (wide : sc ≠ 0) (d : BitVec 5) (v : Reg) :
    let t := ((s.acquire s.cur.core s.cur.slot sc).setG d v).adv
    WritesG s t d v ∧ Advanced s t ∧ OtherSlots s t ∧ SameBytes s t ∧ Acquired s t ∧ t.me.wait = s.me.wait := by
  have kept := sameMe_acquire s s.cur.core s.cur.slot sc
  obtain ⟨writes, next, -, ⟨package, bytes, cores, slots⟩⟩ := result_of_sameMe kept d v
  have early := reread_acquire s sc
  rw [decide_eq_true wide] at early
  refine ⟨writes, next, fun c k other => (slots c k other).trans (slotAt_acquire ..), fun p => (bytes p).trans (byte_acquire ..),
    ⟨?_, early⟩, (wait_result ..).trans (congrArg Slot.wait kept.me)⟩
  rw [State.here, cur_of_samePackage package]
  exact (core_of_sameCore (cores _) Core.l1 fun _ => rfl).trans ((l1_acquire s sc).trans (if_neg wide))

/-- Settles O13 (log 5): what an acquire drops is said by `reread_acquire` and `l1_acquire`, a release goes on
(`Act.release_ok`), and so does a fence whose condition holds (`exec_fence`), with its number if it has .net in it. -/
theorem fences : Obligations.Fences := by
  unfold Obligations.Fences
  intro s sc ready scope numbers
  have ok : legal (.acq sc) = true := decide_eq_true scope
  have acquires : exec (.acq sc) s = simple (.acq sc) (fun s => s.acquire s.cur.core s.cur.slot sc.toNat) s := rfl
  have zero : sc.toNat = 0 ↔ sc = 0 := (BitVec.toNat_eq (x := sc) (y := 0)).symm
  refine ⟨⟨_, acquires.trans (simple_legal ok), ?_⟩, fun done => ⟨s.adv, ?_, goto_goesTo s s.after⟩, fun stores => ?_,
    fun engines => ?_, ?_, fun stores engines => ?_⟩
  · simpa only [zero, ne_eq] using acquire_adv s sc.toNat
  · exact exec_of_next rfl ok ready (Act.bind_ok (Act.release_ok done)) ((wait_adv s).trans ready)
  · exact ⟨_, exec_fence ready (fun _ => drained_of stores) (by simp), goto_goesTo s s.after⟩
  · exact ⟨_, exec_fence ready (by simp) (fun _ => engineIdle_of engines), goto_goesTo s s.after⟩
  · exact ⟨_, exec_fence ready (by simp) (by simp), fencedOnce_adv s⟩
  · exact ⟨_, exec_fence ready (fun _ => drained_of stores) (fun _ => engineIdle_of engines), fencedOnce_adv s⟩

end Sys2Proof.Laws
end

section
/-! PROOFS: slots woken (06 R153, R156, R159, R160): what `State.wake` does to each slot, and that it leaves the rest. -/

namespace Sys2Proof.Laws

open Machine Safety

variable {s t u : State} {w : Wait} {v : Reg}

/-! ### Every slot changed by one function -/

theorem find_map {α β : Type} (f : Nat → α → β) (t : Tab α) (n : Nat) :
    Tab.find (t.map fun e => (e.1, f e.1 e.2)) n = (Tab.find t n).map (f n) := by
  induction t with
  | nil => rfl
  | cons e t ih =>
    simp only [List.map_cons, Tab.find]
    split
    next h => rw [h]; rfl
    next => exact ih

/-- A table changed at every key, where its default would stay as it is. -/
theorem get_map {α : Type} (f : Nat → α → α) (d : α) (t : Tab α) (n : Nat) (h : f n d = d) :
    Tab.get d (t.map fun e => (e.1, f e.1 e.2)) n = f n (Tab.get d t n) := by
  rw [Tab.get, find_map, Tab.get]
  cases Tab.find t n with
  | none => exact h.symm
  | some x => rfl

theorem core_mapSlots (s : State) (f : Nat → Nat → Slot → Slot) (c : Nat) :
    (s.mapSlots f).core c = { s.core c with slots := (s.core c).slots.map fun x => (x.1, f c x.1 x.2) } :=
  get_map (fun c (x : Core) => { x with slots := x.slots.map fun y => (y.1, f c y.1 y.2) }) Core.reset s.cores c rfl

theorem slotAt_mapSlots (s : State) (f : Nat → Nat → Slot → Slot) (c k : Nat) (h : f c k Slot.reset = Slot.reset) :
    (s.mapSlots f).slotAt c k = f c k (s.slotAt c k) := by
  rw [State.slotAt, core_mapSlots]
  exact get_map (f c) Slot.reset _ k h

theorem sameCores_mapSlots (s : State) (f : Nat → Nat → Slot → Slot) : SameCores s (s.mapSlots f) := by
  intro c
  rw [SameCore, core_mapSlots]

/-! ### Slots woken -/

/-- The slots that wait for something, woken. -/
theorem slotAt_wake (h : w ≠ .none) (c k : Nat) : (s.wake (fun _ _ x => x == w) v).slotAt c k
    = if (s.slotAt c k).wait = w then { s.slotAt c k with wait := .woken v } else s.slotAt c k := by
  rw [State.wake, slotAt_mapSlots]
  · simp only [beq_iff_eq]
  · rw [if_neg]
    simpa [Slot.reset] using h.symm

/-- Of the cores, the slots that waited for something have been woken, and nothing else has changed; the running slot did not wait
for it. -/
structure Roused (s : State) (w : Wait) (v : Reg) (u : State) : Prop where
  me : SameMe s u
  wakes : Wakes s u w v
  cores : SameCores s u

theorem roused_wake (h : w ≠ .none) (me : s.me.wait ≠ w) : Roused s w v (s.wake (fun _ _ x => x == w) v) where
  me := ⟨rfl, (slotAt_wake h ..).trans (if_neg me)⟩
  wakes c k _ := slotAt_wake h c k
  cores := sameCores_mapSlots s _

theorem core_of_cores (cores : u.cores = s.cores) (c : Nat) : u.core c = s.core c := by rw [State.core, cores, State.core]

theorem slotAt_of_cores (cores : u.cores = s.cores) (c k : Nat) : u.slotAt c k = s.slotAt c k := by
  rw [State.slotAt, core_of_cores cores, State.slotAt]

theorem sameMe_of_cores (cur : u.cur = s.cur) (cores : u.cores = s.cores) : SameMe s u :=
  sameMe_of_slots cur (slotAt_of_cores cores)

theorem sameCores_of_cores (cores : u.cores = s.cores) : SameCores s u := fun c => by rw [SameCore, core_of_cores cores]

theorem Rest.others (r : Rest s u t) (cores : u.cores = s.cores) : OtherSlots s t :=
  fun c k other => (r.slots c k other).trans (slotAt_of_cores cores c k)

/-- An operation beside the cores, before the slots are woken or after it, changes nothing of that. -/
theorem Roused.of_cores (h : Roused s w v u) (cur : t.cur = u.cur) (cores : t.cores = u.cores) : Roused s w v t :=
  ⟨h.me.trans (sameMe_of_cores cur cores), fun c k hk => (slotAt_of_cores cores c k).trans (h.wakes c k hk),
    fun c => by rw [SameCore, core_of_cores cores]; exact h.cores c⟩

theorem Roused.of_before (h : Roused u w v t) (cur : u.cur = s.cur) (cores : u.cores = s.cores) : Roused s w v t := by
  refine ⟨(sameMe_of_cores cur cores).trans h.me, fun c k hk => ?_, fun c => ?_⟩
  · rw [← slotAt_of_cores cores]
    exact h.wakes c k (by rwa [cur])
  · rw [SameCore, ← core_of_cores cores]
    exact h.cores c

/-- What the rest of the instruction, which concerns the running slot alone, leaves of that. -/
theorem Roused.rest (h : Roused s w v u) (r : Rest s u t) : Wakes s t w v ∧ SameCores s t :=
  ⟨fun c k hk => (r.slots c k hk).trans (h.wakes c k hk), fun c => (r.cores c).trans (h.cores c)⟩

end Sys2Proof.Laws
end

section
/-! PROOFS: barrier objects (06 R151 to R156, 14 R360). -/

namespace Sys2Proof.Laws

open Machine Safety

variable {s t u : State} {o : Nat} {d a b : BitVec 5} {x : Barrier}

/-! ### The objects -/

/-- The object that an address names. -/
theorem Act.barrier_ok {va : Reg} (h : s.barAt s.cur.core s.cur.slot va = .ok o) : Act.barrier va s = (.ok o, s) := by
  simp [Act.barrier, h]

theorem cur_setBar (s : State) (o : Nat) (x : Barrier) : (s.setBar o x).cur = s.cur := rfl

theorem cores_setBar (s : State) (o : Nat) (x : Barrier) : (s.setBar o x).cores = s.cores := rfl

/-- A write of one object: it has changed, the slots that waited for it are woken or not, and nothing else has changed. -/
structure BarSet (s : State) (o : Nat) (x : Barrier) (u : State) : Prop where
  bar : u.bar o = x
  others : ∀ o', o' ≠ o → u.bar o' = s.bar o'
  package : SameBut (fun s => { s with cores := [], bars := [] }) s u

theorem barSet_setBar (s : State) (o : Nat) (x : Barrier) : BarSet s o x (s.setBar o x) where
  bar := by simp
  others o' h := by simp [Ne.symm h]
  package := rfl

/-- Slots may be woken before it, or after it. -/
theorem BarSet.wake (h : BarSet s o x u) (f : Nat → Nat → Wait → Bool) (v : Reg) : BarSet s o x (u.wake f v) :=
  ⟨h.bar, h.others, h.package⟩

theorem BarSet.of_wake {f : Nat → Nat → Wait → Bool} {v : Reg} (h : BarSet (s.wake f v) o x u) : BarSet s o x u :=
  ⟨h.bar, h.others, h.package⟩

/-- Of writes of one object the last one counts. -/
theorem BarSet.setBar (h : BarSet s o x u) (y : Barrier) : BarSet s o y (u.setBar o y) where
  bar := by simp
  others o' ne := by simpa [Ne.symm ne] using h.others o' ne
  package := h.package

theorem BarSet.rest (h : BarSet s o x u) (r : Rest s u t) : t.bar o = x ∧ (∀ o', o' ≠ o → t.bar o' = s.bar o')
    ∧ SameBut (fun s => { s with cores := [], bars := [] }) s t := by
  have bar (k : Nat) : t.bar k = u.bar k := field_of_samePackage r.package (fun u => u.bar k) fun _ => rfl
  refine ⟨(bar o).trans h.bar, fun o' ne => (bar o').trans (h.others o' ne), ?_⟩
  have package := h.package
  unfold SameBut at package ⊢
  exact (field_of_samePackage r.package (fun u => { u with cores := [], bars := [] }) fun _ => rfl).trans package

/-! ### Set-up, and freeing (06 R152, R156) -/

/-- An object set up anew, with its waiters woken with status 1. -/
def barAnew (s : State) (o : Nat) (x : Barrier) : State := (s.barRelease o 1).setBar o x

theorem barAnew_set (s : State) (o : Nat) (x : Barrier) : BarSet s o x (barAnew s o x) :=
  (barSet_setBar (s.barRelease o 1) o x).of_wake

theorem barAnew_roused (ready : Ready s) (o : Nat) (x : Barrier) : Roused s (.barrier o) 1 (barAnew s o x) :=
  (roused_wake (by simp) (by rw [ready]; simp)).of_cores rfl rfl

/-- What the instruction does then. -/
theorem barAnew_adv (ready : Ready s) (o : Nat) (x : Barrier) : let t := (barAnew s o x).adv
    t.bar o = x ∧ (∀ o', o' ≠ o → t.bar o' = s.bar o') ∧ Wakes s t (.barrier o) 1 ∧ Advanced s t ∧ SameSlotButPc s t
      ∧ SameBut (fun s => { s with cores := [], bars := [] }) s t ∧ SameCores s t := by
  have roused := barAnew_roused ready o x
  obtain ⟨next, slot, rest⟩ := adv_of_sameMe roused.me
  obtain ⟨bar, others, package⟩ := (barAnew_set s o x).rest rest
  obtain ⟨wakes, cores⟩ := roused.rest rest
  exact ⟨bar, others, wakes, next, slot, package, cores⟩

theorem exec_barInit (ready : Ready s) (names : s.barAt s.cur.core s.cur.slot (s.g a) = .ok o) (link : s.linkOf o = none)
    (low : 1 ≤ (s.g b).toNat) (high : (s.g b).toNat < 2 ^ 16) :
    exec (.barInit a b) s = .next (barAnew s o { n := (s.g b).setWidth 16, a := 0, gen := 0 }).adv := by
  refine exec_of_next rfl rfl ready ?_ ?_
  · have fits : ¬ ((s.g b).toNat % 2 ^ 16 = 0 ∨ 2 ^ 16 ≤ (s.g b).toNat ∨ (s.linkOf o).isSome = true) := by
      rw [link]
      simp
      omega
    rw [Act.get_bind, Act.bind_ok (Act.barrier_ok names)]
    simp only [Bool.or_eq_true, decide_eq_true_eq, or_assoc, if_neg fits]
    rfl
  · rw [wait_adv, (barAnew_roused ready o _).me.me]
    exact ready

theorem exec_barFree (ready : Ready s) (names : s.barAt s.cur.core s.cur.slot (s.g a) = .ok o) (link : s.linkOf o = none) :
    exec (.barFree a) s = .next (barAnew s o Barrier.reset).adv := by
  refine exec_of_next rfl rfl ready ?_ ?_
  · rw [Act.get_bind, Act.bind_ok (Act.barrier_ok names)]
    simp only [link]
    rfl
  · rw [wait_adv, (barAnew_roused ready o _).me.me]
    exact ready

theorem exec_barInfo (ready : Ready s) (names : s.barAt s.cur.core s.cur.slot (s.g a) = .ok o) :
    exec (.barInfo d a) s = .next (s.setG d ((s.bar o).gen ++ (s.bar o).a ++ (s.bar o).n)).adv := by
  refine exec_of_next rfl rfl ready ?_ ((wait_result ..).trans ready)
  rw [Act.get_bind, Act.bind_ok (Act.barrier_ok names)]
  rfl

/-! ### Arrival (06 R153, 14 R360) -/

/-- The package once one arrival is counted, and once the count is cleared. -/
def barCounted (s : State) (o : Nat) : State := s.setBar o { s.bar o with a := (s.bar o).a + 1 }
def barCleared (s : State) (o : Nat) : State := (barCounted s o).setBar o { (barCounted s o).bar o with a := 0 }

/-- And once the generation has advanced. -/
def barAdvanced (s : State) (o : Nat) : State :=
  (barCleared s o).setBar o { (barCleared s o).bar o with gen := ((barCleared s o).bar o).gen + 1 }

theorem barCounted_set (s : State) (o : Nat) : BarSet s o { s.bar o with a := (s.bar o).a + 1 } (barCounted s o) :=
  barSet_setBar ..

theorem barCleared_set (s : State) (o : Nat) : BarSet s o { s.bar o with a := 0 } (barCleared s o) := by
  obtain ⟨bar, others, package⟩ := (barCounted_set s o).setBar { (barCounted s o).bar o with a := 0 }
  exact ⟨bar.trans (by rw [(barCounted_set s o).bar]), others, package⟩

theorem barAdvanced_set (s : State) (o : Nat) :
    BarSet s o { n := (s.bar o).n, a := 0, gen := (s.bar o).gen + 1 } (barAdvanced s o) := by
  obtain ⟨bar, others, package⟩ :=
    (barCleared_set s o).setBar { (barCleared s o).bar o with gen := ((barCleared s o).bar o).gen + 1 }
  exact ⟨bar.trans (by rw [(barCleared_set s o).bar]), others, package⟩

/-- An arrival that is not the last is counted. -/
theorem barArrive_counts (more : (s.bar o).a + 1 ≠ (s.bar o).n) : s.barArrive o = barCounted s o := if_neg more

theorem barArrive_last (last : (s.bar o).a + 1 = (s.bar o).n) : s.barArrive o = (barCounted s o).barPhase o := if_pos last

/-- The last one ends the phase here, and completes every waiter. -/
theorem barArrive_completes (last : (s.bar o).a + 1 = (s.bar o).n) (link : s.linkOf o = none) :
    s.barArrive o = (barAdvanced s o).barRelease o 0 := by
  have unlinked : (barCounted s o).linkOf o = none := link
  rw [barArrive_last last, State.barPhase, unlinked]
  rfl

/-- On an object linked to a master in another package it clears the count, and nothing completes here. -/
theorem barArrive_linked (last : (s.bar o).a + 1 = (s.bar o).n) {e : Nat} (link : s.linkOf o = some e)
    (master : (s.link e).master ≠ s.package.toNat) : s.barArrive o = barCleared s o := by
  have linked : (barCounted s o).linkOf o = some e := link
  rw [barArrive_last last, State.barPhase, linked]
  exact if_neg master

theorem exec_barArr (ready : Ready s) (names : s.barAt s.cur.core s.cur.slot (s.g a) = .ok o) (inUse : (s.bar o).n ≠ 0)
    (released : s.released s.cur.core s.cur.slot (if (s.linkOf o).isSome then 4 else 3) = true) (me : SameMe s (s.barArrive o)) :
    exec (.barArr d a) s = .next ((s.barArrive o).setG d ((s.bar o).gen.setWidth 64)).adv := by
  refine exec_of_next rfl rfl ready ?_ ((wait_result ..).trans ((congrArg Slot.wait me.me).trans ready))
  rw [Act.get_bind, Act.bind_ok (Act.barrier_ok names), Act.bind_ok (Act.release_ok released)]
  simp only [if_neg inUse]
  rfl

/-- What an arrival does beside the object and those that wait for it. -/
def Arrives (s : State) (d : BitVec 5) (o : Nat) (t : State) : Prop :=
  WritesG s t d ((s.bar o).gen.setWidth 64) ∧ Advanced s t ∧ SameSlotButG s t
    ∧ SameBut (fun s => { s with cores := [], bars := [] }) s t ∧ SameCores s t ∧ ∀ o', o' ≠ o → t.bar o' = s.bar o'

/-- What is said of the object carries over to the instruction. -/
theorem arrives_of (me : SameMe s u) (cores : SameCores s u) (set : BarSet s o x u) (d : BitVec 5) :
    let t := (u.setG d ((s.bar o).gen.setWidth 64)).adv
    Arrives s d o t ∧ t.bar o = x ∧ Rest s u t := by
  obtain ⟨writes, next, slot, rest⟩ := result_of_sameMe me d ((s.bar o).gen.setWidth 64)
  obtain ⟨bar, others, package⟩ := set.rest rest
  exact ⟨⟨writes, next, slot, package, fun c => (rest.cores c).trans (cores c), others⟩, bar, rest⟩

theorem cur_barCleared (s : State) (o : Nat) : (barCleared s o).cur = s.cur := by
  simp only [barCleared, barCounted, cur_setBar]

theorem cores_barCleared (s : State) (o : Nat) : (barCleared s o).cores = s.cores := by
  simp only [barCleared, barCounted, cores_setBar]

theorem roused_barAdvanced (ready : Ready s) (o : Nat) : Roused s (.barrier o) 0 ((barAdvanced s o).barRelease o 0) := by
  have cur : (barAdvanced s o).cur = s.cur := (cur_setBar ..).trans (cur_barCleared s o)
  have cores : (barAdvanced s o).cores = s.cores := (cores_setBar ..).trans (cores_barCleared s o)
  have woken : Roused (barAdvanced s o) (.barrier o) 0 ((barAdvanced s o).barRelease o 0) :=
    roused_wake (by simp) (by rw [(sameMe_of_cores cur cores).me, ready]; simp)
  exact woken.of_before cur cores

section

variable (ready : Ready s) (names : s.barAt s.cur.core s.cur.slot (s.g a) = .ok o) (inUse : (s.bar o).n ≠ 0)
include ready names inUse

theorem completes_barArr_last (link : s.linkOf o = none) (released : s.released s.cur.core s.cur.slot 3 = true)
    (last : (s.bar o).a + 1 = (s.bar o).n) : Completes (.barArr d a) s (fun t => Arrives s d o t
      ∧ t.bar o = { n := (s.bar o).n, a := 0, gen := (s.bar o).gen + 1 } ∧ Wakes s t (.barrier o) 0) := by
  have roused := roused_barAdvanced ready o
  have runs := exec_barArr (d := d) ready names inUse (by rw [link]; exact released)
    (by rw [barArrive_completes last link]; exact roused.me)
  rw [barArrive_completes last link] at runs
  obtain ⟨gives, bar, rest⟩ := arrives_of roused.me roused.cores ((barAdvanced_set s o).wake _ 0) d
  exact ⟨_, runs, gives, bar, (roused.rest rest).1⟩

theorem completes_barArr_more (released : s.released s.cur.core s.cur.slot (if (s.linkOf o).isSome then 4 else 3) = true)
    (more : (s.bar o).a + 1 ≠ (s.bar o).n) : Completes (.barArr d a) s (fun t => Arrives s d o t
      ∧ t.bar o = { n := (s.bar o).n, a := (s.bar o).a + 1, gen := (s.bar o).gen } ∧ OtherSlots s t) := by
  have cores : (barCounted s o).cores = s.cores := cores_setBar ..
  have me : SameMe s (barCounted s o) := sameMe_of_cores (cur_setBar ..) cores
  have runs := exec_barArr (d := d) ready names inUse released (by rw [barArrive_counts more]; exact me)
  rw [barArrive_counts more] at runs
  obtain ⟨gives, bar, rest⟩ := arrives_of me (sameCores_of_cores cores) (barCounted_set s o) d
  exact ⟨_, runs, gives, bar, rest.others cores⟩

theorem completes_barArr_linked {e : Nat} (link : s.linkOf o = some e) (master : (s.link e).master ≠ s.package.toNat)
    (released : s.released s.cur.core s.cur.slot 4 = true)
    (last : (s.bar o).a + 1 = (s.bar o).n) : Completes (.barArr d a) s (fun t => Arrives s d o t
      ∧ t.bar o = { n := (s.bar o).n, a := 0, gen := (s.bar o).gen } ∧ OtherSlots s t) := by
  have cores := cores_barCleared s o
  have me : SameMe s (barCleared s o) := sameMe_of_cores (cur_barCleared s o) cores
  have runs := exec_barArr (d := d) ready names inUse (by rw [link]; exact released)
    (by rw [barArrive_linked last link master]; exact me)
  rw [barArrive_linked last link master] at runs
  obtain ⟨gives, bar, rest⟩ := arrives_of me (sameCores_of_cores cores) (barCleared_set s o) d
  exact ⟨_, runs, gives, bar, rest.others cores⟩

end

/-! ### Waiting (06 R154, R155) -/

theorem barAt_unpark (s : State) (va : Reg) :
    s.unpark.barAt s.unpark.cur.core s.unpark.cur.slot va = s.barAt s.cur.core s.cur.slot va := by
  change s.unpark.barAt s.cur.core s.cur.slot va = _
  rw [State.barAt, regionOf_unpark, State.barAt]

/-- The scope of the acquire that ends a wait. -/
def barScope (s : State) (o : Nat) : Nat := if (s.linkOf o).isSome then 4 else 3

theorem barScope_ne_zero (s : State) (o : Nat) : barScope s o ≠ 0 := by
  unfold barScope
  split <;> decide

/-- The package once a wait has ended. -/
def barWaited (s : State) (o : Nat) (d : BitVec 5) : State :=
  ((s.acquire s.cur.core s.cur.slot (barScope s o)).setG d 0).adv

theorem exec_barWait_passed (ready : Ready s) (names : s.barAt s.cur.core s.cur.slot (s.g a) = .ok o) (inUse : (s.bar o).n ≠ 0)
    (passed : (s.bar o).gen ≠ (s.g b).setWidth 32) : exec (.barWait d a b) s = .next (barWaited s o d) := by
  obtain ⟨-, -, -, -, -, wait⟩ := acquire_result s (barScope_ne_zero s o) d 0
  change execBarWait d a b s = _
  rw [execBarWait, runWith_ready rfl ready]
  refine congrArg _ (Act.next_ok ?_ (wait.trans ready))
  rw [Act.get_bind, Act.bind_ok (Act.barrier_ok names)]
  simp only [if_neg inUse, if_pos passed]
  rfl

theorem exec_barWait_parks (ready : Ready s) (names : s.barAt s.cur.core s.cur.slot (s.g a) = .ok o) (inUse : (s.bar o).n ≠ 0)
    (current : (s.bar o).gen = (s.g b).setWidth 32) :
    exec (.barWait d a b) s = .next ((s.park (.barrier o)).latch (.barWait d a b)) := by
  change execBarWait d a b s = _
  rw [execBarWait, runWith_ready rfl ready]
  refine congrArg _ (Act.next_park ?_ (by simp [wait_park]))
  rw [Act.get_bind, Act.bind_ok (Act.barrier_ok names)]
  simp only [if_neg inUse, if_neg (not_not_intro current)]
  rfl

/-- Woken by a completion, -/
theorem exec_barWait_completed (woken : s.me.wait = .woken 0) (names : s.barAt s.cur.core s.cur.slot (s.g a) = .ok o) :
    exec (.barWait d a b) s = .next (barWaited s.unpark o d) := by
  obtain ⟨-, -, -, -, -, wait⟩ := acquire_result s.unpark (barScope_ne_zero s.unpark o) d 0
  change execBarWait d a b s = _
  rw [execBarWait, runWith_woken rfl woken]
  refine congrArg _ (Act.next_ok ?_ (wait.trans (ready_unpark s)))
  rw [Act.get_bind, Act.bind_ok (Act.barrier_ok (by rw [barAt_unpark, g_unpark]; exact names))]
  rfl

/-- by a reset, -/
theorem exec_barWait_reset (woken : s.me.wait = .woken 1) (names : s.barAt s.cur.core s.cur.slot (s.g a) = .ok o) (dest : d ≠ 0) :
    exec (.barWait d a b) s = .next (s.unpark.setG d 1).adv := by
  change execBarWait d a b s = _
  rw [execBarWait, runWith_woken rfl woken]
  refine congrArg _ (Act.next_ok ?_ ((wait_result ..).trans (ready_unpark s)))
  rw [Act.get_bind, Act.bind_ok (Act.barrier_ok (by rw [barAt_unpark, g_unpark]; exact names))]
  simp only [if_neg dest]
  rfl

/-- and by one that no register tells. -/
theorem exec_barWait_traps (woken : s.me.wait = .woken 1) (names : s.barAt s.cur.core s.cur.slot (s.g a) = .ok o) :
    exec (.barWait 0 a b) s = .next (s.unpark.trapHere 0x0C (s.g a)) := by
  change execBarWait 0 a b s = _
  rw [execBarWait, runWith_woken rfl woken]
  refine congrArg _ (Act.next_trap ?_)
  rw [Act.get_bind, Act.bind_ok (Act.barrier_ok (by rw [barAt_unpark, g_unpark]; exact names))]
  simp only [g_unpark]
  rfl

/-- Settles O16 (log 81): the operations on an object as writes of it (`BarSet`) that rouse its waiters or not (`Roused`), and the
ways that a wait ends. -/
theorem barriers : Obligations.Barriers := by
  unfold Obligations.Barriers
  refine ⟨fun s d a b o ready names => ⟨?_, fun link => ⟨fun low high => ?_, ?_⟩⟩, fun s d a o ready names inUse => ⟨?_, ?_⟩,
    fun s d a b o names => ⟨fun ready inUse => ⟨fun passed => ?_, fun current => ?_⟩, fun woken => ?_, fun woken dest => ?_,
      fun woken dest may => ?_⟩⟩
  · exact ⟨_, exec_barInfo ready names, setG_adv_gives ..⟩
  · exact ⟨_, exec_barInit ready names link low high, barAnew_adv ready ..⟩
  · exact ⟨_, exec_barFree ready names link, barAnew_adv ready ..⟩
  · intro link released
    by_cases last : (s.bar o).a + 1 = (s.bar o).n
    · obtain ⟨t, ht, gives, completed⟩ := completes_barArr_last (d := d) ready names inUse link released last
      exact ⟨t, ht, gives, fun _ => completed, fun more => absurd last more⟩
    · obtain ⟨t, ht, gives, counted⟩ := completes_barArr_more (d := d) ready names inUse (by rw [link]; exact released) last
      exact ⟨t, ht, gives, fun h => absurd h last, fun _ => counted⟩
  · intro e link master released
    by_cases last : (s.bar o).a + 1 = (s.bar o).n
    · obtain ⟨t, ht, gives, bar, others⟩ := completes_barArr_linked (d := d) ready names inUse link master released last
      exact ⟨t, ht, gives, others, by rw [if_pos last]; exact bar⟩
    · obtain ⟨t, ht, gives, bar, others⟩ := completes_barArr_more (d := d) ready names inUse (by rw [link]; exact released) last
      exact ⟨t, ht, gives, others, by rw [if_neg last]; exact bar⟩
  · obtain ⟨writes, next, others, bytes, acquired, -⟩ := acquire_result s (barScope_ne_zero s o) d 0
    exact ⟨_, exec_barWait_passed ready names inUse passed, ⟨writes, next, others, bytes⟩, acquired⟩
  · exact ⟨_, exec_barWait_parks ready names inUse current, park_parks ..⟩
  · obtain ⟨writes, next, others, bytes, acquired, wait⟩ := acquire_result s.unpark (barScope_ne_zero s.unpark o) d 0
    exact ⟨_, exec_barWait_completed woken names, ⟨writesG_unpark writes, advanced_unpark next, otherSlots_unpark others,
      sameBytes_unpark bytes⟩, acquired_unpark acquired, wait.trans (ready_unpark s)⟩
  · obtain ⟨writes, next, -, package, bytes, -, others⟩ := setG_adv_gives s.unpark d 1
    exact ⟨_, exec_barWait_reset woken names dest, ⟨writesG_unpark writes, advanced_unpark next, otherSlots_unpark others,
      sameBytes_unpark bytes⟩, (wait_result ..).trans (ready_unpark s)⟩
  · subst dest
    obtain ⟨traps, -⟩ := trapHere_traps (cause := 0x0C) (by decide) (by decide) (ready_unpark s) (by rwa [base_unpark])
    rw [base_unpark] at traps
    exact ⟨_, exec_barWait_traps woken names, traps⟩

end Sys2Proof.Laws
end

section
/-! PROOFS: numbers in storage with nothing in front of it: what is read after a number is written there (00 R8). -/

namespace Sys2Proof.Laws

open Machine Safety

variable {s t : State}

theorem leNat_bytesOfNat (n w : Nat) : leNat (bytesOfNat n w) = w % 256 ^ n := by
  induction n generalizing w with
  | zero => simp [bytesOfNat, leNat, Nat.mod_one]
  | succ n ih =>
    have byte : (BitVec.ofNat 8 w).toNat = w % 256 := BitVec.toNat_ofNat ..
    rw [bytesOfNat, leNat, ih, byte, Nat.pow_succ', Nat.mod_mul]

theorem peek_congr {p n : Nat} (h : ∀ q, p ≤ q → q < p + n → t.byte q = s.byte q) : t.peek p n = s.peek p n :=
  List.map_congr_left fun i hi => h _ (by omega) (by have := List.mem_range.mp hi; omega)

/-- A run of the bytes just written, -/
theorem peek_poke_within (s : State) (p : Nat) (bs : List Byte) {k n : Nat} (h : k + n ≤ bs.length) :
    (s.poke p bs).peek (p + k) n = (bs.drop k).take n := by
  refine List.ext_getElem (by simp [State.peek]; omega) fun i h1 h2 => ?_
  have hi : i < n := by simpa [State.peek] using h1
  have inside : p ≤ p + k + i ∧ p + k + i < p + bs.length := by omega
  have at' : p + k + i - p = k + i := by omega
  simp only [State.peek, List.getElem_map, List.getElem_range, byte_poke, if_pos inside, at', List.getElem_take, List.getElem_drop,
    List.getElem?_eq_getElem (show k + i < bs.length by omega), Option.getD_some]

theorem peek_poke_same (s : State) (p : Nat) (bs : List Byte) : (s.poke p bs).peek p bs.length = bs := by
  simpa using peek_poke_within s p bs (k := 0) (n := bs.length) (by omega)

/-- and of others. -/
theorem peek_poke_apart (s : State) {p q n : Nat} (bs : List Byte) (h : q + n ≤ p ∨ p + bs.length ≤ q) :
    (s.poke p bs).peek q n = s.peek q n :=
  peek_congr fun r _ _ => byte_poke_outside s p r bs (by omega)

theorem byte_pokeNat_outside (s : State) {p n : Nat} (v : Nat) {q : Nat} (h : ¬ (p ≤ q ∧ q < p + n)) :
    (s.pokeNat p n v).byte q = s.byte q :=
  byte_poke_outside s p q _ (by rwa [length_bytesOfNat])

theorem leNat_peek_pokeNat (s : State) (p n v : Nat) : leNat ((s.pokeNat p n v).peek p n) = v % 256 ^ n := by
  have h := peek_poke_same s p (bytesOfNat n v)
  rw [length_bytesOfNat] at h
  rw [State.pokeNat, h, leNat_bytesOfNat]

theorem peek_pokeNat_apart (s : State) {p n q m : Nat} (v : Nat) (h : q + m ≤ p ∨ p + n ≤ q) :
    (s.pokeNat p n v).peek q m = s.peek q m :=
  peek_poke_apart s _ (by rwa [length_bytesOfNat])

end Sys2Proof.Laws
end

section
/-! PROOFS: an update of a counter, its firing, and the read of the record bound to it (06 R160, 09 R234). -/

namespace Sys2Proof.Laws

open Machine Safety

variable {s t u : State} {p : Nat} {add : Int} {who : Counter}

/-! ### What a fired binding leaves (09 R234) -/

theorem seat_sramReport (s : State) (l : Loc) (b : Bool) : seat (s.sramReport l b) = seat s := seat_report ..

theorem seat_noteError (s : State) (l : Loc) : seat (s.noteError l) = seat s := by
  unfold State.noteError
  extract_lets u copy
  exact (seat_ite (seat_faqAdd u ..) (seat_sramReport u ..)).trans (seat_atBase s l)

theorem seat_askLine (s : State) (tenant : BitVec 10) (l : Loc) : seat (s.askLine tenant l) = seat s := seat_ite rfl rfl

theorem sameSlots_setReady (s : State) (c : Nat) (es : List Entry) : SameSlots s (s.setReady c es) := by
  refine ⟨spill_keeps State.cur (fun _ _ _ => rfl) .., fun c' k => ?_⟩
  rw [State.slotAt, core_setReady, State.slotAt]
  split
  next h => rw [h]; rfl
  next => rfl

theorem sameSlots_admitTask (s : State) (c : Nat) (r : Record) (addr : Reg) (root : Nat) (o : Origin) :
    SameSlots s (s.admitTask c r addr root o) := by
  unfold State.admitTask State.admitEntry
  split
  · exact sameSlots_setCore (s := { s with stamp := s.stamp + 1 }) rfl
  · exact sameSlots_setReady { s with stamp := s.stamp + 1 } c _

theorem seat_useHomes (ls : List Loc) (s : State) : seat (ls.foldl State.useHome s) = seat s :=
  seat_foldl _ seat_useHome ls s

/-- The read of a bound record, and what follows from it, leave every slot as it is. -/
theorem sameSlots_bound (s : State) (f : Fired) : SameSlots s (s.bound f) := by
  unfold State.bound
  extract_lets vf u
  have walked : seat u = seat s := seat_ite (seat_useHomes ..) rfl
  split
  next => exact ⟨rfl, fun _ _ => rfl⟩
  next tenant l _ => exact sameSlots_of_seat (seat_askLine s tenant l)
  next e l _ =>
    extract_lets v
    refine sameSlots_of_seat ((seat_report v _).trans ?_)
    cases l with
    | none => exact walked
    | some l => exact (seat_ite (seat_faqAdd ..) (seat_noteError ..)).trans walked
  next r used _ => exact (sameSlots_of_seat ((seat_map_getD _ _ fun _ => seat_useHome ..).trans walked)).trans (sameSlots_admitTask ..)

/-! ### The words of a counter, updated -/

/-- The value after an amount is added, held to the range of a counter. -/
def cntNew (s : State) (p : Nat) (add : Int) : Int := max (-2 ^ 31) (min (2 ^ 31 - 1) ((s.cntValue p).toInt + add))

/-- The update takes the value from above zero to zero or below. -/
def CntFires (s : State) (p : Nat) (add : Int) : Prop := 0 < (s.cntValue p).toInt ∧ cntNew s p add ≤ 0

theorem toInt_clamp32 (x : Int) : (clamp32 x).toInt = max (-2 ^ 31) (min (2 ^ 31 - 1) x) := by
  rw [clamp32, BitVec.toInt_ofInt]
  exact Int.bmod_eq_of_le (by omega) (by omega)

/-- The value written, and the status written as it was. -/
def cntWritten (s : State) (p : Nat) (add : Int) : State :=
  (s.pokeNat p 4 (clamp32 ((s.cntValue p).toInt + add)).toNat).pokeNat (p + 4) 4 (s.cntStatus p).toNat

/-- What an update shows of the package beside memory and the cores. -/
def cntRest (s : State) : State := { s with cores := [], mem := [], poisoned := [] }

theorem cntRest_pokeNat (s : State) (p n v : Nat) : cntRest (s.pokeNat p n v) = cntRest s := rfl

theorem cntRest_wake (s : State) (f : Nat → Nat → Wait → Bool) (v : Reg) : cntRest (s.wake f v) = cntRest s := rfl

theorem cntRest_cntWritten (s : State) (p : Nat) (add : Int) : cntRest (cntWritten s p add) = cntRest s := by
  rw [cntWritten, cntRest_pokeNat, cntRest_pokeNat]

section

variable (first : s.bad p = false) (second : s.bad (p + 8) = false)
include first second

theorem cntUpdate_of_readable : s.cntUpdate p add 0
    = if (decide (0 < (s.cntValue p).toInt) && decide (cntNew s p add ≤ 0)) = true then (cntWritten s p add).fire p
      else cntWritten s p add := by
  have readable : s.cntBad p = false := by rw [State.cntBad, first, second]; rfl
  have kept : s.cntStatus p ||| 0 = s.cntStatus p := BitVec.or_zero
  simp only [State.cntUpdate, readable, toInt_clamp32, kept, Bool.false_eq_true, if_false]
  rfl

theorem cntUpdate_of_fires (fires : CntFires s p add) : s.cntUpdate p add 0 = (cntWritten s p add).fire p := by
  obtain ⟨above, below⟩ := fires
  rw [cntUpdate_of_readable first second, if_pos (by simp [above, below])]

theorem cntUpdate_of_rests (rests : ¬ CntFires s p add) : s.cntUpdate p add 0 = cntWritten s p add := by
  rw [cntUpdate_of_readable first second, if_neg]
  rwa [Bool.and_eq_true, decide_eq_true_eq, decide_eq_true_eq]

end

theorem ofNat_toNat_mod (x : BitVec 32) : BitVec.ofNat 32 (x.toNat % 256 ^ 4) = x := by
  rw [Nat.mod_eq_of_lt (by exact x.isLt), BitVec.ofNat_toNat, BitVec.setWidth_eq]

theorem cntValue_cntWritten (s : State) (p : Nat) (add : Int) : (cntWritten s p add).cntValue p = BitVec.ofInt 32 (cntNew s p add) := by
  rw [State.cntValue, cntWritten, peek_pokeNat_apart _ _ (by omega), leNat_peek_pokeNat, ofNat_toNat_mod]
  rfl

theorem cntStatus_cntWritten (s : State) (p : Nat) (add : Int) : (cntWritten s p add).cntStatus p = s.cntStatus p := by
  rw [State.cntStatus, cntWritten, leNat_peek_pokeNat, ofNat_toNat_mod]

theorem cntBind_cntWritten (s : State) (p : Nat) (add : Int) : (cntWritten s p add).cntBind p = s.cntBind p := by
  rw [State.cntBind, cntWritten, peek_pokeNat_apart _ _ (by omega), peek_pokeNat_apart _ _ (by omega), State.cntBind]

theorem byte_cntWritten (s : State) (p : Nat) (add : Int) {q : Nat} (h : ¬ (p ≤ q ∧ q < p + 16)) :
    (cntWritten s p add).byte q = s.byte q := by
  rw [cntWritten, byte_pokeNat_outside _ _ (by omega), byte_pokeNat_outside _ _ (by omega)]

/-! ### Firing -/

/-- Its waiters have received its status. -/
def cntRoused (s : State) (p : Nat) (add : Int) : State :=
  (cntWritten s p add).wake (fun _ _ w => w == .counter p) ((s.cntStatus p).setWidth 64)

theorem roused_cntRoused (ready : Ready s) (p : Nat) (add : Int) :
    Roused s (.counter p) ((s.cntStatus p).setWidth 64) (cntRoused s p add) := by
  have kept : SameMe s (cntWritten s p add) := sameMe_of_cores rfl rfl
  have woken : Roused (cntWritten s p add) (.counter p) ((s.cntStatus p).setWidth 64) (cntRoused s p add) :=
    roused_wake (by simp) (by rw [kept.me, ready]; simp)
  exact woken.of_before rfl rfl

/-- The binding cleared. -/
def cntUnbound (s : State) (p : Nat) (add : Int) : State := (cntRoused s p add).pokeNat (p + 8) 8 0

theorem fire_cntWritten (counts : Tab.find s.counters p = some who) : (cntWritten s p add).fire p
    = if s.cntBind p = 0 then cntRoused s p add else (cntUnbound s p add).bound { record := s.cntBind p, who := who } := by
  have counts : Tab.find (cntRoused s p add).counters p = some who := counts
  have bind : (cntRoused s p add).cntBind p = s.cntBind p := cntBind_cntWritten s p add
  have roused : (cntWritten s p add).wake (fun _ _ w => w == .counter p) (((cntWritten s p add).cntStatus p).setWidth 64)
      = cntRoused s p add := by
    rw [cntStatus_cntWritten]
    rfl
  simp only [State.fire, roused, counts, bind]
  rfl

/-! ### The update -/

/-- The words of a counter after an update, and what it does to its waiters and to the rest. -/
structure Updated (s : State) (p : Nat) (add : Int) (u : State) : Prop where
  value : u.cntValue p = BitVec.ofInt 32 (cntNew s p add)
  status : u.cntStatus p = s.cntStatus p
  me : u.me = s.me
  bytes : ∀ q, ¬ (p ≤ q ∧ q < p + 16) → u.byte q = s.byte q
  package : cntRest u = cntRest s
  cores : SameCores s u
  fires : CntFires s p add → Wakes s u (.counter p) ((s.cntStatus p).setWidth 64) ∧ u.cntBind p = 0
  rests : ¬ CntFires s p add → OtherSlots s u ∧ u.cntBind p = s.cntBind p

theorem cntRest_cntRoused (s : State) (p : Nat) (add : Int) : cntRest (cntRoused s p add) = cntRest s := by
  rw [cntRoused, cntRest_wake, cntRest_cntWritten]

theorem cntRest_cntUnbound (s : State) (p : Nat) (add : Int) : cntRest (cntUnbound s p add) = cntRest s := by
  rw [cntUnbound, cntRest_pokeNat, cntRest_cntRoused]

theorem updated_cntWritten (rests : ¬ CntFires s p add) : Updated s p add (cntWritten s p add) where
  value := cntValue_cntWritten ..
  status := cntStatus_cntWritten ..
  me := (sameMe_of_cores rfl rfl).me
  bytes _ := byte_cntWritten s p add
  package := cntRest_cntWritten s p add
  cores := sameCores_of_cores rfl
  fires h := absurd h rests
  rests _ := ⟨fun c k _ => slotAt_of_cores rfl c k, cntBind_cntWritten s p add⟩

theorem updated_cntRoused (ready : Ready s) (fires : CntFires s p add) (bind : s.cntBind p = 0) :
    Updated s p add (cntRoused s p add) := by
  have roused := roused_cntRoused ready p add
  exact {
    value := cntValue_cntWritten s p add
    status := cntStatus_cntWritten s p add
    me := roused.me.me
    bytes _ := byte_cntWritten s p add
    package := cntRest_cntRoused s p add
    cores := roused.cores
    fires _ := ⟨roused.wakes, (cntBind_cntWritten s p add).trans bind⟩
    rests h := absurd fires h }

theorem updated_cntUnbound (ready : Ready s) (fires : CntFires s p add) : Updated s p add (cntUnbound s p add) := by
  have roused := (roused_cntRoused ready p add).of_cores (t := cntUnbound s p add) rfl rfl
  have value : (cntUnbound s p add).cntValue p = (cntRoused s p add).cntValue p :=
    congrArg (fun bs => BitVec.ofNat 32 (leNat bs)) (peek_pokeNat_apart _ _ (by omega))
  have status : (cntUnbound s p add).cntStatus p = (cntRoused s p add).cntStatus p :=
    congrArg (fun bs => BitVec.ofNat 32 (leNat bs)) (peek_pokeNat_apart _ _ (by omega))
  have bind : (cntUnbound s p add).cntBind p = 0 :=
    congrArg (BitVec.ofNat 64) (leNat_peek_pokeNat (cntRoused s p add) (p + 8) 8 0)
  exact {
    value := value.trans (cntValue_cntWritten s p add)
    status := status.trans (cntStatus_cntWritten s p add)
    me := roused.me.me
    bytes _ h := (byte_pokeNat_outside _ _ (by omega)).trans (byte_cntWritten s p add h)
    package := cntRest_cntUnbound s p add
    cores := roused.cores
    fires _ := ⟨roused.wakes, bind⟩
    rests h := absurd fires h }

/-- The binding is read once the counter has fired. -/
def CntAfter (s : State) (p : Nat) (add : Int) (who : Counter) (u t : State) : Prop :=
  (CntFires s p add → s.cntBind p ≠ 0 → t = u.bound { record := s.cntBind p, who := who })
    ∧ (¬ (CntFires s p add ∧ s.cntBind p ≠ 0) → t = u)

/-- An update of a live counter whose words can be read. -/
theorem cntUpdate_updates (ready : Ready s) (counts : Tab.find s.counters p = some who) (first : s.bad p = false)
    (second : s.bad (p + 8) = false) (add : Int) :
    ∃ u, Updated s p add u ∧ CntAfter s p add who u (s.cntUpdate p add 0) ∧ SameSlots u (s.cntUpdate p add 0) := by
  by_cases fires : CntFires s p add
  · rw [cntUpdate_of_fires first second fires, fire_cntWritten counts]
    by_cases bind : s.cntBind p = 0
    · rw [if_pos bind]
      exact ⟨_, updated_cntRoused ready fires bind, ⟨fun _ h => absurd bind h, fun _ => rfl⟩, .refl _⟩
    · rw [if_neg bind]
      exact ⟨_, updated_cntUnbound ready fires, ⟨fun _ _ => rfl, fun h => absurd ⟨fires, bind⟩ h⟩, sameSlots_bound ..⟩
  · rw [cntUpdate_of_rests first second fires]
    exact ⟨_, updated_cntWritten fires, ⟨fun h => absurd h fires, fun _ => rfl⟩, .refl _⟩

end Sys2Proof.Laws
end

section
/-! PROOFS: counters: set-up, update and waiting as instructions, at once or held at the interface (06 R157 to R161, 14 R349). -/

namespace Sys2Proof.Laws

open Machine Safety

variable {s t u : State} {p : Nat} {d a b : BitVec 5} {who : Counter}

/-! ### The object -/

theorem Act.counter_ok {va : Reg} (h : s.cntAt s.cur.core s.secure va = .ok p) : Act.counter va s = (.ok p, s) := by
  simp [Act.counter, h]

theorem Act.liveCounter_ok {va : Reg} (live : s.live p = true) (first : s.bad p = false) (second : s.bad (p + 8) = false) :
    Act.liveCounter p va s = (.ok ⟨⟩, s) := by
  simp [Act.liveCounter, live, State.cntBad, first, second]

theorem Act.liveCounter_traps {va : Reg} (dead : s.live p = false) : Act.liveCounter p va s = (.error (.trap Cause.data va), s) := by
  simp [Act.liveCounter, dead]

theorem live_of_find (counts : Tab.find s.counters p = some who) : s.live p = true := by rw [State.live, counts]; rfl

/-! ### At once, or held at the interface -/

section

variable {va : Reg} {op : PostedOp} {now : State → State}

/-- The write waits at the interface. -/
def heldWrite (s : State) (va : Reg) (p : Nat) (op : PostedOp) : State :=
  { s with posted := s.posted ++ [{ src := s.cur.core, slot := s.cur.slot, uid := s.uid, fence := s.fence, place := p, op := op
                                    va := va, vf := s.region.vf }] }

theorem post_of_free (h : s.postHeld p op = false) : s.post va p op now = now s := by
  rw [State.post, h]
  rfl

theorem post_of_held (h : s.postHeld p op = true) (reply : op.reply = []) : s.post va p op now = heldWrite s va p op := by
  rw [State.post, h]
  exact if_pos reply

theorem post_of_owed (h : s.postHeld p op = true) (reply : op.reply = [d]) :
    s.post va p op now = (heldWrite s va p op).setMe { s.me with owed := s.me.owed ++ [d] } := by
  rw [State.post, h]
  exact (if_pos rfl).trans ((if_neg (by rw [reply]; simp)).trans (by rw [reply]; rfl))

/-- The package beside the cores and what waits at the interfaces. -/
def heldRest (s : State) : State := { s with cores := [], posted := [] }

/-- What a held write leaves, once the slot has gone on: it is the last one there, its slot owes the register that its reply fills,
and nothing else has changed. -/
structure Holds (s : State) (d : BitVec 5) (va : Reg) (p : Nat) (op : PostedOp) (t : State) : Prop where
  posted : t.posted = (heldWrite s va p op).posted
  owed : t.me.owed = s.me.owed ++ if d = 0 then [] else [d]
  slot : { t.me with owed := [], pc := 0 } = { s.me with owed := [], pc := 0 }
  next : Advanced s t
  others : OtherSlots s t
  bytes : SameBytes s t
  cores : SameCores s t
  package : heldRest t = heldRest s
  wait : t.me.wait = s.me.wait

/-- Going on after the write is held and its register is owed. -/
theorem holds_of_owes {x : List (BitVec 5)} (h : Becomes (heldWrite s va p op) { s.me with owed := s.me.owed ++ x } u)
    (owed : x = if d = 0 then [] else [d]) : Holds s d va p op u.adv := by
  have cur : u.cur = s.cur := cur_of_samePackage (s := heldWrite s va p op) h.package
  obtain ⟨next, slot, ⟨package, bytes, cores, others⟩⟩ := goto_goesTo u u.after
  unfold SameSlotButPc at slot
  rw [h.me] at slot
  have package := package.trans h.package
  have wait := congrArg Slot.wait slot
  exact {
    posted := field_of_samePackage package State.posted fun _ => rfl
    owed := owed ▸ congrArg Slot.owed slot
    slot := congrArg (fun x : Slot => { x with owed := [] }) slot
    next := next.trans (by rw [State.after, h.me, cur, State.after])
    others c k other := (others c k (by rwa [cur])).trans (h.others c k other)
    bytes q := (bytes q).trans (sameBytes_of_samePackage h.package q)
    cores c := (cores c).trans (h.cores c)
    package := field_of_samePackage (s := heldWrite s va p op) package heldRest fun _ => rfl
    wait := wait }

theorem post_holds (h : s.postHeld p op = true) (reply : op.reply = if d = 0 then [] else [d]) :
    Holds s d va p op (s.post va p op now).adv := by
  by_cases dest : d = 0
  · rw [post_of_held h (reply.trans (if_pos dest))]
    have none' : Becomes (heldWrite s va p op) { s.me with owed := s.me.owed ++ [] } (heldWrite s va p op) :=
      ⟨by rw [List.append_nil]; rfl, fun _ _ _ => rfl, rfl, fun _ => rfl⟩
    exact holds_of_owes none' (if_pos dest).symm
  · rw [post_of_owed h (reply.trans (if_neg dest))]
    exact holds_of_owes (setMe_becomes ..) (if_neg dest).symm

end

end Sys2Proof.Laws
end

section
/-! PROOFS: CNT.INIT: a counter set up, retired or refused (06 R159). -/

namespace Sys2Proof.Laws

open Machine Safety

variable {s t u : State} {p : Nat} {d a b : BitVec 5} {who : Counter} {x : Reg}

/-! ### The work -/

/-- The old status with RESET. -/
def resetStatus (s : State) (p : Nat) : Reg := (s.cntStatus p ||| 0x400).setWidth 64

theorem roused_cntReset (ready : Ready s) (p : Nat) : Roused s (.counter p) (resetStatus s p) (s.cntReset p) :=
  roused_wake (by simp) (by rw [ready]; simp)

/-- The live counters of a counter's cluster. -/
def liveThere (s : State) (p : Nat) : Nat := (s.counters.filter (fun e => cellarCluster e.1 = cellarCluster p)).length

/-- A counter retired. -/
def cntRetired (s : State) (p : Nat) : State := { s.cntReset p with counters := Tab.erase s.counters p }

/-- The words of a counter set up with a value. -/
def cntWords (x : Reg) : List Byte := bytesOfNat 4 (x.toNat % 2 ^ 32) ++ bytesOfNat 12 0

/-- A counter set up: its words are written, and it is in the table of those that are live. -/
def cntSetUp (cs : Tab Counter) (p : Nat) (bs : List Byte) (u : State) : State := { u.poke p bs with counters := cs }

/-- What setting up a counter shows of the package beside memory, the cores and who has set counters up. -/
def initRest (s : State) : State := { s with cores := [], mem := [], poisoned := [], counters := [] }

section

variable (cs : Tab Counter) (p : Nat) (bs : List Byte) (u : State)

theorem cur_cntSetUp : (cntSetUp cs p bs u).cur = u.cur := rfl

theorem cores_cntSetUp : (cntSetUp cs p bs u).cores = u.cores := rfl

theorem counters_cntSetUp : (cntSetUp cs p bs u).counters = cs := rfl

theorem byte_cntSetUp (q : Nat) : (cntSetUp cs p bs u).byte q = (u.poke p bs).byte q := rfl

theorem initRest_cntSetUp : initRest (cntSetUp cs p bs u) = initRest u := rfl

end

/-- A counter set up with a value. -/
def cntAnew (s : State) (p : Nat) (x : Reg) (who : Counter) (u : State) : State := cntSetUp (Tab.put s.counters p who) p (cntWords x) u

theorem getLsbD_of_low (h : x.toNat < 2 ^ 32) : x.getLsbD 32 = false := Nat.testBit_lt_two_pow h

theorem getLsbD_of_bit (low : 2 ^ 32 ≤ x.toNat) (high : x.toNat < 2 ^ 33) : x.getLsbD 32 = true :=
  Nat.testBit_of_two_pow_le_and_two_pow_add_one_gt low high

theorem cntInit_illegal (h : 2 ^ 33 ≤ x.toNat) : s.cntInit p x who = (2, s) := if_pos h

theorem cntInit_retires (low : 2 ^ 32 ≤ x.toNat) (high : x.toNat < 2 ^ 33) : s.cntInit p x who = (0, cntRetired s p) :=
  (if_neg (by omega)).trans (if_pos (getLsbD_of_bit low high))

theorem cntInit_full (h : x.toNat < 2 ^ 32) (dead : s.live p = false) (full : 512 ≤ liveThere s p) :
    s.cntInit p x who = (1, s) := by
  have full : Config.liveCounters ≤ liveThere s p := full
  refine (if_neg (by omega)).trans ((if_neg (by rw [getLsbD_of_low h]; simp)).trans (if_pos ?_))
  rw [dead]
  change (!false && decide (Config.liveCounters ≤ liveThere s p)) = true
  simpa using full

theorem cntInit_anew (h : x.toNat < 2 ^ 32) (dead : s.live p = false) (room : liveThere s p < 512) :
    s.cntInit p x who = (0, cntAnew s p x who s) := by
  have low := getLsbD_of_low h
  have room : decide (Config.liveCounters ≤ liveThere s p) = false := decide_eq_false (Nat.not_le.mpr room)
  unfold liveThere at room
  simp only [State.cntInit, if_neg (Nat.not_le.mpr (show x.toNat < 2 ^ 33 by omega)), low, dead, room, Bool.and_false, Bool.false_eq_true,
    if_false, cntAnew, cntWords]
  generalize bytesOfNat 4 (x.toNat % 2 ^ 32) ++ bytesOfNat 12 0 = bs
  rfl

theorem cntInit_again (h : x.toNat < 2 ^ 32) (live : s.live p = true) :
    s.cntInit p x who = (0, cntAnew s p x who (s.cntReset p)) := by
  have low := getLsbD_of_low h
  simp only [State.cntInit, if_neg (Nat.not_le.mpr (show x.toNat < 2 ^ 33 by omega)), low, live, Bool.not_true, Bool.false_and,
    Bool.false_eq_true, if_false, if_true, cntAnew, cntWords]
  generalize bytesOfNat 4 (x.toNat % 2 ^ 32) ++ bytesOfNat 12 0 = bs
  rfl

/-! ### The words of a counter set up -/

section

variable (s : State) (p : Nat) (x : Reg) (who : Counter) (u : State)

theorem live_cntAnew : (cntAnew s p x who u).live p = true := by
  rw [State.live, cntAnew, counters_cntSetUp, find_put, if_pos rfl]
  rfl

theorem length_cntWords : (cntWords x).length = 16 := by simp [cntWords, length_bytesOfNat]

theorem peek_cntAnew {k n : Nat} (h : k + n ≤ 16) : (cntAnew s p x who u).peek (p + k) n = ((cntWords x).drop k).take n := by
  rw [← peek_poke_within u p (cntWords x) (by rwa [length_cntWords])]
  exact peek_congr fun _ _ _ => byte_cntSetUp ..

theorem drop_cntWords {k : Nat} (h : 4 ≤ k) : (cntWords x).drop k = (bytesOfNat 12 0).drop (k - 4) := by
  rw [cntWords, List.drop_append, length_bytesOfNat, List.drop_eq_nil_of_le (by rwa [length_bytesOfNat]), List.nil_append]

theorem cntValue_cntAnew : (cntAnew s p x who u).cntValue p = x.setWidth 32 := by
  have read := peek_cntAnew s p x who u (k := 0) (n := 4) (by decide)
  rw [List.drop_zero, cntWords, List.take_left' (length_bytesOfNat ..), Nat.add_zero] at read
  rw [State.cntValue, read, leNat_bytesOfNat]
  exact BitVec.eq_of_toNat_eq (by simp)

theorem cntStatus_cntAnew : (cntAnew s p x who u).cntStatus p = 0 := by
  rw [State.cntStatus, peek_cntAnew s p x who u (by decide), drop_cntWords x (by decide)]
  decide

theorem cntBind_cntAnew : (cntAnew s p x who u).cntBind p = 0 := by
  rw [State.cntBind, peek_cntAnew s p x who u (by decide), drop_cntWords x (by decide)]
  decide

theorem byte_cntAnew {q : Nat} (h : ¬ (p ≤ q ∧ q < p + 16)) : (cntAnew s p x who u).byte q = u.byte q := by
  rw [cntAnew, byte_cntSetUp, byte_poke_outside u p q _ (by rwa [length_cntWords])]

end

/-- What a counter shows once it is set up, and that beside it nothing has changed. -/
structure SetUp (s : State) (p : Nat) (x : Reg) (t : State) : Prop where
  live : t.live p = true
  value : t.cntValue p = x.setWidth 32
  status : t.cntStatus p = 0
  bind : t.cntBind p = 0
  bytes : ∀ q, ¬ (p ≤ q ∧ q < p + 16) → t.byte q = s.byte q
  package : initRest t = initRest s
  cores : SameCores s t

theorem setUp_cntAnew (bytes : SameBytes s u) (package : initRest u = initRest s) (cores : SameCores s u) (x : Reg) (who : Counter) :
    SetUp s p x (cntAnew s p x who u) where
  live := live_cntAnew ..
  value := cntValue_cntAnew ..
  status := cntStatus_cntAnew ..
  bind := cntBind_cntAnew ..
  bytes q h := (byte_cntAnew s p x who u h).trans (bytes q)
  package := (initRest_cntSetUp ..).trans package
  cores c := by
    rw [SameCore, cntAnew, core_of_cores (cores_cntSetUp ..)]
    exact cores c

/-- It shows that once the slot has gone on as well. -/
theorem SetUp.rest (h : SetUp s p x u) (r : Rest s u t) : SetUp s p x t := by
  have bytes (q n : Nat) : t.peek q n = u.peek q n := peek_congr fun _ _ _ => r.bytes _
  exact {
    live := (field_of_samePackage r.package (fun u => u.live p) fun _ => rfl).trans h.live
    value := (congrArg (fun bs => BitVec.ofNat 32 (leNat bs)) (bytes ..)).trans h.value
    status := (congrArg (fun bs => BitVec.ofNat 32 (leNat bs)) (bytes ..)).trans h.status
    bind := (congrArg (fun bs => BitVec.ofNat 64 (leNat bs)) (bytes ..)).trans h.bind
    bytes q hq := (r.bytes q).trans (h.bytes q hq)
    package := (field_of_samePackage r.package initRest fun _ => rfl).trans h.package
    cores c := (r.cores c).trans (h.cores c) }

/-! ### The instruction -/

/-- The set-up done at once, and the register written. -/
def cntInitNow (d : BitVec 5) (p : Nat) (x : Reg) (who : Counter) (s : State) : State :=
  (s.cntInit p x who).2.setG d (BitVec.ofNat 64 (s.cntInit p x who).1)

section

variable (ready : Ready s) (names : s.cntAt s.cur.core s.secure (s.g a) = .ok p)
include ready names

/-- The operand asks for what the counter allows: a live one alone is retired, and its words can be read. -/
theorem exec_cntInit (may : ¬ (((s.g b).getLsbD 32 && decide ((s.g b).toNat < 2 ^ 33) && !s.live p) = true))
    (readable : s.live p = true → s.bad p = false)
    (done : 2 ^ 33 ≤ (s.g b).toNat ∨ s.postHeld p (.cntInit d (s.g b) s.counterOwner) = false)
    (me : SameMe s (s.cntInit p (s.g b) s.counterOwner).2) :
    exec (.cntInit d a b) s = .next (cntInitNow d p (s.g b) s.counterOwner s).adv := by
  refine exec_of_next rfl rfl ready ?_ ((wait_result ..).trans ((congrArg Slot.wait me.me).trans ready))
  have good : ¬ (s.live p && s.bad p) = true := by simpa using readable
  have performed : (if 2 ^ 33 ≤ (s.g b).toNat then cntInitNow d p (s.g b) s.counterOwner s
      else s.post (s.g a) p (.cntInit d (s.g b) s.counterOwner) (cntInitNow d p (s.g b) s.counterOwner))
      = cntInitNow d p (s.g b) s.counterOwner s := by
    rcases done with illegal | free
    · rw [if_pos illegal]
    · rw [post_of_free free, ite_self]
  rw [Act.get_bind, Act.bind_ok (Act.counter_ok names), ← performed]
  simp only [if_neg may, if_neg good]
  rfl

theorem exec_cntInit_held (may : ¬ (((s.g b).getLsbD 32 && decide ((s.g b).toNat < 2 ^ 33) && !s.live p) = true))
    (readable : s.live p = true → s.bad p = false) (legal : (s.g b).toNat < 2 ^ 33)
    (held : s.postHeld p (.cntInit d (s.g b) s.counterOwner) = true) :
    Completes (.cntInit d a b) s (Holds s d (s.g a) p (.cntInit d (s.g b) s.counterOwner)) := by
  have good : ¬ (s.live p && s.bad p) = true := by simpa using readable
  have holds := post_holds (va := s.g a) (now := cntInitNow d p (s.g b) s.counterOwner) (d := d) held rfl
  refine ⟨_, exec_of_next rfl rfl ready ?_ (holds.wait.trans ready), holds⟩
  rw [Act.get_bind, Act.bind_ok (Act.counter_ok names)]
  simp only [if_neg may, if_neg good, if_neg (Nat.not_le.mpr legal)]
  rfl

theorem exec_cntInit_dead (may : ((s.g b).getLsbD 32 && decide ((s.g b).toNat < 2 ^ 33) && !s.live p) = true) :
    exec (.cntInit d a b) s = .next (s.trapHere Cause.data (s.g a)) := by
  refine exec_of_trap rfl rfl ready (t := s) ?_
  rw [Act.get_bind, Act.bind_ok (Act.counter_ok names)]
  simp only [if_pos may]
  rfl

end

end Sys2Proof.Laws
end

section
/-! PROOFS: CNT.SIG, CNT.ADD and CNT.WAIT, and counters as a whole (06 R157 to R161). -/

namespace Sys2Proof.Laws

open Machine Safety

variable {s t u : State} {p : Nat} {d a b : BitVec 5} {who : Counter}

/-! ### A data fault -/

/-- What a data fault leaves, beside the trap. -/
theorem dataFault_traps (ready : Ready s) {x : Reg} (may : TrapReady s 0x06 x s.base) : let t := s.trapHere Cause.data x
    Traps s t 0x06 x s.base ∧ SameBytes s t ∧ SamePackage (s.abandon s.cur.core s.cur.slot) t := by
  obtain ⟨traps, bytes, -, package, -⟩ := trapHere_traps (cause := Cause.data) (by decide) (by decide) ready may
  exact ⟨traps, bytes, package⟩

theorem dataFault_counters (ready : Ready s) {x : Reg} (may : TrapReady s 0x06 x s.base) : let t := s.trapHere Cause.data x
    Traps s t 0x06 x s.base ∧ SameBytes s t ∧ t.counters = s.counters := by
  obtain ⟨traps, bytes, package⟩ := dataFault_traps ready may
  exact ⟨traps, bytes, field_of_samePackage package State.counters fun _ => rfl⟩

/-! ### CNT.INIT -/

/-- An operand that asks to set a counter up, -/
theorem keeps_of_low (low : (s.g b).toNat < 2 ^ 32) :
    ¬ (((s.g b).getLsbD 32 && decide ((s.g b).toNat < 2 ^ 33) && !s.live p) = true) := by
  rw [getLsbD_of_low low]
  simp

/-- to retire one that is live, -/
theorem keeps_of_live (live : s.live p = true) :
    ¬ (((s.g b).getLsbD 32 && decide ((s.g b).toNat < 2 ^ 33) && !s.live p) = true) := by
  rw [live]
  simp

/-- or for what is not defined. -/
theorem keeps_of_illegal (illegal : 2 ^ 33 ≤ (s.g b).toNat) :
    ¬ (((s.g b).getLsbD 32 && decide ((s.g b).toNat < 2 ^ 33) && !s.live p) = true) := by
  rw [decide_eq_false (Nat.not_lt.mpr illegal)]
  simp

section

variable (ready : Ready s) (names : s.cntAt s.cur.core s.secure (s.g a) = .ok p)
include ready names

/-- A set-up that is not held: what it does to the package, and its status in the register. -/
theorem completes_cntInit {n : Nat} (may : ¬ (((s.g b).getLsbD 32 && decide ((s.g b).toNat < 2 ^ 33) && !s.live p) = true))
    (readable : s.live p = true → s.bad p = false)
    (done : 2 ^ 33 ≤ (s.g b).toNat ∨ s.postHeld p (.cntInit d (s.g b) s.counterOwner) = false)
    (init : s.cntInit p (s.g b) s.counterOwner = (n, u)) (me : SameMe s u) : Completes (.cntInit d a b) s (fun t =>
      WritesG s t d (BitVec.ofNat 64 n) ∧ Advanced s t ∧ SameSlotButG s t ∧ Rest s u t) := by
  have runs := exec_cntInit (d := d) ready names may readable done (by rw [init]; exact me)
  rw [cntInitNow, init] at runs
  exact ⟨_, runs, result_of_sameMe me ..⟩

theorem completes_cntInit_anew (low : (s.g b).toNat < 2 ^ 32) (dead : s.live p = false) (room : liveThere s p < 512)
    (free : s.postHeld p (.cntInit d (s.g b) s.counterOwner) = false) : Completes (.cntInit d a b) s (fun t =>
      WritesG s t d 0 ∧ Advanced s t ∧ SetUp s p (s.g b) t ∧ OtherSlots s t) := by
  have cores : (cntAnew s p (s.g b) s.counterOwner s).cores = s.cores := cores_cntSetUp ..
  have setUp := setUp_cntAnew (s := s) (u := s) (p := p) (fun _ => rfl) rfl (fun _ => rfl) (s.g b) s.counterOwner
  obtain ⟨t, runs, writes, next, -, rest⟩ := completes_cntInit (d := d) ready names (keeps_of_low low) (by simp [dead]) (.inr free)
    (cntInit_anew low dead room) (sameMe_of_cores (cur_cntSetUp ..) cores)
  exact ⟨t, runs, writes, next, setUp.rest rest, rest.others cores⟩

theorem completes_cntInit_again (low : (s.g b).toNat < 2 ^ 32) (live : s.live p = true) (readable : s.bad p = false)
    (free : s.postHeld p (.cntInit d (s.g b) s.counterOwner) = false) : Completes (.cntInit d a b) s (fun t =>
      WritesG s t d 0 ∧ Advanced s t ∧ SetUp s p (s.g b) t ∧ Wakes s t (.counter p) (resetStatus s p)) := by
  have woken := roused_cntReset ready p
  have roused := woken.of_cores (t := cntAnew s p (s.g b) s.counterOwner (s.cntReset p)) (cur_cntSetUp ..) (cores_cntSetUp ..)
  have setUp := setUp_cntAnew (s := s) (u := s.cntReset p) (p := p) (fun _ => rfl) rfl woken.cores (s.g b) s.counterOwner
  obtain ⟨t, runs, writes, next, -, rest⟩ := completes_cntInit (d := d) ready names (keeps_of_live live) (fun _ => readable)
    (.inr free) (cntInit_again low live) roused.me
  exact ⟨t, runs, writes, next, setUp.rest rest, (roused.rest rest).1⟩

theorem completes_cntInit_retires (low : 2 ^ 32 ≤ (s.g b).toNat) (high : (s.g b).toNat < 2 ^ 33) (live : s.live p = true)
    (readable : s.bad p = false) (free : s.postHeld p (.cntInit d (s.g b) s.counterOwner) = false) :
    Completes (.cntInit d a b) s (fun t => WritesG s t d 0 ∧ Advanced s t ∧ SameBytes s t
      ∧ Wakes s t (.counter p) (resetStatus s p) ∧ t.counters = Tab.erase s.counters p) := by
  have roused := (roused_cntReset ready p).of_cores (t := cntRetired s p) rfl rfl
  obtain ⟨t, runs, writes, next, -, rest⟩ := completes_cntInit (d := d) ready names (keeps_of_live live) (fun _ => readable)
    (.inr free) (cntInit_retires low high) roused.me
  exact ⟨t, runs, writes, next, rest.bytes, (roused.rest rest).1, field_of_samePackage rest.package State.counters fun _ => rfl⟩

/-- A status that tells of no effect. -/
theorem completes_cntInit_refused {n : Nat} (may : ¬ (((s.g b).getLsbD 32 && decide ((s.g b).toNat < 2 ^ 33) && !s.live p) = true))
    (readable : s.live p = true → s.bad p = false)
    (done : 2 ^ 33 ≤ (s.g b).toNat ∨ s.postHeld p (.cntInit d (s.g b) s.counterOwner) = false)
    (init : s.cntInit p (s.g b) s.counterOwner = (n, s)) :
    Completes (.cntInit d a b) s (fun t => Safety.Gives s t d (BitVec.ofNat 64 n)) := by
  obtain ⟨t, runs, writes, next, slot, ⟨package, bytes, cores, others⟩⟩ := completes_cntInit ready names may readable done init (.refl s)
  exact ⟨t, runs, writes, next, slot, package, bytes, cores, others⟩

end

/-! ### CNT.SIG and CNT.ADD -/

section

variable (ready : Ready s) (names : s.cntAt s.cur.core s.secure (s.g a) = .ok p)
include ready names

theorem exec_cntSig_dead (dead : s.live p = false) (released : s.released s.cur.core s.cur.slot 3 = true) :
    exec (.cntSig a) s = .next (s.trapHere Cause.data (s.g a)) := by
  refine exec_of_trap rfl rfl ready (t := s) ?_
  rw [Act.get_bind, Act.bind_ok (Act.counter_ok names), Act.bind_ok (Act.release_ok released),
    Act.bind_error (Act.liveCounter_traps dead)]

theorem exec_cntAdd_dead (dead : s.live p = false) : exec (.cntAdd d a b) s = .next (s.trapHere Cause.data (s.g a)) := by
  refine exec_of_trap rfl rfl ready (t := s) ?_
  rw [Act.get_bind, Act.bind_ok (Act.counter_ok names), Act.bind_error (Act.liveCounter_traps dead)]

theorem exec_cntWait_dead (dead : s.live p = false) : exec (.cntWait d a) s = .next (s.trapHere Cause.data (s.g a)) := by
  change execCntWait d a s = _
  rw [execCntWait, runWith_ready rfl ready]
  refine congrArg _ (Act.next_trap (s := s) (t := s) ?_)
  rw [Act.get_bind]
  simp only []
  rw [Act.bind_ok (Act.counter_ok names), Act.bind_error (Act.liveCounter_traps dead)]

variable (live : s.live p = true) (first : s.bad p = false) (second : s.bad (p + 8) = false)
include live first second

theorem exec_cntSig (released : s.released s.cur.core s.cur.slot 3 = true) {t : State}
    (done : s.post (s.g a) p .sig (fun s => s.cntUpdate p (-1) 0) = t) (wait : t.adv.me.wait = .none) :
    exec (.cntSig a) s = .next t.adv := by
  refine exec_of_next rfl rfl ready ?_ wait
  rw [Act.get_bind, Act.bind_ok (Act.counter_ok names), Act.bind_ok (Act.release_ok released),
    Act.bind_ok (Act.liveCounter_ok live first second), ← done]
  rfl

theorem exec_cntAdd {t : State} (done : s.post (s.g a) p (.cntAdd d (s.g b)) (fun s =>
      (s.cntUpdate p (intOf true 32 (s.g b).toNat) 0).setG d (sext64 32 (s.cntValue p).toNat)) = t) (wait : t.adv.me.wait = .none) :
    exec (.cntAdd d a b) s = .next t.adv := by
  refine exec_of_next rfl rfl ready ?_ wait
  rw [Act.get_bind, Act.bind_ok (Act.counter_ok names), Act.bind_ok (Act.liveCounter_ok live first second), ← done]
  rfl

/-! ### CNT.WAIT -/

theorem exec_cntWait_passed (passed : (s.cntValue p).toInt ≤ 0) : exec (.cntWait d a) s
    = .next ((s.acquire s.cur.core s.cur.slot 3).setG d ((s.cntStatus p).setWidth 64)).adv := by
  obtain ⟨-, -, -, -, -, wait⟩ := acquire_result s (sc := 3) (by decide) d ((s.cntStatus p).setWidth 64)
  change execCntWait d a s = _
  rw [execCntWait, runWith_ready rfl ready]
  refine congrArg _ (Act.next_ok ?_ (wait.trans ready))
  rw [Act.get_bind]
  simp only []
  rw [Act.bind_ok (Act.counter_ok names), Act.bind_ok (Act.liveCounter_ok live first second), if_pos passed]
  rfl

theorem exec_cntWait_parks (above : 0 < (s.cntValue p).toInt) : exec (.cntWait d a) s
    = .next ((s.park (.counter p)).latch (.cntWait d a)) := by
  change execCntWait d a s = _
  rw [execCntWait, runWith_ready rfl ready]
  refine congrArg _ (Act.next_park ?_ (by simp [wait_park]))
  rw [Act.get_bind]
  simp only []
  rw [Act.bind_ok (Act.counter_ok names), Act.bind_ok (Act.liveCounter_ok live first second), if_neg (Int.not_le.mpr above)]
  rfl

end

theorem exec_cntWait_woken {v : Reg} (woken : s.me.wait = .woken v) : exec (.cntWait d a) s
    = .next ((s.unpark.acquire s.unpark.cur.core s.unpark.cur.slot 3).setG d v).adv := by
  obtain ⟨-, -, -, -, -, wait⟩ := acquire_result s.unpark (sc := 3) (by decide) d v
  change execCntWait d a s = _
  rw [execCntWait, runWith_woken rfl woken]
  exact congrArg _ (Act.next_ok rfl (wait.trans (ready_unpark s)))

/-! ### Updates as instructions -/

section

variable (ready : Ready s) (names : s.cntAt s.cur.core s.secure (s.g a) = .ok p) (counts : Tab.find s.counters p = some who)
  (first : s.bad p = false) (second : s.bad (p + 8) = false)
include ready names counts first second

theorem cntSig_updates (released : s.released s.cur.core s.cur.slot 3 = true) (free : s.postHeld p .sig = false) :
    ∃ u t, Updated s p (-1) u ∧ CntAfter s p (-1) who u t ∧ exec (.cntSig a) s = .next t.adv := by
  obtain ⟨u, updated, after, cur, slots⟩ := cntUpdate_updates ready counts first second (-1)
  have me := (sameMe_of_slots cur slots).me.trans updated.me
  exact ⟨u, _, updated, after, exec_cntSig ready names (live_of_find counts) first second released (post_of_free free)
    ((wait_adv _).trans ((congrArg Slot.wait me).trans ready))⟩

theorem cntSig_held (released : s.released s.cur.core s.cur.slot 3 = true) (held : s.postHeld p .sig = true) :
    exec (.cntSig a) s = .next (heldWrite s (s.g a) p .sig).adv :=
  exec_cntSig ready names (live_of_find counts) first second released (post_of_held held rfl) ((wait_adv _).trans ready)

theorem cntAdd_updates (free : s.postHeld p (.cntAdd d (s.g b)) = false) :
    ∃ u t, Updated s p (intOf true 32 (s.g b).toNat) u ∧ CntAfter s p (intOf true 32 (s.g b).toNat) who u t
      ∧ exec (.cntAdd d a b) s = .next (t.setG d ((s.cntValue p).signExtend 64)).adv := by
  obtain ⟨u, updated, after, cur, slots⟩ := cntUpdate_updates ready counts first second (intOf true 32 (s.g b).toNat)
  have me := (sameMe_of_slots cur slots).me.trans updated.me
  have old : sext64 32 (s.cntValue p).toNat = (s.cntValue p).signExtend 64 := by
    rw [sext64_eq, BitVec.ofNat_toNat, BitVec.setWidth_eq]
  refine ⟨u, _, updated, after, exec_cntAdd ready names (live_of_find counts) first second ?_
    ((wait_result ..).trans ((congrArg Slot.wait me).trans ready))⟩
  rw [post_of_free free, old]

theorem cntAdd_held (held : s.postHeld p (.cntAdd d (s.g b)) = true) :
    Completes (.cntAdd d a b) s (Holds s d (s.g a) p (.cntAdd d (s.g b))) := by
  have holds (now : State → State) := post_holds (va := s.g a) (now := now) (d := d) held rfl
  exact ⟨_, exec_cntAdd ready names (live_of_find counts) first second rfl ((holds _).wait.trans ready), holds _⟩

end

/-! ### Counters -/

/-- Settles O17 (log 25, 30, 33, 83, 100): a set-up as what it does to the object (`SetUp`) and to those that wait (`Roused`), an
update as its words and its firing (`cntUpdate_updates`), a held write by `post_holds`, and the ways that a wait ends. -/
theorem counters : Obligations.Counters := by
  unfold Obligations.Counters
  intro holds
  refine ⟨fun s d a b p ready names => ⟨?_, ?_, ?_, ?_, ?_, ?_⟩, fun s d a b p who ready names counts first second => ⟨?_, ?_, ?_⟩,
    fun s d a b p => ⟨fun ready names => ⟨fun live first second => ⟨?_, ?_⟩, ?_⟩, ?_⟩⟩
  · rintro low (⟨dead, room⟩ | ⟨live, readable⟩) free
    · obtain ⟨t, runs, writes, next, ⟨live, value, status, bind, bytes, package, cores⟩, others⟩ :=
        completes_cntInit_anew (d := d) ready names low dead room free
      exact ⟨t, runs, writes, next, live, value, status, bind, bytes, package, cores, fun h => absurd (dead.symm.trans h) (by decide),
        fun _ => others⟩
    · obtain ⟨t, runs, writes, next, ⟨lives, value, status, bind, bytes, package, cores⟩, wakes⟩ :=
        completes_cntInit_again (d := d) ready names low live readable free
      exact ⟨t, runs, writes, next, lives, value, status, bind, bytes, package, cores, fun _ => wakes,
        fun h => absurd (live.symm.trans h) (by decide)⟩
  · exact fun low high live readable free => completes_cntInit_retires ready names low high live readable free
  · intro low high dead may
    have asks : ((s.g b).getLsbD 32 && decide ((s.g b).toNat < 2 ^ 33) && !s.live p) = true := by
      rw [getLsbD_of_bit low high, decide_eq_true high, dead]
      rfl
    exact ⟨_, exec_cntInit_dead ready names asks, dataFault_counters ready may⟩
  · exact fun low dead full free => completes_cntInit_refused ready names (keeps_of_low low) (by simp [dead]) (.inr free)
      (cntInit_full low dead full)
  · exact fun illegal readable => completes_cntInit_refused ready names (keeps_of_illegal illegal)
      (fun live => readable.resolve_left (by simp [live])) (.inl illegal) (cntInit_illegal illegal)
  · intro legal asks held
    have may : ¬ (((s.g b).getLsbD 32 && decide ((s.g b).toNat < 2 ^ 33) && !s.live p) = true) :=
      asks.elim (fun h => keeps_of_low h.1) fun h => keeps_of_live h.1
    have readable : s.live p = true → s.bad p = false := fun live => asks.elim (fun h => absurd (live.symm.trans h.2) (by decide)) And.right
    obtain ⟨t, runs, ⟨posted, owed, slot, next, others, bytes, cores, package, -⟩⟩ :=
      exec_cntInit_held ready names may readable legal held
    exact ⟨t, runs, posted, owed, slot, next, others, bytes, cores, package⟩
  · intro released
    refine ⟨fun free => ?_, cntSig_held ready names counts first second released⟩
    obtain ⟨u, t, ⟨value, status, me, bytes, package, cores, fires, rests⟩, after, runs⟩ :=
      cntSig_updates ready names counts first second released free
    exact ⟨u, t, ⟨value, status, me, bytes, package, cores, fires, rests⟩, after, runs⟩
  · intro free n
    obtain ⟨u, t, ⟨value, status, me, bytes, package, cores, fires, rests⟩, after, runs⟩ :=
      cntAdd_updates (d := d) ready names counts first second free
    exact ⟨u, t, ⟨value, status, me, bytes, package, cores, fires, rests⟩, after, runs⟩
  · intro held
    obtain ⟨t, runs, ⟨posted, owed, slot, next, others, bytes, cores, package, -⟩⟩ :=
      cntAdd_held (d := d) ready names counts first second held
    exact ⟨t, runs, posted, owed, slot, next, others, bytes, cores, package⟩
  · intro passed
    obtain ⟨writes, next, others, bytes, acquired, -⟩ := acquire_result s (sc := 3) (by decide) d ((s.cntStatus p).setWidth 64)
    exact ⟨_, exec_cntWait_passed ready names live first second passed, writes, next, others, bytes, acquired⟩
  · exact fun above => ⟨_, exec_cntWait_parks ready names live first second above, park_parks ..⟩
  · intro dead may released
    have faults := dataFault_counters ready may
    exact ⟨⟨_, exec_cntSig_dead ready names dead released, faults⟩, ⟨_, exec_cntAdd_dead ready names dead, faults⟩,
      ⟨_, exec_cntWait_dead ready names dead, faults⟩⟩
  · intro v woken
    obtain ⟨writes, next, others, bytes, acquired, -⟩ := acquire_result s.unpark (sc := 3) (by decide) d v
    exact ⟨_, exec_cntWait_woken woken, writesG_unpark writes, advanced_unpark next, otherSlots_unpark others, sameBytes_unpark bytes,
      acquired_unpark acquired⟩

end Sys2Proof.Laws
end

section
/-! PROOFS: PUBLISH and the lines that it has written (06 R162, 14 R353). -/

namespace Sys2Proof.Laws

open Machine Safety

variable {s t u : State} {d a : BitVec 5} {vf : BitVec 9}

/-! ### A buffered line written -/

/-- The bytes of a line written to it one by one. -/
def pokeLine (line : Nat) (bytes : Tab Byte) (s : State) : State := bytes.foldl (fun s b => s.poke (line * 128 + b.1) [b.2]) s

theorem byte_poke_one (s : State) (p q : Nat) (b : Byte) : (s.poke p [b]).byte q = if q = p then b else s.byte q := by
  rw [byte_poke]
  by_cases h : q = p
  · subst h
    simp
  · have apart : ¬ (p ≤ q ∧ q < p + [b].length) := by simp; omega
    rw [if_neg h, if_neg apart]

theorem find_none_of_lt {α : Type} {t : Tab α} {n : Nat} (h : ∀ e ∈ t, n < e.1) : Tab.find t n = none := by
  induction t with
  | nil => rfl
  | cons e t ih =>
    have apart : ¬ n = e.1 := by have := h e (by simp); omega
    simp only [Tab.find, if_neg apart]
    exact ih fun x hx => h x (by simp [hx])

/-- Where the bytes are listed in rising order, each is at its place afterwards, and no other has changed. -/
theorem byte_pokeLine (line : Nat) (bytes : Tab Byte) (s : State) (sorted : Tab.sorted bytes = true) (within : ∀ b ∈ bytes, b.1 < 128)
    (q : Nat) : (pokeLine line bytes s).byte q
      = if q / 128 = line then (Tab.find bytes (q % 128)).getD (s.byte q) else s.byte q := by
  induction bytes generalizing s with
  | nil => simp [pokeLine, Tab.find]
  | cons e bytes ih =>
    obtain ⟨after, sorted⟩ := (sorted_cons e.1 e.2 bytes).mp sorted
    have low := within e (by simp)
    have written : (pokeLine line (e :: bytes) s).byte q = (pokeLine line bytes (s.poke (line * 128 + e.1) [e.2])).byte q := rfl
    rw [written, ih _ sorted fun b hb => within b (by simp [hb]), byte_poke_one]
    by_cases here : q / 128 = line
    · by_cases this : q % 128 = e.1
      · rw [if_pos here, if_pos here, if_pos (by omega), this, find_none_of_lt after]
        simp [Tab.find]
      · rw [if_pos here, if_pos here, if_neg (by omega)]
        simp only [Tab.find, if_neg this]
    · rw [if_neg here, if_neg here, if_neg (by omega)]

theorem pokeLine_keeps {α : Type} (f : State → α) (hf : ∀ t p bs, f (t.poke p bs) = f t) (line : Nat) (bytes : Tab Byte) (s : State) :
    f (pokeLine line bytes s) = f s := by
  induction bytes generalizing s with
  | nil => rfl
  | cons e bytes ih => exact (ih _).trans (hf ..)

theorem pubLine_due {k : Nat} {e : PubLine} (there : s.pub[k]? = some e) (due : e.due = true) :
    s.pubLine k = pokeLine e.line e.bytes { s with pub := s.pub.eraseIdx k } := by
  simp only [State.pubLine, there, due, if_true]
  rfl

/-! ### The version word -/

/-- The place of a function's version word. -/
def versionAt (s : State) (vf : BitVec 9) : Nat := hostAt (s.ngamon vf).pubver

/-- What an advance of the version word shows of the package beside memory and the cores. -/
def pubRest (s : State) : State := { s with cores := [], mem := [], poisoned := [] }

theorem pubRest_poke (s : State) (p : Nat) (bs : List Byte) : pubRest (s.poke p bs) = pubRest s := rfl

/-- The version word has advanced, and beside it nothing has changed. -/
structure Versioned (s : State) (vf : BitVec 9) (t : State) : Prop where
  word : leNat (t.peek (versionAt s vf) 8) = (s.version vf + 1) % 2 ^ 64
  bytes : ∀ q, ¬ (versionAt s vf ≤ q ∧ q < versionAt s vf + 8) → t.byte q = s.byte q
  pub : t.pub = s.pub
  package : pubRest t = pubRest s

theorem versioned_pubVersion (s : State) (vf : BitVec 9) : Versioned s vf (s.pubVersion vf) where
  word := by
    rw [State.pubVersion, versionAt, leNat_peek_pokeNat]
    exact Nat.mod_mod _ _
  bytes _ h := by rw [State.pubVersion, ← versionAt, byte_pokeNat_outside s _ h]
  pub := by rw [State.pubVersion, State.pokeNat, poke_pub]
  package := by rw [State.pubVersion, State.pokeNat, pubRest_poke]

theorem Versioned.rest (h : Versioned s vf u) (r : Rest s u t) : Versioned s vf t where
  word := (congrArg leNat (peek_congr fun _ _ _ => r.bytes _)).trans h.word
  bytes q hq := (r.bytes q).trans (h.bytes q hq)
  pub := (field_of_samePackage r.package State.pub fun _ => rfl).trans h.pub
  package := (field_of_samePackage r.package pubRest fun _ => rfl).trans h.package

/-! ### The instruction -/

/-- The package once the version word has advanced and the slot has gone on. -/
def published (s : State) (vf : BitVec 9) (d : BitVec 5) : State :=
  ((s.pubVersion vf).setG d (BitVec.ofNat 64 ((s.version vf + 1) % 2 ^ 64))).adv

theorem published_gives (s : State) (vf : BitVec 9) (d : BitVec 5) : let t := published s vf d
    WritesG s t d (BitVec.ofNat 64 (s.version vf + 1)) ∧ Versioned s vf t ∧ Advanced s t ∧ OtherSlots s t ∧ SameSlotButG s t
      ∧ t.me.wait = s.me.wait := by
  have cores : (s.pubVersion vf).cores = s.cores := by rw [State.pubVersion, State.pokeNat, poke_cores]
  have cur : (s.pubVersion vf).cur = s.cur := by rw [State.pubVersion, State.pokeNat, poke_cur]
  have me := sameMe_of_cores cur cores
  obtain ⟨writes, next, slot, rest⟩ := result_of_sameMe me d (BitVec.ofNat 64 ((s.version vf + 1) % 2 ^ 64))
  have value : BitVec.ofNat 64 ((s.version vf + 1) % 2 ^ 64) = BitVec.ofNat 64 (s.version vf + 1) :=
    BitVec.eq_of_toNat_eq (by simp)
  exact ⟨fun r => (writes r).trans (by rw [value]), (versioned_pubVersion s vf).rest rest, next, rest.others cores, slot,
    (wait_result ..).trans (congrArg Slot.wait me.me)⟩

/-- The slot stays at its PUBLISH. -/
def publishing (s : State) (i : Instr) : State := (s.setMe { s.me with wait := .publishing }).latch i

theorem publishing_stays (s : State) (i : Instr) : let t := publishing s i
    t.me.wait = .publishing ∧ t.base = s.base ∧ t.me.latched.isSome = true ∧ (∀ r, t.g r = s.g r) ∧ SameBytes s t ∧ OtherSlots s t
      ∧ t.pub = s.pub := by
  have stays := (setMe_becomes s { s.me with wait := .publishing }).latch i
  have me : (publishing s i).me = _ := stays.me
  simp only [State.base, State.g, me]
  exact ⟨trivial, trivial, rfl, fun _ => rfl, fun p => sameBytes_of_samePackage stays.package p, stays.others,
    field_of_samePackage stays.package State.pub fun _ => rfl⟩

/-! ### The lines of a function -/

/-- A function has lines in the publication buffer. -/
def HasLines (s : State) (vf : BitVec 9) : Prop := ∃ e ∈ s.pub, e.vf = vf

/-- Some of them are due to be written. -/
def LinesDue (s : State) (vf : BitVec 9) : Prop := ∃ e ∈ s.pub, e.vf = vf ∧ e.due = true

theorem pubDue_iff : s.pubDue vf = true ↔ LinesDue s vf := by
  simp [State.pubDue, LinesDue]

theorem pubBegin_of_none (h : ¬ HasLines s vf) : s.pubBegin vf = s := by
  have same : s.pub.map (fun e => if e.vf == vf then { e with due := true } else e) = s.pub := by
    refine (List.map_congr_left fun e he => ?_).trans (List.map_id _)
    have other : ¬ (e.vf == vf) = true := fun eq => h ⟨e, he, beq_iff_eq.mp eq⟩
    exact if_neg other
  rw [State.pubBegin, same]

theorem linesDue_pubBegin (h : HasLines s vf) : LinesDue (s.pubBegin vf) vf := by
  obtain ⟨e, he, own⟩ := h
  refine ⟨{ e with due := true }, List.mem_map.mpr ⟨e, he, ?_⟩, own, rfl⟩
  rw [if_pos (beq_iff_eq.mpr own)]

theorem not_linesDue_of_none (h : ¬ HasLines s vf) : ¬ LinesDue s vf := fun ⟨e, he, own, _⟩ => h ⟨e, he, own⟩

/-! ### PUBLISH -/

/-- Actions that do the same come to the same. -/
theorem Act.next_congr {x y : Act Unit} {i : Instr} (h : x s = y t) : x.next i s = y.next i t := by rw [Act.next, Act.next, h]

theorem region_unpark (s : State) : s.unpark.region = s.region := regionOf_unpark s

/-- What is left of PUBLISH once it has begun: it has its lines written, or the version word advances. -/
def publishOn (vf : BitVec 9) (d : BitVec 5) (t : State) : Act Unit :=
  if t.pubDue vf then do
    set (t.setMe { t.me with wait := .publishing })
    Act.stall
  else do
    set (t.pubVersion vf)
    Act.result d (BitVec.ofNat 64 ((t.version vf + 1) % 2 ^ 64))

theorem publishOn_apply (vf : BitVec 9) (d : BitVec 5) (t s u : State) : publishOn vf d t s = publishOn vf d t u := by
  unfold publishOn
  split <;> rfl

theorem publishOn_due (h : LinesDue t vf) : publishOn vf d t s = (.error .stall, t.setMe { t.me with wait := .publishing }) := by
  rw [publishOn, if_pos (pubDue_iff.mpr h)]
  rfl

theorem publishOn_done (h : ¬ LinesDue t vf) : publishOn vf d t s = (.ok ⟨⟩, published t vf d) := by
  rw [publishOn, if_neg (mt pubDue_iff.mp h)]
  rfl

section

variable (ready : Ready s) (fits : (s.g a).toNat < 2 ^ 52)
include ready fits

/-- An address that PUBVER does not hold faults, -/
theorem exec_publish_faults (other : s.g a ≠ (s.ngamon s.region.vf).pubver) :
    exec (.publish d a) s = .next (s.trapHere Cause.data (s.g a)) := by
  refine exec_of_trap rfl rfl ready (t := s) ?_
  have wait : s.me.wait = .none := ready
  rw [Act.get_bind]
  simp only [wait, reduceCtorEq, decide_false, Bool.not_false, Bool.true_and, decide_eq_true_eq, if_neg (Nat.not_le.mpr fits),
    if_pos other, Act.trap_apply]

/-- and with one that it holds PUBLISH begins, once its release is complete. -/
theorem exec_publish (own : s.g a = (s.ngamon s.region.vf).pubver) (released : s.released s.cur.core s.cur.slot 4 = true) :
    exec (.publish d a) s
      = .next ((publishOn s.region.vf d (s.pubBegin s.region.vf)).next (.publish d a) (s.pubBegin s.region.vf)) := by
  have wait : s.me.wait = .none := ready
  have own : ¬ s.g a ≠ (s.ngamon s.region.vf).pubver := not_not_intro own
  change execPublish d a s = _
  rw [execPublish, run_ready rfl ready]
  refine congrArg _ (Act.next_congr ?_)
  rw [Act.get_bind]
  simp only [wait, reduceCtorEq, decide_false, Bool.not_false, Bool.true_and, decide_eq_true_eq, if_neg (Nat.not_le.mpr fits),
    if_neg own, if_true, if_false]
  rw [Act.bind_ok (Act.release_ok released)]
  exact publishOn_apply s.region.vf d (s.pubBegin s.region.vf) s _

end

/-- Having begun, it goes on. -/
theorem exec_publish_again (wait : s.me.wait = .publishing) :
    exec (.publish d a) s = .next ((publishOn s.region.vf d s.unpark).next (.publish d a) s.unpark) := by
  have resumed (x : Act Unit) : run (.publish d a) x s = .next (x.next (.publish d a) s.unpark) := by
    simp [run, runWith, legal, wait]
  change execPublish d a s = _
  rw [execPublish, resumed]
  refine congrArg _ (Act.next_congr ?_)
  rw [Act.get_bind]
  simp only [wait, decide_true, Bool.not_true, Bool.false_and, Bool.false_eq_true, if_false, if_true, region_unpark]
  rfl

/-! ### What it comes to -/

/-- The version word has advanced, the register has the new version, and the slot has gone on. -/
structure Advances (s : State) (vf : BitVec 9) (d : BitVec 5) (t : State) : Prop where
  writes : WritesG s t d (BitVec.ofNat 64 (s.version vf + 1))
  version : Versioned s vf t
  next : Advanced s t
  others : OtherSlots s t
  slot : { t.me with g := [], pc := 0, wait := .none } = { s.me with g := [], pc := 0, wait := .none }
  wait : t.me.wait = .none

/-- The slot stays. -/
structure Stays (s t : State) : Prop where
  wait : t.me.wait = .publishing
  base : t.base = s.base
  latched : t.me.latched.isSome = true
  regs : ∀ r, t.g r = s.g r
  bytes : SameBytes s t
  others : OtherSlots s t

theorem but_wait {x y : Slot} (h : { x with g := [], pc := 0 } = { y with g := [], pc := 0 }) :
    { x with g := [], pc := 0, wait := .none } = { y with g := [], pc := 0, wait := .none } :=
  congrArg (fun z : Slot => { z with wait := .none }) h

theorem next_publishOn_done (ready : Ready s) (h : ¬ LinesDue s vf) (i : Instr) :
    Advances s vf d ((publishOn vf d s).next i s) := by
  obtain ⟨writes, version, next, others, slot, wait⟩ := published_gives s vf d
  rw [Act.next_ok (publishOn_done h) (wait.trans ready)]
  exact ⟨writes, version, next, others, but_wait slot, wait.trans ready⟩

theorem next_publishOn_due (h : LinesDue s vf) (i : Instr) :
    Stays s ((publishOn vf d s).next i s) ∧ ((publishOn vf d s).next i s).pub = s.pub := by
  have next : (publishOn vf d s).next i s = publishing s i := Act.next_stall (publishOn_due h)
  rw [next]
  obtain ⟨wait, base, latched, regs, bytes, others, pub⟩ := publishing_stays s i
  exact ⟨⟨wait, base, latched, regs, bytes, others⟩, pub⟩

theorem Stays.of_unpark (h : Stays s.unpark t) : Stays s t :=
  ⟨h.wait, h.base.trans (base_unpark s), h.latched, fun r => (h.regs r).trans (g_unpark s r), h.bytes, otherSlots_unpark h.others⟩

theorem Stays.of_pubBegin (h : Stays (s.pubBegin vf) t) : Stays s t :=
  ⟨h.wait, h.base, h.latched, h.regs, h.bytes, h.others⟩

theorem Advances.of_unpark (h : Advances s.unpark vf d t) : Advances s vf d t where
  writes := writesG_unpark h.writes
  version := ⟨h.version.word, h.version.bytes, h.version.pub, h.version.package⟩
  next := advanced_unpark h.next
  others := otherSlots_unpark h.others
  slot := h.slot.trans (by rw [me_unpark])
  wait := h.wait

/-- Settles O18 (log 35): PUBLISH begins or goes on (`exec_publish`, `exec_publish_again`) with what is left of it (`publishOn`),
and a line that is due is written byte by byte (`byte_pokeLine`). -/
theorem publish : Obligations.Publish := by
  unfold Obligations.Publish
  refine ⟨fun s d a => ?_, fun s k e there due sorted within => ?_, fun s d a ready fits other may => ?_⟩
  · intro vf ver p old mine waiting advances stays own fits
    have advance {t : State} : Advances s vf d t → advances t :=
      fun ⟨writes, ⟨word, bytes, pub, package⟩, next, others, slot, wait⟩ =>
        ⟨writes, word, bytes, pub, next, others, package, slot, wait⟩
    have fits : (s.g a).toNat < 2 ^ 52 := own ▸ fits
    refine ⟨fun ready released => ⟨fun none' => ?_, fun lines => ?_⟩, fun wait => ⟨fun none' => ?_, fun lines => ?_⟩⟩
    · refine ⟨_, exec_publish ready fits own released, ?_⟩
      rw [pubBegin_of_none none']
      exact advance (next_publishOn_done ready (not_linesDue_of_none none') _)
    · have due := linesDue_pubBegin lines
      obtain ⟨kept, pub⟩ := next_publishOn_due (d := d) due (.publish d a)
      obtain ⟨wait, base, latched, regs, bytes, others⟩ := kept.of_pubBegin
      have begun : (s.pubBegin s.region.vf).pub = s.pub.map (fun e => if e.vf = s.region.vf then { e with due := true } else e) := by
        simp [State.pubBegin]
      exact ⟨_, exec_publish ready fits own released, ⟨wait, base, latched, regs, bytes, others⟩, pub.trans begun⟩
    · exact ⟨_, exec_publish_again wait, advance (next_publishOn_done (ready_unpark s) none' _).of_unpark⟩
    · obtain ⟨kept, pub⟩ := next_publishOn_due (s := s.unpark) (d := d) lines (.publish d a)
      obtain ⟨wait', base, latched, regs, bytes, others⟩ := kept.of_unpark
      exact ⟨_, exec_publish_again wait, ⟨wait', base, latched, regs, bytes, others⟩, pub⟩
  · intro t
    have line : t = pokeLine e.line e.bytes { s with pub := s.pub.eraseIdx k } := pubLine_due there due
    have pub := pokeLine_keeps State.pub (fun _ _ _ => rfl) e.line e.bytes { s with pub := s.pub.eraseIdx k }
    have cores := pokeLine_keeps State.cores (fun _ _ _ => rfl) e.line e.bytes { s with pub := s.pub.eraseIdx k }
    rw [line]
    exact ⟨byte_pokeLine e.line e.bytes _ sorted within, pub, cores⟩
  · obtain ⟨traps, bytes, package⟩ := dataFault_traps ready may
    exact ⟨_, exec_publish_faults ready fits other, traps, bytes, field_of_samePackage package State.pub fun _ => rfl⟩

end Sys2Proof.Laws
end

section
/-! PROOFS: what memory's homes leave as it is. `elsewhere_f` says that the operation `f` changes memory, its copies in the slices, the
base dies, the report rings and their interrupts, the snoop filter, the misses and the choices, and nothing else (12 R304 to R322). -/

namespace Sys2Proof.Laws

open Machine Safety

variable {s t : State}

/-- Everything but what the homes of memory change. -/
def elsewhere (s : State) : State :=
  { s with mem := [], poisoned := [], writtenUnder := [], l2 := [], baseDies := [], reports := [], irq := [], snoop := [], misses := []
           free := 0 }

theorem cur_of_elsewhere (h : elsewhere t = elsewhere s) : t.cur = s.cur := by
  have cur := congrArg State.cur h
  exact cur

theorem cores_of_elsewhere (h : elsewhere t = elsewhere s) : t.cores = s.cores := by
  have cores := congrArg State.cores h
  exact cores

theorem early_of_elsewhere (h : elsewhere t = elsewhere s) : t.early = s.early := by
  have early := congrArg State.early h
  exact early

theorem elsewhere_ite {c : Prop} [Decidable c] {a b x : State} (ha : elsewhere a = x) (hb : elsewhere b = x) :
    elsewhere (if c then a else b) = x := by
  split
  · exact ha
  · exact hb

theorem elsewhere_foldl {β : Type} (f : State → β → State) (hf : ∀ s b, elsewhere (f s b) = elsewhere s) (l : List β) (s : State) :
    elsewhere (l.foldl f s) = elsewhere s := by
  induction l generalizing s with
  | nil => rfl
  | cons b l ih => exact (ih _).trans (hf s b)

theorem elsewhere_map_getD {β : Type} (o : Option β) (f : β → State) (hf : ∀ b, elsewhere (f b) = elsewhere s) :
    elsewhere ((o.map f).getD s) = elsewhere s := by
  cases o with
  | none => rfl
  | some b => exact hf b

/-! ### The base dies and the report rings -/

theorem elsewhere_poke (s : State) (p : Nat) (bs : List Byte) : elsewhere (s.poke p bs) = elsewhere s := rfl

theorem elsewhere_setStack (s : State) (k : Nat) (x : Stack) : elsewhere (s.setStack k x) = elsewhere s := rfl

theorem elsewhere_faqAdd (s : State) (k pa : Nat) : elsewhere (s.faqAdd k pa) = elsewhere s := by
  unfold State.faqAdd
  extract_lets _ _ _ _
  refine elsewhere_ite ?_ (elsewhere_setStack ..)
  split <;> exact elsewhere_setStack ..

theorem elsewhere_devPut (s : State) (p : Nat) (b : Byte) : elsewhere (s.devPut p b) = elsewhere s := by
  unfold State.devPut
  split
  · rfl
  · exact elsewhere_poke ..

theorem elsewhere_touchLine (s : State) (line : Nat) : elsewhere (s.touchLine line) = elsewhere s :=
  elsewhere_map_getD _ _ fun _ => rfl

theorem elsewhere_devWrite (s : State) (p : Nat) (bs : List Byte) : elsewhere (s.devWrite p bs) = elsewhere s := by
  induction bs generalizing s p with
  | nil => rfl
  | cons b bs ih => exact (ih ..).trans ((elsewhere_devPut ..).trans (elsewhere_touchLine ..))

theorem elsewhere_raise (s : State) (fn : Nat) : elsewhere (s.raise fn) = elsewhere s := elsewhere_ite rfl rfl

theorem elsewhere_writeReport (s : State) (r : Report) : elsewhere (s.writeReport r) = elsewhere s := by
  unfold State.writeReport
  extract_lets _ _ t
  have ht : elsewhere t = elsewhere s := (elsewhere_devWrite ..).trans (elsewhere_devWrite ..)
  exact elsewhere_ite (elsewhere_faqAdd ..)
    (elsewhere_ite (elsewhere_ite ((elsewhere_raise ..).trans ht) ht) (elsewhere_devWrite ..))

theorem elsewhere_report (s : State) (r : Report) : elsewhere (s.report r) = elsewhere s :=
  elsewhere_ite rfl (elsewhere_writeReport ..)

/-! ### Copies written back -/

theorem elsewhere_lowSpace (s : State) (k : Nat) : elsewhere (s.lowSpace k) = elsewhere s :=
  elsewhere_ite (elsewhere_report ..) rfl

theorem elsewhere_compressTo (s : State) (line : Nat) (old : State) (need : Nat) (reserve : Bool) :
    elsewhere (s.compressTo line old need reserve).1 = elsewhere s := by
  unfold State.compressTo
  extract_lets
  split
  · exact elsewhere_faqAdd ..
  · exact (elsewhere_lowSpace ..).trans (elsewhere_setStack ..)

theorem elsewhere_compress (s : State) (line : Nat) (old : State) : elsewhere (s.compress line old).1 = elsewhere s := by
  unfold State.compress
  extract_lets _ zero t
  exact elsewhere_compressTo t ..

theorem elsewhere_backPut (s : State) (key : BitVec 12) (line : Nat) (bytes : Tab Byte) (bad : List Nat) :
    elsewhere (s.backPut key line bytes bad) = elsewhere s := rfl

theorem elsewhere_backTry (s : State) (key : BitVec 12) (line : Nat) (bytes : Tab Byte) (bad : List Nat) :
    elsewhere (s.backTry key line bytes bad).1 = elsewhere s := by
  unfold State.backTry
  extract_lets
  split
  · exact elsewhere_faqAdd ..
  · split
    · exact elsewhere_faqAdd ..
    · split
      · exact (elsewhere_compress ..).trans (elsewhere_backPut ..)
      · exact elsewhere_backPut ..

theorem elsewhere_writeBack (s : State) (l : L2Line) : elsewhere (s.writeBack l) = elsewhere s :=
  elsewhere_ite (elsewhere_ite ((elsewhere_faqAdd ..).trans (elsewhere_backTry ..)) (elsewhere_backTry ..)) rfl

theorem elsewhere_evict (s : State) (l : L2Line) : elsewhere (s.evict l) = elsewhere s := elsewhere_writeBack ..

theorem elsewhere_flushLine (s : State) (line : Nat) : elsewhere (s.flushLine line) = elsewhere s :=
  elsewhere_foldl _ elsewhere_evict _ _

theorem elsewhere_useHome (s : State) (l : Loc) : elsewhere (s.useHome l) = elsewhere s :=
  elsewhere_ite rfl (elsewhere_ite (elsewhere_ite (elsewhere_flushLine ..) rfl) (elsewhere_map_getD _ _ fun _ => rfl))

/-! ### Lines filled, allocated and written -/

theorem elsewhere_allocate (s : State) (l : Loc) (tenant : BitVec 10) (bytes : Tab Byte) (dirty : Bool) (bad ways : List Nat) :
    elsewhere (s.allocate l tenant bytes dirty bad ways) = elsewhere s := by
  unfold State.allocate
  extract_lets line slice u mates empty victim way v w
  have hu : elsewhere u = elsewhere s := elsewhere_map_getD _ _ fun _ => elsewhere_evict ..
  have hv : elsewhere v = elsewhere s := hu
  have hw : elsewhere w = elsewhere s := elsewhere_ite ((elsewhere_map_getD _ _ fun _ => elsewhere_evict ..).trans hv) hv
  exact hw

theorem elsewhere_fillLine (s : State) (m : Miss) : elsewhere (s.fillLine m) = elsewhere s := by
  unfold State.fillLine
  extract_lets l all
  refine elsewhere_ite rfl ?_
  split
  · rfl
  · split
    · rfl
    · exact elsewhere_ite (elsewhere_allocate ..) rfl

theorem elsewhere_writeLine (s : State) (l : Loc) (tenant : BitVec 10) (bytes : Tab Byte) :
    elsewhere (s.writeLine l tenant bytes) = elsewhere s := by
  unfold State.writeLine
  refine elsewhere_ite ((elsewhere_backTry ..).trans (elsewhere_flushLine ..)) ?_
  split
  · rfl
  · split
    · exact elsewhere_backTry ..
    · exact elsewhere_allocate ..

theorem elsewhere_homeWrite (s : State) (l : Loc) (tenant : BitVec 10) (bs : List Byte) :
    elsewhere (s.homeWrite l tenant bs) = elsewhere s := by
  unfold State.homeWrite
  split
  · refine elsewhere_foldl _ (fun t e => ?_) _ _
    exact elsewhere_ite (elsewhere_faqAdd ..) (elsewhere_writeLine (t.backInvalidate e.1) ..)
  · exact elsewhere_poke ..

theorem elsewhere_useRun (s : State) (tenant : BitVec 10) (l : Loc) (n : Nat) : elsewhere (s.useRun tenant l n) = elsewhere s :=
  elsewhere_foldl _ (fun _ _ => elsewhere_ite (elsewhere_fillLine ..) (elsewhere_useHome ..)) _ _

theorem elsewhere_nowUse (s : State) (c k va : Nat) : elsewhere (s.nowUse c k va) = elsewhere s :=
  elsewhere_ite (elsewhere_foldl _ (fun _ _ => elsewhere_useRun ..) _ _) rfl

end Sys2Proof.Laws
end

section
/-! PROOFS: atomics: the old value read and the new one written at the home in one step, between a release and an acquire
(06 R140 to R144). -/

namespace Sys2Proof.Laws

open Machine Safety

variable {s t u : State} {d a b : BitVec 5} {sc : BitVec 3} {w : BitVec 2} {l : Loc} {n : Nat}

/-! ### A translated address -/

theorem sameSlots_of_elsewhere (h : elsewhere t = elsewhere s) : SameSlots s t :=
  ⟨cur_of_elsewhere h, slotAt_of_cores (cores_of_elsewhere h)⟩

/-- The slots, what they have read ahead, the store buffers and the numbers of the fences are as they were. -/
structure Translated (s r : State) : Prop where
  slots : SameSlots s r
  early : r.early = s.early
  sb : ∀ c, (r.core c).sb = (s.core c).sb
  fences : ∀ c, (r.core c).fences = (s.core c).fences

theorem translated_of_elsewhere (h : elsewhere t = elsewhere s) : Translated s t where
  slots := sameSlots_of_elsewhere h
  early := early_of_elsewhere h
  sb c := congrArg Core.sb (core_of_cores (cores_of_elsewhere h) c)
  fences c := congrArg Core.fences (core_of_cores (cores_of_elsewhere h) c)

theorem translated_putTlb (s : State) (c : Nat) (x : Tlb) : Translated s (s.putTlb c x) := by
  unfold State.putTlb
  extract_lets k y e
  have core (c' : Nat) := core_setCore e.2 c c' { e.2.core c with tlb := Tab.put (e.2.core c).tlb k (y.put x e.1) }
  refine ⟨sameSlots_setCore (s := e.2) rfl, rfl, fun c' => ?_, fun c' => ?_⟩
  · rw [core]
    split
    next h => subst h; rfl
    next => rfl
  · rw [core]
    split
    next h => subst h; rfl
    next => rfl

theorem translated_resolved (s : State) (c k va : Nat) : Translated s (s.resolved c k va) := by
  unfold State.resolved
  split
  · exact translated_of_elsewhere rfl
  · split
    · unfold State.keepTlb
      extract_lets vf sec
      split
      · exact translated_of_elsewhere rfl
      · split
        · exact translated_putTlb ..
        · exact translated_of_elsewhere rfl
    · exact translated_of_elsewhere (elsewhere_nowUse ..)

theorem Translated.fence (h : Translated s t) : t.fence = s.fence := by
  obtain ⟨cur, -⟩ := h.slots
  rw [State.fence, State.fenceOf, cur, h.fences, State.fence, State.fenceOf]

theorem Translated.lostAhead (h : Translated s t) (c k p m : Nat) : t.lostAhead c k p m = s.lostAhead c k p m := by
  rw [State.lostAhead, h.early, State.lostAhead]

/-! ### The work at the home -/

/-- The bytes of a location as the running slot reads them, as a number. -/
def atomicOld (u : State) (c k : Nat) (l : Loc) (n : Nat) : Nat :=
  leNat (if decide (storeOf l.place = .host) then u.overPub (u.regionOf c k).vf l.place (u.homeBytes l n) else u.homeBytes l n)

/-- A number written there, in host memory in place of what the function has buffered. -/
def atomicWrite (u : State) (c k : Nat) (l : Loc) (n v : Nat) : State :=
  (if decide (storeOf l.place = .host) then u.unbuffer (u.regionOf c k).vf l.place n else u).homeWrite l (u.regionOf c k).tenant
    (bytesOfNat n v)

/-- What follows: the slot's core drops the line, and acquires. -/
def atomicEnds (u : State) (c k : Nat) (l : Loc) (sc : Nat) : State := (u.dropLine c (l.place / 128)).acquire c k sc

theorem sameSlots_atomicWrite (u : State) (c k : Nat) (l : Loc) (n v : Nat) : SameSlots u (atomicWrite u c k l n v) := by
  unfold atomicWrite
  refine .trans (t := if decide (storeOf l.place = .host) then u.unbuffer (u.regionOf c k).vf l.place n else u) ?_
    (sameSlots_of_elsewhere (elsewhere_homeWrite ..))
  split
  · exact ⟨rfl, fun _ _ => rfl⟩
  · exact .refl u

theorem sameSlots_atomicEnds (u : State) (c k : Nat) (l : Loc) (sc : Nat) : SameSlots u (atomicEnds u c k l sc) :=
  (sameSlots_setCore (x := { u.core c with l1 := (u.core c).l1.filter (fun x => x.line ≠ l.place / 128) }) rfl).trans
    ⟨cur_acquire .., slotAt_acquire (u.dropLine c (l.place / 128)) c k sc⟩

/-! ### The step -/

/-- An atomic of n bytes may be done: the address names a location that nothing holds back, and the release is complete. -/
structure AtomicDue (s : State) (va : Reg) (n sc : Nat) (l : Loc) : Prop where
  names : Names s .atomic va n n l
  released : (Resolved s va).released s.cur.core s.cur.slot sc = true
  isOpen : Open (Resolved s va) l n
  kept : s.lostAhead s.cur.core s.cur.slot l.place n = false
  stored : ∀ e ∈ s.here.sb, e.slot = s.cur.slot → e.block ≠ l.place / 64
  fenced : (Resolved s va).fenceHoldsAt s.cur.core s.cur.slot s.fence l.place = false

/-- Where the running slot finds the home. -/
abbrev atomicHome (s : State) (va : Reg) (l : Loc) : State := (Resolved s va).useHome l

/-- The old value, and the package after it. -/
def atomicGets (s : State) (va : Reg) (l : Loc) (n : Nat) : Nat := atomicOld (atomicHome s va l) s.cur.core s.cur.slot l n

def atomicWritten (u : State) (c k : Nat) (l : Loc) (n : Nat) : Option Nat → State
  | some v => atomicWrite u c k l n v
  | none => u

def atomicDone (s : State) (va : Reg) (l : Loc) (n sc : Nat) (v : Option Nat) : State :=
  atomicEnds (atomicWritten (atomicHome s va l) s.cur.core s.cur.slot l n v) s.cur.core s.cur.slot l sc

theorem sameSlots_atomicDone (s : State) (va : Reg) (l : Loc) (n sc : Nat) (v : Option Nat) :
    SameSlots s (atomicDone s va l n sc v) := by
  have home : SameSlots s (atomicHome s va l) :=
    (translated_resolved ..).slots.trans (sameSlots_of_elsewhere (elsewhere_useHome ..))
  refine (home.trans ?_).trans (sameSlots_atomicEnds ..)
  cases v with
  | none => exact .refl _
  | some v => exact sameSlots_atomicWrite ..

theorem AtomicDue.step {va : Reg} {sc : Nat} (due : AtomicDue s va n sc l) (f : Nat → Option Nat) :
    Act.atomic va n sc f s = (.ok (atomicGets s va l n), atomicDone s va l n sc (f (atomicGets s va l n))) := by
  obtain ⟨names, released, ⟨waits, mute, readable, filled⟩, kept, stored, fenced⟩ := due
  have translated := translated_resolved s s.cur.core s.cur.slot va.toNat
  obtain ⟨cur, -⟩ := translated.slots
  have held : ((Resolved s va).core s.cur.core).sb.any (fun e => e.slot = s.cur.slot && e.block = l.place / 64) = false := by
    rw [translated.sb]
    simpa [State.here] using stored
  rw [cur] at mute readable
  rw [State.region, cur] at filled
  unfold Act.atomic
  rw [Act.bind_ok (Act.resolve_ok names)]
  simp only []
  rw [Act.bind_ok (Act.release_ok (by rw [cur]; exact released)), Act.get_bind]
  simp only [cur, translated.lostAhead, kept, held, translated.fence, fenced, waits, mute, readable, filled, Bool.or_false,
    Bool.false_eq_true, if_false]
  rw [Act.set_bind]
  rfl

/-! ### The instructions -/

theorem wait_atomicDone (ready : Ready s) (va : Reg) (l : Loc) (n sc : Nat) (v : Option Nat) :
    (atomicDone s va l n sc v).me.wait = .none := by
  obtain ⟨cur, slots⟩ := sameSlots_atomicDone s va l n sc v
  rw [(sameMe_of_slots cur slots).me]
  exact ready

theorem wait_settle (s : State) (f : Fp) : (s.settle f).me.wait = s.me.wait := by
  rw [settle_eq, me_setMe, me_drawn]

/-- The bytes of an atomic, its width code, and its type as a number. -/
def atomicBytes (wide : Bool) : Nat := if wide then 8 else 4

def atomicCode (wide : Bool) : BitVec 2 := if wide then 1 else 0

def atomicType (wide : Bool) : BitVec 5 := if wide then 11 else 10

theorem code_ok (wide : Bool) : decide (atomicCode wide ≤ 1) = true := by cases wide <;> rfl

theorem amoBits_eq (wide : Bool) : amoBits (atomicCode wide) = 8 * atomicBytes wide := by cases wide <;> rfl

theorem typeWidth_eq (wide : Bool) : typeWidth (atomicType wide) = 8 * atomicBytes wide := by cases wide <;> rfl

theorem atomicType_eq (wide : Bool) : (if atomicCode wide = 0 then 10 else 11) = atomicType wide := by cases wide <;> rfl

theorem bytes_of_bits (n : Nat) : 8 * n / 8 = n := Nat.mul_div_cancel_left n (by decide)

/-- The operations of AMO. -/
theorem amoOp_eq {o : BitVec 4} (op : o ≤ 8) (n old x : Nat) : amoOp o n old x =
    let so := intOf true n old
    let sx := intOf true n x
    if o = 0 then (old + x) % 2 ^ n else if o = 1 then old &&& x else if o = 2 then old ||| x
    else if o = 3 then old ^^^ x else if o = 4 then (if so ≤ sx then old else x)
    else if o = 5 then (if so ≤ sx then x else old) else if o = 6 then min old x
    else if o = 7 then max old x else x := by
  have codes : o = 0 ∨ o = 1 ∨ o = 2 ∨ o = 3 ∨ o = 4 ∨ o = 5 ∨ o = 6 ∨ o = 7 ∨ o = 8 := by decide +revert
  rcases codes with rfl | rfl | rfl | rfl | rfl | rfl | rfl | rfl | rfl <;> rfl

/-- Those of AMOF. -/
theorem amofOp_eq {o : BitVec 4} (op : o ≤ 2) (t : BitVec 5) (old x : Nat) (fp : Fp) :
    amofOp o t old x fp = if o = 0 then fadd t 0 old x fp else fminmax t (o == 2) old x fp := by
  have codes : o = 0 ∨ o = 1 ∨ o = 2 := by decide +revert
  rcases codes with rfl | rfl | rfl <;> rfl

section

variable {wide : Bool} {o : BitVec 4} (ready : Ready s) (scope : sc ≤ 4)
  (due : AtomicDue s (s.g a) (atomicBytes wide) sc.toNat l)
include ready scope due

theorem exec_amo (op : o ≤ 8) : let n := atomicBytes wide
    let old := atomicGets s (s.g a) l n
    exec (.amo d a b sc (atomicCode wide) o) s = .next ((atomicDone s (s.g a) l n sc.toNat
      (some (amoOp o (8 * n) old ((s.g b).toNat % 2 ^ (8 * n))))).setG d (sext64 (8 * n) old)).adv := by
  have ok : legal (.amo d a b sc (atomicCode wide) o) = true := by
    simp only [legal, op, scope, code_ok, decide_true, Bool.and_true]
  refine exec_of_next rfl ok ready ?_ ((wait_result ..).trans (wait_atomicDone ready ..))
  rw [Act.get_bind]
  simp only [amoBits_eq, bytes_of_bits]
  rw [Act.bind_ok (due.step _)]
  rfl

theorem exec_cas : let n := atomicBytes wide
    let old := atomicGets s (s.g a) l n
    exec (.cas d a b sc (atomicCode wide)) s = .next ((atomicDone s (s.g a) l n sc.toNat
      (if old = (s.g d).toNat % 2 ^ (8 * n) then some ((s.g b).toNat % 2 ^ (8 * n)) else none)).setG d (sext64 (8 * n) old)).adv := by
  have ok : legal (.cas d a b sc (atomicCode wide)) = true := by
    simp only [legal, scope, code_ok, decide_true, Bool.and_true]
  refine exec_of_next rfl ok ready ?_ ((wait_result ..).trans (wait_atomicDone ready ..))
  rw [Act.get_bind]
  simp only [amoBits_eq, bytes_of_bits]
  rw [Act.bind_ok (due.step _)]
  rfl

theorem exec_amof (op : o ≤ 2) : let n := atomicBytes wide
    let old := atomicGets s (s.g a) l n
    let z := amofOp o (atomicType wide) old ((s.g b).toNat % 2 ^ (8 * n)) s.fp
    exec (.amof d a b sc (atomicCode wide) o) s = .next
      (((atomicDone s (s.g a) l n sc.toNat (some z.1)).settle z.2).setG d (BitVec.ofNat 64 old)).adv := by
  have ok : legal (.amof d a b sc (atomicCode wide) o) = true := by
    simp only [legal, op, scope, code_ok, decide_true, Bool.and_true]
  refine exec_of_next rfl ok ready ?_ ((wait_result ..).trans ((wait_settle ..).trans (wait_atomicDone ready ..)))
  rw [Act.get_bind]
  simp only [atomicType_eq, typeWidth_eq, bytes_of_bits, execAmof.fpArg']
  rw [Act.bind_ok (due.step _)]
  rfl

end

/-- Settles O12 (log 27, 89): an atomic that may be done is one step at the home (`AtomicDue.step`), whatever the operation is. -/
theorem atomics : Obligations.Atomics := by
  unfold Obligations.Atomics
  intro s d a b sc w o l wide ready scope code n c r u vf host old x want put kept sext names released isOpen ahead stored fenced
  subst code
  have due : AtomicDue s (s.g a) (atomicBytes wide) sc.toNat l := ⟨names, released, isOpen, ahead, stored, fenced⟩
  refine ⟨fun op => ?_, ?_, fun op => ?_⟩
  · have runs := exec_amo (d := d) (b := b) ready scope due op
    dsimp only at runs
    rw [amoOp_eq op] at runs
    exact runs
  · have runs := exec_cas (d := d) (b := b) ready scope due
    dsimp only at runs
    rw [apply_ite (atomicDone s (s.g a) l (atomicBytes wide) sc.toNat)] at runs
    exact runs
  · have runs := exec_amof (d := d) (b := b) ready scope due op
    dsimp only at runs
    rw [amofOp_eq op] at runs
    exact runs

end Sys2Proof.Laws
end

section
/-! PROOFS: a result in a vector or a mask register (07 R164, R165): what the running slot becomes, and the shapes of the
instructions that give one. -/

namespace Sys2Proof.Laws

open Machine Safety

variable {s t : State} {x : Slot} {d : BitVec 5} {q : Nat} {v : Vec} {m : Reg} {r : Fp} {i : Instr}

/-! ### The running slot, step by step -/

theorem Becomes.adv (h : Becomes s x t) (pc : x.pc = s.me.pc) : Becomes s { x with pc := s.after } t.adv := by
  rw [State.adv, h.after_eq pc]
  exact h.goto s.after

theorem Becomes.setV (h : Becomes s x t) (d : BitVec 5) (v : Vec) : Becomes s (x.setV d v) (t.setV d v) := by
  have next := setMe_becomes t (t.me.setV d v)
  rw [h.me] at next
  exact h.trans (by rwa [State.setV, h.me])

theorem Becomes.setP (h : Becomes s x t) (q : Nat) (m : Reg) : Becomes s (x.setP q m) (t.setP q m) := by
  have next := setMe_becomes t (t.me.setP q m)
  rw [h.me] at next
  exact h.trans (by rwa [State.setP, h.me])

/-- Flags are raised, once the LFSR has moved on. -/
theorem settle_raises (s : State) (r : Fp) :
    Becomes (drawn s r.lfsr) { s.me with fstat := s.me.fstat ||| r.flags } (s.settle r) := by
  rw [settle_eq, me_drawn]
  exact setMe_becomes ..

/-- Flags are raised, and nothing is drawn from the LFSR. -/
theorem settle_raises_only (same : r.lfsr = s.here.lfsr) :
    Becomes s { s.me with fstat := s.me.fstat ||| r.flags } (s.settle r) := by
  have h := settle_raises s r
  rwa [drawn, if_pos same] at h

/-- A computation that raises no flag and draws nothing leaves the slot as it is. -/
theorem settle_nothing (s : State) : Becomes s s.me (s.settle s.fp) := by
  have h := settle_raises_only (s := s) (r := s.fp) rfl
  have none : s.me.fstat ||| s.fp.flags = s.me.fstat := BitVec.or_zero
  rwa [none] at h

/-! ### Its frame -/

/-- What is left of the package where the LFSR has moved on and the slot has become another. -/
theorem Becomes.drawn_frame {l : Word} (h : Becomes (drawn s l) x t) : t.here.lfsr = l ∧ SamePackage s t ∧ SameBytes s t
    ∧ OtherSlots s t ∧ ∀ c, { t.core c with slots := [], lfsr := 0 } = { s.core c with slots := [], lfsr := 0 } := by
  have cur := cur_of_samePackage (samePackage_drawn s l)
  have package : SamePackage s t := h.package.trans (samePackage_drawn s l)
  refine ⟨?_, package, sameBytes_of_samePackage package, fun c k other => ?_, fun c => ?_⟩
  · have same := congrArg Core.lfsr (h.cores s.cur.core)
    rw [State.here, cur_of_samePackage package]
    exact same.trans (by rw [core_drawn, if_pos rfl])
  · rw [h.others c k (by rwa [cur]), slotAt_drawn]
  · exact (blank_lfsr (h.cores c)).trans (blank_lfsr_drawn s l c)

theorem Becomes.givesV (h : Becomes s { s.me.setV d v with pc := s.after } t) : GivesV s t d v := by
  refine ⟨fun r => ?_, ?_, ?_, h.onlyMe⟩
  · unfold State.v
    rw [h.me]
    exact Slot.vReg_setV s.me d r v
  · rw [Advanced, State.base, h.me]
  · rw [SameSlotButV, h.me]
    rfl

theorem Becomes.givesFpV
    (h : Becomes (drawn s r.lfsr) { ({ s.me with fstat := s.me.fstat ||| r.flags } : Slot).setV d v with pc := s.after } t) :
    GivesFpV s t d v r := by
  refine ⟨fun q => ?_, ?_, ?_, h.drawn_frame.1, ?_, h.drawn_frame.2⟩
  · unfold State.v
    rw [h.me]
    exact Slot.vReg_setV s.me d q v
  · rw [Advanced, State.base, h.me]
  · rw [h.me]
    rfl
  · rw [h.me]
    rfl

/-- A write of a mask register changes the mask registers alone. -/
theorem but_p_setP (x : Slot) (q : Nat) (m : Reg) : { x.setP q m with p := [] } = { x with p := [] } := by
  unfold Slot.setP
  split <;> rfl

theorem Becomes.givesP (h : Becomes s { s.me.setP q m with pc := s.after } t) : GivesP s t q m := by
  refine ⟨fun r => ?_, ?_, ?_, h.onlyMe⟩
  · unfold State.p
    rw [h.me]
    exact Slot.pReg_setP s.me q r m
  · rw [Advanced, State.base, h.me]
  · rw [SameSlotButP, h.me]
    exact congrArg (fun y : Slot => { y with pc := 0 }) (but_p_setP s.me q m)

/-! ### The shapes -/

theorem completes_mono {P Q : State → Prop} (h : Completes i s P) (w : ∀ t, P t → Q t) : Completes i s Q :=
  let ⟨t, runs, p⟩ := h
  ⟨t, runs, w t p⟩

/-- An instruction that writes a vector register. -/
theorem completes_setV (f : State → Vec) (ok : legal i = true) (runs : exec i s = simple i (fun s => s.setV d (f s)) s) :
    Completes i s (GivesV s · d (f s)) :=
  ⟨_, runs.trans (simple_legal ok), (((Becomes.self s).setV d (f s)).adv rfl).givesV⟩

/-- One that computes it with flags and draws. -/
theorem completes_setVec (f : State → Vec × Fp) (ok : legal i = true)
    (runs : exec i s = simple i (fun s => s.setVec d (f s)) s) : Completes i s (GivesFpV s · d (f s).1 (f s).2) := by
  have h := ((settle_raises s (f s).2).setV d (f s).1).adv (by rw [me_drawn]; rfl)
  rw [State.after, me_drawn, cur_of_samePackage (samePackage_drawn ..)] at h
  exact ⟨_, runs.trans (simple_legal ok), h.givesFpV⟩

/-- One that computes it and raises and draws nothing. -/
theorem completes_setVec_exact (f : State → Vec × Fp) (ok : legal i = true)
    (runs : exec i s = simple i (fun s => s.setVec d (f s)) s) (exact : (f s).2 = s.fp) :
    Completes i s (GivesV s · d (f s).1) := by
  have h := ((settle_nothing s).setV d (f s).1).adv rfl
  rw [← exact] at h
  exact ⟨_, runs.trans (simple_legal ok), h.givesV⟩

/-- An instruction that writes a mask register. -/
theorem completes_setP (f : State → Reg) (ok : legal i = true) (runs : exec i s = simple i (fun s => s.setP q (f s)) s) :
    Completes i s (GivesP s · q (f s)) :=
  ⟨_, runs.trans (simple_legal ok), (((Becomes.self s).setP q (f s)).adv (Slot.setP_pc ..)).givesP⟩

end Sys2Proof.Laws
end

section
/-! PROOFS: lanes of vector registers (01 R14, R15): what they hold after a register is put together from lanes, or one of its
lanes is replaced. -/

namespace Sys2Proof.Laws

open Machine Safety

variable {w i j n : Nat} {x : Vec} {f : Nat → Nat}

/-! ### Reading lanes -/

theorem testBit_lane (w : Nat) (x : Vec) (i j : Nat) : (lane w x i).testBit j = (decide (j < w) && x.getLsbD (w * i + j)) := by
  rw [lane, Nat.testBit_mod_two_pow, Nat.testBit_div_two_pow, Nat.add_comm]
  rfl

theorem lane_lt (w : Nat) (x : Vec) (i : Nat) : lane w x i < 2 ^ w := Nat.mod_lt _ (Nat.two_pow_pos w)

theorem lane_mod (w : Nat) (x : Vec) (i : Nat) : lane w x i % 2 ^ w = lane w x i := Nat.mod_eq_of_lt (lane_lt w x i)

/-- A lane lies within the register. -/
theorem lane_fits (h : i < 512 / w) : w * i + w ≤ 512 := by
  have fits := Nat.mul_le_of_le_div w (i + 1) 512 h
  rwa [Nat.mul_comm, Nat.mul_add, Nat.mul_one] at fits

/-! ### A register put together from lanes -/

/-- Numbers of w bits side by side, the first lowest. -/
def pack (w : Nat) (xs : List Nat) : Nat := xs.foldr (fun v acc => v % 2 ^ w + 2 ^ w * acc) 0

theorem pack_digit (w : Nat) (xs : List Nat) (i : Nat) : pack w xs / 2 ^ (w * i) % 2 ^ w = xs.getD i 0 % 2 ^ w := by
  induction xs generalizing i with
  | nil => simp [pack]
  | cons v t ih =>
    have cons : pack w (v :: t) = v % 2 ^ w + 2 ^ w * pack w t := rfl
    cases i with
    | zero => simp [cons]
    | succ i =>
      have above : (v % 2 ^ w + 2 ^ w * pack w t) / 2 ^ w = pack w t := by
        rw [Nat.add_mul_div_left _ _ (Nat.two_pow_pos w), Nat.div_eq_of_lt (Nat.mod_lt _ (Nat.two_pow_pos w)), Nat.zero_add]
      rw [cons, Nat.mul_succ, Nat.add_comm (w * i), Nat.pow_add, ← Nat.div_div_eq_div_mul, above, ih, List.getD_cons_succ]

theorem lane_ofLanes (h : i < 512 / w) (xs : List Nat) : lane w (ofLanes w xs) i = xs.getD i 0 % 2 ^ w := by
  rw [← pack_digit]
  refine Nat.eq_of_testBit_eq fun j => ?_
  rw [testBit_lane, ofLanes, BitVec.getLsbD_ofNat, Nat.testBit_mod_two_pow, Nat.testBit_div_two_pow, Nat.add_comm j]
  by_cases hj : j < w
  · rw [decide_eq_true (show w * i + j < 512 by have := lane_fits h; omega)]
    rfl
  · rw [decide_eq_false hj, Bool.false_and, Bool.false_and]

theorem getD_map_range (f : Nat → Nat) (h : i < n) : ((List.range n).map f).getD i 0 = f i := by
  simp [List.getD_eq_getElem?_getD, h]

/-- Every lane is written. -/
theorem lane_ofLanes_map (h : i < 512 / w) (f : Nat → Nat) (hn : i < n) :
    lane w (ofLanes w ((List.range n).map f)) i = f i % 2 ^ w := by
  rw [lane_ofLanes h, getD_map_range f hn]

/-- The lanes that a mask selects are written (01 R15). -/
theorem lane_maskLanes (h : i < 512 / w) (m : Reg) (old : Vec) (f : Nat → Nat) :
    lane w (maskLanes w m old f) i = if m.getLsbD i then f i % 2 ^ w else lane w old i := by
  rw [maskLanes, lanes, lane_ofLanes_map h _ h, apply_ite (· % 2 ^ w), lane_mod]
  rfl

/-! ### Lanes computed in turn -/

/-- A computation that leaves flags and bits alone. -/
theorem eachLane_exact {α : Type} (f : Nat → α) (is : List Nat) (fp : Fp) :
    eachLane (fun i fp => (f i, fp)) is fp = (is.map f, fp) := by
  induction is with
  | nil => rfl
  | cons i is ih => simp only [eachLane, ih, List.map_cons]

theorem length_eachLane {α : Type} (f : Nat → Fp → α × Fp) (is : List Nat) (fp : Fp) : (eachLane f is fp).1.length = is.length := by
  induction is generalizing fp with
  | nil => rfl
  | cons i is ih => simp only [eachLane, List.length_cons, ih]

theorem overLanes_exact (w : Nat) (m : Reg) (old : Vec) (f : Nat → Nat) (fp : Fp) :
    overLanes w m old (fun i fp => (f i, fp)) fp = (maskLanes w m old f, fp) := by
  have each : (fun i fp => if active m i then (f i, fp) else (lane w old i, fp) : Nat → Fp → Nat × Fp)
      = fun i fp => (if active m i then f i else lane w old i, fp) := by
    funext i fp
    exact (apply_ite (·, fp) ..).symm
  rw [overLanes, each, eachLane_exact, maskLanes]

/-! ### One lane replaced -/

theorem getLsbD_setLane (w : Nat) (x : Vec) (i v k : Nat) (h : k < 512) : (setLane w x i v).getLsbD k
    = if w * i ≤ k ∧ k < w * i + w then v.testBit (k - w * i) else x.getLsbD k := by
  simp only [setLane, BitVec.getLsbD_or, BitVec.getLsbD_and, BitVec.getLsbD_not, BitVec.getLsbD_shiftLeft, BitVec.getLsbD_ofNat,
    Nat.testBit_two_pow_sub_one, Nat.testBit_mod_two_pow]
  by_cases low : k < w * i
  · simp [h, low, Nat.not_le.mpr low]
  · by_cases high : k < w * i + w
    · have within : k - w * i < w := by omega
      simp [h, low, Nat.not_lt.mp low, high, within, show k - w * i < 512 by omega]
    · have above : ¬ k - w * i < w := by omega
      simp [h, high, above]

/-- A lane holds what it was given, and the others keep theirs. -/
theorem lane_setLane (hj : j < 512 / w) (x : Vec) (v : Nat) :
    lane w (setLane w x i v) j = if i = j then v % 2 ^ w else lane w x j := by
  refine Nat.eq_of_testBit_eq fun k => ?_
  have fits := lane_fits hj
  rw [testBit_lane]
  by_cases hk : k < w
  · rw [getLsbD_setLane w x i v _ (by omega), decide_eq_true hk, Bool.true_and]
    by_cases same : i = j
    · subst same
      rw [if_pos (by omega), if_pos rfl, Nat.testBit_mod_two_pow, decide_eq_true hk, Bool.true_and, Nat.add_sub_cancel_left]
    · have apart : ¬ (w * i ≤ w * j + k ∧ w * j + k < w * i + w) := by
        rcases Nat.lt_or_gt_of_ne same with less | more
        · have := Nat.mul_le_mul_left w less
          rw [Nat.mul_succ] at this
          omega
        · have := Nat.mul_le_mul_left w more
          rw [Nat.mul_succ] at this
          omega
      rw [if_neg apart, if_neg same, testBit_lane, decide_eq_true hk, Bool.true_and]
  · rw [decide_eq_false hk, Bool.false_and, apply_ite (Nat.testBit · k), Nat.testBit_mod_two_pow, testBit_lane, decide_eq_false hk,
      Bool.false_and, Bool.false_and, ite_self]

end Sys2Proof.Laws
end

section
/-! PROOFS: lane operations on integers (07 R165, R173 to R175): exact, then wrapped or saturated (02 R39). -/

namespace Sys2Proof.Laws

open Machine Safety

variable {s t : State} {i : Instr} {d a b ty : BitVec 5} {m : BitVec 3} {p w : Nat} {v : Vec}

/-! ### The shape -/

/-- A vector register written whole has given values in the lanes that a mask selects, if those are the ones it was given. -/
theorem GivesV.givesLanes {sel : Nat → Bool} {f : Nat → Nat} (h : GivesV s t d v)
    (lanes : ∀ i, i < 512 / w → lane w v i = if sel i then f i else lane w (s.v d) i) : GivesLanes s t d w sel f := by
  obtain ⟨writes, next, slot, only⟩ := h
  refine ⟨fun i hi => ?_, fun r other => ?_, next, slot, only⟩
  · rw [writes d, if_pos rfl, lanes i hi]
  · rw [writes r, if_neg other]

theorem GivesV.givesLanes_mask {mask : Reg} {f : Nat → Nat} (h : GivesV s t d (maskLanes w mask (s.v d) f))
    (fits : ∀ i, f i < 2 ^ w) : GivesLanes s t d w mask.getLsbD f :=
  GivesV.givesLanes h fun i hi => by rw [lane_maskLanes hi, Nat.mod_eq_of_lt (fits i)]

/-- Lanes that are computed without a flag or a draw, and whose values fit. -/
theorem completes_overLanes {f : State → Nat → Fp → Nat × Fp} (g : Nat → Nat) (ok : legal i = true)
    (runs : exec i s = simple i (fun s => s.setVec d (overLanes w (s.p p) (s.v d) (f s) s.fp)) s)
    (exact : ∀ j fp, f s j fp = (g j, fp)) (fits : ∀ j, g j < 2 ^ w) : Completes i s (GivesLanes s · d w (s.p p).getLsbD g) := by
  have whole : overLanes w (s.p p) (s.v d) (f s) s.fp = (maskLanes w (s.p p) (s.v d) g, s.fp) := by
    have each : f s = fun j fp => (g j, fp) := funext fun j => funext (exact j)
    rw [each, overLanes_exact]
  have h := completes_setVec_exact (d := d) _ ok runs (by rw [whole])
  rw [whole] at h
  exact completes_mono h fun t ht => GivesV.givesLanes_mask ht fits

/-- A lane operation without a flag or a draw. -/
theorem completes_laneOp {f : Nat → Nat → Nat → Fp → Nat × Fp} (g : Nat → Nat → Nat → Nat) (ok : legal i = true)
    (runs : exec i s = laneOp i d a b p w f s) (exact : ∀ x y z fp, f x y z fp = (g x y z, fp))
    (fits : ∀ x y z, x < 2 ^ w → y < 2 ^ w → g x y z < 2 ^ w) : Completes i s (GivesLanes s · d w (s.p p).getLsbD
      fun j => g (lane w (s.v a) j) (lane w (s.v b) j) (lane w (s.v d) j)) :=
  completes_overLanes _ ok runs (fun _ fp => exact _ _ _ fp) fun _ => fits _ _ _ (lane_lt ..) (lane_lt ..)

/-! ### Integers in their lanes -/

theorem wrapInt_lt (w : Nat) (x : Int) : wrapInt w x < 2 ^ w := by
  have pos : (0 : Int) < 2 ^ w := by positivity
  have below := Int.emod_lt_of_pos x pos
  have least := Int.emod_nonneg x pos.ne'
  unfold wrapInt
  zify
  omega

theorem fitInt_lt (sat : Bool) (ty : BitVec 5) (x : Int) : fitInt sat ty x < 2 ^ typeWidth ty := by
  unfold fitInt satInt
  split <;> exact wrapInt_lt ..

/-- An exact value as an integer lane holds it: its low bits, or under .sat the nearest value of the type (02 R39). -/
def fitted (ty : BitVec 5) (m : BitVec 3) (v : Int) : Nat :=
  let w := typeWidth ty
  if m = 0 then (v % 2 ^ w).toNat
  else ((max (if isSigned ty then -2 ^ (w - 1) else 0)
    (min (if isSigned ty then 2 ^ (w - 1) - 1 else 2 ^ w - 1) v)) % 2 ^ w).toNat

theorem fitInt_eq (hm : m ≤ 1) (ty : BitVec 5) (v : Int) : fitInt (m = 1) ty v = fitted ty m v := by
  have rounding : m = 0 ∨ m = 1 := by bv_omega
  rcases rounding with rfl | rfl <;> rfl

theorem isFloat_of_int (h : ty ≤ 7) : isFloat ty = false := by decide +revert

theorem okArith_of_int (h : ty ≤ 7) (hm : m ≤ 1) : okArith ty m = true := by decide +revert

theorem okAbsNeg_of_int (h : ty ≤ 7) (hm : m ≤ 1) (signed : isSigned ty = true) : okAbsNeg ty m = true := by decide +revert

/-- Arithmetic on integer lanes: an exact value, fitted to its lane. -/
theorem completes_arith {f : Nat → Nat → Nat → Fp → Nat × Fp} (op : Int → Int → Int → Int) (hm : m ≤ 1) (ok : legal i = true)
    (runs : exec i s = laneOp i d a b p (typeWidth ty) f s)
    (exact : ∀ x y z fp, f x y z fp = (fitInt (m = 1) ty (op (laneInt ty x) (laneInt ty y) (laneInt ty z)), fp)) :
    let value (v : Vec) (j : Nat) : Int := laneInt ty (lane (typeWidth ty) v j)
    Completes i s (GivesLanes s · d (typeWidth ty) (s.p p).getLsbD
      fun j => fitted ty m (op (value (s.v a) j) (value (s.v b) j) (value (s.v d) j))) := by
  simp only [fitInt_eq hm] at exact
  exact completes_laneOp (fun x y z => fitted ty m (op (laneInt ty x) (laneInt ty y) (laneInt ty z))) ok runs exact
    fun x y z _ _ => (fitInt_eq hm ..).symm.trans_lt (fitInt_lt ..)

/-- Settles O5: a lane operation on integers gives each selected lane an exact value (`completes_laneOp`), fitted to the lane where
that is arithmetic (`completes_arith`). -/
theorem vectorIntegerOps : Obligations.VectorIntegerOps := by
  unfold Obligations.VectorIntegerOps
  refine ⟨fun s d a b p ty m hty hm => ?_, fun s d a b p ty hty => ?_, fun s d a b p ty hty => ?_⟩
  · have int : ¬ isFloat ty = true := by simp [isFloat_of_int hty]
    have ok := okArith_of_int hty hm
    have okSign := okAbsNeg_of_int hty hm
    exact ⟨completes_arith (fun x y _ => x + y) hm ok (rfl : _ = execVadd d a b p ty m s) fun _ _ _ _ => if_neg int,
      completes_arith (fun x y _ => x - y) hm ok (rfl : _ = execVsub d a b p ty m s) fun _ _ _ _ => if_neg int,
      completes_arith (fun x y _ => x * y) hm ok (rfl : _ = execVmul d a b p ty m s) fun _ _ _ _ => if_neg int,
      completes_arith (fun x y z => x * y + z) hm ok (rfl : _ = execVfma d a b p ty m s) fun _ _ _ _ => if_neg int,
      completes_arith (fun x y z => x * y - z) hm ok (rfl : _ = execVfms d a b p ty m s) fun _ _ _ _ => if_neg int,
      fun signed => completes_arith (fun x _ _ => x.natAbs) hm (okSign signed) (rfl : _ = execVabs d a p ty m s)
        fun _ _ _ _ => by rw [if_neg int],
      fun signed => completes_arith (fun x _ _ => -x) hm (okSign signed) (rfl : _ = execVneg d a p ty m s)
        fun _ _ _ _ => by rw [if_neg int]⟩
  · have int : ¬ isFloat ty = true := by simp [isFloat_of_int hty]
    have ok : decide (ty ≤ 11) = true := by decide +revert
    have okShift : decide (ty ≤ 7) = true := decide_eq_true hty
    exact ⟨completes_laneOp (fun x y _ => if laneInt ty x ≤ laneInt ty y then x else y) ok (rfl : _ = execVmin d a b p ty s)
        (fun _ _ _ _ => if_neg int) fun _ _ _ hx hy => by split <;> assumption,
      completes_laneOp (fun x y _ => if laneInt ty x ≤ laneInt ty y then y else x) ok (rfl : _ = execVmax d a b p ty s)
        (fun _ _ _ _ => if_neg int) fun _ _ _ hx hy => by split <;> assumption,
      completes_laneOp (fun x y _ => x * 2 ^ (y % typeWidth ty) % 2 ^ typeWidth ty) okShift (rfl : _ = execVshl d a b p ty s)
        (fun _ _ _ _ => rfl) fun _ _ _ _ _ => Nat.mod_lt _ (Nat.two_pow_pos _),
      completes_laneOp (fun x y _ => x / 2 ^ (y % typeWidth ty)) okShift (rfl : _ = execVshr d a b p ty s)
        (fun _ _ _ _ => rfl) fun _ _ _ hx _ => (Nat.div_le_self ..).trans_lt hx,
      completes_laneOp (fun x y _ => wrapInt (typeWidth ty) (intOf true (typeWidth ty) x / 2 ^ (y % typeWidth ty))) okShift
        (rfl : _ = execVsha d a b p ty s) (fun _ _ _ _ => rfl) fun _ _ _ _ _ => wrapInt_lt ..⟩
  · have ok : decide (ty ≤ 13) = true := decide_eq_true hty
    exact ⟨completes_laneOp (fun x y _ => x &&& y) ok (rfl : _ = execVand d a b p ty s) (fun _ _ _ _ => rfl)
        fun _ _ _ _ hy => Nat.and_lt_two_pow _ hy,
      completes_laneOp (fun x y _ => x ||| y) ok (rfl : _ = execVor d a b p ty s) (fun _ _ _ _ => rfl)
        fun _ _ _ hx hy => Nat.or_lt_two_pow hx hy,
      completes_laneOp (fun x y _ => x ^^^ y) ok (rfl : _ = execVxor d a b p ty s) (fun _ _ _ _ => rfl)
        fun _ _ _ hx hy => Nat.xor_lt_two_pow hx hy⟩

end Sys2Proof.Laws
end

section
/-! PROOFS: lane operations on floating types (07 R165, R173 to R175): rounded lane by lane, in ascending order. -/

namespace Sys2Proof.Laws

open Machine Safety

variable {s : State} {i : Instr} {d a b ty : BitVec 5} {m : BitVec 3} {p w : Nat}

/-- A lane operation with flags and draws, each lane's from those of the lane below. -/
theorem completes_laneOp_rounds {f : Nat → Nat → Nat → Fp → Nat × Fp} (g : Nat → Nat → Nat → Fp → Nat × Fp) (ok : legal i = true)
    (runs : exec i s = laneOp i d a b p w f s) (same : ∀ x y z fp, f x y z fp = g x y z fp) :
    let v := overLanes w (s.p p) (s.v d) (fun j => g (lane w (s.v a) j) (lane w (s.v b) j) (lane w (s.v d) j)) s.fp
    Completes i s (GivesFpV s · d v.1 v.2) := by
  have h := completes_setVec (d := d) _ ok runs
  simp only [same] at h
  exact h

/-! ### Types -/

theorem isFloat_of_lane (h : 8 ≤ ty) (h' : ty ≤ 11) : isFloat ty = true := by decide +revert

theorem okArith_of_float (h : 8 ≤ ty) (h' : ty ≤ 11) (hm : m ≤ 5) : okArith ty m = true := by decide +revert

theorem okUnary_of_float (h : 8 ≤ ty) (hm : m ≤ 5) (h' : ty ≤ 10) : okUnary ty m = true := by decide +revert

theorem okAbsNeg_of_float (h : 8 ≤ ty) (h' : ty ≤ 11) : okAbsNeg ty 0 = true := by decide +revert

/-- The sign is the top bit of a lane. -/
theorem signBit_of_lane (h : 8 ≤ ty) (h' : ty ≤ 11) : signBit ty = 2 ^ (typeWidth ty - 1) := by
  have top : expBits ty + fracBits ty = typeWidth ty - 1 := by decide +revert
  rw [signBit, top]

theorem topBit_lt (h : 8 ≤ ty) (h' : ty ≤ 11) : 2 ^ (typeWidth ty - 1) < 2 ^ typeWidth ty := by
  have some : 0 < typeWidth ty := by decide +revert
  exact Nat.pow_lt_pow_right (by decide) (by omega)

/-- Settles O6 (log 12): each operation computes its lanes in ascending order (`completes_laneOp_rounds`); VABS and VNEG raise and
draw nothing (`completes_laneOp`). -/
theorem vectorFloatLanes : Obligations.VectorFloatLanes := by
  unfold Obligations.VectorFloatLanes
  intro s d a b p q ty m low high rounds
  have float := isFloat_of_lane low high
  have ok := okArith_of_float low high rounds
  have okSign := okAbsNeg_of_float low high
  have okPick : decide (ty ≤ 11) = true := decide_eq_true high
  have sign := signBit_of_lane low high
  have below := topBit_lt low high
  exact ⟨completes_laneOp_rounds (fun x y _ => fadd ty m x y) ok (rfl : _ = execVadd d a b p ty m s) fun _ _ _ _ => if_pos float,
    completes_laneOp_rounds (fun x y _ => fsub ty m x y) ok (rfl : _ = execVsub d a b p ty m s) fun _ _ _ _ => if_pos float,
    completes_laneOp_rounds (fun x y _ => fmul ty m x y) ok (rfl : _ = execVmul d a b p ty m s) fun _ _ _ _ => if_pos float,
    completes_laneOp_rounds (fun x y z => ffma ty m false x y z) ok (rfl : _ = execVfma d a b p ty m s)
      fun _ _ _ _ => if_pos float,
    completes_laneOp_rounds (fun x y z => ffma ty m true x y z) ok (rfl : _ = execVfms d a b p ty m s)
      fun _ _ _ _ => if_pos float,
    fun narrow => completes_laneOp_rounds (fun x _ _ => funary 0 ty m x) (okUnary_of_float low rounds narrow)
      (rfl : _ = execVrcp d a p ty m s) fun _ _ _ _ => rfl,
    fun narrow => completes_laneOp_rounds (fun x _ _ => funary 1 ty m x) (okUnary_of_float low rounds narrow)
      (rfl : _ = execVrsq d a p ty m s) fun _ _ _ _ => rfl,
    fun narrow => completes_laneOp_rounds (fun x _ _ => funary 2 ty m x) (okUnary_of_float low rounds narrow)
      (rfl : _ = execVexp2 d a p ty m s) fun _ _ _ _ => rfl,
    fun narrow => completes_laneOp_rounds (fun x _ _ => funary 3 ty m x) (okUnary_of_float low rounds narrow)
      (rfl : _ = execVlog2 d a p ty m s) fun _ _ _ _ => rfl,
    completes_laneOp (fun x _ _ => x % 2 ^ (typeWidth ty - 1)) okSign (rfl : _ = execVabs d a p ty 0 s)
      (fun _ _ _ _ => by rw [if_pos float, sign]) fun _ _ _ hx _ => (Nat.mod_le ..).trans_lt hx,
    completes_laneOp (fun x _ _ => x ^^^ 2 ^ (typeWidth ty - 1)) okSign (rfl : _ = execVneg d a p ty 0 s)
      (fun _ _ _ _ => by rw [if_pos float, sign]) fun _ _ _ hx _ => Nat.xor_lt_two_pow hx below,
    completes_laneOp_rounds (fun x y _ => fminmax ty false x y) okPick (rfl : _ = execVmin d a b q ty s)
      fun _ _ _ _ => if_pos float,
    completes_laneOp_rounds (fun x y _ => fminmax ty true x y) okPick (rfl : _ = execVmax d a b q ty s)
      fun _ _ _ _ => if_pos float⟩

end Sys2Proof.Laws
end

section
/-! PROOFS: lanes moved, converted, compared and looked up, and the mask instructions (07 R176 to R181, R184). -/

namespace Sys2Proof.Laws

open Machine Safety

variable {s t : State} {i : Instr} {d a ty : BitVec 5} {q w : Nat} {v : Vec} {r : Fp}

/-! ### The shapes -/

/-- An instruction that writes lanes of a vector register. -/
theorem completes_lanes {sel : Nat → Bool} {g : Nat → Nat} (f : State → Vec) (ok : legal i = true)
    (runs : exec i s = simple i (fun s => s.setV d (f s)) s)
    (lanes : ∀ j, j < 512 / w → lane w (f s) j = if sel j then g j else lane w (s.v d) j) :
    Completes i s (GivesLanes s · d w sel g) :=
  completes_mono (completes_setV f ok runs) fun _ h => GivesV.givesLanes h lanes

/-- One that writes n of them, all that there are. -/
theorem completes_all_lanes {g : Nat → Nat} {n : Nat} (f : State → Nat → Nat) (ok : legal i = true)
    (runs : exec i s = simple i (fun s => s.setV d (ofLanes w ((List.range n).map (f s)))) s) (all : 512 / w = n)
    (value : ∀ j, f s j % 2 ^ w = g j) : Completes i s (GivesLanes s · d w (fun _ => true) g) :=
  completes_lanes (fun s => ofLanes w ((List.range n).map (f s))) ok runs fun j hj => by
    rw [lane_ofLanes_map hj _ (all ▸ hj), value, if_pos rfl]

/-- An instruction that writes a mask register and raises flags, without a draw from the LFSR. -/
theorem completes_setP_raises (f : State → Reg) (r : State → Fp) (ok : legal i = true)
    (runs : exec i s = simple i (fun s => (s.settle (r s)).setP q (f s)) s) (same : (r s).lfsr = s.here.lfsr) :
    Completes i s (fun t => WritesP s t q (f s) ∧ t.me.fstat = s.me.fstat ||| (r s).flags
      ∧ { t.me with p := [], pc := 0, fstat := 0 } = { s.me with p := [], pc := 0, fstat := 0 } ∧ Advanced s t ∧ OnlyMe s t) := by
  have h := ((settle_raises_only same).setP q (f s)).adv (Slot.setP_pc ..)
  have kept := but_p_setP { s.me with fstat := s.me.fstat ||| (r s).flags } q (f s)
  refine ⟨_, runs.trans (simple_legal ok), fun k => ?_, ?_, ?_, ?_, h.onlyMe⟩
  · unfold State.p
    rw [h.me]
    exact Slot.pReg_setP { s.me with fstat := s.me.fstat ||| (r s).flags } q k (f s)
  · rw [h.me]
    exact Slot.setP_fstat ..
  · rw [h.me]
    exact congrArg (fun y : Slot => { y with pc := 0, fstat := 0 }) kept
  · rw [Advanced, State.base, h.me]

/-! ### Comparison (07 R176) -/

/-- Flags raised in turn are raised together. -/
theorem eachLane_raises {α : Type} (g : Nat → α) (c : Nat → Bool) (f : BitVec 5) (is : List Nat) (fp : Fp) :
    eachLane (fun i fp => (g i, fp.raiseIf (c i) f)) is fp = (is.map g, fp.raiseIf (is.any c) f) := by
  induction is generalizing fp with
  | nil => rfl
  | cons i is ih =>
    have twice : (fp.raiseIf (c i) f).raiseIf (is.any c) f = fp.raiseIf (c i || is.any c) f := by
      cases c i <;> cases is.any c <;> simp [Fp.raiseIf, Fp.raise, BitVec.or_assoc]
    simp only [eachLane, ih, List.map_cons, List.any_cons, twice]

theorem testBit_foldr_bits (bs : List Bool) (j : Nat) :
    (bs.foldr (fun (b : Bool) (acc : Nat) => b.toNat + 2 * acc) 0).testBit j = bs.getD j false := by
  induction bs generalizing j with
  | nil => simp
  | cons b bs ih =>
    rw [List.foldr_cons, Nat.add_comm, ← Nat.bit_val]
    cases j with
    | zero => rw [Nat.testBit_bit_zero, List.getD_cons_zero]
    | succ j => rw [Nat.testBit_bit_succ, ih, List.getD_cons_succ]

/-- The mask whose low n bits are given. -/
def maskOf (n : Nat) (g : Nat → Bool) : Reg := BitVec.ofNat 64 (((List.range n).map g).foldr (fun b acc => b.toNat + 2 * acc) 0)

theorem getLsbD_maskOf {n j : Nat} (g : Nat → Bool) (h : j < 64) : (maskOf n g).getLsbD j = (decide (j < n) && g j) := by
  rw [maskOf, BitVec.getLsbD_ofNat, decide_eq_true h, Bool.true_and, testBit_foldr_bits]
  by_cases hj : j < n <;> simp [List.getD_eq_getElem?_getD, hj]

section

variable (q : BitVec 3) (e c : BitVec 2) (a b : BitVec 5) (p : BitVec 3) (ty : BitVec 5) (s : State)

/-- How two lanes compare: whether the condition holds, and whether NV is raised. -/
def compared (i : Nat) : Bool × Bool :=
  fcond (c.toNat * 4 + e.toNat) (val ty (lane (typeWidth ty) (s.v a) i)) (val ty (lane (typeWidth ty) (s.v b) i))

/-- The bit that VCMP writes for a lane, and whether that lane raises NV. -/
def comparedBit (i : Nat) : Bool := if (s.p p.toNat).getLsbD i then (compared e c a b ty s i).1 else (s.p q.toNat).getLsbD i
def comparedNv (i : Nat) : Bool := (s.p p.toNat).getLsbD i && (compared e c a b ty s i).2

theorem eachLane_compared : eachLane (fun i fp => if active (s.p p.toNat) i then
      ((compared e c a b ty s i).1, fp.raiseIf (compared e c a b ty s i).2 flagNV)
    else ((s.p q.toNat).getLsbD i, fp)) (List.range (512 / typeWidth ty)) s.fp
    = ((List.range (512 / typeWidth ty)).map (comparedBit q e c a b p ty s),
      s.fp.raiseIf ((List.range (512 / typeWidth ty)).any (comparedNv e c a b p ty s)) flagNV) := by
  rw [← eachLane_raises]
  congr 1
  funext i fp
  unfold active comparedBit comparedNv
  cases (s.p p.toNat).getLsbD i <;> rfl

theorem exec_vcmp : exec (.vcmp q e a b p ty c) s = simple (.vcmp q e a b p ty c) (fun s =>
    (s.settle (s.fp.raiseIf ((List.range (512 / typeWidth ty)).any (comparedNv e c a b p ty s)) flagNV)).setP q.toNat
      (maskOf (512 / typeWidth ty) (comparedBit q e c a b p ty s))) s := by
  refine (rfl : _ = execVcmp q e a b p ty c s).trans (congrArg (simple (.vcmp q e a b p ty c) · s) (funext fun s => ?_))
  exact congrArg (fun r : List Bool × Fp => (s.settle r.2).setP q.toNat
    (BitVec.ofNat 64 (r.1.foldr (fun b acc => b.toNat + 2 * acc) 0))) (eachLane_compared q e c a b p ty s)

end

/-! ### The LUT (07 R181) -/

/-- The package with another LUT in the running core. -/
def withLut (s : State) (lut : BitVec 128) : State := s.setHere { s.here with lut := lut }

theorem slotAt_withLut (s : State) (lut : BitVec 128) (c k : Nat) : (withLut s lut).slotAt c k = s.slotAt c k := by
  rw [withLut, State.setHere, slotAt_setCore_of_slots]
  rfl

theorem core_withLut (s : State) (lut : BitVec 128) (c : Nat) :
    (withLut s lut).core c = if s.cur.core = c then { s.here with lut := lut } else s.core c := core_setCore ..

theorem withLut_adv (s : State) (lut : BitVec 128) : let t := (withLut s lut).adv
    t.here.lut = lut ∧ Advanced s t ∧ SameSlotButPc s t ∧ SamePackage s t ∧ SameBytes s t ∧ OtherSlots s t
      ∧ ∀ c, { t.core c with slots := [], lut := 0 } = { s.core c with slots := [], lut := 0 } := by
  have kept : SameMe s (withLut s lut) := sameMe_of_slots rfl (slotAt_withLut s lut)
  obtain ⟨next, slot, ⟨package, bytes, cores, slots⟩⟩ := adv_of_sameMe kept
  have outside : SamePackage s (withLut s lut) := rfl
  refine ⟨?_, next, slot, package.trans outside, fun p => bytes p, fun c k other => ?_, fun c => ?_⟩
  · rw [State.here, cur_of_samePackage package]
    refine (core_of_sameCore (cores _) Core.lut fun _ => rfl).trans ?_
    rw [core_withLut]
    exact congrArg Core.lut (if_pos rfl)
  · exact (slots c k other).trans (slotAt_withLut s lut c k)
  · refine (core_of_sameCore (cores c) (fun x => { x with slots := [], lut := 0 }) fun _ => rfl).trans ?_
    rw [core_withLut]
    split
    next here => subst here; rfl
    next => rfl

/-! ### Moves and conversions -/

theorem convReg'_eq (ty : BitVec 5) (w : Nat) (x : Vec) (k : Nat) : execVmovg.convReg' ty w (lane w x k)
    = if isInt ty && isSigned ty then BitVec.ofInt 64 (intOf true w (lane w x k)) else BitVec.ofNat 64 (lane w x k) := by
  rw [execVmovg.convReg', zext64, lane_mod]
  rfl

/-- The types of VPACK and VUNPK have two halves of equally many elements. -/
theorem halves_of_pack (h : ty ≤ 5 ∨ ty = 16 ∨ ty = 17) : okPack ty = true ∧ 512 / typeWidth ty = 2 * (256 / typeWidth ty)
    ∧ 512 / (2 * typeWidth ty) = 256 / typeWidth ty := by decide +revert

/-- What a vector register holds once it has been written. -/
theorem GivesFpV.value (h : GivesFpV s t d v r) : t.v d = v := by
  obtain ⟨writes, -⟩ := h
  rw [writes d, if_pos rfl]

theorem typeWidth_pos (h : ty ≤ 13) : 0 < typeWidth ty := by decide +revert

section

variable (d a ty : BitVec 5) (p : BitVec 2) (src : BitVec 5) (m : BitVec 3) (s : State)

/-- The elements that VCVT writes, with the flags that they raise and what they draw. -/
def converted : List Nat × Fp := eachLane (fun i fp =>
  if (s.p p.toNat).getLsbD i then cvtElem src ty m (lane (typeWidth src) (s.v a) i) fp else (lane (typeWidth ty) (s.v d) i, fp))
  (List.range (512 / max (typeWidth src) (typeWidth ty))) s.fp

theorem length_converted : (converted d a ty p src m s).1.length = 512 / max (typeWidth src) (typeWidth ty) := by
  rw [converted, length_eachLane, List.length_range]

end

theorem le_of_vcvt {src : BitVec 5} {p : BitVec 2} {m : BitVec 3} (ok : legal (.vcvt d a ty p src m) = true) : ty ≤ 13 := by
  simp only [legal, Bool.and_eq_true, decide_eq_true_eq] at ok
  obtain ⟨⟨-, h⟩, -⟩ := ok
  exact h

/-- Settles O7 (log 10, 85): lanes are moved by writes of lanes (`completes_lanes`), VCMP writes a mask (`exec_vcmp`), VCVT writes its
elements and zeros above them, and the mask instructions write a mask register (`completes_setP`). -/
theorem vectorMovesAndMasks : Obligations.VectorMovesAndMasks := by
  unfold Obligations.VectorMovesAndMasks
  refine ⟨fun s d a b h p ty => ⟨fun hty => ?_, fun packs => ?_, fun half => ?_, ?_⟩, fun s q e c a b p ty listed => ?_,
    fun s d a ty p src m ok => ?_, fun s d a b g hd ha hb => ?_⟩
  · have ok : decide (ty ≤ 13) = true := decide_eq_true hty
    refine ⟨completes_lanes _ ok (rfl : _ = execVsel d a b p ty s) fun i hi => ?_,
      completes_lanes _ ok (rfl : _ = execVperm d a b p ty s) fun i hi => ?_,
      completes_lanes _ ok (rfl : _ = execVbcast d a p ty s) fun i hi => lane_maskLanes hi .., ?_⟩
    · rw [lane_maskLanes hi, lane_mod, if_pos rfl]
    · rw [lane_maskLanes hi, lane_mod]
      rfl
    · have h := completes_setG (i := .vmovg d a b ty) (d := d) _ ok (rfl : _ = execVmovg d a b ty s)
      rw [convReg'_eq] at h
      exact h
  · obtain ⟨ok, all, half⟩ := halves_of_pack packs
    refine ⟨completes_all_lanes _ ok (rfl : _ = execVpack d a b ty s) all fun i => apply_ite (· % 2 ^ typeWidth ty) ..,
      fun listed => completes_all_lanes _ ?_ (rfl : _ = execVunpk d a h ty s) half fun i => Nat.mod_eq_of_lt (wrapInt_lt ..)⟩
    exact Bool.and_eq_true_iff.mpr ⟨ok, decide_eq_true listed⟩
  · exact completes_all_lanes _ (decide_eq_true half) (rfl : _ = execVlut d a h s) rfl fun i => Nat.mod_eq_of_lt (BitVec.isLt _)
  · exact ⟨_, rfl, withLut_adv s _⟩
  · have compares := completes_setP_raises (i := .vcmp q e a b p ty c) _ _ listed (exec_vcmp q e c a b p ty s) (by rw [raiseIf_fp]; rfl)
    refine completes_mono compares fun t ht => ?_
    obtain ⟨writes, flags, slot, next, only⟩ := ht
    rw [raiseIf_fp] at flags
    refine ⟨fun some i hi => ?_, fun r other => ?_, flags, slot, next, only⟩
    · have nonzero : q.toNat ≠ 0 := fun zero => some (BitVec.eq_of_toNat_eq zero)
      rw [writes, if_pos ⟨rfl, nonzero⟩]
      exact getLsbD_maskOf _ hi
    · rw [writes, if_neg fun h => other h.1]
  · have wide := typeWidth_pos (le_of_vcvt ok)
    have within : 512 / max (typeWidth src) (typeWidth ty) ≤ 512 / typeWidth ty := Nat.div_le_div_left (le_max_right ..) wide
    have converts := completes_setVec (s := s) (d := d)
      (fun s => (ofLanes (typeWidth ty) (converted d a ty p src m s).1, (converted d a ty p src m s).2)) ok rfl
    refine completes_mono converts fun t ht => ?_
    have value := GivesFpV.value ht
    rw [← value] at ht
    refine ⟨ht, fun i hi => ?_, fun i above hi => ?_⟩
    · rw [value]
      exact lane_ofLanes (hi.trans_le within) _
    · rw [value, lane_ofLanes hi, List.getD_eq_default _ _ (by rwa [length_converted]), Nat.zero_mod]
  · have okNot : (decide (d < 8) && decide (a < 8)) = true := Bool.and_eq_true_iff.mpr ⟨decide_eq_true hd, decide_eq_true ha⟩
    have ok : (decide (d < 8) && decide (a < 8) && decide (b < 8)) = true := Bool.and_eq_true_iff.mpr ⟨okNot, decide_eq_true hb⟩
    exact ⟨completes_setP (fun s => s.p a.toNat &&& s.p b.toNat) ok rfl, completes_setP (fun s => s.p a.toNat ||| s.p b.toNat) ok rfl,
      completes_setP (fun s => s.p a.toNat ^^^ s.p b.toNat) ok rfl, completes_setP (fun s => ~~~s.p a.toNat) okNot rfl,
      completes_setG (fun s => BitVec.ofNat 64 ((List.range 64).countP fun i => (s.p a.toNat).getLsbD i)) (decide_eq_true ha) rfl⟩

end Sys2Proof.Laws
end

section
/-! PROOFS: reductions, scans and dot products (07 R182, R183; 02 R59, R60). -/

namespace Sys2Proof.Laws

open Machine Safety

variable {s t : State} {d a b ty : BitVec 5} {o : BitVec 4} {p : BitVec 2} {m : BitVec 3} {w : Nat}

/-! ### VRED (07 R183) -/

theorem lane_single_above (x : Nat) {i : Nat} (some : 1 ≤ i) (h : i < 512 / w) : lane w (ofLanes w [x]) i = 0 := by
  rw [lane_ofLanes h, List.getD_eq_default _ _ some, Nat.zero_mod]

section

variable (d a : BitVec 5) (o : BitVec 4) (p : BitVec 2) (ty : BitVec 5) (m : BitVec 3) (s : State)

/-- The result of VRED on a floating type, with its flags and draws, and on an integer type. -/
def redFloat : Nat × Fp :=
  let xs := redLoad o ty (s.p p.toNat) (s.v a) s.fp
  let r := treeOf (redNode o ty) (redUnit o ty) 7 xs.1 xs.2
  redOut o ty m r.1 r.2
def redInteger : Nat :=
  redIntOut o ty m (treeOf (redIntNode o) (redIntUnit o ty) 7 (redIntLoad o ty (s.p p.toNat) (s.v a)) s.fp).1

theorem exec_vred_float (float : isFloat ty = true) : exec (.vred d a o p ty m) s = simple (.vred d a o p ty m)
    (fun s => s.setVec d (ofLanes (typeWidth ty) [(redFloat a o p ty m s).1], (redFloat a o p ty m s).2)) s :=
  (rfl : _ = execVred d a o p ty m s).trans (congrArg (simple (.vred d a o p ty m) · s) (funext fun _ => if_pos float))

theorem exec_vred_int (int : ¬ isFloat ty = true) : exec (.vred d a o p ty m) s = simple (.vred d a o p ty m)
    (fun s => s.setV d (ofLanes (typeWidth ty) [redInteger a o p ty m s])) s :=
  (rfl : _ = execVred d a o p ty m s).trans (congrArg (simple (.vred d a o p ty m) · s) (funext fun _ => if_neg int))

/-! ### VSCAN (07 R183) -/

/-- What the nodes of VSCAN come to on a floating type, and on an integer type (02 R59). -/
def scanFloat : List Nat × Fp :=
  let xs := redLoad o ty (s.p p.toNat) (s.v a) s.fp
  scanLevels (redNode o ty) (redUnit o ty) [1, 2, 4, 8, 16, 32] xs.1 xs.2
def scanInteger : List Int :=
  (scanLevels (redIntNode o) (redIntUnit o ty) [1, 2, 4, 8, 16, 32] (redIntLoad o ty (s.p p.toNat) (s.v a)) s.fp).1

theorem exec_vscan_float (float : isFloat ty = true) : exec (.vscan d a o p ty m) s = simple (.vscan d a o p ty m)
    (fun s => s.setVec d (overLanes (typeWidth ty) (s.p p.toNat) (s.v d)
      (fun n => redOut o ty m ((scanFloat a o p ty s).1.getD n 0)) (scanFloat a o p ty s).2)) s :=
  (rfl : _ = execVscan d a o p ty m s).trans (congrArg (simple (.vscan d a o p ty m) · s) (funext fun _ => if_pos float))

theorem exec_vscan_int (int : ¬ isFloat ty = true) : exec (.vscan d a o p ty m) s = simple (.vscan d a o p ty m)
    (fun s => s.setV d (maskLanes (typeWidth ty) (s.p p.toNat) (s.v d)
      (fun n => redIntOut o ty m ((scanInteger a o p ty s).getD n 0)))) s :=
  (rfl : _ = execVscan d a o p ty m s).trans (congrArg (simple (.vscan d a o p ty m) · s) (funext fun _ => if_neg int))

end

theorem redIntOut_lt (o : BitVec 4) (ty : BitVec 5) (m : BitVec 3) (x : Int) : redIntOut o ty m x < 2 ^ typeWidth ty := by
  unfold redIntOut
  split
  · exact fitInt_lt ..
  · exact wrapInt_lt ..

/-- A scan of integers, in the lanes that the mask selects. -/
theorem completes_vscan_int (ok : okReduce o ty m = true) (int : ¬ isFloat ty = true) : Completes (.vscan d a o p ty m) s
    (GivesLanes s · d (typeWidth ty) (s.p p.toNat).getLsbD fun n => redIntOut o ty m ((scanInteger a o p ty s).getD n 0)) :=
  completes_mono (completes_setV _ ok (exec_vscan_int d a o p ty m s int)) fun _ h =>
    GivesV.givesLanes_mask h fun _ => redIntOut_lt ..

/-! ### Scans of integers are sums (02 R59) -/

/-- The sum of the d values that end at n, or of all up to n where there are fewer. -/
def windowSum (x : Nat → Int) (d n : Nat) : Int := ∑ j ∈ Finset.Ico (n + 1 - d) (n + 1), x j

/-- Two adjacent windows are one of twice the width. -/
theorem windowSum_double (x : Nat → Int) (d n : Nat) :
    (if n < d then windowSum x d n else windowSum x d (n - d) + windowSum x d n) = windowSum x (2 * d) n := by
  unfold windowSum
  split
  next first => rw [show n + 1 - d = n + 1 - 2 * d by omega]
  next past =>
    rw [show n - d + 1 - d = n + 1 - 2 * d by omega, show n - d + 1 = n + 1 - d by omega]
    exact Finset.sum_Ico_consecutive x (by omega) (by omega)

/-- A window that reaches back to the first value. -/
theorem windowSum_all (x : Nat → Int) {d n : Nat} (h : n < d) : windowSum x d n = ((List.range (n + 1)).map x).sum := by
  rw [windowSum, Nat.sub_eq_zero_of_le h, ← Finset.range_eq_Ico]
  rfl

theorem scanLevel_exact (f : Int → Int → Int) (e : Int) (xs : List Int) (d : Nat) (fp : Fp) :
    scanLevel (fun x y fp => (f x y, fp)) e xs d fp
      = ((List.range xs.length).map (fun n => if n < d then xs.getD n e else f (xs.getD (n - d) e) (xs.getD n e)), fp) := by
  rw [scanLevel, ← eachLane_exact]
  congr 1
  funext n fp
  exact (apply_ite (·, fp) ..).symm

/-- Levels that double the distance, down a list whose values are sums of windows, end in the sums of all values up to each. -/
theorem scanLevels_sum (x : Nat → Int) (k d : Nat) (xs : List Int) (fp : Fp) (windows : ∀ n < xs.length, xs.getD n 0 = windowSum x d n)
    (enough : xs.length ≤ d * 2 ^ k) {n : Nat} (hn : n < xs.length) :
    (scanLevels (fun x y fp => (x + y, fp)) 0 (List.iterate (2 * ·) d k) xs fp).1.getD n 0 = ((List.range (n + 1)).map x).sum := by
  induction k generalizing d xs fp with
  | zero => exact (windows n hn).trans (windowSum_all x (by omega))
  | succ k ih =>
    rw [List.iterate, scanLevels]
    split
    next more =>
      simp only [scanLevel_exact]
      refine ih _ _ _ (fun i hi => ?_) ?_ ?_
      · have hi' : i < xs.length := by simpa using hi
        rw [← windowSum_double, ← windows i hi', ← windows (i - d) (by omega)]
        simp [List.getD_eq_getElem?_getD, hi']
      · rw [List.length_map, List.length_range, Nat.mul_comm 2, Nat.mul_assoc, ← Nat.pow_succ']
        exact enough
      · rwa [List.length_map, List.length_range]
    next few => exact (windows n hn).trans (windowSum_all x (by omega))

/-- The lanes of a source that a mask selects, and 0 for the others. -/
def selected (s : State) (a : BitVec 5) (p : BitVec 2) (ty : BitVec 5) (i : Nat) : Int :=
  if (s.p p.toNat).getLsbD i then laneInt ty (lane (typeWidth ty) (s.v a) i) else 0

theorem lanes_pos (h : ty ≤ 11) : 0 < 512 / typeWidth ty := by decide +revert

theorem lanes_le (h : ty ≤ 7) : 512 / typeWidth ty ≤ 1 * 2 ^ 6 := by decide +revert

theorem scanInteger_add (hty : ty ≤ 7) {n : Nat} (hn : n < 512 / typeWidth ty) :
    (scanInteger a 0 p ty s).getD n 0 = ((List.range (n + 1)).map (selected s a p ty)).sum := by
  have load : redIntLoad 0 ty (s.p p.toNat) (s.v a) = (List.range (512 / typeWidth ty)).map (selected s a p ty) := rfl
  have length : (redIntLoad 0 ty (s.p p.toNat) (s.v a)).length = 512 / typeWidth ty := by
    rw [load, List.length_map, List.length_range]
  refine scanLevels_sum (selected s a p ty) 6 1 (redIntLoad 0 ty (s.p p.toNat) (s.v a)) s.fp (fun i hi => ?_) ?_ ?_
  · rw [length] at hi
    rw [load]
    simp [windowSum, List.getD_eq_getElem?_getD, hi]
  · rw [length]
    exact lanes_le hty
  · rwa [length]

/-! ### VDOT (07 R182) -/

/-- The exact value of a lane of VDOT on an integer type. -/
def dotSum (s : State) (d a b ty : BitVec 5) (j : Nat) : Int :=
  intOf true 32 (lane 32 (s.v d) j) + ((List.range (32 / typeWidth ty)).map (fun i =>
    dotElem s.here.lut ty (lane (typeWidth ty) (s.v a) (32 / typeWidth ty * j + i))
      * dotElem s.here.lut ty (lane (typeWidth ty) (s.v b) (32 / typeWidth ty * j + i)))).sum

/-- Such a value as the lane holds it. -/
def dotFit (m : BitVec 3) (x : Int) : Nat := if m = 1 then satInt true 32 x else wrapInt 32 x

theorem dotFit_lt (m : BitVec 3) (x : Int) : dotFit m x < 2 ^ 32 := by
  unfold dotFit satInt
  split <;> exact wrapInt_lt ..

theorem dotLane_int (int : ¬ isFloat ty = true) (s : State) (d a b : BitVec 5) (m : BitVec 3) (j : Nat) (fp : Fp) :
    dotLane s.here.lut ty m (lane 32 (s.v d) j) ((List.range (32 / typeWidth ty)).map (fun i =>
        (lane (typeWidth ty) (s.v a) (32 / typeWidth ty * j + i), lane (typeWidth ty) (s.v b) (32 / typeWidth ty * j + i)))) fp
      = (dotFit m (dotSum s d a b ty j), fp) := by
  rw [dotLane, if_neg int, ← List.sum_eq_foldl, List.map_map]
  rfl

/-! ### Types -/

theorem isInt_eq (h : ty ≤ 11) : isInt ty = !isFloat ty := by decide +revert

theorem le_of_reduce (ok : okReduce o ty m = true) : ty ≤ 11 := by
  unfold okReduce at ok
  split at ok
  all_goals simp only [Bool.and_eq_true, decide_eq_true_eq] at ok
  next =>
    obtain ⟨listed, -⟩ := ok
    exact listed
  next =>
    obtain ⟨⟨-, int⟩, -⟩ := ok
    exact BitVec.le_trans int (show (7 : BitVec 5) ≤ 11 by decide)

theorem okReduce_add (h : ty ≤ 7) (hm : m ≤ 1) : okReduce 0 ty m = true := by decide +revert

theorem GivesLanes.congr {sel : Nat → Bool} {f g : Nat → Nat} (h : GivesLanes s t d w sel f) (same : ∀ i, i < 512 / w → f i = g i) :
    GivesLanes s t d w sel g := by
  obtain ⟨lanes, rest⟩ := h
  exact ⟨fun i hi => by rw [lanes i hi, same i hi], rest⟩

/-- Settles O8 (log 11, 87, 88): VRED and VSCAN by the type (`exec_vred_float` and the lemmas beside it), the scan of integers by
`scanLevels_sum`, and VDOT lane by lane (`dotLane_int`). -/
theorem vectorReductions : Obligations.VectorReductions := by
  unfold Obligations.VectorReductions
  refine ⟨fun s d a o p ty m ok => ?_, fun s d a p ty m hty hm => ?_, fun s d a o p ty m ok => ⟨fun int => ?_, fun float => ?_⟩,
    fun s d a b p ty m ok => ⟨fun int => ?_, fun float => ?_⟩⟩
  · have kind := isInt_eq (le_of_reduce ok)
    have some : 0 < 512 / typeWidth ty := lanes_pos (le_of_reduce ok)
    by_cases float : isFloat ty = true
    · refine completes_mono (completes_setVec _ ok (exec_vred_float d a o p ty m s float)) fun t ht => ?_
      have value := GivesFpV.value ht
      rw [← value] at ht
      refine ⟨fun i one hi => by rw [value, lane_single_above _ one hi], fun int => ?_, fun _ => ⟨ht, ?_⟩⟩
      · simp [kind, float] at int
      · rw [value]
        exact lane_ofLanes some _
    · refine completes_mono (completes_setV _ ok (exec_vred_int d a o p ty m s float)) fun t ht => ?_
      obtain ⟨writes, next, slot, only⟩ := ht
      have value := (writes d).trans (if_pos rfl)
      rw [← value] at writes
      refine ⟨fun i one hi => by rw [value, lane_single_above _ one hi], fun _ => ⟨writes, next, slot, only, ?_⟩,
        fun h => absurd h float⟩
      rw [value, lane_ofLanes some]
      exact Nat.mod_eq_of_lt (redIntOut_lt ..)
  · have int : ¬ isFloat ty = true := by simp [isFloat_of_int hty]
    refine completes_mono (completes_vscan_int (okReduce_add hty hm) int) fun t ht => GivesLanes.congr ht fun n hn => ?_
    rw [scanInteger_add hty hn]
    rfl
  · exact completes_vscan_int ok (by simpa [isInt_eq (le_of_reduce ok)] using int)
  · exact completes_setVec (i := .vscan d a o p ty m) _ ok (exec_vscan_float d a o p ty m s float)
  · exact completes_overLanes (fun j => dotFit m (dotSum s d a b ty j)) ok (rfl : _ = execVdot d a b p ty m s)
      (dotLane_int (by simp [int]) s d a b m) fun j => dotFit_lt ..
  · have rounds := completes_setVec (i := .vdot d a b p ty m) _ ok (rfl : _ = execVdot d a b p ty m s)
    exact rounds

end Sys2Proof.Laws
end

section
/-! PROOFS: loads and stores of lanes in the own larder (07 R168 to R172): every lane's address names its place there, and nothing
waits or traps. -/

namespace Sys2Proof.Laws

open Machine Safety

variable {s t : State} {va : Reg} {n w : Nat}

/-! ### A slot that has read nothing ahead -/

section

variable (h : NothingAhead s) (k p : Nat)

include h

theorem unread_of_nothingAhead : s.unread s.cur.core s.cur.slot p k = s := by
  have kept : s.early.filter (fun e => !(e.on s.cur.core s.cur.slot p k || e.shows s.cur.core s.cur.slot p)) = s.early := by
    refine List.filter_eq_self.mpr fun e he => ?_
    have other := h e he
    by_cases core : e.core = s.cur.core <;> simp_all [Early.on, Early.shows]
  rw [State.unread, kept]

theorem dropEarly_of_nothingAhead : s.dropEarly s.cur.core s.cur.slot = s := by
  have kept : s.early.filter (fun e => !(e.core = s.cur.core && e.slot = s.cur.slot)) = s.early :=
    List.filter_eq_self.mpr fun e he => by simpa [imp_iff_not_or] using h e he
  rw [State.dropEarly, kept]

theorem ahead_of_nothingAhead (l : Loc) (cached : Bool) : s.ahead s.cur.core s.cur.slot l k cached = none := by
  rw [State.ahead, Option.map_eq_none_iff, List.find?_eq_none]
  intro e he found
  simp only [Bool.and_eq_true, decide_eq_true_eq, and_assoc] at found
  obtain ⟨core, slot, -⟩ := found
  exact h e he ⟨core, slot⟩

theorem lostAhead_of_nothingAhead : s.lostAhead s.cur.core s.cur.slot p k = false := by
  rw [State.lostAhead, List.any_eq_false]
  intro e he lost
  simp only [Early.on, Bool.and_eq_true, decide_eq_true_eq, and_assoc] at lost
  obtain ⟨-, core, slot, -⟩ := lost
  exact h e he ⟨core, slot⟩

end

/-! ### Places of the own larder -/

/-- Bytes behind those that the slot's stores wait to write. -/
theorem forward_of_below {sb : List SbEntry} {k p b : Nat} (h : ∀ e ∈ sb, e.slot = k → e.block < b) (hb : b ≤ p / 64) (bs : List Byte) :
    forward sb k p bs = bs := by
  induction bs generalizing p with
  | nil => rfl
  | cons x bs ih =>
    have none : sb.filter (fun e => e.slot = k && e.block = p / 64) = [] := by
      refine List.filter_eq_nil_iff.mpr fun e he mine => ?_
      simp only [Bool.and_eq_true, decide_eq_true_eq] at mine
      exact absurd (h e he mine.1) (by omega)
    rw [forward, none, ih (by omega)]
    rfl

/-- The place of the own larder that an address names. -/
def larderPlace (s : State) (va : Reg) : Nat := larderAt s.cur.core (va.toNat - windowBase)

/-- An aligned address in the own larder, as `InLarder` says it. -/
structure AtLarder (s : State) (va : Reg) (n : Nat) : Prop where
  ahead : NothingAhead s
  low : 0xFFF0000000000 ≤ va.toNat
  high : va.toNat + n ≤ 0xFFF000000F000
  place : larderPlace s va = 2 ^ 56 + s.cur.core * 2 ^ 16 + (va.toNat - 0xFFF0000000000)
  core : s.cur.core < 4096
  sound : ∀ i, i < n → s.bad (larderPlace s va + i) = false
  free : s.coversCounter (larderPlace s va) n = false
  stores : ∀ e ∈ s.here.sb, e.slot = s.cur.slot → e.block < larderAt s.cur.core 0 / 64
  aligned : va.toNat % n = 0

theorem atLarder_of (h : InLarder s va n) (aligned : va.toNat % n = 0) : AtLarder s va n :=
  let ⟨core, ahead, low, high, sound, free, stores⟩ := h
  { ahead, low, high, place := rfl, core, sound, free, stores, aligned }

section

variable {l : Loc}

/-! A location of a larder stands in no slice, and has no claims, epochs or keys. -/

theorem homeByte_larder (h : storeOf l.place = .larder) : s.homeByte l = s.byte l.place := by
  rw [State.homeByte, h]

theorem byteBad_larder (h : storeOf l.place = .larder) (ms : l.ms = false) : s.byteBad l = s.bad l.place := by
  simp [State.byteBad, State.atBase, h, ms]

theorem waits_larder (h : storeOf l.place = .larder) : s.waits l n = false := by simp [State.waits, h]

theorem mute_larder {p c : Nat} (h : storeOf p = .larder) : s.mute c p = false := by simp [State.mute, h]

theorem cacheable_larder (h : storeOf l.place = .larder) : l.cacheable = false := by simp [Loc.cacheable, h]

theorem mustFill_larder {tenant : BitVec 10} (h : storeOf l.place = .larder) : s.mustFill tenant l n = false := by
  simp [State.mustFill, h]

theorem useHome_larder (h : storeOf l.place = .larder) : s.useHome l = s := by simp [State.useHome, h]

end

section

variable (h : AtLarder s va n)

include h

theorem AtLarder.storeOf_byte {i : Nat} (hi : i ≤ n) : storeOf (larderPlace s va + i) = .larder := by
  have ⟨low, high, place, core⟩ := And.intro h.low (And.intro h.high (And.intro h.place h.core))
  have above : 2 ^ 56 ≤ larderPlace s va + i := by omega
  have below : larderPlace s va + i < 2 ^ 57 := by omega
  rw [storeOf, if_neg (by omega), if_neg (by omega), if_pos above]

theorem AtLarder.storeOf_place : storeOf (Loc.plain (larderPlace s va)).place = .larder := by
  have first := h.storeOf_byte (Nat.zero_le n)
  rwa [Nat.add_zero] at first

theorem AtLarder.window (sec : Bool) (use : Use) :
    s.window s.cur.core sec use va.toNat n = .ok (.at' (.plain (larderPlace s va))) := by
  have ⟨low, high⟩ := And.intro h.low h.high
  have base : windowBase = 0xFFF0000000000 := rfl
  have first : (va.toNat - windowBase) / 2 ^ 32 = 0 := by omega
  have off : va.toNat % 2 ^ 32 = va.toNat - windowBase := by omega
  have below : va.toNat - windowBase + n ≤ 0xF000 := by omega
  have fits : (decide (va.toNat - windowBase + n ≤ Config.larderSize) && !decide (Config.spillBase < va.toNat - windowBase + n)) = true :=
    Bool.and_eq_true_iff.mpr ⟨decide_eq_true (below.trans (by decide)), congrArg not (decide_eq_false (Nat.not_lt.mpr below))⟩
  unfold State.window
  simp only [first, off]
  exact if_pos fits

theorem AtLarder.check (find : Nat → Option (Except Cause Tlb)) (use : Use) :
    s.check (s.who s.cur.core s.cur.slot) find use va n n = some (.ok (.at' (.plain (larderPlace s va)))) := by
  have ⟨low, high, aligned⟩ := And.intro h.low (And.intro h.high h.aligned)
  have window := h.window (s.who s.cur.core s.cur.slot).sec use
  have free : s.coversCounter (Loc.plain (larderPlace s va)).place n = false := h.free
  have inWindow : windowBase ≤ va.toNat := h.low
  unfold State.check
  dsimp only
  rw [if_neg (by omega), if_neg (by omega), if_pos inWindow, show (s.who s.cur.core s.cur.slot).core = s.cur.core from rfl, window]
  dsimp only
  rw [free, Bool.and_false, if_neg Bool.false_ne_true]

theorem AtLarder.readable : s.readable s.cur.core (.at' (.plain (larderPlace s va))) n = .ok () := by
  have good : s.homeBad (.plain (larderPlace s va)) n = false := by
    refine List.any_eq_false.mpr fun i hi => ?_
    have within := List.mem_range.mp hi
    rw [byteBad_larder (l := (Loc.plain (larderPlace s va)).shift i) (h.storeOf_byte within.le) rfl]
    exact Bool.eq_false_iff.mp (h.sound i within)
  have near : storeOf (Loc.plain (larderPlace s va)).place ≠ .remote := by
    rw [h.storeOf_place]
    decide
  unfold State.readable
  dsimp only
  rw [good, if_neg Bool.false_ne_true, decide_eq_false near, Bool.false_and, if_neg Bool.false_ne_true]

end

/-! ### Lanes loaded -/

/-- What the address of a lane names. -/
def larderTarget (s : State) (va : Reg) : Target := .at' (.plain (larderPlace s va))

section

variable (h : AtLarder s va n)

include h

theorem AtLarder.not_ahead (cached : Bool) : s.ahead s.cur.core s.cur.slot (.plain (larderPlace s va)) n cached = none :=
  ahead_of_nothingAhead h.ahead ..

theorem AtLarder.homeGives : s.homeGives s.cur.core s.cur.slot (.plain (larderPlace s va)) n = s.peek (larderPlace s va) n := by
  have near : storeOf (Loc.plain (larderPlace s va)).place ≠ .host := by
    rw [h.storeOf_place]
    decide
  rw [State.homeGives, if_neg near]
  exact List.map_congr_left fun i hi => homeByte_larder (h.storeOf_byte (List.mem_range.mp hi).le)

theorem AtLarder.readLoc : Act.readLoc (.plain (larderPlace s va)) va n true s = (.ok (s.peek (larderPlace s va) n), s) := by
  have larder := h.storeOf_place
  have behind (bs : List Byte) : forward s.here.sb s.cur.slot (larderPlace s va) bs = bs := by
    refine forward_of_below h.stores ?_ bs
    rw [h.place, larderAt]
    omega
  unfold Act.readLoc
  simp only [Act.get_bind, lostAhead_of_nothingAhead h.ahead, cacheable_larder larder, h.not_ahead, waits_larder larder,
    mute_larder larder, h.readable, mustFill_larder larder, useHome_larder larder, unread_of_nothingAhead h.ahead, h.homeGives,
    Bool.false_eq_true, if_false, Bool.and_false, Bool.or_false, Act.set_bind]
  exact congrArg (fun bs => (Except.ok bs, s)) (behind _)

/-- A lane's load waits for nothing at its home. -/
theorem AtLarder.not_waits : s.targetWaits s.cur.core s.cur.slot n (larderTarget s va) = false := by
  simp only [State.targetWaits, larderTarget, waits_larder h.storeOf_place, mute_larder h.storeOf_place, Bool.or_false, Bool.and_false]

theorem AtLarder.not_answered : s.l1Answers s.cur.core s.cur.slot n (.at' (.plain (larderPlace s va))) = false := by
  simp only [State.l1Answers, h.not_ahead, cacheable_larder h.storeOf_place, Option.isSome_none, Bool.false_and,
    Bool.or_false]

theorem AtLarder.readTarget : (do
    let bs ← Act.readTarget va n (larderTarget s va)
    pure (leNat bs) : Act Nat) s = (.ok (larderNat s va n), s) := Act.bind_ok h.readLoc

end

theorem mapM_of_each {α β : Type} {f : α → Act β} {g : α → β} {xs : List α} (h : ∀ x ∈ xs, f x s = (.ok (g x), s)) :
    xs.mapM f s = (.ok (xs.map g), s) := by
  induction xs with
  | nil => rfl
  | cons x xs ih =>
    rw [List.mapM_cons, Act.bind_ok (h x List.mem_cons_self), Act.bind_ok (ih fun y hy => h y (List.mem_cons_of_mem _ hy))]
    rfl

section

variable {vas : List Reg} (h : ∀ va ∈ vas, AtLarder s va n)

include h

theorem resolved_larder (c k : Nat) : vas.foldl (fun u va => u.resolved c k va.toNat) s = s := by
  induction vas with
  | nil => rfl
  | cons va vas ih =>
    have window : windowBase ≤ va.toNat := (h va List.mem_cons_self).low
    rw [List.foldl_cons, State.resolved, if_pos window]
    exact ih fun x hx => h x (List.mem_cons_of_mem _ hx)

theorem resolveLanes_larder (use : Use) : Act.resolveLanes use vas n n s = (.ok (vas.map (larderTarget s)), s) := by
  have checks (find : Nat → Option (Except Cause Tlb)) :
      vas.map (fun va => (va, s.check (s.who s.cur.core s.cur.slot) find use va n n))
        = vas.map fun va => (va, some (.ok (larderTarget s va))) :=
    List.map_congr_left fun va hva => by rw [(h va hva).check, larderTarget]
  have known : (vas.map fun va => (va, some (Except.ok (ε := Cause) (larderTarget s va)))).find? (·.2.isNone) = none := by
    simp [List.find?_eq_none]
  unfold Act.resolveLanes
  rw [Act.get_bind]
  simp only [checks, resolved_larder h, known]
  simp

theorem loadLanes_larder : Act.loadLanes vas n n s = (.ok (vas.map fun va => larderNat s va n), s) := by
  have pairs : vas.zip (vas.map (larderTarget s)) = vas.map fun va => (va, larderTarget s va) :=
    List.map_prod_left_eq_zip.symm
  have free : (vas.map (larderTarget s)).any (s.targetWaits s.cur.core s.cur.slot n) = false := by
    rw [List.any_map, List.any_eq_false]
    exact fun va hva => Bool.eq_false_iff.mp (h va hva).not_waits
  have sound : s.lanesReadable s.cur.core s.cur.slot (vas.map fun va => (va, larderTarget s va)) n = none := by
    unfold State.lanesReadable
    dsimp only
    rw [List.filterMap_eq_nil_iff.mpr]
    intro r hr
    obtain ⟨va, hva, rfl⟩ := List.mem_map.mp hr
    have lane := h va hva
    simp only [larderTarget, lostAhead_of_nothingAhead lane.ahead, lane.not_answered, lane.readable, Bool.false_eq_true, if_false]
  rw [Act.loadLanes, Act.bind_ok (resolveLanes_larder h .load), Act.get_bind, pairs, free, sound, if_neg Bool.false_ne_true]
  dsimp only
  rw [mapM_of_each (g := fun r => larderNat s r.1 n), List.map_map]
  · rfl
  · intro r hr
    obtain ⟨va, hva, rfl⟩ := List.mem_map.mp hr
    exact (h va hva).readTarget

end

/-! ### Lanes stored -/

/-- Numbers of n bytes written at places, one after the other. -/
def pokeAll (n : Nat) (s : State) (xs : List (Nat × Nat)) : State := xs.foldl (fun s x => s.pokeNat x.1 n x.2) s

theorem pokeAll_append (n : Nat) (s : State) (xs ys : List (Nat × Nat)) : pokeAll n s (xs ++ ys) = pokeAll n (pokeAll n s xs) ys :=
  List.foldl_append ..

/-- They change memory and its poison. -/
theorem pokeAll_frame (n : Nat) (s : State) (xs : List (Nat × Nat)) : let t := pokeAll n s xs
    t = { s with mem := t.mem, poisoned := t.poisoned } := by
  induction xs generalizing s with
  | nil => rfl
  | cons x xs ih => exact ih (s.pokeNat x.1 n x.2)

theorem byte_pokeAll_outside {q : Nat} (xs : List (Nat × Nat)) (h : ∀ x ∈ xs, ¬ (x.1 ≤ q ∧ q < x.1 + n)) :
    (pokeAll n s xs).byte q = s.byte q := by
  induction xs generalizing s with
  | nil => rfl
  | cons x xs ih =>
    exact (ih fun y hy => h y (List.mem_cons_of_mem _ hy)).trans (byte_pokeNat_outside s _ (h x List.mem_cons_self))

/-- A number reads back where none is written after it that touches its bytes. -/
theorem peek_pokeAll_last (pre post : List (Nat × Nat)) (p v : Nat) (apart : ∀ x ∈ post, p + n ≤ x.1 ∨ x.1 + n ≤ p) :
    leNat ((pokeAll n s (pre ++ (p, v) :: post)).peek p n) = v % 256 ^ n := by
  have kept : (pokeAll n s (pre ++ (p, v) :: post)).peek p n = ((pokeAll n s pre).pokeNat p n v).peek p n := by
    rw [pokeAll_append]
    refine peek_congr fun q low high => byte_pokeAll_outside post fun x hx => ?_
    have := apart x hx
    omega
  rw [kept, leNat_peek_pokeNat]

theorem putStore_larder (ahead : NothingAhead s) {p : Nat} (larder : storeOf (Loc.plain p).place = .larder) (va : Reg) (bs : List Byte) :
    s.putStore (.plain p) va bs = s.poke p bs := by
  unfold State.putStore
  dsimp only
  rw [unread_of_nothingAhead ahead, dropEarly_of_nothingAhead ahead, if_pos larder]
  rfl

section

variable {xs : List (Reg × Nat)} (h : ∀ x ∈ xs, AtLarder s x.1 n)

include h

/-- The stores of the lanes write their numbers in turn. -/
theorem putStores_larder {u : State} (cur : u.cur = s.cur) (early : u.early = s.early) :
    (xs.map fun x => (Loc.plain (larderPlace s x.1), x.1, bytesOfNat n x.2)).foldl (fun u w => u.putStore w.1 w.2.1 w.2.2) u
      = pokeAll n u (xs.map fun x => (larderPlace s x.1, x.2)) := by
  induction xs generalizing u with
  | nil => rfl
  | cons x xs ih =>
    have lane := h x List.mem_cons_self
    have ahead : NothingAhead u := by
      unfold NothingAhead
      rw [cur, early]
      exact lane.ahead
    rw [List.map_cons, List.foldl_cons, putStore_larder ahead lane.storeOf_place]
    exact ih (fun y hy => h y (List.mem_cons_of_mem _ hy)) cur early

theorem storeLanes_larder (room : s.here.sb.length ≤ 32) : Act.storeLanes xs n n s
    = (.ok ⟨⟩, pokeAll n s (xs.map fun x => (larderPlace s x.1, x.2))) := by
  have lanes : ∀ va ∈ xs.map (·.1), AtLarder s va n := fun va hva => by
    obtain ⟨x, hx, rfl⟩ := List.mem_map.mp hva
    exact h x hx
  have pairs : xs.zip ((xs.map (·.1)).map (larderTarget s)) = xs.map fun x => (x, larderTarget s x.1) := by
    rw [List.map_map]
    exact List.map_prod_left_eq_zip.symm
  have buffered : ((pokeAll n s (xs.map fun x => (larderPlace s x.1, x.2))).core
      (pokeAll n s (xs.map fun x => (larderPlace s x.1, x.2))).cur.core).sb = s.here.sb := by
    rw [pokeAll_frame]
    rfl
  have fits : ¬ Config.storeBufferSize < s.here.sb.length := Nat.not_lt.mpr room
  rw [Act.storeLanes, Act.bind_ok (resolveLanes_larder lanes .store), pairs, List.filterMap_map]
  simp only [Function.comp_def, larderTarget, List.filterMap_eq_map']
  rw [Act.storeAll, Act.get_bind, putStores_larder h rfl rfl, buffered, if_neg fits]
  rfl

end

end Sys2Proof.Laws
end

section
/-! PROOFS: VLD, VST, VLDX and VSTX on lanes in the own larder (07 R168 to R172). -/

namespace Sys2Proof.Laws

open Machine Safety

variable {s t : State} {i : Instr} {d ty : BitVec 5} {n w p : Nat} {f : Nat → Reg} {a : Act Unit}

/-! ### The lanes that a mask selects -/

theorem mem_activeLanes {m : Reg} {j : Nat} : j ∈ activeLanes w m ↔ j < 512 / w ∧ m.getLsbD j = true := by
  rw [activeLanes, List.mem_filter, List.mem_range]
  rfl

/-- They come in ascending order. -/
theorem activeLanes_split {m : Reg} {j : Nat} (h : j ∈ activeLanes w m) :
    ∃ pre post, activeLanes w m = pre ++ j :: post ∧ ∀ k ∈ post, j < k := by
  obtain ⟨pre, post, split⟩ := List.append_of_mem h
  have rising : (activeLanes w m).Pairwise (· < ·) := List.pairwise_lt_range.filter _
  rw [split, List.pairwise_append, List.pairwise_cons] at rising
  obtain ⟨-, ⟨above, -⟩, -⟩ := rising
  exact ⟨pre, post, split, above⟩

theorem lane_putLanes {j : Nat} (hj : j < 512 / w) (old : Vec) (is : List Nat) (g : Nat → Nat) :
    lane w (putLanes w old is (is.map g)) j = if j ∈ is then g j % 2 ^ w else lane w old j := by
  induction is generalizing old with
  | nil => rfl
  | cons i is ih =>
    have next : putLanes w old (i :: is) ((i :: is).map g) = putLanes w (setLane w old i (g i)) is (is.map g) := rfl
    rw [next, ih, lane_setLane hj]
    by_cases same : i = j
    · subst same
      simp
    · simp [same, Ne.symm same]

/-! ### Numbers in lanes -/

theorem leNat_lt (bs : List Byte) : leNat bs < 256 ^ bs.length := by
  induction bs with
  | nil => exact Nat.one_pos
  | cons b bs ih =>
    have byte := b.isLt
    rw [leNat, List.length_cons, Nat.pow_succ]
    omega

theorem two_pow_bytes (bytes : w = 8 * n) : 2 ^ w = 256 ^ n := by rw [bytes, Nat.pow_mul]

theorem larderNat_lt (s : State) (va : Reg) (bytes : w = 8 * n) : larderNat s va n < 2 ^ w := by
  have below := leNat_lt (s.peek (larderAt s.cur.core (va.toNat - windowBase)) n)
  rwa [State.peek, List.length_map, List.length_range, ← two_pow_bytes bytes] at below

/-! ### Loads -/

section

variable (lanes : ∀ j, j < 512 / w → (s.p p).getLsbD j = true → AtLarder s (f j) n)

include lanes

theorem atLarder_activeLanes : ∀ va ∈ (activeLanes w (s.p p)).map f, AtLarder s va n := fun va hva => by
  obtain ⟨j, hj, rfl⟩ := List.mem_map.mp hva
  obtain ⟨within, sel⟩ := mem_activeLanes.mp hj
  exact lanes j within sel

/-- A load whose work, once its address is checked, is to load the selected lanes. -/
theorem completes_loadLanes (bytes : w = 8 * n) (ready : Ready s) (ok : legal i = true) (runs : exec i s = run i a s)
    (work : a s = (do
      let xs ← Act.loadLanes ((activeLanes w (s.p p)).map f) n n
      modify (fun s' => s'.setV d (putLanes w (s'.v d) (activeLanes w (s.p p)) xs))
      Act.done : Act Unit) s) : Completes i s (GivesLanes s · d w (s.p p).getLsbD fun j => larderNat s (f j) n) := by
  rw [Act.bind_ok (loadLanes_larder (atLarder_activeLanes lanes)), Act.modify_bind, Act.done_apply, List.map_map] at work
  have given := ((Becomes.self s).setV d (putLanes w (s.v d) (activeLanes w (s.p p))
    ((activeLanes w (s.p p)).map fun j => larderNat s (f j) n))).adv rfl
  refine ⟨_, exec_of_next runs ok ready work ?_, GivesV.givesLanes given.givesV fun j hj => ?_⟩
  · rw [wait_adv, State.setV, me_setMe]
    exact ready
  · rw [lane_putLanes hj, Nat.mod_eq_of_lt (larderNat_lt s (f j) bytes)]
    exact if_congr (mem_activeLanes.trans (and_iff_right hj)) rfl rfl

end

theorem vecAligned_ok {ea : Reg} {b : Nat} (low : ea.toNat < 2 ^ 52) (aligned : ea.toNat % b = 0) : vecAligned ea b s = (.ok ⟨⟩, s) := by
  rw [vecAligned, if_neg (Nat.not_le.mpr low), if_neg (not_not.mpr aligned)]
  rfl

/-! ### Stores -/

/-- Two aligned places that differ are apart. -/
theorem AtLarder.apart {va vb : Reg} (ha : AtLarder s va n) (hb : AtLarder s vb n) (other : vb ≠ va) :
    larderPlace s va + n ≤ larderPlace s vb ∨ larderPlace s vb + n ≤ larderPlace s va := by
  have ⟨la, pa, lb, pb⟩ := And.intro ha.low (And.intro ha.place (And.intro hb.low hb.place))
  obtain ⟨x, hx⟩ := Nat.dvd_of_mod_eq_zero ha.aligned
  obtain ⟨y, hy⟩ := Nat.dvd_of_mod_eq_zero hb.aligned
  have differ : y ≠ x := fun same => other (BitVec.eq_of_toNat_eq (by rw [hx, hy, same]))
  rcases Nat.lt_or_gt_of_ne differ with less | more
  · have step := Nat.mul_le_mul_left n less
    rw [Nat.mul_succ] at step
    omega
  · have step := Nat.mul_le_mul_left n more
    rw [Nat.mul_succ] at step
    omega

/-- What a store of the lanes of a register leaves: their bytes, of two lanes at one address those of the higher, and nothing else
but the pc. -/
def StoresLanes (s : State) (d : BitVec 5) (n w : Nat) (sel : Nat → Bool) (f : Nat → Reg) (t : State) : Prop :=
  GoesTo { s with mem := t.mem, poisoned := t.poisoned } t s.after
    ∧ (∀ q, (∀ j, j < 512 / w → sel j = true →
        ¬(larderAt s.cur.core ((f j).toNat - windowBase) ≤ q ∧ q < larderAt s.cur.core ((f j).toNat - windowBase) + n))
      → t.byte q = s.byte q)
    ∧ ∀ j, j < 512 / w → sel j = true →
      (∀ j', j < j' → j' < 512 / w → sel j' = true → f j' ≠ f j) → larderNat t (f j) n = lane w (s.v d) j

theorem pokeAll_adv_goesTo (n : Nat) (s : State) (xs : List (Nat × Nat)) : let t := (pokeAll n s xs).adv
    GoesTo { s with mem := t.mem, poisoned := t.poisoned } t s.after := by
  intro t
  have frame := pokeAll_frame n s xs
  have after : (pokeAll n s xs).after = s.after := by
    rw [frame]
    rfl
  have rest : { s with mem := t.mem, poisoned := t.poisoned } = pokeAll n s xs := frame.symm
  rw [rest, ← after]
  exact goto_goesTo ..

/-- A store whose work, once its address is checked, is to store the selected lanes. -/
theorem completes_storeLanes (lanes : ∀ j, j < 512 / w → (s.p p).getLsbD j = true → AtLarder s (f j) n) (bytes : w = 8 * n)
    (room : s.here.sb.length ≤ 32) (ready : Ready s) (ok : legal i = true) (runs : exec i s = run i a s)
    (work : a s = (do
      Act.storeLanes ((activeLanes w (s.p p)).map fun j => (f j, lane w (s.v d) j)) n n
      Act.done : Act Unit) s) : Completes i s (StoresLanes s d n w (s.p p).getLsbD f) := by
  have stores : ∀ x ∈ (activeLanes w (s.p p)).map fun j => (f j, lane w (s.v d) j), AtLarder s x.1 n := fun x hx => by
    obtain ⟨j, hj, rfl⟩ := List.mem_map.mp hx
    obtain ⟨within, sel⟩ := mem_activeLanes.mp hj
    exact lanes j within sel
  rw [Act.bind_ok (storeLanes_larder stores room), Act.done_apply, List.map_map] at work
  refine ⟨_, exec_of_next runs ok ready work ?_, pokeAll_adv_goesTo .., fun q outside => ?_, fun j hj sel last => ?_⟩
  · rw [wait_adv, pokeAll_frame]
    exact ready
  · refine byte_pokeAll_outside _ fun x hx => ?_
    obtain ⟨j, hj, rfl⟩ := List.mem_map.mp hx
    obtain ⟨within, sel⟩ := mem_activeLanes.mp hj
    exact outside j within sel
  · obtain ⟨pre, post, split, above⟩ := activeLanes_split (mem_activeLanes.mpr ⟨hj, sel⟩)
    have lane_fits : lane w (s.v d) j % 256 ^ n = lane w (s.v d) j := by rw [← two_pow_bytes bytes, lane_mod]
    rw [← lane_fits, ← peek_pokeAll_last (s := s) (pre.map fun k => (larderPlace s (f k), lane w (s.v d) k))
      (post.map fun k => (larderPlace s (f k), lane w (s.v d) k)) (larderPlace s (f j))]
    · rw [split, List.map_append, pokeAll_frame]
      rfl
    · intro x hx
      obtain ⟨k, hk, rfl⟩ := List.mem_map.mp hx
      obtain ⟨within, selected⟩ := mem_activeLanes.mp (split ▸ List.mem_append_right pre (List.mem_cons_of_mem j hk))
      exact (lanes j hj sel).apart (lanes k within selected) (last k (above k hk) within selected)

/-! ### The statement -/

theorem bytes_of_type (h : ty ≤ 13) : typeWidth ty = 8 * (typeWidth ty / 8) := by decide +revert

theorem isWide_le (h : isWide ty = true) : ty ≤ 13 := by decide +revert

/-- Settles O14 (log 23): in the own larder each selected lane's address names its place, whatever the other lanes do. -/
theorem vectorMemory : Obligations.VectorMemory := by
  unfold Obligations.VectorMemory
  intro s d a b p ty i k ready room w n sel base at1 at2 okay loads stores
  have atLarder {f : Nat → Reg} (h : okay f) (j : Nat) (within : j < 512 / w) (selected : sel j = true) : AtLarder s (f j) n :=
    let ⟨larder, aligned⟩ := h j within selected
    atLarder_of larder aligned
  refine ⟨fun ok low aligned h => ⟨?_, ?_⟩, fun wide h => ⟨?_, ?_⟩⟩
  · refine completes_loadLanes (f := at1) (atLarder h) (bytes_of_type ok) ready (decide_eq_true ok) (rfl : _ = execVld d a p ty i s) ?_
    rw [Act.get_bind]
    exact Act.bind_ok (vecAligned_ok low aligned)
  · refine completes_storeLanes (f := at1) (atLarder h) (bytes_of_type ok) room ready (decide_eq_true ok) (rfl : _ = execVst d a p ty i s) ?_
    rw [Act.get_bind]
    exact Act.bind_ok (vecAligned_ok low aligned)
  · refine completes_loadLanes (f := at2) (atLarder h) (bytes_of_type (isWide_le wide)) ready wide
      (rfl : _ = execVldx d a b p ty k s) ?_
    rw [Act.get_bind]
    rfl
  · refine completes_storeLanes (f := at2) (atLarder h) (bytes_of_type (isWide_le wide)) room ready wide
      (rfl : _ = execVstx d a b p ty k s) ?_
    rw [Act.get_bind]
    rfl

end Sys2Proof.Laws
end

section
/-! PROOFS: ring handles: what a ring put in its place changes (08 R187 to R191), and that nothing beside the handles of the core
and the waits of slots does. -/

namespace Sys2Proof.Laws

open Machine Safety

variable {s t u : State} {c : Nat} {r : Ring}

/-! ### Nothing but handles and waits -/

/-- Nothing has changed but ring handles and what slots wait for. -/
structure RingsMoved (s u : State) : Prop where
  package : SamePackage s u
  cores : ∀ c, { u.core c with slots := [], q := [] } = { s.core c with slots := [], q := [] }
  slots : ∀ c k, { u.slotAt c k with wait := .none } = { s.slotAt c k with wait := .none }

theorem RingsMoved.refl (s : State) : RingsMoved s s := ⟨rfl, fun _ => rfl, fun _ _ => rfl⟩

theorem RingsMoved.trans (h : RingsMoved s u) (g : RingsMoved u t) : RingsMoved s t :=
  ⟨g.package.trans h.package, fun c => (g.cores c).trans (h.cores c), fun c k => (g.slots c k).trans (h.slots c k)⟩

/-- What a core shows beside its slots and its handles. -/
theorem RingsMoved.field (h : RingsMoved s u) {α : Type} (f : Core → α)
    (hf : ∀ x : Core, f { x with slots := [], q := [] } = f x) (c : Nat) : f (u.core c) = f (s.core c) := by
  rw [← hf, h.cores, hf]

/-- What a slot shows beside its wait. -/
theorem RingsMoved.slot (h : RingsMoved s u) {α : Type} (f : Slot → α) (hf : ∀ x : Slot, f { x with wait := .none } = f x)
    (c k : Nat) : f (u.slotAt c k) = f (s.slotAt c k) := by
  rw [← hf, h.slots, hf]

theorem RingsMoved.bytes (h : RingsMoved s u) : SameBytes s u := sameBytes_of_samePackage h.package

/-- A change of what slots wait for, where no slot at reset is concerned. -/
theorem ringsMoved_mapSlots (f : Nat → Nat → Slot → Slot) (none : ∀ c k, f c k Slot.reset = Slot.reset)
    (waits : ∀ c k x, { f c k x with wait := .none } = { x with wait := .none }) : RingsMoved s (s.mapSlots f) where
  package := rfl
  cores c := by rw [core_mapSlots]
  slots c k := by rw [slotAt_mapSlots _ _ _ _ (none c k), waits]

/-- A core's slots do not change with its handles. -/
theorem slotAt_setCore_q (s : State) (c : Nat) (q : Tab Ring) (c' k : Nat) :
    (s.setCore c { s.core c with q := q }).slotAt c' k = s.slotAt c' k :=
  slotAt_setCore_of_slots (s := s) (x := { s.core c with q := q }) rfl c' k

/-- Other handles of a core. -/
theorem ringsMoved_setCore (q : Tab Ring) : RingsMoved s (s.setCore c { s.core c with q := q }) where
  package := rfl
  cores c' := by
    rw [core_setCore]
    split
    next same => rw [same]
    next => rfl
  slots c' k := by rw [slotAt_setCore_q]

/-- A core's handles, read after the slots have been changed. -/
theorem ring_mapSlots (s : State) (f : Nat → Nat → Slot → Slot) (c q : Nat) :
    ((s.mapSlots f).core c).ring q = (s.core c).ring q := by
  rw [core_mapSlots]
  rfl

/-! ### A ring put in its place -/

/-- A slot as it is after a ring of a core has changed: woken, where it is parked on the ring and finds its slots. -/
def ringWakes (c q : Nat) (r : Ring) (c' : Nat) (x : Slot) : Slot :=
  match x.wait with
  | .ring q' k free =>
    if c' = c && q'.toNat = q && ringReady r k free then { x with wait := .ringWoken (ringAddr r free) r.desc.scope } else x
  | _ => x

theorem putRing_eq (s : State) (c q : Nat) (r : Ring) : s.putRing c q r
    = (s.setCore c ((s.core c).setRing q r)).mapSlots (fun c' _ x => ringWakes c q r c' x) := rfl

theorem ringWakes_reset (c q : Nat) (r : Ring) (c' : Nat) : ringWakes c q r c' Slot.reset = Slot.reset := rfl

/-- A slot that waits for nothing is not woken. -/
theorem ringWakes_running {x : Slot} (h : x.wait = .none) (c q : Nat) (r : Ring) (c' : Nat) : ringWakes c q r c' x = x := by
  rw [ringWakes, h]

theorem but_wait_ringWakes (c q : Nat) (r : Ring) (c' : Nat) (x : Slot) :
    { ringWakes c q r c' x with wait := .none } = { x with wait := .none } := by
  unfold ringWakes
  split
  · split <;> rfl
  · rfl

theorem ringsMoved_putRing (s : State) (c q : Nat) (r : Ring) : RingsMoved s (s.putRing c q r) := by
  rw [putRing_eq]
  exact (ringsMoved_setCore _).trans
    (ringsMoved_mapSlots _ (fun c' _ => ringWakes_reset c q r c') fun c' _ x => but_wait_ringWakes c q r c' x)

theorem slotAt_putRing (s : State) (c q : Nat) (r : Ring) (c' k : Nat) :
    (s.putRing c q r).slotAt c' k = ringWakes c q r c' (s.slotAt c' k) := by
  rw [putRing_eq, slotAt_mapSlots _ _ _ _ (ringWakes_reset c q r c')]
  exact congrArg _ (slotAt_setCore_q s c _ c' k)

theorem ring_putRing (s : State) (c q : Nat) (r : Ring) (q' : Nat) :
    ((s.putRing c q r).core c).ring q' = if q = q' then some r else (s.core c).ring q' := by
  rw [putRing_eq, ring_mapSlots, core_setCore, if_pos rfl]
  exact find_put ..

/-! ### A handle opened or closed -/

/-- A slot as it is after a handle of a core has been opened anew or closed. -/
def handleGone (c q c' : Nat) (x : Slot) : Slot :=
  match x.wait with
  | .ring q' _ _ => if c' = c && q'.toNat = q then { x with wait := .ringGone } else x
  | _ => x

theorem handleGone_running {x : Slot} (h : x.wait = .none) (c q c' : Nat) : handleGone c q c' x = x := by
  rw [handleGone, h]

theorem but_wait_handleGone (c q c' : Nat) (x : Slot) : { handleGone c q c' x with wait := .none } = { x with wait := .none } := by
  unfold handleGone
  split
  · split <;> rfl
  · rfl

/-- The handles of a core once one of them is opened empty, or closed. -/
def handlesWith (x : Core) (q : Nat) : Option RingDesc → Tab Ring
  | some d => Tab.put x.q q { desc := d, head := 0, tail := 0, filled := 0 }
  | none => Tab.erase x.q q

theorem setHandle_eq (s : State) (c q : Nat) (o : Option RingDesc) : s.setHandle c q o
    = (s.setCore c { s.core c with q := handlesWith (s.core c) q o }).mapSlots (fun c' _ x => handleGone c q c' x) := by
  cases o <;> rfl

theorem ringsMoved_setHandle (s : State) (c q : Nat) (o : Option RingDesc) : RingsMoved s (s.setHandle c q o) := by
  rw [setHandle_eq]
  exact (ringsMoved_setCore _).trans (ringsMoved_mapSlots _ (fun _ _ => rfl) fun c' _ x => but_wait_handleGone c q c' x)

theorem slotAt_setHandle (s : State) (c q : Nat) (o : Option RingDesc) (c' k : Nat) :
    (s.setHandle c q o).slotAt c' k = handleGone c q c' (s.slotAt c' k) := by
  rw [setHandle_eq, slotAt_mapSlots]
  · exact congrArg _ (slotAt_setCore_q s c _ c' k)
  · rfl

theorem ring_setHandle (s : State) (c q : Nat) (o : Option RingDesc) (q' : Nat) : ((s.setHandle c q o).core c).ring q'
    = if q = q' then o.map (fun d => { desc := d, head := 0, tail := 0, filled := 0 }) else (s.core c).ring q' := by
  rw [setHandle_eq, ring_mapSlots, core_setCore, if_pos rfl]
  cases o with
  | some d => exact find_put ..
  | none => exact find_erase ..

end Sys2Proof.Laws
end

section
/-! PROOFS: QCFG, QPUT, QPOP, QWAIT and QSTAT (08 R189 to R192). -/

namespace Sys2Proof.Laws

open Machine Safety

variable {s t u : State} {d a b : BitVec 5} {q : BitVec 4} {v : Reg} {r : Ring} {k : Nat}

/-! ### The register written once a ring has changed -/

/-- Rings and waits have changed, of which the running slot shows nothing, and then a register is written. -/
theorem RingsMoved.result (h : RingsMoved s u) (kept : SameMe s u) (d : BitVec 5) (v : Reg) : let t := (u.setG d v).adv
    WritesG s t d v ∧ Advanced s t ∧ SamePackage s t ∧ SameSlotButG s t ∧ (∀ q, t.here.ring q = u.here.ring q)
      ∧ (∀ c k, (c ≠ s.cur.core ∨ k ≠ s.cur.slot) → t.slotAt c k = u.slotAt c k)
      ∧ ∀ c, { t.core c with slots := [], q := [] } = { s.core c with slots := [], q := [] } := by
  obtain ⟨writes, next, slot, ⟨package, -, cores, slots⟩⟩ := result_of_sameMe kept d v
  refine ⟨writes, next, package.trans h.package, slot, fun q => ?_, slots, fun c => ?_⟩
  · rw [State.here, cur_of_samePackage package]
    exact core_of_sameCore (cores _) (Core.ring · q) fun _ => rfl
  · exact (core_of_sameCore (cores c) (fun x => { x with slots := [], q := [] }) fun _ => rfl).trans (h.cores c)

/-! ### QCFG (08 R189) -/

section

variable {va : Reg} {n : Nat} (h : AtLarder s va n)

include h

theorem AtLarder.resolve (use : Use) : Act.resolve use va n n s = (.ok (larderTarget s va), s) := by
  have window : windowBase ≤ va.toNat := h.low
  unfold Act.resolve
  simp only [Act.get_bind, h.check, State.resolved, if_pos window, Act.set_bind]
  rfl

/-- An aligned load in the own larder gives its bytes and changes nothing. -/
theorem AtLarder.load : Act.load va n n true s = (.ok (s.peek (larderPlace s va) n), s) := by
  rw [Act.load, Act.bind_ok (h.resolve .load)]
  exact h.readLoc

end

theorem setHandle_sameMe (ready : Ready s) (q : BitVec 4) (o : Option RingDesc) : SameMe s (s.setHandle s.cur.core q.toNat o) := by
  exact ⟨rfl, (slotAt_setHandle ..).trans (handleGone_running ready ..)⟩

theorem handleGone_eq (c c' : Nat) (q : BitVec 4) (x : Slot) : handleGone c q.toNat c' x = match x.wait with
    | .ring q' _ _ => if c' = c && q' == q then { x with wait := .ringGone } else x
    | _ => x := by
  unfold handleGone
  cases x.wait with
  | ring q' k free => simp only [← BitVec.toNat_inj, beq_eq_decide]
  | _ => rfl

/-- A handle is opened empty, or closed: what becomes of it, of the slots parked on it and of the rest. -/
def Configures (s : State) (d : BitVec 5) (q : BitVec 4) (o : Option RingDesc) (t : State) : Prop :=
  WritesG s t d 0 ∧ t.here.ring q.toNat = o.map (fun desc => { desc := desc, head := 0, tail := 0, filled := 0 })
    ∧ SamePackage s t ∧ SameSlotButG s t ∧ Advanced s t
    ∧ (∀ c k, (c ≠ s.cur.core ∨ k ≠ s.cur.slot) → t.slotAt c k = match (s.slotAt c k).wait with
        | .ring q' _ _ => if c = s.cur.core && q' == q then { s.slotAt c k with wait := .ringGone } else s.slotAt c k
        | _ => s.slotAt c k)
    ∧ (∀ q', q' ≠ q.toNat → t.here.ring q' = s.here.ring q')
    ∧ ∀ c, { t.core c with slots := [], q := [] } = { s.core c with slots := [], q := [] }

theorem setHandle_configures (ready : Ready s) (d : BitVec 5) (q : BitVec 4) (o : Option RingDesc) :
    Configures s d q o ((s.setHandle s.cur.core q.toNat o).setG d 0).adv := by
  have kept := setHandle_sameMe ready q o
  obtain ⟨writes, next, package, slot, rings, slots, cores⟩ := (ringsMoved_setHandle s s.cur.core q.toNat o).result kept d 0
  have ring (q' : Nat) : (s.setHandle s.cur.core q.toNat o).here.ring q' = _ := ring_setHandle s s.cur.core q.toNat o q'
  refine ⟨writes, ?_, package, slot, next, fun c k other => ?_, fun q' other => ?_, cores⟩
  · rw [rings, ring, if_pos rfl]
  · exact (slots c k other).trans ((slotAt_setHandle ..).trans (handleGone_eq ..))
  · rw [rings, ring, if_neg other.symm]
    rfl

theorem wait_setHandle (ready : Ready s) (d : BitVec 5) (q : BitVec 4) (o : Option RingDesc) :
    ((s.setHandle s.cur.core q.toNat o).setG d 0).adv.me.wait = .none :=
  (wait_result ..).trans ((congrArg Slot.wait (setHandle_sameMe ready q o).me).trans ready)

/-- QCFG of a handle that a command names. -/
def Busy (s : State) (q : BitVec 4) : Bool := s.here.asSource q.toNat || s.here.asDest q.toNat

theorem completes_result {i : Instr} {act : Act Unit} (ready : Ready s) (ok : legal i = true) (runs : exec i s = run i act s)
    (work : act s = (.ok ⟨⟩, (s.setG d v).adv)) : Completes i s (Safety.Gives s · d v) :=
  ⟨_, exec_of_next runs ok ready work ((wait_result ..).trans ready), setG_adv_gives s d v⟩

section

variable (ready : Ready s)

include ready

theorem qcfg_close (free : Busy s q = false) : Completes (.qcfg d 0 q) s (Configures s d q none) := by
  refine ⟨_, exec_of_next (rfl : _ = execQcfg d 0 q s) rfl ready ?_ (wait_setHandle ready d q none),
    setHandle_configures ready d q none⟩
  rw [Busy] at free
  simp only [Act.get_bind, free, if_true, Bool.false_eq_true, if_false, Act.set_bind, Act.result_apply]

theorem qcfg_close_busy (busy : Busy s q = true) : Completes (.qcfg d 0 q) s (Safety.Gives s · d 1) := by
  refine completes_result ready rfl (rfl : _ = execQcfg d 0 q s) ?_
  rw [Busy] at busy
  simp only [Act.get_bind, busy, if_true, Act.result_apply]

section

variable (opens : a ≠ 0) (h : AtLarder s (s.g a) 16)

include opens h

theorem qcfg_busy (busy : Busy s q = true) : Completes (.qcfg d a q) s (Safety.Gives s · d 1) := by
  refine completes_result ready rfl (rfl : _ = execQcfg d a q s) ?_
  rw [Busy] at busy
  simp only [Act.get_bind, if_neg opens, Act.bind_ok h.load, busy, if_true, Act.result_apply]

theorem qcfg_bad (free : Busy s q = false) (bad : s.descBad s.cur.core (larderNat s (s.g a) 16) = true) :
    Completes (.qcfg d a q) s (Safety.Gives s · d 2) := by
  refine completes_result ready rfl (rfl : _ = execQcfg d a q s) ?_
  rw [Busy] at free
  rw [larderNat, ← larderPlace] at bad
  simp only [Act.get_bind, if_neg opens, Act.bind_ok h.load, free, bad, Bool.false_eq_true, if_false, if_true, Act.result_apply]

theorem qcfg_open (free : Busy s q = false) (good : s.descBad s.cur.core (larderNat s (s.g a) 16) = false) :
    Completes (.qcfg d a q) s (Configures s d q (some (ringDescOf (larderNat s (s.g a) 16)))) := by
  refine ⟨_, exec_of_next (rfl : _ = execQcfg d a q s) rfl ready ?_ (wait_setHandle ready d q _), setHandle_configures ready d q _⟩
  rw [Busy] at free
  rw [larderNat, ← larderPlace] at good ⊢
  simp only [Act.get_bind, if_neg opens, Act.bind_ok h.load, free, good, Bool.false_eq_true, if_false, Act.set_bind, Act.result_apply]

end

end

theorem descBad_of_high {c n : Nat} (high : n / 2 ^ 80 ≠ 0) : s.descBad c n = true := by
  simp only [State.descBad, high, ne_eq, not_false_eq_true, decide_true, Bool.true_or]

/-! ### QPUT and QPOP (08 R190) -/

theorem putRing_sameMe (ready : Ready s) (q : Nat) (r : Ring) : SameMe s (s.putRing s.cur.core q r) := by
  exact ⟨rfl, (slotAt_putRing ..).trans (ringWakes_running ready ..)⟩

theorem ringWakes_eq (c c' : Nat) (q : BitVec 4) (r : Ring) (x : Slot) : ringWakes c q.toNat r c' x = match x.wait with
    | .ring q' m f => if c' = c && q' == q && ringReady r m f
        then { x with wait := .ringWoken (ringAddr r f) (min r.desc.win.toNat 2) } else x
    | _ => x := by
  unfold ringWakes
  cases x.wait with
  | ring q' k free =>
    simp only [← BitVec.toNat_inj, beq_eq_decide]
    rfl
  | _ => rfl

/-- Slots of a ring have been filled or freed: what becomes of it, of the slots parked on it and of the rest. -/
def MovesRing (s : State) (d : BitVec 5) (q : BitVec 4) (r : Ring) (t : State) : Prop :=
  WritesG s t d 0 ∧ t.here.ring q.toNat = some r ∧ Advanced s t ∧ (∀ q', q' ≠ q.toNat → t.here.ring q' = s.here.ring q')
    ∧ SamePackage s t ∧ SameSlotButG s t
    ∧ (∀ c, { t.core c with slots := [], q := [] } = { s.core c with slots := [], q := [] })
    ∧ ∀ c k, (c ≠ s.cur.core ∨ k ≠ s.cur.slot) → t.slotAt c k = match (s.slotAt c k).wait with
        | .ring q' m f => if c = s.cur.core && q' == q && ringReady r m f
            then { s.slotAt c k with wait := .ringWoken (ringAddr r f) (min r.desc.win.toNat 2) } else s.slotAt c k
        | _ => s.slotAt c k

theorem putRing_moves (ready : Ready s) (d : BitVec 5) (q : BitVec 4) (r : Ring) :
    MovesRing s d q r ((s.putRing s.cur.core q.toNat r).setG d 0).adv := by
  have kept := putRing_sameMe ready q.toNat r
  obtain ⟨writes, next, package, slot, rings, slots, cores⟩ := (ringsMoved_putRing s s.cur.core q.toNat r).result kept d 0
  have ring (q' : Nat) : (s.putRing s.cur.core q.toNat r).here.ring q' = _ := ring_putRing s s.cur.core q.toNat r q'
  refine ⟨writes, ?_, next, fun q' other => ?_, package, slot, cores, fun c k other => ?_⟩
  · rw [rings, ring, if_pos rfl]
  · rw [rings, ring, if_neg other.symm]
    rfl
  · exact (slots c k other).trans ((slotAt_putRing ..).trans (ringWakes_eq ..))

/-- What the work of QPUT and QPOP comes to, after the wait of QPUT, by the answer of `ringMove`. -/
theorem ringMoveAct_none {put : Bool} {n : Nat} (h : ringMove s.here q.toNat put (s.g b).toNat = (n, none)) :
    ringMoveAct d b q put s = (.ok ⟨⟩, (s.setG d (BitVec.ofNat 64 n)).adv) := by
  unfold ringMoveAct
  simp only [Act.get_bind, h, Act.result_apply]

theorem ringMoveAct_some {put : Bool} (h : ringMove s.here q.toNat put (s.g b).toNat = (0, some r)) :
    ringMoveAct d b q put s = (.ok ⟨⟩, ((s.putRing s.cur.core q.toNat r).setG d 0).adv) := by
  unfold ringMoveAct
  simp only [Act.get_bind, h, Act.set_bind, Act.result_apply]
  rfl

/-- The waits of QPUT are over: its handle is closed, or its release is complete. -/
def PutReleased (s : State) (q : BitVec 4) : Prop := match s.here.ring q.toNat with
  | some r => s.released s.cur.core s.cur.slot r.desc.scope = true
  | none => True

theorem qput_work (h : PutReleased s q) : (do
    let s ← get
    match s.here.ring q.toNat with
    | some r => Act.release r.desc.scope
    | none => pure ()
    ringMoveAct d b q true : Act Unit) s = ringMoveAct d b q true s := by
  rw [Act.get_bind]
  unfold PutReleased at h
  split at h
  next r opened =>
    rw [opened]
    exact Act.bind_ok (Act.release_ok h)
  next closed => rw [closed]

section

variable (ready : Ready s)

include ready

theorem qput_status (waits : PutReleased s q) {n : Nat} (h : ringMove s.here q.toNat true (s.g b).toNat = (n, none)) :
    Completes (.qput d b q) s (Safety.Gives s · d (BitVec.ofNat 64 n)) :=
  completes_result ready rfl (rfl : _ = execQput d b q s) ((qput_work waits).trans (ringMoveAct_none h))

theorem qpop_status {n : Nat} (h : ringMove s.here q.toNat false (s.g b).toNat = (n, none)) :
    Completes (.qpop d b q) s (Safety.Gives s · d (BitVec.ofNat 64 n)) :=
  completes_result ready rfl (rfl : _ = execQpop d b q s) (ringMoveAct_none h)

theorem wait_putRing (r : Ring) : ((s.putRing s.cur.core q.toNat r).setG d 0).adv.me.wait = .none :=
  (wait_result ..).trans ((congrArg Slot.wait (putRing_sameMe ready q.toNat r).me).trans ready)

theorem qput_moves (waits : PutReleased s q) (h : ringMove s.here q.toNat true (s.g b).toNat = (0, some r)) :
    Completes (.qput d b q) s (MovesRing s d q r) :=
  ⟨_, exec_of_next (rfl : _ = execQput d b q s) rfl ready ((qput_work waits).trans (ringMoveAct_some h)) (wait_putRing ready r),
    putRing_moves ready d q r⟩

theorem qpop_moves (h : ringMove s.here q.toNat false (s.g b).toNat = (0, some r)) :
    Completes (.qpop d b q) s (MovesRing s d q r) :=
  ⟨_, exec_of_next (rfl : _ = execQpop d b q s) rfl ready (ringMoveAct_some h) (wait_putRing ready r), putRing_moves ready d q r⟩

end

/-! The answers of `ringMove`. -/

section

variable {x : Core} {n : Nat} {put : Bool}

/-- A count that a ring can move. -/
theorem counted_of (low : 1 ≤ k) (high : k ≤ r.desc.slots.toNat + 1) : (decide (k = 0) || decide (r.desc.count < k)) = false := by
  have : ¬ k = 0 := by omega
  have : ¬ r.desc.count < k := Nat.not_lt.mpr high
  simp [*]

theorem ringMove_closed (h : x.ring n = none) : ringMove x n put k = (4, none) := by simp [ringMove, h]

variable (h : x.ring n = some r)

include h

theorem ringMove_count (bad : k = 0 ∨ r.desc.slots.toNat + 1 < k) : ringMove x n put k = (2, none) := by
  have bad : (decide (k = 0) || decide (r.desc.count < k)) = true := by
    rw [← Bool.decide_or]
    exact decide_eq_true bad
  simp only [ringMove, h, bad, if_true]

section

variable (low : 1 ≤ k) (high : k ≤ r.desc.slots.toNat + 1)

include low high

theorem ringMove_put (dest : x.asDest n = false) (convoy : x.convoyInto n = false) : ringMove x n true k
    = if k ≤ r.desc.slots.toNat + 1 - r.filled then (0, some (r.push k)) else (1, none) := by
  have count : r.desc.count = r.desc.slots.toNat + 1 := rfl
  simp only [ringMove, h, counted_of low high, dest, convoy]
  by_cases room : k ≤ r.desc.slots.toNat + 1 - r.filled
  · simp [room, count, Nat.not_lt.mpr room]
  · simp [room, count, Nat.lt_of_not_le room]

theorem ringMove_pop (source : x.asSource n = false) : ringMove x n false k
    = if k ≤ r.filled then (0, some (r.pop k)) else (1, none) := by
  simp only [ringMove, h, counted_of low high, source]
  by_cases room : k ≤ r.filled
  · simp [room, Nat.not_lt.mpr room]
  · simp [room, Nat.lt_of_not_le room]

end

end

end Sys2Proof.Laws
end

section
/-! PROOFS: QWAIT, QSTAT and the ring handles as a whole (08 R189 to R192). -/

namespace Sys2Proof.Laws

open Machine Safety

variable {s t u : State} {d a b : BitVec 5} {q : BitVec 4} {v : Reg} {r : Ring} {k sc : Nat}

/-! ### QWAIT (08 R191) -/

/-- A QWAIT has ended with an address: what it has written, and what it has acquired at a scope, unless it waited for free
slots. -/
structure WaitEnds (s : State) (d b : BitVec 5) (sc : Nat) (v : Reg) (t : State) : Prop where
  writes : WritesG s t d v
  next : Advanced s t
  others : OtherSlots s t
  bytes : SameBytes s t
  acquired : (s.g b).getLsbD 63 = false → sc ≠ 0 → Acquired s t

/-- What an acquire, and then a register written, leave beside what the acquire is for. -/
theorem acquire_result_any (s : State) (sc : Nat) (d : BitVec 5) (v : Reg) :
    let t := ((s.acquire s.cur.core s.cur.slot sc).setG d v).adv
    WritesG s t d v ∧ Advanced s t ∧ OtherSlots s t ∧ SameBytes s t ∧ t.me.wait = s.me.wait := by
  have kept := sameMe_acquire s s.cur.core s.cur.slot sc
  obtain ⟨writes, next, -, ⟨-, bytes, -, slots⟩⟩ := result_of_sameMe kept d v
  exact ⟨writes, next, fun c k other => (slots c k other).trans (slotAt_acquire ..), fun p => (bytes p).trans (byte_acquire ..),
    (wait_result ..).trans (congrArg Slot.wait kept.me)⟩

theorem ringEnd_ends (s : State) (d b : BitVec 5) (sc : Nat) (v : Reg) :
    ∃ t, Act.ringEnd d b sc v s = (.ok ⟨⟩, t) ∧ t.me.wait = s.me.wait ∧ WaitEnds s d b sc v t := by
  cases free : (s.g b).getLsbD 63 with
  | true =>
    obtain ⟨writes, next, -, -, bytes, -, others⟩ := setG_adv_gives s d v
    refine ⟨(s.setG d v).adv, ?_, wait_result s d v, ⟨writes, next, others, bytes, fun h => Bool.noConfusion (free.symm.trans h)⟩⟩
    simp only [Act.ringEnd, Act.get_bind, free, Bool.not_true, Bool.false_eq_true, if_false, Act.result_apply]
  | false =>
    obtain ⟨writes, next, others, bytes, wait⟩ := acquire_result_any s sc d v
    refine ⟨((s.acquire s.cur.core s.cur.slot sc).setG d v).adv, ?_, wait, ⟨writes, next, others, bytes, fun _ wide => ?_⟩⟩
    · simp only [Act.ringEnd, Act.get_bind, free, Bool.not_false, if_true, Act.acquire_bind, Act.result_apply]
    · obtain ⟨-, -, -, -, acquired, -⟩ := acquire_result s wide d v
      exact acquired

theorem waitEnds_unpark (h : WaitEnds s.unpark d b sc v t) : WaitEnds s d b sc v t where
  writes := writesG_unpark h.writes
  next := advanced_unpark h.next
  others := otherSlots_unpark h.others
  bytes := sameBytes_unpark h.bytes
  acquired free wide := acquired_unpark (h.acquired (by rwa [g_unpark]) wide)

/-- A slot that has been woken goes on with the address that it was given. -/
theorem qwait_woken (woken : s.me.wait = .ringWoken v sc) : Completes (.qwait d b q) s (WaitEnds s d b sc v) := by
  obtain ⟨t, work, wait, ends⟩ := ringEnd_ends s.unpark d b sc v
  have ready : t.me.wait = .none := wait.trans (ready_unpark s)
  have runs : exec (.qwait d b q) s = run (.qwait d b q) (Act.ringEnd d b sc v) s := by
    change execQwait d b q s = _
    rw [execQwait, woken]
  refine ⟨t, ?_, waitEnds_unpark ends⟩
  have ok : legal (.qwait d b q) = true := rfl
  rw [runs, run, runWith, if_pos ok, woken]
  exact congrArg Host.Outcome.next (Act.next_ok work ready)

/-- One whose handle was opened anew or closed takes a data fault. -/
theorem qwait_gone (gone : s.me.wait = .ringGone) (may : TrapReady s.unpark 0x06 (s.g b) s.base) :
    Completes (.qwait d b q) s (Traps s.unpark · 0x06 (s.g b) s.base) := by
  have runs : exec (.qwait d b q) s = .next (s.unpark.trapHere Cause.data (s.g b)) := by
    change execQwait d b q s = _
    rw [execQwait, gone]
  refine ⟨_, runs, ?_⟩
  rw [← base_unpark] at may ⊢
  obtain ⟨traps, -⟩ := dataFault_traps (ready_unpark s) may
  exact traps

theorem qwait_runs (ready : Ready s) : exec (.qwait d b q) s = run (.qwait d b q) (Act.ringWait d b q) s := by
  have ready : s.me.wait = .none := ready
  change execQwait d b q s = _
  rw [execQwait, ready]

/-- What the work of a QWAIT that has not waited comes to. -/
theorem ringWait_eq (opened : s.here.ring q.toNat = some r)
    (low : 1 ≤ (s.g b).toNat % 2 ^ 9) (high : (s.g b).toNat % 2 ^ 9 ≤ r.desc.slots.toNat + 1) :
    Act.ringWait d b q s = (if ringReady r ((s.g b).toNat % 2 ^ 9) ((s.g b).getLsbD 63)
      then Act.ringEnd d b r.desc.scope (ringAddr r ((s.g b).getLsbD 63))
      else Act.park (.ring q ((s.g b).toNat % 2 ^ 9) ((s.g b).getLsbD 63))) s := by
  unfold Act.ringWait
  simp only [Act.get_bind, opened, counted_of (r := r) low high, Bool.false_eq_true, if_false]

section

variable (ready : Ready s) (opened : s.here.ring q.toNat = some r)

include ready opened

theorem qwait_finds (low : 1 ≤ (s.g b).toNat % 2 ^ 9) (high : (s.g b).toNat % 2 ^ 9 ≤ r.desc.slots.toNat + 1)
    (finds : ringReady r ((s.g b).toNat % 2 ^ 9) ((s.g b).getLsbD 63) = true) :
    Completes (.qwait d b q) s (WaitEnds s d b r.desc.scope (ringAddr r ((s.g b).getLsbD 63))) := by
  obtain ⟨t, work, wait, ends⟩ := ringEnd_ends s d b r.desc.scope (ringAddr r ((s.g b).getLsbD 63))
  refine ⟨t, exec_of_next (qwait_runs ready) rfl ready ?_ (wait.trans ready), ends⟩
  rw [ringWait_eq opened low high, if_pos finds, work]

theorem qwait_parks (low : 1 ≤ (s.g b).toNat % 2 ^ 9) (high : (s.g b).toNat % 2 ^ 9 ≤ r.desc.slots.toNat + 1)
    (lacks : ringReady r ((s.g b).toNat % 2 ^ 9) ((s.g b).getLsbD 63) = false) : Completes (.qwait d b q) s
      (Parks s · (.ring q ((s.g b).toNat % 2 ^ 9) ((s.g b).getLsbD 63))) := by
  have lacks : ¬ ringReady r ((s.g b).toNat % 2 ^ 9) ((s.g b).getLsbD 63) = true := by rw [lacks]; exact Bool.false_ne_true
  have work := ringWait_eq (d := d) opened low high
  rw [if_neg lacks, Act.park_apply] at work
  refine ⟨_, ?_, park_parks s _ (.qwait d b q)⟩
  rw [qwait_runs ready, run_ready rfl ready, Act.next_park work (by rw [wait_park]; simp)]

end

theorem ringReady_iff (free : Bool) :
    ringReady r k free = true ↔ k ≤ (if free then r.desc.slots.toNat + 1 - r.filled else r.filled) := by
  cases free with
  | true => exact decide_eq_true_iff
  | false => exact decide_eq_true_iff

theorem scope_ne_zero {desc : RingDesc} (h : desc.win ≠ 0) : desc.scope ≠ 0 := by
  have : desc.win.toNat ≠ 0 := fun zero => h (BitVec.eq_of_toNat_eq zero)
  change min desc.win.toNat 2 ≠ 0
  omega

/-- The address of a slot, with the window written out. -/
theorem ringAddr_eq (r : Ring) (free : Bool) : ringAddr r free = BitVec.ofNat 64 (0xFFF0000000000
    + (if r.desc.win = 0 then 0 else if r.desc.win = 1 then 1 else 8) * 2 ^ 32 + r.desc.offset.toNat
    + (if free then r.tail else r.head) * ((r.desc.slotsz.toNat + 1) * 64)) := by
  have window : (match r.desc.win.toNat with | 0 => 0 | 1 => 1 | _ => 8)
      = if r.desc.win = 0 then 0 else if r.desc.win = 1 then 1 else 8 := by
    generalize r.desc.win = w
    decide +revert
  rw [ringAddr, RingDesc.addr, ← window]
  rfl

/-! ### QSTAT (08 R192) -/

theorem qstat_gives (opened : s.here.ring q.toNat = some r) : Completes (.qstat d q) s (Safety.Gives s · d (BitVec.ofNat 64 (2 ^ 63
    + (s.here.asSource q.toNat).toNat * 2 ^ 62 + (s.here.asDest q.toNat || s.here.convoyInto q.toNat).toNat * 2 ^ 61
    + r.filled * 2 ^ 32 + r.head * 2 ^ 24 + r.tail * 2 ^ 16 + r.desc.slots.toNat * 2 ^ 8 + r.desc.win.toNat * 2 ^ 6
    + r.desc.slotsz.toNat))) := by
  refine ⟨_, (simple_legal rfl : execQstat d q s = _), ?_⟩
  simp only [opened]
  exact setG_adv_gives ..

/-! ### The statement -/

theorem completes_imp {i : Instr} {P Q : State → Prop} (h : Completes i s P) (imp : ∀ t, P t → Q t) : Completes i s Q :=
  let ⟨t, runs, p⟩ := h
  ⟨t, runs, imp t p⟩

/-- Settles O19 (log 101, 109): what QCFG, QPUT and QPOP come to by the state of the handle (`qcfg_open`, `ringMove_put` and
their kin), what becomes of the slots parked on it (`handleGone_eq`, `ringWakes_eq`), and the four ways of a QWAIT. -/
theorem rings : Obligations.Rings := by
  unfold Obligations.Rings
  refine ⟨?_, ?_, ?_⟩
  · intro s d a q ready c busy n gone rest
    refine ⟨fun closes free => ?_, fun closes held => ?_, fun opens larder aligned => ?_⟩
    · subst closes
      exact qcfg_close ready free
    · subst closes
      exact qcfg_close_busy ready held
    · have h := atLarder_of larder aligned
      exact ⟨fun free good => qcfg_open ready opens h free good,
        fun free high => qcfg_bad ready opens h free (descBad_of_high high), qcfg_busy ready opens h⟩
  · intro s d b q ready k
    refine ⟨fun closed => ?_, fun r opened => ?_⟩
    · have released : PutReleased s q := by
        rw [PutReleased, closed]
        trivial
      exact ⟨qput_status ready released (ringMove_closed closed), qpop_status ready (ringMove_closed closed)⟩
    · intro n put
      have putReleased (h : s.released s.cur.core s.cur.slot (min r.desc.win.toNat 2) = true) : PutReleased s q := by
        rw [PutReleased, opened]
        exact h
      refine ⟨fun released => ⟨fun bad => ?_, fun low high dest convoy => ?_⟩, fun bad => ?_, fun low high source => ?_⟩
      · have released := putReleased released
        exact qput_status ready released (ringMove_count opened bad)
      · have released := putReleased released
        have answer := ringMove_put opened low high dest convoy
        exact ⟨fun room => qput_moves ready released (answer.trans (if_pos room)),
          fun full => qput_status ready released (answer.trans (if_neg (Nat.not_le.mpr full)))⟩
      · exact qpop_status ready (ringMove_count opened bad)
      · have answer := ringMove_pop opened low high source
        exact ⟨fun filled => qpop_moves ready (answer.trans (if_pos filled)),
          fun lacks => qpop_status ready (answer.trans (if_neg (Nat.not_le.mpr lacks)))⟩
  · intro s d b q r opened k free n slot window addr gives
    refine ⟨fun ready low high => ⟨fun finds => ?_, fun lacks => ?_⟩, fun v sc woken => ?_, qwait_gone, qstat_gives opened⟩
    · refine completes_imp (qwait_finds ready opened low high ((ringReady_iff free).mpr finds)) fun t ends => ?_
      have addr_eq : ringAddr r free = addr := ringAddr_eq r free
      exact ⟨addr_eq ▸ ends.writes, ends.next, ends.others, ends.bytes, fun held wide => ends.acquired held (scope_ne_zero wide)⟩
    · exact qwait_parks ready opened low high
        (Bool.eq_false_iff.mpr fun finds => Nat.not_le.mpr lacks ((ringReady_iff free).mp finds))
    · exact completes_imp (qwait_woken woken) fun t ends => ⟨ends.writes, ends.next, ends.others, ends.bytes, ends.acquired⟩

end Sys2Proof.Laws
end

section
/-! PROOFS: EWAIT, the skip map's words and the strides (08 R200, R212, R216). -/

namespace Sys2Proof.Laws

open Machine Safety

variable {s t u : State} {d a b : BitVec 5} {n : BitVec 3} {i : Instr}

/-! ### The running core written beside its slots -/

theorem sameMe_setHere {x : Core} (h : x.slots = s.here.slots) : SameMe s (s.setHere x) :=
  sameMe_of_slots rfl (slotAt_setCore_of_slots h)

theorem otherSlots_setHere {x : Core} (h : x.slots = s.here.slots) (r : Rest s (s.setHere x) t) : OtherSlots s t :=
  fun c k other => (r.slots c k other).trans (slotAt_setCore_of_slots h c k)

/-- What a core shows that the write does not change. -/
theorem core_setHere_but {α : Type} {x : Core} (f : Core → α) (h : f x = f s.here) (c : Nat) :
    f ((s.setHere x).core c) = f (s.core c) := by
  rw [State.setHere, core_setCore]
  split
  next here => rw [h, ← here]; rfl
  next => rfl

/-- What of the running core is seen once the slot has gone on. -/
theorem Rest.here {x : Core} {α : Type} (r : Rest s (s.setHere x) t) (f : Core → α)
    (hf : ∀ y : Core, f { y with slots := [] } = f y) : f t.here = f x := by
  rw [State.here, cur_of_samePackage r.package]
  exact (core_of_sameCore (r.cores _) f hf).trans (congrArg f (here_setHere s x))

/-! ### The skip map (08 R212) -/

/-- A word of the map holds what was written, and the others are as they were. -/
theorem getLsbD_putWord (m : BitVec 4096) (k : Nat) (v : Reg) {j : Nat} (hj : j < 4096) : (putWord m k v).getLsbD j
    = if 64 * k ≤ j ∧ j < 64 * k + 64 then v.getLsbD (j - 64 * k) else m.getLsbD j := by
  unfold putWord
  simp only [BitVec.getLsbD_or, BitVec.getLsbD_and, BitVec.getLsbD_not, BitVec.getLsbD_shiftLeft, BitVec.getLsbD_setWidth,
    BitVec.getLsbD_allOnes, hj, decide_true, Bool.true_and]
  by_cases low : j < 64 * k
  · simp [low, Nat.not_le.mpr low]
  · have low' : 64 * k ≤ j := Nat.not_lt.mp low
    have within : j - 64 * k < 4096 := by omega
    by_cases high : j < 64 * k + 64
    · have : j - 64 * k < 64 := by omega
      simp [low, low', high, within, this]
    · have : ¬ j - 64 * k < 64 := by omega
      simp [low, low', high, within, this, BitVec.getLsbD_of_ge v (j - 64 * k) (by omega)]

theorem skwr_puts (s : State) (a b : BitVec 5) : Completes (.skwr a b) s (fun t =>
    (∀ j, j < 4096 → t.here.skip.getLsbD j = if 64 * ((s.g a).toNat % 64) ≤ j ∧ j < 64 * ((s.g a).toNat % 64) + 64
        then (s.g b).getLsbD (j - 64 * ((s.g a).toNat % 64)) else s.here.skip.getLsbD j)
      ∧ SameSlotButPc s t ∧ Advanced s t ∧ OtherSlots s t ∧ SamePackage s t
      ∧ ∀ c, { t.core c with slots := [], skip := 0 } = { s.core c with slots := [], skip := 0 }) := by
  let x : Core := { s.here with skip := putWord s.here.skip ((s.g a).toNat % 64) (s.g b) }
  obtain ⟨next, slot, rest⟩ := adv_of_sameMe (sameMe_setHere (s := s) (x := x) rfl)
  have outside : SamePackage s (s.setHere x) := rfl
  refine ⟨_, (simple_legal rfl : execSkwr a b s = _), fun j hj => ?_, slot, next, otherSlots_setHere (x := x) rfl rest,
    rest.package.trans outside, fun c => ?_⟩
  · rw [← getLsbD_putWord _ _ _ hj]
    exact congrArg (BitVec.getLsbD · j) (rest.here Core.skip fun _ => rfl)
  · exact (core_of_sameCore (rest.cores c) (fun y => { y with slots := [], skip := 0 }) fun _ => rfl).trans
      (core_setHere_but (s := s) (x := x) (fun y => { y with slots := [], skip := 0 }) rfl c)

/-! ### Strides (08 R216) -/

/-- What SRW leaves: the old stride in a register, and the strides as a function gives them. -/
def SetsStride (s : State) (d : BitVec 5) (n : BitVec 3) (strides : Nat → BitVec 16) (t : State) : Prop :=
  WritesG s t d ((Tab.get (0 : BitVec 16) s.here.s n.toNat).setWidth 64) ∧ (∀ j, Tab.get (0 : BitVec 16) t.here.s j = strides j)
    ∧ SameSlotButG s t ∧ Advanced s t ∧ OtherSlots s t ∧ SamePackage s t
    ∧ ∀ c, { t.core c with slots := [], s := [] } = { s.core c with slots := [], s := [] }

/-- With g0 no stride is set. -/
theorem srw_reads (s : State) (d : BitVec 5) (n : BitVec 3) :
    Completes (.srw d 0 n) s (SetsStride s d n (Tab.get 0 s.here.s)) := by
  obtain ⟨writes, next, slot, package, -, cores, others⟩ :=
    setG_adv_gives s d ((Tab.get (0 : BitVec 16) s.here.s n.toNat).setWidth 64)
  refine ⟨_, (simple_legal rfl : execSrw d 0 n s = _), writes, fun j => ?_, slot, next, others, package, fun c => ?_⟩
  · rw [State.here, if_pos rfl, cur_of_samePackage package]
    exact core_of_sameCore (cores _) (fun x => Tab.get 0 x.s j) fun _ => rfl
  · exact core_of_sameCore (cores c) (fun x => { x with slots := [], s := [] }) fun _ => rfl

theorem srw_sets (s : State) (d : BitVec 5) (n : BitVec 3) (h : a ≠ 0) : Completes (.srw d a n) s
    (SetsStride s d n fun j => if j = n.toNat then (s.g a).setWidth 16 else Tab.get 0 s.here.s j) := by
  let x : Core := { s.here with s := Tab.set 0 s.here.s n.toNat ((s.g a).setWidth 16) }
  have kept : SameMe s (s.setHere x) := sameMe_setHere rfl
  obtain ⟨writes, next, slot, rest⟩ := result_of_sameMe kept d ((Tab.get (0 : BitVec 16) s.here.s n.toNat).setWidth 64)
  have outside : SamePackage s (s.setHere x) := rfl
  refine ⟨_, (simple_legal rfl : execSrw d a n s = _), ?_⟩
  simp only [if_neg h]
  refine ⟨writes, fun j => ?_, slot, next, otherSlots_setHere (x := x) rfl rest, rest.package.trans outside, fun c => ?_⟩
  · refine (rest.here (fun y => Tab.get 0 y.s j) fun _ => rfl).trans ((get_set ..).trans ?_)
    simp only [eq_comm]
  · exact (core_of_sameCore (rest.cores c) (fun y => { y with slots := [], s := [] }) fun _ => rfl).trans
      (core_setHere_but (s := s) (x := x) (fun y => { y with slots := [], s := [] }) rfl c)

/-! ### EWAIT (08 R200) -/

/-- Whether the slot has a command of its running task in a queue. -/
theorem pending_ne_zero (q : List Cmd) (k uid : Nat) :
    decide (pending q k uid ≠ 0) = q.any (fun m => m.slot = k && m.uid = uid) := by
  rw [pending, Bool.eq_iff_iff, decide_eq_true_eq, List.any_eq_true, ne_eq, List.length_eq_zero_iff, List.filter_eq_nil_iff]
  simp

/-- The slot without the sticky status of an engine. -/
def unstuck (x : Slot) (data : Bool) : Slot := if data then { x with dsticky := .reset } else { x with msticky := .reset }

/-- The word of EWAIT for an engine. -/
def ewaitOf (s : State) (data pend : Bool) : Reg :=
  if data then ewaitWord pend s.here.drseq s.me.dqseq s.me.dsticky else ewaitWord pend s.here.mrseq s.me.mqseq s.me.msticky

/-- Whether EWAIT finds a command of the slot that is to retire. -/
def ewaitPends (s : State) (data : Bool) : Bool := decide (pending (s.here.queue data) s.cur.slot s.uid ≠ 0)

theorem becomes_unstuck (s : State) (data : Bool) (d : BitVec 5) (v : Reg) :
    Becomes s { (unstuck s.me data).setG d v with pc := s.after } (((s.setMe (unstuck s.me data)).setG d v).adv) := by
  have set := (setMe_becomes s (unstuck s.me data)).setG d v
  have after : ((s.setMe (unstuck s.me data)).setG d v).after = s.after := by
    refine set.after_eq ((pc_setG ..).trans ?_)
    unfold unstuck
    split <;> rfl
  have next := set.goto s.after
  rwa [State.adv, after]

/-- What EWAIT leaves, of whatever word: the status of the engine is cleared, and nothing else is but the register. -/
theorem unstuck_leaves (s : State) (data : Bool) (d : BitVec 5) (v : Reg) :
    let t := ((s.setMe (unstuck s.me data)).setG d v).adv
    WritesG s t d v ∧ Advanced s t ∧ t.me.dsticky = (if data then .reset else s.me.dsticky)
      ∧ t.me.msticky = (if data then s.me.msticky else .reset)
      ∧ { t.me with g := [], pc := 0, dsticky := .reset, msticky := .reset }
        = { s.me with g := [], pc := 0, dsticky := .reset, msticky := .reset }
      ∧ OnlyMe s t ∧ t.me.wait = s.me.wait := by
  have h := becomes_unstuck s data d v
  have but : { (unstuck s.me data).setG d v with g := [], pc := 0, dsticky := .reset, msticky := .reset }
      = { unstuck s.me data with g := [], pc := 0, dsticky := .reset, msticky := .reset } :=
    congrArg (fun x : Slot => { x with pc := 0, dsticky := .reset, msticky := .reset }) (but_g_setG (unstuck s.me data) d v)
  refine ⟨fun r => ?_, ?_, ?_, ?_, ?_, h.onlyMe, ?_⟩
  · rw [State.g, h.me]
    refine (Slot.gReg_setG (unstuck s.me data) d r v).trans ?_
    cases data <;> rfl
  · rw [Advanced, State.base, h.me]
  · rw [h.me]
    refine (Slot.setG_dsticky (unstuck s.me data) d v).trans ?_
    cases data <;> rfl
  · rw [h.me]
    refine (Slot.setG_msticky (unstuck s.me data) d v).trans ?_
    cases data <;> rfl
  · rw [h.me]
    refine but.trans ?_
    cases data <;> rfl
  · rw [h.me]
    refine (Slot.setG_wait (unstuck s.me data) d v).trans ?_
    cases data <;> rfl

section

variable (ready : Ready s)

include ready

theorem exec_ewait_answers (h : ewaitPends s ((s.g a).getLsbD 0) = false ∨ (s.g a).getLsbD 1 = true) :
    exec (.ewait d a) s = .next (((s.setMe (unstuck s.me ((s.g a).getLsbD 0))).setG d
      (ewaitOf s ((s.g a).getLsbD 0) (ewaitPends s ((s.g a).getLsbD 0)))).adv) := by
  obtain ⟨-, -, -, -, -, -, wait⟩ := unstuck_leaves s ((s.g a).getLsbD 0) d
    (ewaitOf s ((s.g a).getLsbD 0) (ewaitPends s ((s.g a).getLsbD 0)))
  refine exec_of_next (rfl : _ = execEwait d a s) rfl ready ?_ (wait.trans ready)
  have goes : ¬ (ewaitPends s ((s.g a).getLsbD 0) && !(s.g a).getLsbD 1) = true := by
    rw [Bool.and_eq_true, Bool.not_eq_true']
    rintro ⟨pends, waits⟩
    rcases h with h | h
    · rw [pends] at h; cases h
    · rw [waits] at h; cases h
  rw [ewaitPends] at goes
  simp only [Act.get_bind, if_neg goes, Act.set_bind, Act.result_apply]
  rfl

theorem ewait_parks (pends : ewaitPends s ((s.g a).getLsbD 0) = true) (waits : (s.g a).getLsbD 1 = false) :
    Completes (.ewait d a) s (Parks s · (.engine ((s.g a).getLsbD 0))) := by
  refine ⟨_, ?_, park_parks s _ (.ewait d a)⟩
  change execEwait d a s = _
  refine (run_ready rfl ready).trans (congrArg Host.Outcome.next (Act.next_park (t := s.park _) ?_ (by simp [wait_park])))
  have stays : (ewaitPends s ((s.g a).getLsbD 0) && !(s.g a).getLsbD 1) = true := by rw [pends, waits]; rfl
  rw [ewaitPends] at stays
  simp only [Act.get_bind, if_pos stays, Act.park_apply]

end

/-! ### The statement -/

/-- Settles O20 (log 34): a word of the skip map (`getLsbD_putWord`), a stride (`srw_reads`, `srw_sets`), and EWAIT, which
answers or parks. -/
theorem engineRegisters : Obligations.EngineRegisters := by
  unfold Obligations.EngineRegisters
  refine ⟨fun s d a b n => ?_, fun s d a ready => ?_⟩
  · intro k stride
    refine ⟨completes_setG (fun s => s.here.skip.extractLsb' (64 * ((s.g a).toNat % 64)) 64) rfl rfl, skwr_puts s a b, ?_⟩
    by_cases zero : a = 0
    · subst zero
      exact completes_imp (srw_reads s d n) fun t ⟨writes, strides, rest⟩ =>
        ⟨writes, fun j => (strides j).trans (if_neg fun h => h.1 rfl).symm, rest⟩
    · exact completes_imp (srw_sets s d n zero) fun t ⟨writes, strides, rest⟩ =>
        ⟨writes, fun j => (strides j).trans (by simp only [stride, ne_eq, zero, not_false_eq_true, true_and]), rest⟩
  · intro data queue pend y word
    have pends : ewaitPends s data = pend := by
      rw [ewaitPends, pending_ne_zero]
      simp only [pend, queue]
      cases data <;> rfl
    have answer : ewaitOf s data pend = word := by
      simp only [ewaitOf, word, y]
      cases data <;> rfl
    refine ⟨fun goes => ?_, fun waits blocks => ewait_parks ready (pends.trans waits) blocks⟩
    rw [← pends] at goes answer
    obtain ⟨writes, next, dsticky, msticky, rest, only, -⟩ := unstuck_leaves s data d (ewaitOf s data (ewaitPends s data))
    exact ⟨_, exec_ewait_answers ready goes, answer ▸ writes, next, dsticky, msticky, rest, only⟩

end Sys2Proof.Laws
end

section
/-! PROOFS: how a command retires: its rings, its claims, its counter and the sticky status of its slot (08 R193, R198, R200). -/

namespace Sys2Proof.Laws

open Machine Safety

variable {s t u : State} {c : Nat} {data : Bool} {m : Cmd} {flags : BitVec 5} {reason : Nat}

/-! ### Rings moved one after the other -/

/-- Slots freed, or filled, of some rings of a core. -/
def moveRings (f : Ring → Nat → Ring) (c : Nat) (xs : List (Nat × Nat)) (s : State) : State :=
  xs.foldl (fun s x => match (s.core c).ring x.1 with
    | some r => s.putRing c x.1 (f r x.2)
    | none => s) s

/-- One of them. -/
def moveRing (f : Ring → Nat → Ring) (c : Nat) (x : Nat × Nat) (s : State) : State := match (s.core c).ring x.1 with
  | some r => s.putRing c x.1 (f r x.2)
  | none => s

theorem moveRings_cons (f : Ring → Nat → Ring) (c : Nat) (x : Nat × Nat) (xs : List (Nat × Nat)) (s : State) :
    moveRings f c (x :: xs) s = moveRings f c xs (moveRing f c x s) := rfl

theorem ringsMoved_moveRing (f : Ring → Nat → Ring) (c : Nat) (x : Nat × Nat) (s : State) : RingsMoved s (moveRing f c x s) := by
  unfold moveRing
  split
  · exact ringsMoved_putRing ..
  · exact .refl s

theorem ringsMoved_moveRings (f : Ring → Nat → Ring) (c : Nat) (xs : List (Nat × Nat)) (s : State) :
    RingsMoved s (moveRings f c xs s) := by
  induction xs generalizing s with
  | nil => exact .refl s
  | cons x xs ih => exact (ringsMoved_moveRing f c x s).trans (ih _)

theorem ring_moveRing (f : Ring → Nat → Ring) (c : Nat) (x : Nat × Nat) (s : State) (q : Nat) :
    ((moveRing f c x s).core c).ring q
      = if x.1 = q then ((s.core c).ring q).map (f · x.2) else (s.core c).ring q := by
  unfold moveRing
  split
  next r opened =>
    rw [ring_putRing]
    split
    next same => rw [← same, opened]; rfl
    next => rfl
  next closed =>
    split
    next same => rw [← same, closed]; rfl
    next => rfl

/-- A ring that is not among them stays as it is. -/
theorem ring_moveRings_apart (f : Ring → Nat → Ring) (c : Nat) {xs : List (Nat × Nat)} (s : State) {q : Nat}
    (apart : q ∉ xs.map (·.1)) : ((moveRings f c xs s).core c).ring q = (s.core c).ring q := by
  induction xs generalizing s with
  | nil => rfl
  | cons x xs ih =>
    rw [List.map_cons, List.mem_cons, not_or] at apart
    obtain ⟨first, rest⟩ := apart
    rw [moveRings_cons, ih _ rest, ring_moveRing, if_neg (Ne.symm first)]

/-- One that is named once moves once. -/
theorem ring_moveRings (f : Ring → Nat → Ring) (c : Nat) {xs : List (Nat × Nat)} (s : State) (once : (xs.map (·.1)).Nodup)
    {x : Nat × Nat} (hx : x ∈ xs) : ((moveRings f c xs s).core c).ring x.1 = ((s.core c).ring x.1).map (f · x.2) := by
  induction xs generalizing s with
  | nil => cases hx
  | cons y xs ih =>
    rw [List.map_cons, List.nodup_cons] at once
    obtain ⟨first, once⟩ := once
    rw [moveRings_cons]
    rcases List.mem_cons.mp hx with rfl | hx
    · rw [ring_moveRings_apart f c _ first, ring_moveRing, if_pos rfl]
    · have other : y.1 ≠ x.1 := fun same => first (same ▸ List.mem_map_of_mem hx)
      rw [ih _ once hx, ring_moveRing, if_neg other]

/-! ### The handles of a command -/

theorem length_eraseDups_le {α : Type} [BEq α] [LawfulBEq α] (l : List α) : l.eraseDups.length ≤ l.length := by
  induction h : l.length using Nat.strong_induction_on generalizing l with
  | h n ih =>
    cases l with
    | nil => simp
    | cons a l =>
      have fewer := List.length_filter_le (fun b => !b == a) l
      have kept := ih _ (by rw [← h, List.length_cons]; omega) (l.filter fun b => !b == a) rfl
      rw [List.eraseDups_cons, List.length_cons, ← h, List.length_cons]
      omega

/-- A list in which dropping repetitions drops nothing repeats nothing. -/
theorem nodup_of_length_eraseDups {α : Type} [BEq α] [LawfulBEq α] {l : List α} (h : l.length ≤ l.eraseDups.length) : l.Nodup := by
  induction l with
  | nil => exact List.nodup_nil
  | cons a l ih =>
    rw [List.eraseDups_cons, List.length_cons, List.length_cons] at h
    have kept := length_eraseDups_le (l.filter fun b => !b == a)
    have fewer := List.length_filter_le (fun b => !b == a) l
    have all : l.filter (fun b => !b == a) = l := List.filter_sublist.eq_of_length (by omega)
    rw [all] at h
    refine List.nodup_cons.mpr ⟨fun mem => ?_, ih (by omega)⟩
    have kept := List.filter_eq_self.mp all a mem
    simp at kept

/-- The handles of a command that is right about its rings are named once. -/
theorem nodup_of_ringsRight (right : s.ringsWrong c m = false) : ((m.sources ++ m.dests).map (·.1)).Nodup := by
  have fewer : ¬ ((m.sources ++ m.dests).map (·.1)).eraseDups.length < ((m.sources ++ m.dests).map (·.1)).length := by
    rw [State.ringsWrong] at right
    simpa using (Bool.or_eq_false_iff.mp right).1
  exact nodup_of_length_eraseDups (Nat.not_lt.mp fewer)

theorem pops_sublist (m : Cmd) : (m.pops.map (·.1)).Sublist (m.sources.map (·.1)) := by
  unfold Cmd.pops
  split
  · exact List.nil_sublist _
  · rw [List.map_map]
    exact List.Sublist.refl _

theorem pushes_names (m : Cmd) : m.pushes.map (·.1) = m.dests.map (·.1) := by
  rw [Cmd.pushes, List.map_map]
  rfl

/-! ### What a command leaves before its counter is updated -/

/-- The rings of a command as it retires: moved, if it completes. -/
def ringsRetired (s : State) (c : Nat) (m : Cmd) (ok : Bool) : State :=
  if ok then moveRings Ring.push c m.pushes (moveRings Ring.pop c m.pops s) else s

/-- The command has left its queue, and its claims are gone. -/
def leftQueue (s : State) (c : Nat) (data : Bool) (m : Cmd) (ok : Bool) : State :=
  let u := ringsRetired s c m ok
  { u.setCore c ((u.core c).dequeue data m.seq) with
    claims := u.claims.filter (fun q => !(q.core = c && q.data == data && q.seq == m.seq)) }

/-- Its counter, if a live one is named, is updated. -/
def counted (u : State) (ctr : Option Nat) (or' : BitVec 32) : State := match ctr with
  | some p => if u.live p then u.cntUpdate p (-1) or' else u
  | none => u

/-- The sticky status of its slot takes its flags and its error, while the slot still runs the task that queued it. -/
def noted (u : State) (c : Nat) (data : Bool) (m : Cmd) (flags : BitVec 5) (reason : Nat) : State :=
  if (u.slotAt c m.slot).runId = m.uid && m.uid ≠ 0 then u.setSlotAt c m.slot ((u.slotAt c m.slot).note data flags reason) else u

/-- The bits that a counter takes of a retired command. -/
def retiredBits (data : Bool) (flags : BitVec 5) (reason : Nat) : BitVec 32 :=
  flags.setWidth 32 ||| (if reason = 0 then 0 else statusErr)
    ||| (if data && completes data reason && reason ≠ 0 && reason ≠ 8 then statusPart else 0)

/-- The reason that the slot is told: a counter that is not live is one, if there is no other. -/
def retiredReason (u : State) (ctr : Option Nat) (reason : Nat) : Nat :=
  if (match ctr with | some p => u.live p | none => true) then reason else firstReason reason 8

theorem retire_eq (s : State) (c : Nat) (data : Bool) (m : Cmd) (flags : BitVec 5) (reason : Nat) :
    s.retire c data m flags reason =
      let u := leftQueue s c data m (completes data reason)
      (noted (counted u (s.cmdCounter c m) (retiredBits data flags reason)) c data m flags
        (retiredReason u (s.cmdCounter c m) reason)).wakeEngine c data := by
  unfold State.retire
  extract_lets ok ctr popped pushed left unclaimed err part live updated told x told' u
  have rings : pushed = ringsRetired s c m ok := by
    unfold ringsRetired
    simp only [pushed, popped]
    split
    · rfl
    · rfl
  clear_value pushed
  subst rings
  rfl

/-! ### What an engine shows of its core -/

/-- What a core shows beside its slots, its handles and the entries that wait to run. -/
def engineCore (x : Core) : Core := { x with slots := [], q := [], ready := [], waiting := [] }

theorem engineCore_dequeue (x : Core) (seq : BitVec 16) : engineCore (x.dequeue data seq) = (engineCore x).dequeue data seq := by
  cases data <;> rfl

theorem queue_engineCore (x : Core) (data : Bool) : (engineCore x).queue data = x.queue data := by cases data <;> rfl

theorem RingsMoved.engine (h : RingsMoved s u) (c : Nat) : engineCore (u.core c) = engineCore (s.core c) :=
  h.field engineCore (fun _ => rfl) c

theorem engine_of_seat (h : seat u = seat s) (c : Nat) : engineCore (u.core c) = engineCore (s.core c) := by
  obtain ⟨-, cores⟩ := Prod.mk.inj h
  rw [core_of_cores cores]

theorem engine_setCore {x : Core} (h : engineCore x = engineCore (s.core c)) (c' : Nat) :
    engineCore ((s.setCore c x).core c') = engineCore (s.core c') := by
  rw [core_setCore]
  split
  next same => rw [h, same]
  next => rfl

theorem engine_mapSlots (s : State) (f : Nat → Nat → Slot → Slot) (c : Nat) :
    engineCore ((s.mapSlots f).core c) = engineCore (s.core c) := by
  rw [core_mapSlots]
  rfl

theorem engine_setReady (s : State) (c : Nat) (es : List Entry) (c' : Nat) :
    engineCore ((s.setReady c es).core c') = engineCore (s.core c') := by
  rw [core_setReady]
  split
  next same => rw [same]; rfl
  next => rfl

theorem engine_admitTask (s : State) (c : Nat) (r : Record) (addr : Reg) (root : Nat) (o : Origin) (c' : Nat) :
    engineCore ((s.admitTask c r addr root o).core c') = engineCore (s.core c') := by
  unfold State.admitTask State.admitEntry
  split
  · exact engine_setCore (s := { s with stamp := s.stamp + 1 }) (by rfl) c'
  · exact engine_setReady { s with stamp := s.stamp + 1 } c _ c'

/-- The read of a bound record, and the task that it makes ready, concern no engine. -/
theorem engine_bound (s : State) (f : Fired) (c : Nat) : engineCore ((s.bound f).core c) = engineCore (s.core c) := by
  unfold State.bound
  extract_lets vf u
  have walked : seat u = seat s := seat_ite (seat_useHomes ..) rfl
  split
  next => rfl
  next tenant l _ => exact engine_of_seat (seat_askLine s tenant l) c
  next e l _ =>
    extract_lets v
    refine engine_of_seat ((seat_report v _).trans ?_) c
    cases l with
    | none => exact walked
    | some l => exact (seat_ite (seat_faqAdd ..) (seat_noteError ..)).trans walked
  next r used _ =>
    exact (engine_admitTask ..).trans (engine_of_seat ((seat_map_getD _ _ fun _ => seat_useHome ..).trans walked) c)

theorem engine_fire (s : State) (p c : Nat) : engineCore ((s.fire p).core c) = engineCore (s.core c) := by
  unfold State.fire
  extract_lets u
  have woken : engineCore (u.core c) = engineCore (s.core c) := engine_mapSlots ..
  split
  · exact woken
  · split
    · exact woken
    · exact (engine_bound _ _ c).trans woken

theorem engine_cntUpdate (s : State) (p : Nat) (add : Int) (or' : BitVec 32) (c : Nat) :
    engineCore ((s.cntUpdate p add or').core c) = engineCore (s.core c) := by
  unfold State.cntUpdate
  extract_lets old new u
  split
  · exact engine_of_seat (seat_noteError ..) c
  · split
    · exact engine_fire u p c
    · rfl

theorem engine_counted (u : State) (ctr : Option Nat) (or' : BitVec 32) (c : Nat) :
    engineCore ((counted u ctr or').core c) = engineCore (u.core c) := by
  cases ctr with
  | none => rfl
  | some p =>
    unfold counted
    dsimp only
    split
    · exact engine_cntUpdate ..
    · rfl

theorem engine_noted (u : State) (c : Nat) (data : Bool) (m : Cmd) (flags : BitVec 5) (reason c' : Nat) :
    engineCore ((noted u c data m flags reason).core c') = engineCore (u.core c') := by
  unfold noted
  split
  · exact engine_setCore (by rfl) c'
  · rfl

theorem ringsMoved_wakeEngine (s : State) (c : Nat) (data : Bool) : RingsMoved s (s.wakeEngine c data) := by
  unfold State.wakeEngine State.wakeEngine.wakeIf
  refine ringsMoved_mapSlots _ (fun c' k => ?_) fun c' k x => ?_
  · exact if_neg (by simp [Slot.reset])
  · split <;> rfl

theorem ringsMoved_ringsRetired (s : State) (c : Nat) (m : Cmd) (ok : Bool) : RingsMoved s (ringsRetired s c m ok) := by
  unfold ringsRetired
  split
  · exact (ringsMoved_moveRings ..).trans (ringsMoved_moveRings ..)
  · exact .refl s

/-- A command that retires changes of the engines its own queue alone. -/
theorem engine_retire (s : State) (c : Nat) (data : Bool) (m : Cmd) (flags : BitVec 5) (reason c' : Nat) :
    engineCore ((s.retire c data m flags reason).core c')
      = if c = c' then (engineCore (s.core c)).dequeue data m.seq else engineCore (s.core c') := by
  rw [retire_eq]
  dsimp only
  rw [(ringsMoved_wakeEngine ..).engine, engine_noted, engine_counted]
  have moved := ringsMoved_ringsRetired s c m (completes data reason)
  change engineCore (((ringsRetired s c m (completes data reason)).setCore c _).core c') = _
  rw [core_setCore]
  split
  · rw [engineCore_dequeue, moved.engine]
  · exact moved.engine c'

theorem queue_dequeue (x : Core) (data : Bool) (seq : BitVec 16) : (x.dequeue data seq).queue data = (x.queue data).drop 1 := by
  cases data <;> rfl

theorem queue_dequeue_other (x : Core) (data : Bool) (seq : BitVec 16) : (x.dequeue data seq).queue (!data) = x.queue (!data) := by
  cases data <;> rfl

theorem rseq_dequeue (x : Core) (data : Bool) (seq : BitVec 16) :
    (if data then (x.dequeue data seq).drseq else (x.dequeue data seq).mrseq) = seq := by
  cases data <;> rfl

/-- What the core of a retired command shows of the engines. -/
theorem engine_retire_here (s : State) (c : Nat) (data : Bool) (m : Cmd) (flags : BitVec 5) (reason : Nat) :
    engineCore ((s.retire c data m flags reason).core c) = (engineCore (s.core c)).dequeue data m.seq :=
  (engine_retire ..).trans (if_pos rfl)

theorem queue_retire (s : State) (c : Nat) (data : Bool) (m : Cmd) (flags : BitVec 5) (reason : Nat) :
    ((s.retire c data m flags reason).core c).queue data = ((s.core c).queue data).drop 1 := by
  rw [← queue_engineCore, engine_retire_here, queue_dequeue, queue_engineCore]

theorem queue_retire_other (s : State) (c : Nat) (data : Bool) (m : Cmd) (flags : BitVec 5) (reason : Nat) :
    ((s.retire c data m flags reason).core c).queue (!data) = (s.core c).queue (!data) := by
  rw [← queue_engineCore, engine_retire_here, queue_dequeue_other, queue_engineCore]

theorem rseq_retire (s : State) (c : Nat) (data : Bool) (m : Cmd) (flags : BitVec 5) (reason : Nat) :
    let x := (s.retire c data m flags reason).core c
    (if data then x.drseq else x.mrseq) = m.seq := by
  intro x
  have same : (if data then x.drseq else x.mrseq) = if data then (engineCore x).drseq else (engineCore x).mrseq := rfl
  rw [same, engine_retire_here, rseq_dequeue]

end Sys2Proof.Laws
end

section
/-! PROOFS: the queues of the engines as a whole: what a retired command leaves, with a counter and without, and how the command
at the head of a queue fails, waits and times out (08 R193, R198 to R200). -/

namespace Sys2Proof.Laws

open Machine Safety

variable {s t u : State} {c : Nat} {data ok : Bool} {m : Cmd} {flags : BitVec 5} {reason : Nat} {rest : List Cmd}

/-! ### The rings of a retired command (08 R193) -/

section

variable (right : s.ringsWrong c m = false)

include right

/-- A destination ring of a command that completes is filled. -/
theorem ring_ringsRetired_push {e : Nat × Nat} (he : e ∈ m.pushes) :
    ((ringsRetired s c m true).core c).ring e.1 = ((s.core c).ring e.1).map (Ring.push · e.2) := by
  have names := nodup_of_ringsRight right
  rw [List.map_append, List.nodup_append] at names
  obtain ⟨-, dests, apart⟩ := names
  rw [← pushes_names] at dests apart
  have other : e.1 ∉ m.pops.map (·.1) := fun mem =>
    apart _ ((pops_sublist m).subset mem) _ (List.mem_map_of_mem he) rfl
  rw [ringsRetired, if_pos rfl, ring_moveRings _ _ _ dests he, ring_moveRings_apart _ _ _ other]

/-- A source ring of one is freed. -/
theorem ring_ringsRetired_pop {e : Nat × Nat} (he : e ∈ m.pops) :
    ((ringsRetired s c m true).core c).ring e.1 = ((s.core c).ring e.1).map (Ring.pop · e.2) := by
  have names := nodup_of_ringsRight right
  rw [List.map_append, List.nodup_append] at names
  obtain ⟨sources, -, apart⟩ := names
  rw [← pushes_names] at apart
  have mem : e.1 ∈ m.pops.map (·.1) := List.mem_map_of_mem he
  have other : e.1 ∉ m.pushes.map (·.1) := fun pushed => apart _ ((pops_sublist m).subset mem) _ pushed rfl
  rw [ringsRetired, if_pos rfl, ring_moveRings_apart _ _ _ other, ring_moveRings _ _ _ (sources.sublist (pops_sublist m)) he]

end

theorem ring_dequeue (x : Core) (data : Bool) (seq : BitVec 16) (q : Nat) : (x.dequeue data seq).ring q = x.ring q := by
  cases data <;> rfl

theorem slots_dequeue (x : Core) (data : Bool) (seq : BitVec 16) : (x.dequeue data seq).slots = x.slots := by cases data <;> rfl

theorem ring_leftQueue (s : State) (c : Nat) (data : Bool) (m : Cmd) (ok : Bool) (q : Nat) :
    ((leftQueue s c data m ok).core c).ring q = ((ringsRetired s c m ok).core c).ring q := by
  change (((ringsRetired s c m ok).setCore c _).core c).ring q = _
  rw [core_setCore, if_pos rfl, ring_dequeue]

theorem slotAt_leftQueue (s : State) (c : Nat) (data : Bool) (m : Cmd) (ok : Bool) (c' k : Nat) :
    (leftQueue s c data m ok).slotAt c' k = (ringsRetired s c m ok).slotAt c' k :=
  slotAt_setCore_of_slots (s := ringsRetired s c m ok) (slots_dequeue ..) c' k

theorem byte_leftQueue (s : State) (c : Nat) (data : Bool) (m : Cmd) (ok : Bool) (p : Nat) :
    (leftQueue s c data m ok).byte p = s.byte p := (ringsMoved_ringsRetired s c m ok).bytes p

/-- What the package shows beside its cores and its claims. -/
theorem field_leftQueue (s : State) (c : Nat) (data : Bool) (m : Cmd) (ok : Bool) {α : Type} (f : State → α)
    (hf : ∀ u : State, f { u with cores := [], claims := [] } = f u) : f (leftQueue s c data m ok) = f s := by
  have package := (ringsMoved_ringsRetired s c m ok).package
  rw [← hf, ← hf s]
  exact congrArg (fun u : State => f { u with claims := [] }) package

theorem ring_noted (u : State) (c : Nat) (data : Bool) (m : Cmd) (flags : BitVec 5) (reason q : Nat) :
    ((noted u c data m flags reason).core c).ring q = (u.core c).ring q := by
  unfold noted
  split
  · rw [State.setSlotAt, core_setCore, if_pos rfl]
    rfl
  · rfl

theorem byte_noted (u : State) (p : Nat) : (noted u c data m flags reason).byte p = u.byte p := by
  unfold noted
  split <;> rfl

/-! ### Without a counter (08 R198, R200) -/

section

variable (plain : m.ctr = none)

include plain

theorem cmdCounter_of_plain : s.cmdCounter c m = none := by rw [State.cmdCounter, plain]

theorem retire_of_plain : s.retire c data m flags reason
    = (noted (leftQueue s c data m (completes data reason)) c data m flags reason).wakeEngine c data := by
  rw [retire_eq, cmdCounter_of_plain plain]
  rfl

theorem ring_retire (q : Nat) : ((s.retire c data m flags reason).core c).ring q
    = ((ringsRetired s c m (completes data reason)).core c).ring q := by
  rw [retire_of_plain plain, State.wakeEngine, State.wakeEngine.wakeIf, ring_mapSlots, ring_noted, ring_leftQueue]

theorem claims_retire : (s.retire c data m flags reason).claims
    = s.claims.filter (fun q => !(q.core = c && q.data == data && q.seq == m.seq)) := by
  have claims : (ringsRetired s c m (completes data reason)).claims = s.claims :=
    field_of_samePackage (ringsMoved_ringsRetired s c m _).package State.claims fun _ => rfl
  have note (u : State) : (noted u c data m flags reason).claims = u.claims := by
    unfold noted
    split <;> rfl
  rw [retire_of_plain plain]
  refine (note _).trans ?_
  rw [← claims]
  rfl

theorem sameBytes_retire : SameBytes s (s.retire c data m flags reason) := by
  intro p
  rw [retire_of_plain plain]
  exact (byte_noted _ p).trans (byte_leftQueue ..)

/-- The sticky status of the slot that queued it. -/
theorem sticky_retire (runs : (s.slotAt c m.slot).runId = m.uid) (task : m.uid ≠ 0) :
    let x := (s.retire c data m flags reason).slotAt c m.slot
    let y := (s.slotAt c m.slot).note data flags reason
    (if data then x.dsticky else x.msticky) = if data then y.dsticky else y.msticky := by
  have moved := ringsMoved_ringsRetired s c m (completes data reason)
  have runs' : ((leftQueue s c data m (completes data reason)).slotAt c m.slot).runId = m.uid := by
    rw [slotAt_leftQueue, moved.slot Slot.runId (fun _ => rfl), runs]
  have sticky (f : Slot → Sticky) (hf : ∀ x : Slot, f { x with wait := .none } = f x)
      (hn : ∀ x y : Slot, f x = f y → x.msticky = y.msticky → x.dsticky = y.dsticky
        → f (x.note data flags reason) = f (y.note data flags reason)) :
      f ((s.retire c data m flags reason).slotAt c m.slot) = f ((s.slotAt c m.slot).note data flags reason) := by
    rw [retire_of_plain plain, (ringsMoved_wakeEngine ..).slot f hf, noted, if_pos (by simp [runs', task]), slotAt_setSlotAt,
      if_pos ⟨rfl, rfl⟩, slotAt_leftQueue]
    exact hn _ _ (moved.slot f hf ..) (moved.slot Slot.msticky (fun _ => rfl) ..) (moved.slot Slot.dsticky (fun _ => rfl) ..)
  intro x y
  cases data with
  | true => exact sticky Slot.dsticky (fun _ => rfl) fun x y _ _ d => by simp only [Slot.note, d]; rfl
  | false => exact sticky Slot.msticky (fun _ => rfl) fun x y _ m _ => by simp only [Slot.note, m]; rfl

end

/-! ### With a counter (06 R160, 08 R198) -/

section

variable {p : Nat} {add : Int} {or' : BitVec 32}

/-- The words of a counter once it has been updated. -/
def cntWrites (u : State) (p : Nat) (add : Int) (or' : BitVec 32) : State :=
  (u.pokeNat p 4 (clamp32 ((u.cntValue p).toInt + add)).toNat).pokeNat (p + 4) 4 (u.cntStatus p ||| or').toNat

theorem cntValue_cntWrites (u : State) (p : Nat) (add : Int) (or' : BitVec 32) :
    (cntWrites u p add or').cntValue p = clamp32 ((u.cntValue p).toInt + add) := by
  rw [State.cntValue, cntWrites, peek_pokeNat_apart _ _ (by omega), leNat_peek_pokeNat, ofNat_toNat_mod]

theorem cntStatus_cntWrites (u : State) (p : Nat) (add : Int) (or' : BitVec 32) :
    (cntWrites u p add or').cntStatus p = u.cntStatus p ||| or' := by
  rw [State.cntStatus, cntWrites, leNat_peek_pokeNat, ofNat_toNat_mod]

theorem cntBind_cntWrites (u : State) (p : Nat) (add : Int) (or' : BitVec 32) :
    (cntWrites u p add or').cntBind p = u.cntBind p := by
  rw [State.cntBind, cntWrites, peek_pokeNat_apart _ _ (by omega), peek_pokeNat_apart _ _ (by omega), State.cntBind]

theorem byte_cntWrites (u : State) (p : Nat) (add : Int) (or' : BitVec 32) {q : Nat} (h : ¬ (p ≤ q ∧ q < p + 8)) :
    (cntWrites u p add or').byte q = u.byte q := by
  rw [cntWrites, byte_pokeNat_outside _ _ (by omega), byte_pokeNat_outside _ _ (by omega)]

/-- A counter that is not bound wakes its waiters when it fires, which memory does not show. -/
theorem mem_fire_unbound (u : State) (h : u.cntBind p = 0) : (u.fire p).mem = u.mem := by
  have bind : (u.wake (fun _ _ w => w == .counter p) ((u.cntStatus p).setWidth 64)).cntBind p = 0 := h
  unfold State.fire
  extract_lets v
  split
  · rfl
  · rw [if_pos bind]
    rfl

/-- Of an update of a counter that can be read and is not bound, memory shows the two words. -/
theorem mem_cntUpdate (u : State) (readable : u.cntBad p = false) (unbound : u.cntBind p = 0) :
    (u.cntUpdate p add or').mem = (cntWrites u p add or').mem := by
  have unbound : (cntWrites u p add or').cntBind p = 0 := (cntBind_cntWrites ..).trans unbound
  unfold State.cntUpdate
  simp only [readable, Bool.false_eq_true, if_false]
  split
  · exact mem_fire_unbound _ unbound
  · rfl

theorem byte_of_mem (h : t.mem = u.mem) (q : Nat) : t.byte q = u.byte q := by rw [State.byte, h, State.byte]

theorem peek_of_mem (h : t.mem = u.mem) (q n : Nat) : t.peek q n = u.peek q n := peek_congr fun r _ _ => byte_of_mem h r

/-- Of a command with a live counter that is not bound, memory shows the two words of the counter. -/
theorem mem_retire (counts : s.cmdCounter c m = some p) (live : s.live p = true) (readable : s.cntBad p = false)
    (unbound : s.cntBind p = 0) : (s.retire c data m flags reason).mem
      = (cntWrites (leftQueue s c data m (completes data reason)) p (-1) (retiredBits data flags reason)).mem := by
  have note (u : State) (r : Nat) : (noted u c data m flags r).mem = u.mem := by
    unfold noted
    split <;> rfl
  have live : (leftQueue s c data m (completes data reason)).live p = true :=
    (field_leftQueue s c data m _ (State.live · p) fun _ => rfl).trans live
  have readable : (leftQueue s c data m (completes data reason)).cntBad p = false :=
    (field_leftQueue s c data m _ (State.cntBad · p) fun _ => rfl).trans readable
  have unbound : (leftQueue s c data m (completes data reason)).cntBind p = 0 :=
    (field_leftQueue s c data m _ (State.cntBind · p) fun _ => rfl).trans unbound
  rw [retire_eq, counts]
  refine (note _ _).trans ?_
  unfold counted
  dsimp only
  rw [if_pos live, mem_cntUpdate _ readable unbound]

end

/-- A count less by one, held to its range. -/
theorem clamp32_pred (x : BitVec 32) : clamp32 (x.toInt + -1) = BitVec.ofInt 32 (max (-2 ^ 31) (x.toInt - 1)) := by
  have high : x.toInt < 2 ^ 31 := x.toInt_lt
  rw [clamp32, min_eq_right (by omega)]
  rfl

/-- The bits that a counter takes, by the reasons of Table 8.8 with which a command is partial. -/
theorem retiredBits_eq (data : Bool) (flags : BitVec 5) (reason : Nat) : retiredBits data flags reason
    = flags.setWidth 32 ||| (if reason = 0 then 0 else 0x100)
      ||| (if data = true ∧ reason ∈ [4, 9, 10, 12] then 0x200 else 0) := by
  have part : (data && completes data reason && decide (reason ≠ 0) && decide (reason ≠ 8)) = true
      ↔ data = true ∧ reason ∈ [4, 9, 10, 12] := by
    cases data with
    | false => simp
    | true =>
      simp only [completes, Bool.true_and, Bool.and_eq_true, Bool.or_eq_true, decide_eq_true_eq, ne_eq, decide_not, Bool.not_eq_true',
        decide_eq_false_iff_not, List.mem_cons, List.not_mem_nil, or_false, true_and]
      omega
  rw [retiredBits, if_congr part rfl rfl]
  rfl

/-! ### The command at the head of a queue (08 R193, R198, R199) -/

section

variable {core : BitVec 12} {op : Nat} {why : State → Nat → Cmd → Option Nat}
  {next : State → Nat → Cmd → Option (List (Use × Reg × Nat))} {work : State → Nat → Cmd → Work}
  (head : (s.core core.toNat).queue data = m :: rest) (kind : m.op = op) (fresh : m.prog = none)

include head kind fresh

/-- A command whose rings are wrong retires with reason 1. -/
theorem engineRun_wrong (wrong : s.ringsWrong core.toNat m = true) :
    engineRun core data op why next work s = .next (s.retire core.toNat data m 0 1) := by
  unfold engineRun
  simp only [head, kind, Cmd.begun, fresh, wrong, ne_eq, not_true_eq_false, if_false, if_true, Option.isSome_none, Bool.false_eq_true]

/-- One whose rings do not hold what it needs yet waits. -/
theorem engineRun_unready (right : s.ringsWrong core.toNat m = false) (unready : s.ringsReady core.toNat m = false) :
    engineRun core data op why next work s = .next s := by
  unfold engineRun
  simp only [head, kind, Cmd.begun, fresh, right, unready, ne_eq, not_true_eq_false, if_false, if_true, Option.isSome_none,
    Bool.false_eq_true, Bool.not_false]

end

/-- A SCAN takes entries only where it begins. -/
theorem execScan_eq_of_rings {core : BitVec 12} (head : (s.core core.toNat).mixq = m :: rest)
    (rings : s.ringsWrong core.toNat m = true ∨ s.ringsReady core.toNat m = false) :
    execScan core s = engineRun core false 3 scanReason scanNext scanWork s := by
  have begins : s.scanBegins core.toNat m = false := by
    rcases rings with h | h <;> simp [State.scanBegins, h]
  unfold execScan
  simp only [head, begins, Bool.and_false, Bool.false_and, Bool.false_eq_true, if_false]

/-- The stall timeout fails a command that has waited for longer than its budget, if it still waits. -/
theorem exec_stallTimeout {core : BitVec 12} (head : (s.core core.toNat).queue data = m :: rest) :
    exec (.engineStallTimeout core data) s = if m.limit < m.waited && s.headWaits core.toNat data m
      then .next (s.retire core.toNat data m 0 5) else .next s := by
  change execEngineStallTimeout core data s = _
  unfold execEngineStallTimeout
  simp only [head]

/-! ### The statement -/

section

variable (plain : m.ctr = none)

include plain

theorem claims_gone {q : Claim} (hq : q ∈ (s.retire c data m flags reason).claims) :
    ¬ (q.core = c ∧ q.data = data ∧ q.seq = m.seq) := by
  rw [claims_retire plain, List.mem_filter] at hq
  rintro ⟨core, queue, seq⟩
  simp [core, queue, seq] at hq

/-- The rings of a command without an error are moved. -/
theorem rings_retire (right : s.ringsWrong c m = false) :
    (∀ e ∈ m.pushes, ∀ r, (s.core c).ring e.1 = some r →
        ((s.retire c data m flags 0).core c).ring e.1 = some (r.push e.2))
      ∧ ∀ e ∈ m.pops, ∀ r, (s.core c).ring e.1 = some r →
        ((s.retire c data m flags 0).core c).ring e.1 = some (r.pop e.2) := by
  refine ⟨fun e he r opened => ?_, fun e he r opened => ?_⟩
  · exact (ring_retire plain _).trans ((ring_ringsRetired_push right he).trans (by rw [opened]; rfl))
  · exact (ring_retire plain _).trans ((ring_ringsRetired_pop right he).trans (by rw [opened]; rfl))

/-- Those of one that fails are not. -/
theorem rings_failed (fails : completes data reason = false) (q : Nat) :
    ((s.retire c data m flags reason).core c).ring q = (s.core c).ring q := by
  rw [ring_retire plain, fails]
  rfl

end

theorem not_completes (data : Bool) (h : reason ∈ [1, 2, 3, 5, 6, 7, 11]) : completes data reason = false := by
  simp only [List.mem_cons, List.not_mem_nil, or_false] at h
  rcases h with rfl | rfl | rfl | rfl | rfl | rfl | rfl <;> cases data <;> rfl

/-- The instructions of the engines beside COLL and ECFG, each with its engine and its operation. -/
def engineInstrs (core : BitVec 12) : List (Bool × Nat × Instr) :=
  [(false, 0, .mma core), (false, 1, .bfly core), (false, 2, .bflyc core), (false, 3, .scan core),
   (false, 4, .tsig core), (false, 5, .tskip core), (false, 6, .tld core), (false, 7, .tst core),
   (false, 8, .tzero core), (false, 9, .tcvt core), (true, 11, .cpy core), (true, 12, .gth core), (true, 13, .sct core)]

/-- Each of them runs as an engine does, where the rings of the command at the head are wrong or wait. -/
theorem exec_engineInstrs {core : BitVec 12} {e : Bool × Nat × Instr} (he : e ∈ engineInstrs core)
    (head : (s.core core.toNat).queue e.1 = m :: rest)
    (rings : s.ringsWrong core.toNat m = true ∨ s.ringsReady core.toNat m = false) :
    ∃ why next work, exec e.2.2 s = engineRun core e.1 e.2.1 why next work s := by
  simp only [engineInstrs, List.mem_cons, List.not_mem_nil, or_false] at he
  rcases he with rfl | rfl | rfl | rfl | rfl | rfl | rfl | rfl | rfl | rfl | rfl | rfl | rfl
  case inr.inr.inr.inl => exact ⟨_, _, _, execScan_eq_of_rings head rings⟩
  all_goals exact ⟨_, _, _, rfl⟩

/-- Settles O22 (log 9, 92, 102, 107): a retired command by `retire_eq`, without a counter and with one (`mem_retire`); the
command at the head by `engineRun_wrong`, `engineRun_unready` and `exec_stallTimeout`. -/
theorem commandQueues : Obligations.CommandQueues := by
  unfold Obligations.CommandQueues
  refine ⟨?_, ?_, ?_, ?_⟩
  · intro s c data m rest flags reason head right plain _ t x y
    refine ⟨by rw [queue_retire, head]; rfl, queue_retire_other .., rseq_retire .., fun q => claims_gone plain, sameBytes_retire plain,
      fun runs task => ?_, fun fine => ?_, fun fails => rings_failed plain (not_completes data fails)⟩
    · refine (sticky_retire plain runs task).trans ?_
      cases data <;> rfl
    · subst fine
      exact rings_retire plain right
  · intro s c data m rest flags reason p head right counts live readable unbound _ _ t err part
    have mem : t.mem = _ := mem_retire counts live readable unbound
    have words (q n : Nat) : (leftQueue s c data m (completes data reason)).peek q n = s.peek q n :=
      peek_congr fun r _ _ => byte_leftQueue ..
    refine ⟨by rw [queue_retire, head]; rfl, ?_, ?_, fun q outside => ?_⟩
    · rw [State.cntValue, peek_of_mem mem, ← State.cntValue, cntValue_cntWrites, clamp32_pred, State.cntValue, words, State.cntValue]
    · rw [State.cntStatus, peek_of_mem mem, ← State.cntStatus, cntStatus_cntWrites, retiredBits_eq, State.cntStatus, words,
        State.cntStatus]
    · rw [byte_of_mem mem, byte_cntWrites _ _ _ _ outside, byte_leftQueue]
  · intro s core m rest c is e he head kind fresh
    refine ⟨fun wrong => ?_, fun right waits => ?_⟩
    · obtain ⟨why, next, work, runs⟩ := exec_engineInstrs he head (.inl wrong)
      rw [runs, engineRun_wrong head kind fresh wrong]
    · obtain ⟨why, next, work, runs⟩ := exec_engineInstrs he head (.inr waits)
      rw [runs, engineRun_unready head kind fresh right waits]
  · intro s core data m rest c head
    rw [exec_stallTimeout head]
    exact ⟨fun late waits => if_pos (Bool.and_eq_true_iff.mpr ⟨decide_eq_true late, waits⟩),
      fun early => if_neg (by simp [Nat.not_lt.mpr early])⟩

end Sys2Proof.Laws
end

section
/-! PROOFS: the piece of work of a command whose rings, checks, claims and accesses allow it (08 R193, R197, R198). -/

namespace Sys2Proof.Laws

open Machine Safety

variable {s : State} {core : BitVec 12} {c op : Nat} {data : Bool} {m : Cmd} {i : Instr}
  {why : State → Nat → Cmd → Option Nat} {next : State → Nat → Cmd → Option (List (Use × Reg × Nat))}
  {work : State → Nat → Cmd → Work} {xs : List (Use × Reg × Nat)} {ls : List Loc}

theorem unrecorded_of_atHead (h : AtHead s c data op m) : s.unrecorded c data m = false := by
  obtain ⟨-, -, -, -, -, -, recorded⟩ := h
  rw [State.unrecorded, List.any_eq_false]
  intro q hq
  simp only [Bool.and_eq_true, decide_eq_true_eq, beq_iff_eq, Bool.not_eq_true', not_and, Bool.not_eq_false]
  exact fun ⟨⟨core, queue⟩, seq⟩ => recorded q hq core queue seq

theorem engStep_of_go (more : next s c m = some xs) (go : s.engGate c data m (some xs) = .go ls) :
    let w := work (ls.foldl State.useHome s) c m
    s.engStep c data m next work = w.s.carry c data m w := by
  rw [State.engStep, more, go]

/-- The command at the head, once its accesses may be made: a piece of its work is done, whether it has begun or begins. -/
theorem engineRun_carries (h : AtHead s core.toNat data op m) (fine : why s core.toNat m = none)
    (more : next s core.toNat m = some xs) (gated : Gated s core.toNat data m xs ls) :
    let w := work (ls.foldl State.useHome s) core.toNat m
    engineRun core data op why next work s = .next (w.s.carry core.toNat data m w) := by
  intro w
  have recorded := unrecorded_of_atHead h
  obtain ⟨⟨rest, head⟩, kind, unended, right, ready, common, -⟩ := h
  obtain ⟨walks, go⟩ := gated
  have step : s.engStep core.toNat data m next work = w.s.carry core.toNat data m w := engStep_of_go more go
  unfold engineRun
  cases begun : m.begun with
  | true => simp only [head, kind, begun, unended, step, ne_eq, not_true_eq_false, if_false, if_true, Bool.false_eq_true]
  | false =>
    simp only [head, kind, begun, right, ready, walks, common, fine, recorded, step, ne_eq, not_true_eq_false, if_false,
      Bool.false_eq_true, Bool.not_true]

/-- An instruction that runs an engine carries out the command at its head. -/
theorem carries (runs : exec i s = engineRun core data op why next work s) (h : AtHead s core.toNat data op m)
    (fine : why s core.toNat m = none) (more : next s core.toNat m = some xs) (gated : Gated s core.toNat data m xs ls) :
    Carries s i core.toNat data m (work (ls.foldl State.useHome s) core.toNat m) :=
  runs.trans (engineRun_carries h fine more gated)

/-- The same for a command that names no bytes by an address. -/
theorem carries_plain (runs : exec i s = engineRun core data op why plainNext work s) (h : AtHead s core.toNat data op m)
    (fine : why s core.toNat m = none) (gated : Gated s core.toNat data m [] []) :
    Carries s i core.toNat data m (work s core.toNat m) :=
  carries runs h fine rfl gated

end Sys2Proof.Laws
end

section
/-! PROOFS: the commands of the skip map (08 R209 to R211). -/

namespace Sys2Proof.Laws

open Machine Safety

variable {s : State} {core : BitVec 12} {c : Nat} {m : Cmd} {rest : List Cmd}

/-! ### A run of words written into a table -/

/-- Words stored one after another from a key on. -/
def setRun (t : Tab Word) (key : Nat) (xs : List Nat) : Tab Word :=
  xs.zipIdx.foldl (fun t e => Tab.set 0 t (key + e.2) (BitVec.ofNat 32 e.1)) t

theorem get_foldl_set (xs : List Nat) (t : Tab Word) (key n j : Nat) :
    Tab.get 0 ((xs.zipIdx n).foldl (fun t e => Tab.set 0 t (key + e.2) (BitVec.ofNat 32 e.1)) t) j
      = if key + n ≤ j ∧ j < key + n + xs.length then BitVec.ofNat 32 (xs.getD (j - (key + n)) 0) else Tab.get 0 t j := by
  induction xs generalizing t n with
  | nil =>
    have none : ¬ (key + n ≤ j ∧ j < key + n + 0) := by omega
    rw [List.length_nil, if_neg none]
    rfl
  | cons x xs ih =>
    rw [List.zipIdx_cons, List.foldl_cons, ih, List.length_cons, get_set]
    rcases Nat.lt_trichotomy (key + n) j with after | rfl | before
    · have rest : j - (key + n) = j - (key + (n + 1)) + 1 := by omega
      have range : (key + (n + 1) ≤ j ∧ j < key + (n + 1) + xs.length) ↔ (key + n ≤ j ∧ j < key + n + (xs.length + 1)) := by omega
      rw [if_congr range rfl rfl, if_neg (Nat.ne_of_lt after), rest, List.getD_cons_succ]
    · have later : ¬ (key + (n + 1) ≤ key + n ∧ key + n < key + (n + 1) + xs.length) := by omega
      rw [if_neg later, if_pos rfl, if_pos (by omega), Nat.sub_self, List.getD_cons_zero]
    · have later : ¬ (key + (n + 1) ≤ j ∧ j < key + (n + 1) + xs.length) := by omega
      rw [if_neg later, if_neg (Nat.ne_of_gt before), if_neg (by omega)]

theorem get_setRun (t : Tab Word) (key : Nat) (xs : List Nat) (j : Nat) : Tab.get 0 (setRun t key xs) j
    = if key ≤ j ∧ j < key + xs.length then BitVec.ofNat 32 (xs.getD (j - key) 0) else Tab.get 0 t j :=
  get_foldl_set xs t key 0 j

/-! ### ECFG (08 R211) -/

theorem getLsbD_putSkip (x : BitVec 4096) {j k : Nat} (b : Bool) (hk : k < 4096) :
    (putSkip x j b).getLsbD k = if k = j then b else x.getLsbD k := by
  have one : ((1 : BitVec 4096) <<< j).getLsbD k = decide (k = j) := by
    change ((1#4096) <<< j).getLsbD k = _
    rw [BitVec.getLsbD_shiftLeft, BitVec.getLsbD_one]
    rcases Nat.lt_trichotomy k j with before | rfl | after
    · simp [before, Nat.ne_of_lt before]
    · simp [hk]
    · simp [Nat.not_lt.mpr (Nat.le_of_lt after), Nat.ne_of_gt after, Nat.sub_ne_zero_of_lt after]
  cases b with
  | true =>
    have set : putSkip x j true = x ||| (1 : BitVec 4096) <<< j := rfl
    rw [set, BitVec.getLsbD_or, one]
    by_cases here : k = j <;> simp [here]
  | false =>
    have cleared : putSkip x j false = x &&& ~~~((1 : BitVec 4096) <<< j) := rfl
    rw [cleared, BitVec.getLsbD_and, BitVec.getLsbD_not, one]
    by_cases here : k = j <;> simp [here, hk]

theorem refs_setRefs (x : Core) (j : Nat) (xs : List Nat) : (x.setRefs j xs).refs = setRun x.refs (16 * j) xs := rfl

/-- A tile slot cleared: its skip bit and its references. -/
def clearSlot (x : Core) (j : Nat) : Core := { x with skip := putSkip x.skip j false }.setRefs j (List.replicate 16 0)

/-- A range of tile slots cleared, or its skip bits set. -/
def clearSlots (x : Core) (first n : Nat) : Core := (List.range n).foldl (fun y t => clearSlot y (first + t)) x
def skipSlots (x : Core) (first n : Nat) : Core :=
  (List.range n).foldl (fun y t => { y with skip := putSkip y.skip (first + t) true }) x

theorem clearSlots_succ (x : Core) (first n : Nat) : clearSlots x first (n + 1) = clearSlot (clearSlots x first n) (first + n) := by
  rw [clearSlots, List.range_succ, List.foldl_append]
  rfl

theorem skipSlots_succ (x : Core) (first n : Nat) : skipSlots x first (n + 1)
    = { skipSlots x first n with skip := putSkip (skipSlots x first n).skip (first + n) true } := by
  rw [skipSlots, List.range_succ, List.foldl_append]
  rfl

theorem refs_clearSlot (x : Core) (j k : Nat) : Tab.get (0 : Word) (clearSlot x j).refs k
    = if k / 16 = j then 0 else Tab.get (0 : Word) x.refs k := by
  have range : (16 * j ≤ k ∧ k < 16 * j + (List.replicate 16 0).length) ↔ k / 16 = j := by
    rw [List.length_replicate]
    omega
  rw [clearSlot, refs_setRefs, get_setRun, if_congr range rfl rfl]
  split
  · next here => exact congrArg (BitVec.ofNat 32) (List.getD_replicate 0 (by omega))
  · rfl

/-- The slots of a range, its last one apart. -/
theorem inRange_succ (first n j : Nat) : (decide (first ≤ j) && decide (j < first + (n + 1)))
    = (decide (j = first + n) || (decide (first ≤ j) && decide (j < first + n))) := by
  rw [Bool.eq_iff_iff]
  simp only [Bool.and_eq_true, Bool.or_eq_true, decide_eq_true_eq]
  omega

theorem inRange_zero (first j : Nat) : (decide (first ≤ j) && decide (j < first + 0)) = false := by
  rw [Bool.eq_false_iff]
  simp

/-- Which bits and references a range of cleared slots keeps. -/
theorem skip_clearSlots (x : Core) (first n : Nat) {j : Nat} (hj : j < 4096) :
    (clearSlots x first n).skip.getLsbD j = (!(decide (first ≤ j) && decide (j < first + n)) && x.skip.getLsbD j) := by
  induction n with
  | zero =>
    rw [inRange_zero]
    rfl
  | succ n ih =>
    have bit : (clearSlot (clearSlots x first n) (first + n)).skip = putSkip (clearSlots x first n).skip (first + n) false := rfl
    rw [clearSlots_succ, bit, getLsbD_putSkip _ _ hj, ih, inRange_succ]
    by_cases here : j = first + n
    · rw [if_pos here, decide_eq_true here, Bool.true_or, Bool.not_true, Bool.false_and]
    · rw [if_neg here, decide_eq_false here, Bool.false_or]

theorem refs_clearSlots (x : Core) (first n k : Nat) : Tab.get (0 : Word) (clearSlots x first n).refs k
    = if (decide (first ≤ k / 16) && decide (k / 16 < first + n)) = true then 0 else Tab.get (0 : Word) x.refs k := by
  induction n with
  | zero =>
    rw [inRange_zero]
    rfl
  | succ n ih =>
    rw [clearSlots_succ, refs_clearSlot, ih, inRange_succ]
    by_cases here : k / 16 = first + n
    · rw [if_pos here, decide_eq_true here, Bool.true_or, if_pos rfl]
    · rw [if_neg here, decide_eq_false here, Bool.false_or]

/-- Which bits a range of set ones keeps. It keeps every reference. -/
theorem skip_skipSlots (x : Core) (first n : Nat) {j : Nat} (hj : j < 4096) :
    (skipSlots x first n).skip.getLsbD j = ((decide (first ≤ j) && decide (j < first + n)) || x.skip.getLsbD j) := by
  induction n with
  | zero =>
    rw [inRange_zero]
    rfl
  | succ n ih =>
    rw [skipSlots_succ, getLsbD_putSkip _ _ hj, ih, inRange_succ]
    by_cases here : j = first + n
    · rw [if_pos here, decide_eq_true here, Bool.true_or, Bool.true_or]
    · rw [if_neg here, decide_eq_false here, Bool.false_or]

theorem refs_skipSlots (x : Core) (first n : Nat) : (skipSlots x first n).refs = x.refs := by
  induction n with
  | zero => rfl
  | succ n ih =>
    rw [skipSlots_succ]
    exact ih

theorem ecfgWork_clr (kind : bits m.w2 1 0 = 0) :
    (ecfgWork s c m).s = s.setCore c (clearSlots (s.core c) m.tslot (m.w4.toNat % 8192 + 1)) := by
  simp only [ecfgWork, kind, List.foldl_map]
  rfl

theorem ecfgWork_set (kind : bits m.w2 1 0 = 1) :
    (ecfgWork s c m).s = s.setCore c (skipSlots (s.core c) m.tslot (m.w4.toNat % 8192 + 1)) := by
  simp only [ecfgWork, kind, List.foldl_map]
  rfl

/-- An ECFG acts on the command at the head, if it is of its kind. -/
theorem ecfgRun_eq {k : Nat} (h : AtHead s core.toNat false 10 m) (kind : bits m.w2 1 0 = k) :
    ecfgRun core k s = engineRun core false 10 ecfgReason plainNext ecfgWork s := by
  obtain ⟨⟨rest, head⟩, -⟩ := h
  have head : (s.core core.toNat).mixq = m :: rest := head
  unfold ecfgRun
  simp only [head, kind, ne_eq, not_true_eq_false, decide_false, Bool.and_false, Bool.false_eq_true, if_false]

/-! ### The statement -/

/-- Settles O24 (log 9): the commands run as their engine does (`carries_plain`), and an ECFG clears or sets its range, slot by
slot. -/
theorem skipCommands : Obligations.SkipCommands := by
  unfold Obligations.SkipCommands
  refine ⟨fun s core m => ⟨fun h ready fine => carries_plain rfl h fine ready, fun h ready fine => carries_plain rfl h fine ready,
    fun h ready fine => ⟨fun kind => ?_, fun kind => ?_, fun kind => ?_, fun kind => ?_⟩⟩, fun s c m _ => ?_⟩
  · exact carries_plain (ecfgRun_eq h kind) h fine ready
  · exact carries_plain (ecfgRun_eq h kind) h fine ready
  · exact carries_plain (ecfgRun_eq h kind) h fine ready
  · exact carries_plain (ecfgRun_eq h kind) h fine ready
  · intro n t inRange
    refine ⟨fun kind => ?_, fun kind => ?_⟩
    · have core : t.core c = clearSlots (s.core c) m.tslot n := by
        simp only [t, ecfgWork_clr kind, core_setCore, if_pos]
        rfl
      rw [core]
      exact ⟨fun j hj => skip_clearSlots _ _ _ hj, fun k => refs_clearSlots ..⟩
    · have core : t.core c = skipSlots (s.core c) m.tslot n := by
        simp only [t, ecfgWork_set kind, core_setCore, if_pos]
        rfl
      rw [core]
      exact ⟨fun j hj => skip_skipSlots _ _ _ hj, refs_skipSlots ..⟩

end Sys2Proof.Laws
end

section
/-! PROOFS: MMA, butterflies and SCAN, and the accumulator tile that an MMA leaves (08 R203 to R208, R212). -/

namespace Sys2Proof.Laws

open Machine Safety

variable {s : State} {core : BitVec 12} {c : Nat} {m : Cmd}

/-! ### Accumulator tiles (08 R185) -/

/-- A core with the elements of an accumulator tile replaced. -/
def withAcc (x : Core) (k : Nat) (xs : List Nat) : Core := { x with acc := setRun x.acc (1024 * k) xs }

theorem foldl_setAcc (xs : List Nat) (x : Core) (k n : Nat) :
    (xs.foldl (fun (y : Core × Nat) v => (y.1.setAcc k y.2 v, y.2 + 1)) (x, n)).1
      = { x with acc := (xs.zipIdx n).foldl (fun t e => Tab.set 0 t (1024 * k + e.2) (BitVec.ofNat 32 e.1)) x.acc } := by
  induction xs generalizing x n with
  | nil => rfl
  | cons v xs ih => exact ih (x.setAcc k n v) (n + 1)

theorem putAcc_eq (s : State) (c k : Nat) (xs : List Nat) : s.putAcc c k xs = s.setCore c (withAcc (s.core c) k xs) :=
  congrArg (s.setCore c) (foldl_setAcc xs (s.core c) k 0)

theorem acc_putAcc (s : State) (c k : Nat) (xs : List Nat) :
    ((s.putAcc c k xs).core c).acc = setRun (s.core c).acc (1024 * k) xs := by
  rw [putAcc_eq, core_setCore, if_pos rfl]
  rfl

/-- The elements of a tile that has been replaced whole, and every other element. -/
theorem elem_putAcc (s : State) (c k : Nat) {xs : List Nat} (size : xs.length = 1024) {e : Nat} (he : e < 1024) :
    Tab.get (0 : Word) ((s.putAcc c k xs).core c).acc (1024 * k + e) = BitVec.ofNat 32 (xs.getD e 0) := by
  rw [acc_putAcc, get_setRun, if_pos (by omega), Nat.add_sub_cancel_left]

theorem elem_putAcc_outside (s : State) (c k : Nat) {xs : List Nat} (size : xs.length = 1024) {j : Nat}
    (outside : j < 1024 * k ∨ 1024 * k + 1024 ≤ j) :
    Tab.get (0 : Word) ((s.putAcc c k xs).core c).acc j = Tab.get (0 : Word) (s.core c).acc j := by
  rw [acc_putAcc, get_setRun, if_neg (by omega)]

/-! ### Errors noted in source slots (08 R198, R202) -/

theorem seat_noteSlot (s : State) (c q k n : Nat) : seat (s.noteSlot c q k n) = seat s := by
  unfold State.noteSlot
  split
  · exact seat_foldl _ (fun s w => seat_noteError s (.plain w)) _ _
  · rfl

theorem seat_noteSources (s : State) (c : Nat) (m : Cmd) : seat (s.noteSources c m) = seat s :=
  seat_foldl _ (fun _ _ => seat_foldl _ (fun _ _ => seat_noteSlot ..) _ _) _ s

theorem core_noteSources (s : State) (c : Nat) (m : Cmd) (c' : Nat) : (s.noteSources c m).core c' = s.core c' := by
  obtain ⟨-, cores⟩ := Prod.mk.inj (seat_noteSources s c m)
  exact core_of_cores cores c'

theorem foldl_eq_self {α β : Type} {f : α → β → α} {a : α} {l : List β} (h : ∀ b ∈ l, f a b = a) : l.foldl f a = a := by
  induction l with
  | nil => rfl
  | cons b l ih => rw [List.foldl_cons, h b List.mem_cons_self, ih fun b' hb => h b' (List.mem_cons_of_mem b hb)]

/-- Of a slot without errors none is noted. -/
theorem noteSlot_of_good {q k n : Nat} (good : s.srcBad c q k n = false) : s.noteSlot c q k n = s := by
  unfold State.noteSlot
  split
  next r opened =>
    extract_lets p bad
    have none : bad = [] := by
      refine List.filter_eq_nil_iff.mpr fun w hw => ?_
      obtain ⟨i, hi, rfl⟩ := List.mem_map.mp hw
      have hi : i < (n + 7) / 8 := List.mem_range.mp hi
      rw [State.srcBad, opened] at good
      exact List.any_eq_false.mp good (8 * i) (List.mem_range.mpr (by omega))
    rw [none]
    rfl
  next => rfl

/-- Where no source slot meets an error, none is noted. -/
theorem noteSources_of_good (good : s.sourceReason c m = 0) : s.noteSources c m = s := by
  have fine : ¬ (m.sources.any (fun x => (List.range x.2.1).any (fun k => true &&
      s.srcBad c x.1 k (if x.2.2 = 0 then s.slotSize c x.1 else x.2.2))) = true) := by
    intro bad
    rw [State.sourceReason, State.readReason, if_pos bad] at good
    cases good
  simp only [Bool.true_and, List.any_eq_true, not_exists, not_and, Bool.not_eq_true] at fine
  refine foldl_eq_self fun x hx => foldl_eq_self fun k hk => ?_
  exact noteSlot_of_good (fine x hx k (List.mem_of_mem_filter hk))

/-! ### The sum of an MMA (08 R203) -/

/-- What an MMA starts from: zeros under ZACC, else its accumulator tile. -/
def mmaStart (s : State) (c : Nat) (m : Cmd) : Array Nat :=
  if m.opt 1 then Array.replicate 1024 0 else (s.core c).accTile m.acc

/-- The sum after n pairs of tiles, and the flags. -/
def mmaSum (s : State) (c : Nat) (m : Cmd) (n : Nat) : Array Nat × Fp :=
  (List.range n).foldl (fun (y : Array Nat × Fp) k =>
    let x := s.tileIn c m.qa k m.ta m.lut y.2
    let z := s.tileIn c m.qb k m.tb m.lut x.2
    mmaTile y.1 x.1 z.1 (m.opt 0) z.2) (mmaStart s c m, { flags := 0, lfsr := 1 })

theorem size_mmaTile (a : Array Nat) (x y : Array Machine.Num) (tb : Bool) (fp : Fp) : (mmaTile a x y tb fp).1.size = 1024 := by
  rw [mmaTile, List.size_toArray, length_eachLane, List.length_range]

theorem size_mmaSum (s : State) (c : Nat) (m : Cmd) (n : Nat) : (mmaSum s c m (n + 1)).1.size = 1024 := by
  rw [mmaSum, List.range_succ, List.foldl_append, List.foldl_cons, List.foldl_nil]
  exact size_mmaTile _ _ _ _ _

theorem skips_one (x : Core) (j : Nat) : x.skips j 1 = x.skip.getLsbD j := by
  simp [Core.skips, List.range_one]

theorem mmaWork_skipped (elided : (m.sg && (s.core c).skip.getLsbD m.tslot) = true) :
    mmaWork s c m = { s := s, flags := 0, reason := 0 } := by
  rw [← skips_one] at elided
  exact if_pos elided

theorem mmaWork_sums (sums : (m.sg && (s.core c).skip.getLsbD m.tslot) = false) : mmaWork s c m =
    let r := mmaSum s c m (m.w2.toNat % 256 + 1)
    { s := (s.noteSources c m).putAcc c m.acc r.1.toList, flags := r.2.flags, reason := s.sourceReason c m } := by
  rw [← skips_one] at sums
  exact if_neg (by rw [sums]; exact Bool.false_ne_true)

/-! ### SCAN (08 R207, R208) -/

/-- A SCAN that has the entries that it takes goes on as its engine runs it. -/
theorem execScan_eq (h : AtHead s core.toNat false 3 m) (has : scanNext s core.toNat m = some []) :
    execScan core s = engineRun core false 3 scanReason scanNext scanWork s := by
  obtain ⟨⟨rest, head⟩, -⟩ := h
  have head : (s.core core.toNat).mixq = m :: rest := head
  have takes : m.wants = false := by
    unfold scanNext at has
    split at has
    · cases has
    · next wants => exact Bool.eq_false_iff.mpr wants
  unfold execScan
  simp only [head, takes, Bool.false_and, Bool.false_eq_true, if_false]

/-! ### The statement -/

/-- Settles O23 (log 9): the commands run as their engine does (`carries_plain`, `carries`), and an MMA puts its sum, a whole
tile, into its accumulator (`mmaWork_sums`, `elem_putAcc`). -/
theorem computeCommands : Obligations.ComputeCommands := by
  unfold Obligations.ComputeCommands
  refine ⟨fun s core m => ⟨fun h ready => carries_plain rfl h rfl ready, fun h ready fine => carries_plain rfl h fine ready,
    fun h ready fine => carries_plain rfl h fine ready,
    fun h ready fine has => carries (i := .scan core) (work := scanWork) (ls := []) (execScan_eq h has) h fine has ready⟩,
    fun s c m _ _ => ?_⟩
  intro n t start r
  refine ⟨fun gated set => ?_, fun sums => ?_⟩
  · have elided : (m.sg && (s.core c).skip.getLsbD m.tslot) = true := by rw [gated, set]; rfl
    exact congrArg Work.s (mmaWork_skipped elided)
  · have sum : r = mmaSum s c m n := rfl
    have work := mmaWork_sums sums
    have left : t = (s.noteSources c m).putAcc c m.acc r.1.toList := congrArg Work.s work
    have size : r.1.toList.length = 1024 := by
      rw [Array.length_toList, sum]
      exact size_mmaSum ..
    refine ⟨fun e he => ?_, fun j outside => ?_, congrArg Work.flags work, fun good p => ?_⟩
    · rw [left, elem_putAcc _ _ _ size he, BitVec.toNat_ofNat]
      simp
    · rw [left, elem_putAcc_outside _ _ _ size outside, core_noteSources]
    · rw [left, noteSources_of_good good]
      rfl

end Sys2Proof.Laws
end

section
/-! PROOFS: what an engine reads and stages in the larder of its core, and what the staged writes leave once they are performed
(08 R213; 09 R221, R222). -/

namespace Sys2Proof.Laws

open Machine Safety

variable {s u : State} {c : Nat} {w : Who} {use : Use} {va : Reg} {n k : Nat}

/-! ### Bytes and their places -/

/-- Bytes with the places where they lie, from a place on. -/
def placed : Nat → List Byte → List (Nat × Byte)
  | _, [] => []
  | p, b :: bs => (p, b) :: placed (p + 1) bs

theorem placed_append (p : Nat) (xs ys : List Byte) : placed p (xs ++ ys) = placed p xs ++ placed (p + xs.length) ys := by
  induction xs generalizing p with
  | nil => rfl
  | cons x xs ih =>
    rw [List.cons_append, placed, ih, placed, List.length_cons, List.cons_append, Nat.add_right_comm, Nat.add_assoc]

theorem mem_placed {p : Nat} {bs : List Byte} {e : Nat × Byte} (h : e ∈ placed p bs) : p ≤ e.1 ∧ e.1 < p + bs.length := by
  induction bs generalizing p with
  | nil => cases h
  | cons b bs ih =>
    rw [List.length_cons]
    rcases List.mem_cons.mp h with rfl | h
    · exact ⟨Nat.le_refl p, by omega⟩
    · obtain ⟨low, high⟩ := ih h
      omega

/-- Memory with bytes put where they lie, one after another. -/
def setBytes (mem : Memory) (xs : List (Nat × Byte)) : Memory := xs.foldl (fun mem b => Tab.set Memory.blank mem b.1 b.2) mem

theorem setBytes_placed (mem : Memory) (p : Nat) (bs : List Byte) : setBytes mem (placed p bs) = pokeMem mem p bs := by
  induction bs generalizing mem p with
  | nil => rfl
  | cons b bs ih => exact ih ..

/-- Gathered by line, the bytes lie where they lay. -/
theorem placed_byLine (p : Nat) (bs : List Byte) :
    (byLine p bs).flatMap (fun e => e.2.map (fun b => (e.1 * 128 + b.1, b.2))) = placed p bs := by
  induction bs generalizing p with
  | nil => rfl
  | cons b bs ih =>
    have here : p / 128 * 128 + p % 128 = p := Nat.div_add_mod' p 128
    have rest := ih (p + 1)
    rw [byLine, placed, ← rest]
    split
    next ln tb r lines =>
      split
      next same => rw [same, List.flatMap_cons, List.map_cons, here, lines, List.flatMap_cons, same, List.cons_append]
      next => rw [List.flatMap_cons, List.map_cons, here, lines, List.map_nil, List.singleton_append]
    next lines => rw [List.flatMap_cons, List.map_cons, here, lines, List.map_nil, List.singleton_append]

theorem line_of_byLine {p : Nat} {bs : List Byte} {e : Nat × Tab Byte} (h : e ∈ byLine p bs) :
    p / 128 ≤ e.1 ∧ e.1 * 128 < p + bs.length := by
  induction bs generalizing p e with
  | nil => cases h
  | cons b bs ih =>
    have first : p / 128 ≤ p / 128 ∧ p / 128 * 128 < p + (bs.length + 1) := by omega
    have later {e : Nat × Tab Byte} (h : e ∈ byLine (p + 1) bs) : p / 128 ≤ e.1 ∧ e.1 * 128 < p + (bs.length + 1) := by
      obtain ⟨low, high⟩ := ih h
      omega
    rw [byLine] at h
    rw [List.length_cons]
    split at h
    next ln tb r lines =>
      rw [lines] at later
      split at h
      · rcases List.mem_cons.mp h with rfl | h
        · exact later (e := (ln, tb)) List.mem_cons_self
        · exact later (List.mem_cons_of_mem _ h)
      · rcases List.mem_cons.mp h with rfl | h
        · exact first
        · exact later h
    next =>
      rw [List.mem_singleton.mp h]
      exact first

/-! ### Runs of bytes cut at pages -/

theorem pagePieces_succ (k : Nat) (va : Reg) (hn : n ≠ 0) : pagePieces (k + 1) va n
    = (va, min n (4096 - va.toNat % 4096)) :: pagePieces k (va + BitVec.ofNat 64 (min n (4096 - va.toNat % 4096)))
        (n - min n (4096 - va.toNat % 4096)) := if_neg hn

theorem pagePieces_zero (k : Nat) (va : Reg) : pagePieces k va 0 = [] := by cases k <;> rfl

/-- An address some bytes further in a run that does not wrap. -/
theorem toNat_add_of_lt {j : Nat} (h : va.toNat + j < 2 ^ 64) : (va + BitVec.ofNat 64 j).toNat = va.toNat + j := by
  rw [BitVec.toNat_add, BitVec.toNat_ofNat, Nat.mod_eq_of_lt (a := j) (by omega), Nat.mod_eq_of_lt h]

/-- So many pieces hold a run: after the first, each is a page. -/
def Spans (k : Nat) (va : Reg) (n : Nat) : Prop := n = 0 ∨ n + va.toNat % 4096 ≤ 4096 * k

theorem spans_pages (va : Reg) (n : Nat) : Spans (n / 4096 + 2) va n := .inr (by omega)

theorem spans_next (h : Spans (k + 1) va n) (within : va.toNat + n < 2 ^ 64) :
    Spans k (va + BitVec.ofNat 64 (min n (4096 - va.toNat % 4096))) (n - min n (4096 - va.toNat % 4096)) := by
  unfold Spans at *
  rw [toNat_add_of_lt (by omega)]
  omega

/-- Each piece lies in the run. -/
theorem piece_within (within : va.toNat + n < 2 ^ 64) {x : Reg × Nat} (hx : x ∈ pagePieces k va n) :
    va.toNat ≤ x.1.toNat ∧ x.1.toNat + x.2 ≤ va.toNat + n := by
  induction k generalizing va n with
  | zero => cases hx
  | succ k ih =>
    by_cases hn : n = 0
    · rw [hn, pagePieces_zero] at hx
      cases hx
    · rw [pagePieces_succ k va hn] at hx
      rcases List.mem_cons.mp hx with rfl | hx
      · dsimp only
        omega
      · have next := toNat_add_of_lt (va := va) (j := min n (4096 - va.toNat % 4096)) (by omega)
        have rest := ih (by omega) hx
        omega

/-- One after another, the bytes of the pieces are those of the run. -/
theorem flatMap_pagePieces {α : Type} (f : Nat → α) (spans : Spans k va n) (within : va.toNat + n < 2 ^ 64) :
    (pagePieces k va n).flatMap (fun x => (List.range x.2).map (fun i => f (x.1.toNat + i)))
      = (List.range n).map (fun i => f (va.toNat + i)) := by
  induction k generalizing va n with
  | zero =>
    have none : n = 0 := by
      unfold Spans at spans
      omega
    rw [none]
    rfl
  | succ k ih =>
    by_cases hn : n = 0
    · rw [hn, pagePieces_zero]
      rfl
    · have next := toNat_add_of_lt (va := va) (j := min n (4096 - va.toNat % 4096)) (by omega)
      rw [pagePieces_succ k va hn, List.flatMap_cons, ih (spans_next spans within) (by omega), next]
      have cut : n = min n (4096 - va.toNat % 4096) + (n - min n (4096 - va.toNat % 4096)) := by omega
      generalize min n (4096 - va.toNat % 4096) = here at cut ⊢
      generalize n - here = more at cut ⊢
      rw [cut, List.range_add, List.map_append, List.map_map]
      exact congrArg _ (List.map_congr_left fun i _ => congrArg f (Nat.add_assoc ..))

end Sys2Proof.Laws
end

section
/-! PROOFS: the tile and data commands, and a CPY of one row from the larder into the larder (08 R213 to R215; 09 R222, R223). -/

namespace Sys2Proof.Laws

open Machine Safety

variable {s u : State} {core : BitVec 12} {c : Nat} {m : Cmd} {w : Who} {use : Use} {va : Reg} {n k : Nat}

/-! ### The larder as an engine sees it (01 R30, 09 R221) -/

/-- A run of bytes of the larder, below its spill area. -/
def LarderRun (va : Reg) (n : Nat) : Prop := windowBase ≤ va.toNat ∧ va.toNat + n ≤ windowBase + 0xF000

/-- The place in a core's larder that an address names, and the bytes there as what an address names. -/
def larderSpot (c : Nat) (va : Reg) : Nat := larderAt c (va.toNat - windowBase)
def larderBytes (c : Nat) (va : Reg) : Target := .at' (.plain (larderSpot c va))

theorem larderSpot_add {i : Nat} (h : windowBase ≤ va.toNat) : larderAt c (va.toNat + i - windowBase) = larderSpot c va + i := by
  rw [larderSpot, larderAt, larderAt]
  omega

theorem LarderRun.within (h : LarderRun va n) : va.toNat + n < 2 ^ 64 := by
  obtain ⟨-, high⟩ := h
  have base : windowBase = 0xFFF0000000000 := rfl
  omega

theorem LarderRun.piece (h : LarderRun va n) {x : Reg × Nat} (hx : x ∈ pagePieces k va n) : LarderRun x.1 x.2 := by
  obtain ⟨low, high⟩ := h
  obtain ⟨first, last⟩ := piece_within (va := va) (LarderRun.within ⟨low, high⟩) hx
  exact ⟨by omega, by omega⟩

theorem LarderRun.window (h : LarderRun va n) (s : State) (c : Nat) (sec : Bool) (use : Use) :
    s.window c sec use va.toNat n = .ok (larderBytes c va) := by
  obtain ⟨low, high⟩ := h
  have base : windowBase = 0xFFF0000000000 := rfl
  have first : (va.toNat - windowBase) / 2 ^ 32 = 0 := by omega
  have off : va.toNat % 2 ^ 32 = va.toNat - windowBase := by omega
  have below : va.toNat - windowBase + n ≤ 0xF000 := by omega
  have fits : (decide (va.toNat - windowBase + n ≤ Config.larderSize) && !decide (Config.spillBase < va.toNat - windowBase + n)) = true :=
    Bool.and_eq_true_iff.mpr ⟨decide_eq_true (below.trans (by decide)), congrArg not (decide_eq_false (Nat.not_lt.mpr below))⟩
  unfold State.window
  simp only [first, off]
  exact if_pos fits

/-- No check of an engine stands against it. -/
theorem LarderRun.check (h : LarderRun va n) (engine : (decide (use = .store) || decide (use = .atomic)) = false) (s : State) (w : Who) :
    s.checkNow w use va n 1 = .ok (larderBytes w.core va) := by
  have window := h.window s w.core w.sec use
  have within := h.within
  obtain ⟨low, high⟩ := h
  have base : windowBase = 0xFFF0000000000 := rfl
  unfold State.checkNow State.check
  dsimp only
  rw [if_neg (by omega), if_neg (by omega), if_pos low, window, larderBytes]
  dsimp only
  rw [engine, Bool.false_and, if_neg Bool.false_ne_true]

theorem mapM_ok {ε α β : Type} {f : α → Except ε β} {g : α → β} {xs : List α} (h : ∀ x ∈ xs, f x = .ok (g x)) :
    xs.mapM f = .ok (xs.map g) := by
  induction xs with
  | nil => rfl
  | cons x xs ih =>
    rw [List.mapM_cons, h x List.mem_cons_self, ih fun y hy => h y (List.mem_cons_of_mem _ hy)]
    rfl

/-- The targets of a run of bytes of the larder, page by page. -/
def larderTargets (c : Nat) (va : Reg) (n : Nat) : List (Target × Nat) :=
  (pagePieces (n / 4096 + 2) va n).map fun x => (larderBytes c x.1, x.2)

theorem LarderRun.targets (h : LarderRun va n) (engine : (decide (use = .store) || decide (use = .atomic)) = false) (s : State)
    (w : Who) : s.engTargets w use va n 1 = .ok (larderTargets w.core va n) := by
  rw [State.engTargets, if_neg (by omega)]
  refine mapM_ok fun x hx => ?_
  rw [(h.piece hx).check engine]

theorem LarderRun.engOk (h : LarderRun va n) (engine : (decide (use = .store) || decide (use = .atomic)) = false) (s : State)
    (w : Who) : s.engOk w use va n = larderTargets w.core va n := by
  rw [State.engOk, h.targets engine]

theorem storeOf_larder {p : Nat} (low : 2 ^ 56 ≤ p) (high : p < 2 ^ 57) : storeOf p = .larder := by
  rw [storeOf, if_neg (by omega), if_neg (by omega), if_pos low]

/-- The places of a run are places of the larder. -/
theorem LarderRun.place (h : LarderRun va n) (hc : c < 4096) :
    2 ^ 56 ≤ larderSpot c va ∧ larderSpot c va + n ≤ 2 ^ 56 + 2 ^ 28
      ∧ larderSpot c va = 2 ^ 56 + c * 2 ^ 16 + (va.toNat - windowBase) := by
  obtain ⟨low, high⟩ := h
  have spot : larderSpot c va = 2 ^ 56 + c * 2 ^ 16 + (va.toNat - windowBase) := rfl
  omega

/-! ### Reading -/

/-- A byte of the larder without an error, where the engine has staged nothing. -/
theorem engByte_larder {p : Nat} (fresh : (s.core w.core).staged w.data = []) (i : Nat) (larder : storeOf (p + i) = .larder)
    (good : s.bad (p + i) = false) : s.engByte w (.at' (.plain p)) i = (s.byte (p + i), none) := by
  have larder' : storeOf ((Loc.plain p).shift i).place = .larder := larder
  have good' : s.engBad ((Loc.plain p).shift i) = false := by
    rw [State.engBad, larder']
    exact good
  have byte := homeByte_larder (s := s) larder'
  unfold State.engByte
  simp only [fresh, good', larder', byte, Bool.false_eq_true, if_false, reduceCtorEq]
  rfl

theorem LarderRun.bytes (h : LarderRun va n) (hc : w.core < 4096) (fresh : (s.core w.core).staged w.data = [])
    (good : ∀ i, i < n → s.bad (larderSpot w.core va + i) = false) :
    s.engBytes w (larderTargets w.core va n) = (List.range n).map fun i => (s.byte (larderSpot w.core va + i), none) := by
  have whole := flatMap_pagePieces (k := n / 4096 + 2) (va := va) (n := n)
    (fun a => (s.byte (larderAt w.core (a - windowBase)), (none : Option Loc))) (spans_pages va n) h.within
  rw [State.engBytes, larderTargets, List.flatMap_map]
  refine Eq.trans (List.flatMap_congr fun x hx => List.map_congr_left fun i hi => ?_) (whole.trans (List.map_congr_left fun i _ => ?_))
  · have hi : i < x.2 := List.mem_range.mp hi
    have run := h.piece hx
    obtain ⟨first, last⟩ := piece_within h.within hx
    obtain ⟨low, high, spot⟩ := run.place hc
    obtain ⟨-, -, start⟩ := h.place hc
    have ahead : larderSpot w.core x.1 + i = larderSpot w.core va + (x.1.toNat - va.toNat + i) := by
      have := h.1
      omega
    rw [larderBytes, engByte_larder fresh i (storeOf_larder (by omega) (by omega)) (by rw [ahead]; exact good _ (by omega)),
      larderSpot_add run.1]
  · rw [larderSpot_add h.1]

/-! ### Writing -/

/-- What staged writes put where. -/
def stagedBytes (xs : List Staged) : List (Nat × Byte) := xs.flatMap fun x => x.bytes.map fun b => (x.line * 128 + b.1, b.2)

theorem stagedBytes_append (xs ys : List Staged) : stagedBytes (xs ++ ys) = stagedBytes xs ++ stagedBytes ys := List.flatMap_append ..

/-- The writes that bytes at a location come to. -/
def stagedAt (w : Who) (va : Reg) (l : Loc) (bs : List Byte) : List Staged :=
  (byLine l.place bs).map fun e =>
    { line := e.1, bytes := e.2, ms := l.ms, sec := l.sec, key := l.key, tenant := w.tenant, vf := w.vf, va := va }

theorem stagedBytes_stagedAt (w : Who) (va : Reg) (l : Loc) (bs : List Byte) :
    stagedBytes (stagedAt w va l bs) = placed l.place bs := by
  rw [stagedBytes, stagedAt, List.flatMap_map]
  exact placed_byLine ..

/-- An engine has staged further writes, of these bytes in larders, and nothing else has changed of memory. -/
structure Stages (s : State) (c : Nat) (bs : List (Nat × Byte)) (u : State) : Prop where
  mem : u.mem = s.mem
  bytes : stagedBytes (u.core c).dataw = stagedBytes (s.core c).dataw ++ bs
  larder : ∀ x ∈ (u.core c).dataw, x ∈ (s.core c).dataw ∨ storeOf (x.line * 128) = .larder

theorem Stages.trans {t : State} {bs cs : List (Nat × Byte)} (h : Stages s c bs u) (g : Stages u c cs t) : Stages s c (bs ++ cs) t where
  mem := g.mem.trans h.mem
  bytes := by rw [g.bytes, h.bytes, List.append_assoc]
  larder x hx := (g.larder x hx).elim (h.larder x) .inr

theorem engPut_stages (data : w.data = true) (va : Reg) {p : Nat} {bs : List Byte} (low : 2 ^ 56 ≤ p) (high : p + bs.length ≤ 2 ^ 57) :
    Stages s w.core (placed p bs) (s.engPut w va (.plain p) bs) := by
  have put : s.engPut w va (.plain p) bs = s.setCore w.core { s.core w.core with
      dataw := (s.core w.core).dataw ++ stagedAt w va (.plain p) bs } := by
    rw [State.engPut, data]
    rfl
  have staged : ((s.engPut w va (.plain p) bs).core w.core).dataw = (s.core w.core).dataw ++ stagedAt w va (.plain p) bs := by
    rw [put, core_setCore, if_pos rfl]
  refine ⟨by rw [put]; rfl, ?_, fun x hx => ?_⟩
  · rw [staged, stagedBytes_append, stagedBytes_stagedAt]
    rfl
  · rw [staged, List.mem_append] at hx
    refine hx.imp_right fun hx => ?_
    obtain ⟨e, he, rfl⟩ := List.mem_map.mp hx
    obtain ⟨first, last⟩ := line_of_byLine he
    have spot : (Loc.plain p).place = p := rfl
    rw [spot] at first last
    change storeOf (e.1 * 128) = .larder
    exact storeOf_larder (by omega) (by omega)

/-- A run of the larder is staged piece by piece. -/
theorem LarderRun.stages (h : LarderRun va n) (hc : w.core < 4096) (data : w.data = true) (spans : Spans k va n) {bs : List Byte}
    (size : bs.length = n) (s : State) (at' : Reg) : Stages s w.core (placed (larderSpot w.core va) bs)
      (s.engWrite w at' ((pagePieces k va n).map fun x => (larderBytes w.core x.1, x.2)) bs) := by
  induction k generalizing va n bs s at' with
  | zero =>
    have none : bs = [] := by
      rw [← List.length_eq_zero_iff, size]
      unfold Spans at spans
      omega
    subst none
    exact ⟨rfl, (List.append_nil _).symm, fun x hx => .inl hx⟩
  | succ k ih =>
    by_cases hn : n = 0
    · have none : bs = [] := List.length_eq_zero_iff.mp (size.trans hn)
      subst none
      rw [hn, pagePieces_zero]
      exact ⟨rfl, (List.append_nil _).symm, fun x hx => .inl hx⟩
    · have within := h.within
      have next := toNat_add_of_lt (va := va) (j := min n (4096 - va.toNat % 4096)) (by omega)
      have later := spans_next spans within
      rw [pagePieces_succ k va hn, List.map_cons, larderBytes, State.engWrite]
      have fits : min n (4096 - va.toNat % 4096) ≤ n := Nat.min_le_left ..
      generalize min n (4096 - va.toNat % 4096) = here at next later fits ⊢
      obtain ⟨low, high, spot⟩ := h.place hc
      have taken : (bs.take here).length = here := by rw [List.length_take, size, Nat.min_eq_left fits]
      have rest : LarderRun (va + BitVec.ofNat 64 here) (n - here) := by
        obtain ⟨low, high⟩ := h
        exact ⟨by omega, by omega⟩
      have place : larderSpot w.core (va + BitVec.ofNat 64 here) = larderSpot w.core va + here := by
        rw [larderSpot, next, larderSpot_add h.1]
      have cut : placed (larderSpot w.core va) bs = placed (larderSpot w.core va) (bs.take here)
          ++ placed (larderSpot w.core (va + BitVec.ofNat 64 here)) (bs.drop here) := by
        rw [place]
        conv => lhs; rw [← List.take_append_drop here bs, placed_append, taken]
      rw [cut]
      exact (engPut_stages data at' low (by omega)).trans (ih rest later (by rw [List.length_drop, size]) _ _)

end Sys2Proof.Laws
end

section
/-! PROOFS: TZERO, a CPY of one row from the larder into the larder, and the transfers as a whole (08 R213 to R215; 09 R222, R223). -/

namespace Sys2Proof.Laws

open Machine Safety

variable {s : State} {core : BitVec 12} {c : Nat} {data : Bool} {m : Cmd} {w : Work}

/-! ### TZERO (08 R215) -/

/-- A command that is at its end and has staged nothing retires. -/
theorem carry_retires (ends : w.rest = none) (done : (w.s.core c).staged data = []) :
    w.s.carry c data m w = w.s.retire c data m w.flags w.reason := by
  unfold State.carry
  rw [ends]
  dsimp only
  rw [done, List.isEmpty_nil, if_pos rfl]

theorem mixq_putAcc (s : State) (c k : Nat) (xs : List Nat) : ((s.putAcc c k xs).core c).mixq = (s.core c).mixq := by
  rw [putAcc_eq, core_setCore, if_pos rfl]
  rfl

theorem staged_putAcc (s : State) (c k : Nat) (xs : List Nat) (data : Bool) :
    ((s.putAcc c k xs).core c).staged data = (s.core c).staged data := by
  rw [putAcc_eq, core_setCore, if_pos rfl]
  rfl

/-- The zeros of a tile. -/
def zeroTile : List Nat := (List.range 1024).map fun _ => 0

theorem length_zeroTile : zeroTile.length = 1024 := by rw [zeroTile, List.length_map, List.length_range]

theorem getD_zeroTile {e : Nat} (he : e < 1024) : zeroTile.getD e 0 = 0 := by
  rw [zeroTile, List.map_const', List.length_range]
  exact List.getD_replicate 0 he

/-- The work of TZERO. -/
def zeroWork (s : State) (c : Nat) (m : Cmd) : Work :=
  { s := s.putAcc c m.acc ((List.range 1024).map (fun _ => 0)), flags := 0, reason := 0 }

theorem execTzero_eq (core : BitVec 12) (s : State) : exec (.tzero core) s = engineRun core false 8 noReason plainNext zeroWork s := rfl

/-- A TZERO puts zeros into its accumulator tile and retires. -/
theorem exec_tzero (h : AtHead s core.toNat false 8 m) (ready : Gated s core.toNat false m [] []) (fresh : (s.core core.toNat).mixw = []) :
    exec (.tzero core) s = .next ((s.putAcc core.toNat m.acc zeroTile).retire core.toNat false m 0 0) := by
  have staged : ((zeroWork s core.toNat m).s.core core.toNat).staged false = [] := by
    rw [zeroWork, staged_putAcc]
    exact fresh
  have runs : exec (.tzero core) s = .next _ := carries_plain (execTzero_eq core s) h rfl ready
  rw [runs, carry_retires rfl staged, zeroWork, zeroTile]

theorem acc_retire (s : State) (c : Nat) (data : Bool) (m : Cmd) (flags : BitVec 5) (reason : Nat) :
    ((s.retire c data m flags reason).core c).acc = (s.core c).acc := by
  have engine := congrArg Core.acc (engine_retire_here s c data m flags reason)
  cases data <;> exact engine

/-! ### Staged writes performed -/

theorem mem_bankPut {p : Nat} (bank : storeOf p ≠ .cellar) (b : Byte) : (s.bankPut p [b]).mem = Tab.set Memory.blank s.mem p b := by
  have goes : ¬ (decide (storeOf p = .cellar) && s.coversCounter p [b].length) = true := by simp [bank]
  rw [State.bankPut, if_neg goes]
  rfl

/-- The writes of a line of a larder put its bytes there. -/
theorem mem_performStaged {x : Staged} (larder : storeOf (x.line * 128) = .larder)
    (banks : ∀ b ∈ x.bytes, storeOf (x.line * 128 + b.1) ≠ .cellar) :
    (s.performStaged c x).mem = setBytes s.mem (x.bytes.map fun b => (x.line * 128 + b.1, b.2)) := by
  have each (u : State) (bs : Tab Byte) (banks : ∀ b ∈ bs, storeOf (x.line * 128 + b.1) ≠ .cellar) :
      (bs.foldl (fun s b => s.bankPut (x.line * 128 + b.1) [b.2]) u).mem
        = setBytes u.mem (bs.map fun b => (x.line * 128 + b.1, b.2)) := by
    induction bs generalizing u with
    | nil => rfl
    | cons b bs ih =>
      rw [List.foldl_cons, ih _ fun b' hb => banks b' (List.mem_cons_of_mem b hb), mem_bankPut (banks b List.mem_cons_self)]
      rfl
  unfold State.performStaged
  simp only [larder]
  exact each _ _ banks

theorem mem_performAll {xs : List Staged} (larder : ∀ x ∈ xs, storeOf (x.line * 128) = .larder)
    (banks : ∀ e ∈ stagedBytes xs, storeOf e.1 ≠ .cellar) :
    (xs.foldl (fun u x => u.performStaged c x) s).mem = setBytes s.mem (stagedBytes xs) := by
  induction xs generalizing s with
  | nil => rfl
  | cons x xs ih =>
    have cut : stagedBytes (x :: xs) = (x.bytes.map fun b => (x.line * 128 + b.1, b.2)) ++ stagedBytes xs := rfl
    rw [cut] at banks ⊢
    have first : ∀ b ∈ x.bytes, storeOf (x.line * 128 + b.1) ≠ .cellar := fun b hb =>
      banks _ (List.mem_append_left _ (List.mem_map_of_mem (f := fun b : Nat × Byte => (x.line * 128 + b.1, b.2)) hb))
    rw [List.foldl_cons, ih (fun y hy => larder y (List.mem_cons_of_mem x hy)) fun e he => banks e (List.mem_append_right _ he),
      mem_performStaged (larder x List.mem_cons_self) first, setBytes, setBytes, setBytes, List.foldl_append]

/-- Writes staged for a run of bytes of a larder, where nothing else is staged, put the bytes there. -/
theorem Stages.performed {u : State} {p : Nat} {bs : List Byte} (h : Stages s c (placed p bs) u) (fresh : (s.core c).dataw = [])
    (low : 2 ^ 56 ≤ p) (high : p + bs.length ≤ 2 ^ 57) :
    ((u.core c).dataw.foldl (fun u x => u.performStaged c x) u).mem = pokeMem s.mem p bs := by
  obtain ⟨mem, bytes, larder⟩ := h
  rw [fresh] at bytes larder
  have bytes : stagedBytes (u.core c).dataw = placed p bs := bytes
  rw [← setBytes_placed, ← bytes, ← mem]
  refine mem_performAll (fun x hx => (larder x hx).resolve_left List.not_mem_nil) fun e he => ?_
  rw [bytes] at he
  obtain ⟨first, last⟩ := mem_placed he
  rw [storeOf_larder (by omega) (by omega)]
  decide

/-! ### CPY (09 R222) -/

theorem data_whoCmd (s : State) (c : Nat) (kind : m.op = 11) : (s.whoCmd c m).data = true := by
  rw [State.whoCmd, kind]
  rfl

section

variable (kind : m.op = 11) (fromAddress : m.opt 0 = false) (toAddress : m.opt 1 = false) (rows : m.cpyRows = 1) (begins : m.prog = none)
  (fresh : (s.core c).dataw = []) (src : LarderRun (m.cpySrc 0) m.cpyBytes) (dst : LarderRun (m.cpyDst 0) m.cpyBytes) (hc : c < 4096)
  (good : ∀ i, i < m.cpyBytes → s.bad (larderSpot c (m.cpySrc 0) + i) = false)

include kind fromAddress fresh src hc good in
/-- The row is read whole, and meets no error. -/
theorem cpyRead_larder : s.cpyRead c m 0 = (s.peek (larderSpot c (m.cpySrc 0)) m.cpyBytes, []) := by
  have staged : (s.core (s.whoCmd c m).core).staged (s.whoCmd c m).data = [] := by
    rw [data_whoCmd s c kind]
    exact fresh
  unfold State.cpyRead
  simp only [fromAddress, Bool.false_eq_true, if_false, src.engOk (use := .copy) rfl s (s.whoCmd c m)]
  rw [src.bytes (w := s.whoCmd c m) hc staged good, List.map_map]
  refine Prod.ext rfl ?_
  exact List.filterMap_eq_nil_iff.mpr fun b hb => by
    obtain ⟨i, -, rfl⟩ := List.mem_map.mp hb
    rfl

include kind fromAddress toAddress rows begins fresh src dst hc good in
/-- The work of the CPY: its row is staged, and it is at its end. -/
theorem cpyWork_larder : cpyWork s c m =
    let t := s.engWrite (s.whoCmd c m) (m.cpyDst 0) (larderTargets c (m.cpyDst 0) m.cpyBytes)
      (s.peek (larderSpot c (m.cpySrc 0)) m.cpyBytes)
    { s := t, flags := 0, reason := 0, rest := none } := by
  have start : m.progress = .start := by rw [Cmd.progress, begins]; rfl
  have ins : m.cpyIn = [(.copy, m.cpySrc 0, m.cpyBytes)] := by
    rw [Cmd.cpyIn, fromAddress, start]
    rfl
  have outs : m.cpyOut = [(.engineWrite, m.cpyDst 0, m.cpyBytes)] := by
    rw [Cmd.cpyOut, toAddress, start]
    rfl
  have stays : s.rowGone (s.whoCmd c m) (m.cpyIn ++ m.cpyOut) = none := by
    rw [ins, outs]
    simp only [State.rowGone, List.singleton_append, List.findSome?_cons, List.findSome?_nil, src.targets (use := .copy) rfl,
      dst.targets (use := .engineWrite) rfl]
  have row : s.cpyRow c m 0 = (s.engWrite (s.whoCmd c m) (m.cpyDst 0) (larderTargets c (m.cpyDst 0) m.cpyBytes)
      (s.peek (larderSpot c (m.cpySrc 0)) m.cpyBytes), []) := by
    unfold State.cpyRow
    simp only [cpyRead_larder kind fromAddress fresh src hc good, toAddress, Bool.false_eq_true, if_false,
      dst.engOk (use := .engineWrite) rfl s (s.whoCmd c m)]
    rfl
  have first : Progress.start.pos = 0 := rfl
  unfold cpyWork
  simp only [stays, start, first, row, rows, State.engPoisons]
  rfl

include kind fromAddress toAddress rows begins fresh src dst hc good in
/-- What it leaves, and what its writes leave once they are performed. -/
theorem cpyWork_moves :
    let t := (cpyWork s c m).s
    let u := (t.core c).dataw.foldl (fun u x => u.performStaged c x) t
    let from' := larderSpot c (m.cpySrc 0)
    let to' := larderSpot c (m.cpyDst 0)
    (cpyWork s c m).reason = 0 ∧ (cpyWork s c m).rest = none ∧ SameBytes s t
      ∧ ∀ p, u.byte p = if to' ≤ p ∧ p < to' + m.cpyBytes then s.byte (from' + (p - to')) else s.byte p := by
  intro t u from' to'
  have work := cpyWork_larder kind fromAddress toAddress rows begins fresh src dst hc good
  have size : (s.peek from' m.cpyBytes).length = m.cpyBytes := by rw [State.peek, List.length_map, List.length_range]
  have stages : Stages s c (placed to' (s.peek from' m.cpyBytes)) t := by
    have staged := dst.stages (w := s.whoCmd c m) hc (data_whoCmd s c kind) (spans_pages _ _) size s (m.cpyDst 0)
    have left : t = _ := congrArg Work.s work
    rw [left]
    exact staged
  obtain ⟨low, high, -⟩ := dst.place hc
  have mem : u.mem = pokeMem s.mem to' (s.peek from' m.cpyBytes) := stages.performed fresh low (by omega)
  refine ⟨congrArg Work.reason work, congrArg Work.rest work, fun p => byte_of_mem stages.mem p, fun p => ?_⟩
  rw [State.byte, mem, get_pokeMem, size]
  split
  next inside =>
    obtain ⟨first, last⟩ := inside
    rw [State.peek, List.getElem?_map, List.getElem?_range (by omega)]
    rfl
  next => rfl

end

/-! ### The statement -/

/-- Settles O25 (log 9): the commands run as their engine does (`carries`), a TZERO puts zeros (`exec_tzero`), and a CPY stages
the bytes of its row page by page and line by line (`LarderRun.stages`), which put them into the larder when they are performed
(`mem_performAll`). -/
theorem transferCommands : Obligations.TransferCommands := by
  unfold Obligations.TransferCommands
  refine ⟨fun s core m => ⟨fun xs ls h fine more gated => ?_, fun ls h fine gated => ?_, fun h ready fresh => ?_, fun h ready fine => ?_⟩,
    fun s core m => ⟨fun xs ls h fine more gated => ?_, fun xs ls h fine more gated => ?_, fun xs ls h fine more gated => ?_⟩, ?_⟩
  · exact carries (i := .tld core) (work := tldWork) rfl h fine more gated
  · exact carries (i := .tst core) (work := tstWork) (next := plainNext) rfl h fine rfl gated
  · refine ⟨_, exec_tzero h ready fresh, fun e he => ?_, fun j outside => ?_, ?_,
      rseq_retire (s.putAcc core.toNat m.acc zeroTile) core.toNat false m 0 0⟩
    · rw [acc_retire, elem_putAcc _ _ _ length_zeroTile he, getD_zeroTile he]
      rfl
    · rw [acc_retire, elem_putAcc_outside _ _ _ length_zeroTile outside]
    · exact (queue_retire (s.putAcc core.toNat m.acc zeroTile) core.toNat false m 0 0).trans
        (congrArg (List.drop 1) (mixq_putAcc s core.toNat m.acc zeroTile))
  · exact carries_plain (i := .tcvt core) (work := tcvtWork) rfl h fine ready
  · exact carries (i := .cpy core) (work := cpyWork) rfl h fine more gated
  · exact carries (i := .gth core) (work := elemWork) rfl h fine more gated
  · exact carries (i := .sct core) (work := elemWork) rfl h fine more gated
  · intro s c m kind fromAddress toAddress rows begins hc fresh n src dst inLarder place srcIn dstIn good t u
    exact cpyWork_moves kind fromAddress toAddress rows begins fresh srcIn dstIn hc good

end Sys2Proof.Laws
end

section
/-! PROOFS: the claim that a binding which fires changes no byte but those of the spill area (13 R332) fails where an entry of the ready
queue has a record of more than six arguments. -/

namespace Sys2Proof.Laws

open Machine Safety

/-! ### A record too long for the spill area, when a binding fires (09 R234) -/

/-- Core 0 has 79 entries in its ready queue, and the last of them has 41 arguments (`longEntry`). -/
def crowdedState : State :=
  { overlongState with
    stamp := 0
    cores := [(0, { Core.reset with ready := shortEntries.take 78 ++ [longEntry] })] }

/-- A binding of core 0 has fired whose record is the first of its larder. -/
def firstBinding : Fired := { record := 0xFFF0000000000, who := { core := 0, root := 1, rid := 0, secure := false } }

/-- The record that it reads, and the entry that comes of it, which goes before all others. -/
def firstRecord : Record := recordOf (List.replicate 64 0)
def firstEntry : Entry := { record := firstRecord, addr := firstBinding.record, root := 1, arrival := 0, origin := .package }

/-- The package once the entry has its arrival. -/
def crowdedNext : State := { crowdedState with stamp := 1 }

theorem boundRead_crowdedState : crowdedState.boundRead firstBinding = .ok firstRecord (some (.plain (larderAt 0 0))) := by
  decide +kernel

theorem bound_crowdedState : crowdedState.bound firstBinding = crowdedNext.enter' 0 firstEntry := by
  unfold State.bound
  rw [boundRead_crowdedState]
  rfl

/-- The 80th entry is then the long one. -/
theorem insertKey_crowdedNext : crowdedNext.insertKey firstEntry (crowdedNext.core 0).ready
    = (firstEntry :: shortEntries.take 78) ++ [longEntry] := by decide +kernel

/-- Its last argument falls on the first byte of core 1's larder. -/
theorem byte_bound_crowdedState : crowdedState.byte (larderAt 0 0x10000) = 0
    ∧ (crowdedState.bound firstBinding).byte (larderAt 0 0x10000) = 1 := by
  refine ⟨rfl, ?_⟩
  rw [bound_crowdedState, State.enter', insertKey_crowdedNext, byte_setReady_concat _ _ (by decide), byte_poke]
  decide +kernel

/-- Refutes O30: of every state it says that a binding whose record is read changes no byte but those of the spill area of its
core's larder, but an entry keeps to its 80 bytes there only while its record has the six arguments of 01 Table 1.4, and the model's
`Record` may hold more. In `crowdedState` the entry that comes in moves one of 41 arguments to the end of the ready queue, and so of
the spill area, which it overruns into the larder of core 1. -/
theorem not_bindings : ¬ Obligations.Bindings := by
  unfold Obligations.Bindings
  rintro ⟨-, -, h⟩
  obtain ⟨before, after⟩ := byte_bound_crowdedState
  obtain ⟨ok, -⟩ := h crowdedState firstBinding
  obtain ⟨-, -, bytes, -⟩ := ok firstRecord _ boundRead_crowdedState
  have same := bytes (by rintro l ⟨⟩; rfl) (larderAt 0 0x10000) (by decide)
  exact absurd (after.symm.trans (same.trans before)) (by decide)

end Sys2Proof.Laws
end

section
/-! PROOFS: MSG and MSGH: the bytes that they read from the larder, the message that leaves, and the headers that fault (09 R227, R228). -/

namespace Sys2Proof.Laws

open Machine Safety

variable {s t : State} {d a b : BitVec 5} {ch : BitVec 2} {va : Reg} {k n : Nat}

/-! ### A run of bytes of the own larder, read by loads of 8 bytes -/

theorem peek_add (s : State) (p m n : Nat) : s.peek p (m + n) = s.peek p m ++ s.peek (p + m) n := by
  simp only [State.peek, List.range_add, List.map_append, List.map_map]
  exact congrArg _ (List.map_congr_left fun i _ => congrArg s.byte (Nat.add_assoc ..).symm)

theorem length_peek (s : State) (p n : Nat) : (s.peek p n).length = n := by rw [State.peek, List.length_map, List.length_range]

theorem flatten_peek (s : State) (p w k : Nat) : ((List.range k).map fun i => s.peek (p + w * i) w).flatten = s.peek p (w * k) := by
  induction k with
  | zero => rfl
  | succ k ih =>
    rw [List.range_succ, List.map_append, List.flatten_append, ih, Nat.mul_succ, peek_add]
    exact congrArg _ (List.append_nil _)

/-- A part of a run of bytes in the larder. -/
theorem inLarder_part {i m : Nat} (h : InLarder s va n) (part : i + m ≤ n) : InLarder s (va + BitVec.ofNat 64 i) m
    ∧ larderPlace s (va + BitVec.ofNat 64 i) = larderPlace s va + i ∧ (va + BitVec.ofNat 64 i).toNat = va.toNat + i := by
  obtain ⟨core, ahead, low, high, sound, free, stores⟩ := h
  have base : windowBase = 0xFFF0000000000 := rfl
  have moved : (va + BitVec.ofNat 64 i).toNat = va.toNat + i := toNat_add_of_lt (by omega)
  have place : larderAt s.cur.core ((va + BitVec.ofNat 64 i).toNat - windowBase) = larderAt s.cur.core (va.toNat - windowBase) + i := by
    rw [moved]
    unfold larderAt
    omega
  refine ⟨⟨core, ahead, by omega, by omega, fun j hj => ?_, ?_, stores⟩, place, moved⟩
  · rw [place, Nat.add_assoc]
    exact sound (i + j) (by omega)
  · rw [place]
    refine List.any_eq_false.mpr fun e he within => List.any_eq_false.mp free e he ?_
    rw [Bool.and_eq_true, decide_eq_true_eq, decide_eq_true_eq] at within ⊢
    omega

theorem loadRun_larder (h : k = 0 ∨ InLarder s va (8 * k) ∧ va.toNat % 8 = 0) :
    Act.loadRun va k s = (.ok (s.peek (larderPlace s va) (8 * k)), s) := by
  have each : ∀ i ∈ List.range k, Act.load (va + BitVec.ofNat 64 (8 * i)) 8 8 true s
      = (.ok (s.peek (larderPlace s va + 8 * i) 8), s) := fun i hi => by
    have within := List.mem_range.mp hi
    obtain ⟨larder, aligned⟩ := h.resolve_left (Nat.ne_zero_of_lt within)
    obtain ⟨part, place, moved⟩ := inLarder_part (i := 8 * i) (m := 8) larder (by omega)
    rw [← place]
    exact (atLarder_of part (by omega)).load
  rw [← flatten_peek]
  exact Act.bind_ok (mapM_of_each each)

/-! ### The message (09 R228) -/

/-- One message of these bytes has left the running slot, which goes on, and nothing else has changed. -/
def SendsMessage (s : State) (h w : Reg) (ch : BitVec 2) (dst n : Nat) (code : Option (List Byte)) (payload : List Byte) (t : State) :
    Prop :=
  (∃ m : Message, (if h.getLsbD 63 && h.toNat / 2 ^ 51 % 2 ^ 12 ≠ s.package.toNat then t.remote = s.remote ++ [m] ∧ t.net = s.net
      else t.net = s.net ++ [m] ∧ t.remote = s.remote)
    ∧ m.src = s.cur.core ∧ m.slot = s.cur.slot ∧ m.uid = s.uid ∧ m.dst = dst ∧ m.chan = ch ∧ m.code = code
    ∧ m.payload = payload ∧ m.payload.length = n ∧ m.dwin = w.getLsbD 17 ∧ m.doff = 8 * (w.toNat % 2 ^ 17)
    ∧ m.ctr = hdrCtr h ∧ m.header = h ∧ m.tenant = s.region.tenant ∧ m.secure = s.secure ∧ m.pkg = none
    ∧ m.fence = s.fence)
  ∧ SameBut (fun s => { s with cores := [], net := [], remote := [] }) s t ∧ SameCores s t ∧ OtherSlots s t
  ∧ SameSlotButPc s t ∧ Advanced s t

section

variable (s) (ch) (h w : Reg) (dst : Nat) (code : Option (List Byte)) (payload : List Byte)

/-- The message that the running slot stages. -/
def staged : Message :=
  { src := s.cur.core, slot := s.cur.slot, uid := s.uid, fence := s.fence, chan := ch, dst := dst, code := code, payload := payload
    dwin := dwCellar w, doff := dwOff w, ctr := hdrCtr h, header := h, root := (s.me.task.map (·.root)).getD 0
    rid := (s.me.task.map (·.rid)).getD 0, tenant := s.region.tenant, secure := s.secure, pkg := none
    route := Tab.get 0 s.routes (hdrPkg h) }

theorem sendMessage_eq : s.sendMessage ch h w dst code payload
    = if h.getLsbD 63 && h.toNat / 2 ^ 51 % 2 ^ 12 ≠ s.package.toNat
      then { s with remote := s.remote ++ [staged s ch h w dst code payload] }
      else { s with net := s.net ++ [staged s ch h w dst code payload] } := rfl

theorem seat_sendMessage : seat (s.sendMessage ch h w dst code payload) = seat s := seat_ite rfl rfl

theorem sendMessage_sends (size : payload.length = n) :
    SendsMessage s h w ch dst n code payload (s.sendMessage ch h w dst code payload).adv := by
  have seat := seat_sendMessage s ch h w dst code payload
  have cores := congrArg Prod.snd seat
  obtain ⟨next, slot, rest⟩ := adv_of_sameMe (sameMe_of_cores (congrArg Prod.fst seat) cores)
  refine ⟨⟨staged s ch h w dst code payload, ?_, rfl, rfl, rfl, rfl, rfl, rfl, rfl, size, rfl, rfl, rfl, rfl, rfl, rfl, rfl, rfl⟩, ?_, fun c => ?_,
    rest.others cores, slot, next⟩
  · rw [field_of_samePackage rest.package State.remote fun _ => rfl, field_of_samePackage rest.package State.net fun _ => rfl]
    rw [sendMessage_eq]
    split <;> exact ⟨rfl, rfl⟩
  · refine (field_of_samePackage rest.package (fun u : State => { u with cores := [], net := [], remote := [] }) fun _ => rfl).trans ?_
    rw [sendMessage_eq]
    split <;> rfl
  · exact (rest.cores c).trans (sameCores_of_cores cores c)

end

/-! ### The instructions -/

/-- A header and a delivery word that R228 takes. -/
theorem messageAct_sends {dst : Nat} (handler : Bool) (clean : hdrBad (s.g b) = false) (ring : hdrQh (s.g b) = 0)
    (target : hdrTarget s.cur.core (s.g b) = some dst) (word : dwBad (s.g d) = false)
    (source : dwLen (s.g d) + (if handler then 8 else 0) = 0
      ∨ InLarder s (s.g a) (8 * (dwLen (s.g d) + if handler then 8 else 0)) ∧ (s.g a).toNat % 8 = 0) :
    let bs := s.peek (larderPlace s (s.g a)) (8 * (dwLen (s.g d) + if handler then 8 else 0))
    messageAct d a b ch handler s = (.ok ⟨⟩, (s.sendMessage ch (s.g b) (s.g d) dst (if handler then some (bs.take 64) else none)
      (if handler then bs.drop 64 else bs)).adv) := by
  intro bs
  have good : ¬ ((hdrBad (s.g b) || decide (hdrQh (s.g b) ≠ 0)) = true) := by simp [clean, ring]
  unfold messageAct
  simp only [Act.get_bind, if_neg good, target, if_neg (Bool.eq_false_iff.mp word), Act.bind_ok (loadRun_larder source), Act.modify_bind]
  rfl

theorem messageAct_traps (handler : Bool) (bad : hdrBad (s.g b) = true ∨ hdrQh (s.g b) ≠ 0) :
    messageAct d a b ch handler s = (.error (.trap Cause.data (s.g b)), s) := by
  have bad : (hdrBad (s.g b) || decide (hdrQh (s.g b) ≠ 0)) = true := by simpa using bad
  unfold messageAct
  simp only [Act.get_bind, if_pos bad]
  rfl

theorem wait_sendMessage (ready : Ready s) (h w : Reg) (dst : Nat) (code : Option (List Byte)) (payload : List Byte) :
    (s.sendMessage ch h w dst code payload).adv.me.wait = .none := by
  have seat := seat_sendMessage s ch h w dst code payload
  rw [wait_adv, (sameMe_of_cores (congrArg Prod.fst seat) (congrArg Prod.snd seat)).me]
  exact ready

/-- A data fault sends nothing. -/
theorem dataFault_sends_nothing (ready : Ready s) {x : Reg} (may : TrapReady s 0x06 x s.base) : let t := s.trapHere Cause.data x
    Traps s t 0x06 x s.base ∧ t.net = s.net ∧ t.remote = s.remote := by
  obtain ⟨traps, -, package⟩ := dataFault_traps ready may
  exact ⟨traps, field_of_samePackage package State.net fun _ => rfl, field_of_samePackage package State.remote fun _ => rfl⟩

/-- Settles O27 (log 62, 95): the work of both instructions is `messageAct`, which reads the source word by word
(`loadRun_larder`) and sends what it has read (`sendMessage_sends`), or traps before it reads anything. -/
theorem messages : Obligations.Messages := by
  unfold Obligations.Messages
  refine ⟨?_, fun s d a b ch ready bad may => ⟨?_, ?_⟩⟩
  · intro s d a b ch dst ready h w len away sent bytes clean ring target word
    refine ⟨fun source => ?_, fun larder aligned => ?_⟩
    · have work := messageAct_sends (ch := ch) false clean ring target word source
      exact ⟨_, exec_of_next rfl rfl ready work (wait_sendMessage ready ..), sendMessage_sends s ch h w dst none _ (length_peek ..)⟩
    · have work := messageAct_sends (ch := ch) true clean ring target word (.inr ⟨larder, aligned⟩)
      refine ⟨_, exec_of_next rfl rfl ready work (wait_sendMessage ready ..), sendMessage_sends s ch h w dst _ _ ?_⟩
      change List.length (List.drop 64 (s.peek _ (8 * (dwLen w + 8)))) = 8 * dwLen w
      rw [List.length_drop, length_peek]
      omega
  · exact ⟨_, exec_of_trap rfl rfl ready (messageAct_traps false bad), dataFault_sends_nothing ready may⟩
  · exact ⟨_, exec_of_trap rfl rfl ready (messageAct_traps true bad), dataFault_sends_nothing ready may⟩

end Sys2Proof.Laws
end

section
/-! PROOFS: SPAWN: the copy that it takes of its record, and the entry that it pushes (09 R233); TSELF (09 R237). -/

namespace Sys2Proof.Laws

open Machine Safety

variable {s t : State} {d a : BitVec 5} {x : Task} {r : Record} {v : Reg}

/-! ### The record -/

theorem Act.record_ok {va : Reg} (h : RecordOk s va x) : Act.record va s = (.ok (recordAt s va), s) := by
  obtain ⟨larder, aligned, task, clean, below⟩ := h
  have read : Act.load va 64 64 true s = (.ok (s.peek (larderPlace s va) 64), s) := (atLarder_of larder aligned).load
  unfold Act.record
  rw [Act.bind_ok read, Act.get_bind, task]
  exact congrArg (fun f : Act Record => f s) (if_pos (by rw [Bool.and_eq_true]; exact ⟨clean, below⟩))

theorem Act.copy_fresh {va : Reg} (fresh : s.me.copied = none) : Act.copy va s = Act.record va s := by
  unfold Act.copy
  rw [Act.get_bind, fresh]

theorem Act.copy_taken {va : Reg} (taken : s.me.copied = some r) : Act.copy va s = (.ok r, s) := by
  unfold Act.copy
  rw [Act.get_bind, taken]
  rfl

/-- The copy is dropped once the release is complete. -/
theorem Act.releaseWith_ok (released : s.released s.cur.core s.cur.slot 3 = true) (r : Record) :
    ∃ u, Becomes s { s.me with copied := none } u ∧ Act.releaseWith r s = (.ok ⟨⟩, u) := by
  unfold Act.releaseWith
  rw [Act.get_bind, if_pos released]
  cases h : s.me.copied with
  | none => exact ⟨s, h ▸ Becomes.self s, rfl⟩
  | some r => exact ⟨_, setMe_becomes .., rfl⟩

/-- Until then the slot keeps it. -/
theorem Act.releaseWith_stall (waits : s.released s.cur.core s.cur.slot 3 = false) (r : Record) :
    Act.releaseWith r s = (.error .stall, s.setMe { s.me with copied := some r }) := by
  unfold Act.releaseWith
  rw [Act.get_bind, if_neg (Bool.eq_false_iff.mp waits)]
  rfl

/-! ### SPAWN -/

/-- What SPAWN does with the copy. -/
def spawnWith (d : BitVec 5) (addr : Reg) (r : Record) : Act Unit := do
  Act.releaseWith r
  let s ← get
  if Config.dequeSize ≤ s.here.deque.length then Act.result d 0
  else do
    set (s.pushDeque s.cur.core r addr ((s.me.task.map (·.root)).getD 0))
    Act.result d 1

theorem exec_spawn (ready : Ready s) (copy : Act.copy (s.g a) s = (.ok r, s)) :
    exec (.spawn d a) s = .next ((spawnWith d (s.g a) r).next (.spawn d a) s) := by
  refine (run_ready (i := .spawn d a) rfl ready).trans (congrArg _ (Act.next_congr ?_))
  rw [Act.get_bind, Act.bind_ok copy]
  rfl

/-- An entry of this record stands at the newest end of the deque, the slot goes on with 1, and nothing else has changed. -/
def Pushes (s : State) (d : BitVec 5) (addr : Reg) (root : Nat) (r : Record) (t : State) : Prop :=
  WritesG s t d 1
    ∧ (∃ e : Entry, t.here.deque = s.here.deque ++ [e] ∧ e.record = r ∧ e.addr = addr ∧ e.root = root ∧ e.origin = .package)
    ∧ Advanced s t ∧ OtherSlots s t ∧ t.me.copied = none
    ∧ { t.me with g := [], pc := 0, copied := none } = { s.me with g := [], pc := 0, copied := none }
    ∧ SameBut (fun s => { s with cores := [], stamp := 0 }) s t
    ∧ ∀ c, { t.core c with slots := [], deque := [] } = { s.core c with slots := [], deque := [] }

/-- The slot stays at its instruction with the copy that it has taken. -/
def KeepsCopy (s : State) (r : Record) (t : State) : Prop :=
  t.me.copied = some r ∧ t.base = s.base ∧ t.me.latched.isSome = true ∧ (∀ r, t.g r = s.g r) ∧ t.here.deque = s.here.deque
    ∧ SameBytes s t ∧ OtherSlots s t

theorem here_of_becomes {α : Type} {y : Slot} (h : Becomes s y t) (f : Core → α) (hf : ∀ x : Core, f { x with slots := [] } = f x) :
    f t.here = f s.here := by
  rw [State.here, cur_of_samePackage h.package]
  exact core_of_sameCore (h.cores _) f hf

theorem base_of_becomes {y : Slot} (h : Becomes s y t) (same : y.pc = s.me.pc) : t.base = s.base := by
  rw [State.base, h.me, same, State.base]

theorem g_of_becomes {y : Slot} (h : Becomes s y t) (same : y.g = s.me.g) (q : BitVec 5) : t.g q = s.g q := by
  rw [State.g, Slot.gReg, h.me, same, State.g, Slot.gReg]

/-- The package after the stamp of an entry, and the core with that entry at the newest end of its deque. -/
def stamped (s : State) : State := { s with stamp := s.stamp + 1 }
def withEntry (x : Core) (e : Entry) : Core := { x with deque := x.deque ++ [e] }

theorem pushDeque_eq (s : State) (r : Record) (addr : Reg) (root : Nat) : s.pushDeque s.cur.core r addr root
    = (stamped s).setHere (withEntry s.here { record := r, addr := addr, root := root, arrival := s.stamp, origin := .package }) := rfl

theorem but_copied {x y z : Slot} (h : { x with g := [], pc := 0 } = { y with g := [], pc := 0 }) (dropped : y = { z with copied := none }) :
    { x with g := [], pc := 0, copied := none } = { z with g := [], pc := 0, copied := none } := by
  subst dropped
  exact congrArg (fun x : Slot => { x with copied := none }) h

theorem pushDeque_pushes (h : Becomes s { s.me with copied := none } t) (d : BitVec 5) (r : Record) (addr : Reg) (root : Nat) :
    Pushes s d addr root r (((t.pushDeque t.cur.core r addr root).setG d 1).adv) := by
  rw [pushDeque_eq]
  generalize made : (⟨r, addr, root, t.stamp, .package⟩ : Entry) = e
  have slots : (withEntry t.here e).slots = (stamped t).here.slots := rfl
  obtain ⟨writes, next, slot, rest⟩ := result_of_sameMe (sameMe_setHere slots) d 1
  have here : t.here.deque = s.here.deque := here_of_becomes h Core.deque fun _ => rfl
  have others := otherSlots_setHere slots rest
  have deque := rest.here Core.deque fun _ => rfl
  refine ⟨fun q => (writes q).trans ?_, ⟨e, deque.trans (congrArg (· ++ [e]) here), ?_⟩, next.trans (h.after_eq rfl),
    fun c k other => ?_, ?_, ?_, ?_, fun c => ?_⟩
  · exact congrArg (fun v => if q = d ∧ q ≠ 0 then 1 else v) (g_of_becomes h rfl q)
  · exact made ▸ ⟨rfl, rfl, rfl, rfl⟩
  · rw [← cur_of_samePackage h.package] at other
    exact (others c k other).trans (h.others c k (by rwa [cur_of_samePackage h.package] at other))
  · exact (congrArg Slot.copied slot).trans (congrArg Slot.copied h.me)
  · exact but_copied slot h.me
  · have gone := field_of_samePackage rest.package (fun u : State => { u with cores := [], stamp := 0 }) fun _ => rfl
    have kept := field_of_samePackage h.package (fun u : State => { u with cores := [], stamp := 0 }) fun _ => rfl
    exact gone.trans kept
  · have pushed := core_setHere_but (s := stamped t) (x := withEntry t.here e) (fun x : Core => { x with slots := [], deque := [] }) rfl c
    have kept := core_of_sameCore (h.cores c) (fun x : Core => { x with slots := [], deque := [] }) fun _ => rfl
    have gone := core_of_sameCore (rest.cores c) (fun x : Core => { x with slots := [], deque := [] }) fun _ => rfl
    exact gone.trans (pushed.trans kept)

section

variable (ready : Ready s) (copy : Act.copy (s.g a) s = (.ok r, s))

include ready copy

theorem spawn_pushes (task : s.me.task = some x) (released : s.released s.cur.core s.cur.slot 3 = true)
    (room : s.here.deque.length < 64) : Completes (.spawn d a) s (Pushes s d (s.g a) x.root r) := by
  obtain ⟨u, h, work⟩ := Act.releaseWith_ok released r
  have here : u.here.deque = s.here.deque := here_of_becomes h Core.deque fun _ => rfl
  have free : ¬ Config.dequeSize ≤ u.here.deque.length := by rw [here]; exact Nat.not_le_of_lt room
  have root : (u.me.task.map (·.root)).getD 0 = x.root := by rw [h.me]; exact congrArg (fun o : Option Task => (o.map (·.root)).getD 0) task
  have act : spawnWith d (s.g a) r s = (.ok ⟨⟩, ((u.pushDeque u.cur.core r (s.g a) x.root).setG d 1).adv) := by
    unfold spawnWith
    rw [Act.bind_ok work, Act.get_bind, if_neg free, root]
    rfl
  have wait : (((u.pushDeque u.cur.core r (s.g a) x.root).setG d 1).adv).me.wait = .none := by
    obtain ⟨-, -, -, -, -, slot, -, -⟩ := pushDeque_pushes h d r (s.g a) x.root
    exact (congrArg Slot.wait slot).trans ready
  exact ⟨_, (exec_spawn ready copy).trans (congrArg _ (Act.next_ok act wait)), pushDeque_pushes h d r (s.g a) x.root⟩

theorem spawn_full (fresh : s.me.copied = none) (released : s.released s.cur.core s.cur.slot 3 = true)
    (full : 64 ≤ s.here.deque.length) : Completes (.spawn d a) s (Safety.Gives s · d 0) := by
  have work : Act.releaseWith r s = (.ok ⟨⟩, s) := by
    unfold Act.releaseWith
    rw [Act.get_bind, if_pos released, fresh]
    rfl
  have act : spawnWith d (s.g a) r s = (.ok ⟨⟩, (s.setG d 0).adv) := by
    unfold spawnWith
    rw [Act.bind_ok work, Act.get_bind, if_pos (show Config.dequeSize ≤ _ from full)]
    rfl
  exact ⟨_, (exec_spawn ready copy).trans (congrArg _ (Act.next_ok act ((wait_result ..).trans ready))), setG_adv_gives ..⟩

theorem spawn_stays (waits : s.released s.cur.core s.cur.slot 3 = false) : Completes (.spawn d a) s (KeepsCopy s r) := by
  have act : spawnWith d (s.g a) r s = (.error .stall, s.setMe { s.me with copied := some r }) :=
    Act.bind_error (Act.releaseWith_stall waits r)
  have h := (setMe_becomes s { s.me with copied := some r }).latch (.spawn d a)
  refine ⟨_, (exec_spawn ready copy).trans (congrArg _ (Act.next_stall act)), ?_⟩
  refine ⟨congrArg Slot.copied h.me, base_of_becomes h rfl, by rw [h.me]; rfl, g_of_becomes h rfl,
    here_of_becomes h Core.deque fun _ => rfl, sameBytes_of_samePackage h.package, h.others⟩

end

end Sys2Proof.Laws
end

section
/-! PROOFS: the end of a task (09 R236; 10 R254, R256): what it does beside the slots and the ports of a core, to the locks and to the
ports. -/

namespace Sys2Proof.Laws

open Machine Safety

variable {s t : State} {c k uid : Nat} {l y : Lock}

/-! ### Beside the slots and the ports -/

/-- What the cores show beside their slots and their ports, and which slot runs. -/
def beside (s : State) : Cursor × (Nat → Core) := (s.cur, fun c => { s.core c with slots := [], ports := [] })

theorem beside_of_seat (h : seat t = seat s) : beside t = beside s := by
  have cores := congrArg Prod.snd h
  have cur := congrArg Prod.fst h
  exact Prod.ext cur (funext fun c => congrArg (fun x : Core => { x with slots := [], ports := [] }) (core_of_cores cores c))

theorem beside_setCore {x : Core} (h : { x with slots := [], ports := [] } = { s.core c with slots := [], ports := [] }) :
    beside (s.setCore c x) = beside s := by
  refine Prod.ext rfl (funext fun c' => ?_)
  change { (s.setCore c x).core c' with slots := [], ports := [] } = _
  rw [core_setCore]
  split
  next same => exact same ▸ h
  next => rfl

theorem beside_setSlotAt (s : State) (c k : Nat) (x : Slot) : beside (s.setSlotAt c k x) = beside s := beside_setCore rfl

theorem beside_mapSlots (s : State) (f : Nat → Nat → Slot → Slot) : beside (s.mapSlots f) = beside s :=
  Prod.ext rfl (funext fun c => by
    change { (s.mapSlots f).core c with slots := [], ports := [] } = _
    rw [core_mapSlots]
    rfl)

theorem beside_ite {p : Prop} [Decidable p] {a b : State} (ha : beside a = beside s) (hb : beside b = beside s) :
    beside (if p then a else b) = beside s := by split <;> assumption

theorem beside_foldl {β : Type} (f : State → β → State) (hf : ∀ s b, beside (f s b) = beside s) (xs : List β) (s : State) :
    beside (xs.foldl f s) = beside s := by
  induction xs generalizing s with
  | nil => rfl
  | cons x xs ih => exact (ih _).trans (hf s x)

/-! ### Gates and waystations (10 R250, R254) -/

theorem beside_barAdvance (s : State) (b : Nat) : beside (s.barAdvance b) = beside s := beside_mapSlots ..

theorem beside_linkRelease (s : State) (e : Nat) : beside (s.linkRelease e) = beside s :=
  beside_ite rfl (beside_barAdvance ..)

theorem beside_masterArrive (s : State) (e member : Nat) : beside (s.masterArrive e member) = beside s :=
  beside_ite rfl (beside_ite (beside_linkRelease ..) rfl)

theorem beside_barPhase (s : State) (b : Nat) : beside (s.barPhase b) = beside s := by
  unfold State.barPhase
  split
  next => exact beside_barAdvance ..
  next => exact beside_ite (beside_masterArrive ..) rfl

theorem beside_leaveGate (s : State) (b : Nat) (arrv : Bool) (gtok : BitVec 32) : beside (s.leaveGate b arrv gtok) = beside s :=
  beside_ite rfl (beside_ite rfl (beside_ite (beside_barPhase ..) rfl))

theorem beside_leaveWay (s : State) (c k : Nat) : beside (s.leaveWay c k).1 = beside s := by
  unfold State.leaveWay
  simp only
  split <;> exact beside_setCore rfl

/-! ### Locks (10 R266, R270) -/

theorem beside_scanWaiters (m : BitVec 36) (n : Nat) (s : State) (l : Lock) : beside (s.scanWaiters m n l) = beside s := by
  induction n generalizing s l with
  | zero => rfl
  | succ n ih =>
    unfold State.scanWaiters
    split
    next => exact (ih ..).trans (beside_mapSlots ..)
    next => rfl

theorem beside_withdraw (s : State) (uid : Nat) : beside (s.withdraw uid) = beside s :=
  beside_foldl _ (fun _ _ => beside_scanWaiters ..) _ _

/-- A lock after a scan is one of another name, or has no waiter that it did not have. -/
theorem mem_scanWaiters (m : BitVec 36) (n : Nat) (s : State) (l : Lock) (h : y ∈ (s.scanWaiters m n l).locks) :
    (y ∈ s.locks ∧ y.same l = false) ∨ ∀ w ∈ y.waiters, w ∈ l.waiters := by
  have set (s : State) (l : Lock) (h : y ∈ (s.setLock l).locks) :
      (y ∈ s.locks ∧ y.same l = false) ∨ ∀ w ∈ y.waiters, w ∈ l.waiters := by
    have rest : y ∈ s.locks.filter (fun x => !x.same l) → y ∈ s.locks ∧ y.same l = false := fun h =>
      ⟨(List.mem_filter.mp h).1, by simpa using (List.mem_filter.mp h).2⟩
    unfold State.setLock at h
    simp only at h
    split at h
    next => exact .inl (rest h)
    next =>
      rcases List.mem_cons.mp h with rfl | h
      · exact .inr fun _ hw => hw
      · exact .inl (rest h)
  induction n generalizing s l with
  | zero => exact set s l h
  | succ n ih =>
    unfold State.scanWaiters at h
    split at h
    next w _ =>
      rcases ih _ _ h with other | waiters
      · exact .inl other
      · exact .inr fun w hw => (List.mem_filter.mp (waiters w hw)).1
    next => exact set s l h

/-- No request of the task waits any longer. -/
theorem waiters_withdraw (s : State) (uid : Nat) (h : l ∈ (s.withdraw uid).locks) {w : LockUser} (hw : w ∈ l.waiters) : w.uid ≠ uid := by
  have fold (ls : List Lock) (s : State) (left : ∀ y ∈ s.locks, (∀ w ∈ y.waiters, w.uid ≠ uid) ∨ y ∈ ls) :
      ∀ y ∈ (ls.foldl (fun (s : State) l => s.lockChanged { l with waiters := l.waiters.filter (fun w => w.uid ≠ uid) }) s).locks,
        ∀ w ∈ y.waiters, w.uid ≠ uid := by
    induction ls generalizing s with
    | nil => exact fun y hy => (left y hy).resolve_right (List.not_mem_nil)
    | cons l ls ih =>
      refine ih _ fun y hy => ?_
      rcases mem_scanWaiters _ _ _ _ hy with ⟨old, other⟩ | waiters
      · refine (left y old).imp_right fun hy => (List.mem_cons.mp hy).resolve_left ?_
        rintro rfl
        simp [Lock.same] at other
      · exact .inl fun w hw => by simpa using (List.mem_filter.mp (waiters w hw)).2
  refine fold _ s (fun y hy => ?_) l h w hw
  by_cases own : y.waiters.any (fun w => w.uid = uid) = true
  · exact .inr (List.mem_filter.mpr ⟨hy, own⟩)
  · exact .inl fun w hw same => own (List.any_eq_true.mpr ⟨w, hw, decide_eq_true same⟩)

/-- Memory, the barrier objects and the waystations. -/
def atRest (s : State) : Memory × Tab Barrier × List Waystation := (s.mem, s.bars, s.waystations)

theorem atRest_withdraw (s : State) (uid : Nat) : atRest (s.withdraw uid) = atRest s := by
  have scan (m : BitVec 36) (n : Nat) (s : State) (l : Lock) : atRest (s.scanWaiters m n l) = atRest s := by
    induction n generalizing s l with
    | zero => rfl
    | succ n ih =>
      unfold State.scanWaiters
      split
      next => exact ih ..
      next => rfl
  unfold State.withdraw
  generalize s.locks.filter _ = ls
  induction ls generalizing s with
  | nil => rfl
  | cons l ls ih => exact (ih _).trans (scan ..)

/-! ### The parts of the end of a task -/

/-- A caravan has left its waystation and its gate. -/
def caravanLeft (s : State) (c k : Nat) : State :=
  let x := s.slotAt c k
  if x.caravan && x.atws then
    let r := s.leaveWay c k
    if r.2.1 then r.1.report (slotReport r.1 c k 0x07 0 (x.triple.node.setWidth 64)
      (BitVec.ofNat 64 (x.triple.group.toNat * 2 ^ 32 + x.triple.step.toNat)) r.2.2)
    else r.1
  else s
def gateLeft (x : Slot) (c k : Nat) (kept : Bool) (s : State) : State :=
  let group := if x.met then x.triple.group else x.cvgroup
  if x.caravan && group.getLsbD 15 && !kept then s.leaveGate (s.gateOf c k group) x.arrv x.gtok else s

/-- An advance that is under way is left to the interface, and the locks that are held are left to be dropped. -/
def advanceLeft (x : Slot) (c k : Nat) (s : State) : State :=
  if x.wait = .publishing then
    let vf := (s.regionOf c k).vf
    s.setNgamon vf { s.ngamon vf with advancing := true }
  else s
def locksLeft (x : Slot) (c k : Nat) (s : State) : State :=
  if s.locks.any (fun l => l.holders.any (fun h => h.uid = x.runId)) then { s with lockDrops := s.lockDrops ++
    [{ uid := x.runId, core := c, slot := k, root := (x.task.map (·.root)).getD 0, rid := (x.task.map (·.rid)).getD 0 }] }
  else s

/-- A caravan has left, and no request of the task waits. -/
def withdrawn (s : State) (c k : Nat) (kept : Bool) : State :=
  (gateLeft (s.slotAt c k) c k kept (caravanLeft s c k)).withdraw (s.slotAt c k).runId

/-- Its ports are closed, and what it has begun is left to others. -/
def closing (x : Slot) (c k : Nat) (s : State) : State :=
  locksLeft x c k (advanceLeft x c k ((s.abortConvoys c k x.runId).abandon c k))

/-- All that the end of a task does before its slot is at reset. -/
def closed (s : State) (c k : Nat) (kept : Bool) : State := closing (s.slotAt c k) c k (withdrawn s c k kept)

theorem endTask_eq (s : State) (c k : Nat) (kept : Bool) : s.endTask c k kept = (closed s c k kept).setSlotAt c k Slot.reset := rfl

theorem beside_caravanLeft (s : State) (c k : Nat) : beside (caravanLeft s c k) = beside s :=
  beside_ite (beside_ite ((beside_of_seat (seat_report ..)).trans (beside_leaveWay ..)) (beside_leaveWay ..)) rfl

theorem beside_gateLeft (x : Slot) (c k : Nat) (kept : Bool) (s : State) : beside (gateLeft x c k kept s) = beside s :=
  beside_ite (beside_leaveGate ..) rfl

theorem beside_withdrawn (s : State) (c k : Nat) (kept : Bool) : beside (withdrawn s c k kept) = beside s :=
  (beside_withdraw ..).trans ((beside_gateLeft ..).trans (beside_caravanLeft ..))

theorem beside_abortConvoys (s : State) (c k uid : Nat) : beside (s.abortConvoys c k uid) = beside s :=
  beside_setCore (s := { s with cnet := _ }) rfl

section

variable (x : Slot) (c k : Nat) (s : State)

theorem seat_advanceLeft : seat (advanceLeft x c k s) = seat s := seat_ite rfl rfl

theorem seat_locksLeft : seat (locksLeft x c k s) = seat s := seat_ite rfl rfl

theorem locks_advanceLeft : (advanceLeft x c k s).locks = s.locks := by unfold advanceLeft; split <;> rfl

theorem locks_locksLeft : (locksLeft x c k s).locks = s.locks := by unfold locksLeft; split <;> rfl

theorem atRest_advanceLeft : atRest (advanceLeft x c k s) = atRest s := by unfold advanceLeft; split <;> rfl

theorem atRest_locksLeft : atRest (locksLeft x c k s) = atRest s := by unfold locksLeft; split <;> rfl

/-- The cores after the convoy ports of the slot are closed are the cores until its slot is at reset. -/
theorem seat_closing : seat (closing x c k s) = seat (s.abortConvoys c k x.runId) := (seat_locksLeft ..).trans (seat_advanceLeft ..)

theorem locks_closing : (closing x c k s).locks = s.locks := (locks_locksLeft ..).trans (locks_advanceLeft ..)

theorem atRest_closing : atRest (closing x c k s) = atRest s := (atRest_locksLeft ..).trans (atRest_advanceLeft ..)

theorem beside_closing : beside (closing x c k s) = beside s := (beside_of_seat (seat_closing ..)).trans (beside_abortConvoys ..)

/-- Of the ports of the core the slot's own are gone (09 R244). -/
theorem ports_closing : ((closing x c k s).core c).ports = (s.core c).ports.filter (fun e => !(e.2.slot = k && e.2.uid = x.runId)) := by
  rw [core_of_cores (congrArg Prod.snd (seat_closing x c k s)), State.abortConvoys, core_setCore, if_pos rfl]
  rfl

end

theorem beside_closed (s : State) (c k : Nat) (kept : Bool) : beside (closed s c k kept) = beside s :=
  (beside_closing ..).trans (beside_withdrawn ..)

theorem beside_endTask (s : State) (c k : Nat) (kept : Bool) : beside (s.endTask c k kept) = beside s := by
  rw [endTask_eq, beside_setSlotAt, beside_closed]

theorem cur_endTask (s : State) (c k : Nat) (kept : Bool) : (s.endTask c k kept).cur = s.cur :=
  congrArg Prod.fst (beside_endTask s c k kept)

theorem slotAt_endTask_same (s : State) (c k : Nat) (kept : Bool) : (s.endTask c k kept).slotAt c k = Slot.reset := by
  rw [endTask_eq, slotAt_setSlotAt, if_pos ⟨rfl, rfl⟩]

theorem ports_endTask (s : State) (c k : Nat) (kept : Bool) : ∀ e ∈ ((s.endTask c k kept).core c).ports,
    ¬ (e.2.slot = k ∧ e.2.uid = (s.slotAt c k).runId) := by
  rintro e he ⟨slot, run⟩
  rw [endTask_eq, State.setSlotAt, core_setCore, if_pos rfl, Core.setSlot, closed, ports_closing] at he
  simpa [slot, run] using (List.mem_filter.mp he).2

theorem locks_endTask (s : State) (c k : Nat) (kept : Bool) : (s.endTask c k kept).locks = (withdrawn s c k kept).locks := by
  rw [endTask_eq, State.setSlotAt, State.setCore, closed, locks_closing]

/-- Of a task that is no caravan, neither memory nor a gate or a waystation sees the end. -/
theorem atRest_endTask (plain : (s.slotAt c k).caravan = false) (kept : Bool) : atRest (s.endTask c k kept) = atRest s := by
  have left : caravanLeft s c k = s := by rw [caravanLeft, plain]; rfl
  have gate : gateLeft (s.slotAt c k) c k kept s = s := by rw [gateLeft, plain]; rfl
  calc atRest (s.endTask c k kept)
    _ = atRest (closed s c k kept) := by rw [endTask_eq]; rfl
    _ = atRest (withdrawn s c k kept) := by rw [closed, atRest_closing]
    _ = atRest (gateLeft (s.slotAt c k) c k kept (caravanLeft s c k)) := atRest_withdraw ..
    _ = atRest s := by rw [left, gate]

/-! ### TEND and TSELF (09 R236, R237) -/

theorem tend_ends (s : State) : Completes .tend s (fun t => t.me = Slot.reset
    ∧ (∀ e ∈ t.here.ports, ¬(e.2.slot = s.cur.slot ∧ e.2.uid = s.uid)) ∧ (∀ l ∈ t.locks, ∀ w ∈ l.waiters, w.uid ≠ s.uid)
    ∧ (s.me.caravan = false → SameBytes s t ∧ t.bars = s.bars ∧ t.waystations = s.waystations)) := by
  refine ⟨s.endTask s.cur.core s.cur.slot false, rfl, ?_, ?_, fun l hl w hw => ?_, fun plain => ?_⟩
  · rw [State.me, cur_endTask, slotAt_endTask_same]
  · rw [State.here, cur_endTask]
    exact ports_endTask s s.cur.core s.cur.slot false
  · rw [locks_endTask] at hl
    exact waiters_withdraw _ _ hl hw
  · have rest := atRest_endTask plain false
    have mem : (s.endTask s.cur.core s.cur.slot false).mem = s.mem := congrArg Prod.fst rest
    exact ⟨byte_of_mem mem, congrArg (·.2.1) rest, congrArg (·.2.2) rest⟩

/-- The identity of the running task (09 Table 9.8a). -/
def identityOf (s : State) : Reg :=
  let r := s.region
  BitVec.ofNat 64 ((match s.me.task with
    | some x => x.rid.toNat
    | none => 0) * 2 ^ 48 + (r.h - 1) % 64 * 2 ^ 42 + (r.w - 1) % 64 * 2 ^ 36 + (yOf s.cur.core - r.y) % 64 * 2 ^ 30
    + (xOf s.cur.core - r.x) % 64 * 2 ^ 24 + s.cur.slot % 8)

theorem tself_gives (s : State) (d : BitVec 5) : Completes (.tself d) s (Safety.Gives s · d (identityOf s)) :=
  completes_setG identityOf rfl rfl

/-- Settles O29: SPAWN and its stalled copy by the lemmas of `spawnWith`; TEND by what the end of a task leaves (`endTask_eq`). -/
theorem tasks : Obligations.Tasks := by
  unfold Obligations.Tasks
  refine ⟨?_, fun s d => ⟨tend_ends s, tself_gives s d⟩⟩
  intro s d a x ready task released pushes stays
  refine ⟨fun fresh ok => ?_, fun r taken => ?_⟩
  · have copy := (Act.copy_fresh fresh).trans (Act.record_ok ok)
    exact ⟨fun go => ⟨spawn_pushes ready copy task go, spawn_full ready copy fresh go⟩, spawn_stays ready copy⟩
  · exact ⟨spawn_pushes ready (Act.copy_taken taken) task, spawn_stays ready (Act.copy_taken taken)⟩

end Sys2Proof.Laws
end

section
/-! PROOFS: neighbour mailboxes as instructions: NPUT, NGET, NPEEK and NCFG (09 R238 to R241). -/

namespace Sys2Proof.Laws

open Machine Safety

variable {s t u : State} {d a v : BitVec 5} {e : BitVec 2} {n : Nat} {x : Vec} {rest : List Vec}

/-! ### NPUT (09 R239) -/

/-- The entry that NPUT sends to a neighbour. -/
def sentEntry (s : State) (v : BitVec 5) (e : BitVec 2) (n : Nat) : NEntry :=
  { src := s.cur.core, dst := n, dir := e + 2, slot := s.cur.slot, uid := s.uid, fence := s.fence, data := s.v v }

theorem opposite_eq (e : BitVec 2) : BitVec.ofNat 2 (e.toNat + 2) = e + 2 := by decide +revert

theorem mailSend_eq (s : State) (v : BitVec 5) (e : BitVec 2) (n : Nat) : s.mailSend s.cur.core n e.toNat s.cur.slot s.uid s.fence (s.v v)
    = { s with nnet := s.nnet ++ [sentEntry s v e n] } := by
  rw [State.mailSend, opposite_eq]
  rfl

section

variable (ready : Ready s)

include ready

theorem exec_nput_sends (there : s.neighbour e.toNat = some n) (room : 1 ≤ s.mailRoom n ((e.toNat + 2) % 4)) :
    exec (.nput v e) s = .next ({ s with nnet := s.nnet ++ [sentEntry s v e n] } : State).adv := by
  have space : s.mailRoom n ((e.toNat + 2) % 4) ≠ 0 := Nat.one_le_iff_ne_zero.mp room
  refine (run_ready (i := .nput v e) rfl ready).trans (congrArg _ (Act.next_ok ?_ ?_))
  · simp only [Act.get_bind, there, if_neg space, Act.set_bind, Act.done_apply, mailSend_eq]
  · rw [wait_adv]
    exact ready

theorem exec_nput_stays (there : s.neighbour e.toNat = some n) (full : s.mailRoom n ((e.toNat + 2) % 4) = 0) :
    exec (.nput v e) s = .next (s.latch (.nput v e)) := by
  refine (run_ready (i := .nput v e) rfl ready).trans (congrArg _ (Act.next_stall ?_))
  simp only [Act.get_bind, there, if_pos full, Act.stall_apply]

theorem nput_traps (nobody : s.neighbour e.toNat = none) (may : TrapReady s 0x06 (e.setWidth 64) s.base) :
    Completes (.nput v e) s (fun t => Traps s t 0x06 (e.setWidth 64) s.base ∧ t.nnet = s.nnet) := by
  obtain ⟨traps, -, package⟩ := dataFault_traps ready may
  refine ⟨_, (run_ready (i := .nput v e) rfl ready).trans (congrArg _ (Act.next_trap (s := s) (t := s) ?_)), traps,
    field_of_samePackage package State.nnet fun _ => rfl⟩
  simp only [Act.get_bind, nobody]
  rfl

end

/-! ### NGET (09 R240) -/

/-- A vector register is written and the slot goes on. -/
theorem setV_adv_becomes (s : State) (v : BitVec 5) (x : Vec) : Becomes s { s.me.setV v x with pc := s.after } (s.setV v x).adv :=
  ((Becomes.self s).setV v x).adv rfl

/-- The core without the oldest entry of a mailbox. -/
def taken (y : Core) (dir : Nat) (rest : List Vec) : Core := { y with mail := Tab.set [] y.mail dir rest }

theorem mailDrop_eq {dir : Nat} (box : s.mailbox s.cur.core dir = x :: rest) :
    s.mailDrop s.cur.core dir 1 = s.setHere (taken s.here dir rest) := by
  rw [State.mailDrop, box]
  rfl

theorem nget_ready (ready : Ready s) : exec (.nget v e) s = .next (((do
    let s ← get
    match s.mailbox s.cur.core e.toNat with
    | x :: _ => do
      set ((s.mailDrop s.cur.core e.toNat 1).setV v x)
      Act.done
    | [] => Act.park (.mailbox e)) : Act Unit).next (.nget v e) s) := by
  change execNget v e s = _
  rw [execNget, show s.me.wait = .none from ready]
  refine (run_ready rfl ready).trans (congrArg _ (Act.next_congr ?_))
  rw [Act.get_bind, Act.get_bind]
  cases s.mailbox s.cur.core e.toNat <;> rfl

/-- The oldest entry is taken. -/
theorem nget_takes (ready : Ready s) (box : s.mailbox s.cur.core e.toNat = x :: rest) : Completes (.nget v e) s (fun t =>
    WritesV s t v x ∧ t.mailbox s.cur.core e.toNat = rest ∧ Advanced s t ∧ SameSlotButV s t ∧ OtherSlots s t ∧ SamePackage s t
      ∧ ∀ c, { t.core c with slots := [], mail := [] } = { s.core c with slots := [], mail := [] }) := by
  have slots : (taken s.here e.toNat rest).slots = s.here.slots := rfl
  have kept := sameMe_setHere slots
  have h := setV_adv_becomes (s.setHere (taken s.here e.toNat rest)) v x
  obtain ⟨writes, next, slot, only⟩ := h.givesV
  have rests := rest_of_onlyMe kept only
  refine ⟨((s.setHere (taken s.here e.toNat rest)).setV v x).adv, ?_, fun r => (writes r).trans ?_, ?_, next.trans kept.after, ?_,
    otherSlots_setHere slots rests, rests.package, fun c => ?_⟩
  · rw [nget_ready ready]
    refine congrArg _ (Act.next_ok ?_ ?_)
    · simp only [Act.get_bind, box, mailDrop_eq box, Act.set_bind, Act.done_apply]
    · rw [h.me]
      exact (congrArg Slot.wait kept.me).trans ready
  · exact congrArg (fun w => if r = v then x else w) (congrArg (·.vReg r) kept.me)
  · have mail := rests.here (fun y => Tab.get [] y.mail e.toNat) fun _ => rfl
    rw [State.here, cur_of_samePackage rests.package] at mail
    exact mail.trans ((get_set ..).trans (if_pos rfl))
  · rw [SameSlotButV, slot, kept.me]
  · have taken' := core_setHere_but (x := taken s.here e.toNat rest) (fun y : Core => { y with slots := [], mail := [] }) rfl c
    have gone := core_of_sameCore (rests.cores c) (fun y : Core => { y with slots := [], mail := [] }) fun _ => rfl
    exact gone.trans taken'

theorem nget_parks (ready : Ready s) (box : s.mailbox s.cur.core e.toNat = []) :
    Completes (.nget v e) s (fun t => Parks s t (.mailbox e)) := by
  refine ⟨_, (nget_ready ready).trans (congrArg _ (Act.next_park (t := s.park (.mailbox e)) ?_ ?_)), park_parks ..⟩
  · simp only [Act.get_bind, box, Act.park_apply]
  · rw [wait_park]
    exact Wait.noConfusion

/-- A slot that was given an entry while it was parked goes on with it. -/
theorem nget_given (given : s.me.wait = .entry x) : Completes (.nget v e) s (fun t => WritesV s t v x ∧ Advanced s t ∧ t.me.wait = .none
    ∧ SamePackage s t ∧ SameCores s t ∧ OtherSlots s t
    ∧ { t.me with v := [], pc := 0, wait := .none } = { s.me with v := [], pc := 0, wait := .none }) := by
  have h := ((unpark_becomes s).setV v x).adv rfl
  have wait : (s.unpark.setV v x).adv.me.wait = .none := by rw [h.me]; rfl
  refine ⟨(s.unpark.setV v x).adv, ?_, fun r => ?_, ?_, wait, h.package, h.cores, h.others, ?_⟩
  · change execNget v e s = _
    have ok : legal (.nget v e) = true := rfl
    rw [execNget, run, runWith, if_pos ok, given]
    refine congrArg _ (Act.next_ok ?_ wait)
    simp only [Act.get_bind, Act.set_bind, Act.done_apply]
  · rw [State.v, h.me]
    exact Slot.vReg_setV _ v r x
  · rw [Advanced, State.base, h.me]
  · rw [h.me]
    rfl

/-! ### NPEEK and NCFG (09 R238, R241) -/

/-- What NPEEK gives. -/
def peeked (s : State) (e : BitVec 2) : Reg := match s.neighbour e.toNat with
  | none => BitVec.ofNat 64 (2 ^ 63 + (s.mailbox s.cur.core e.toNat).length % 8)
  | some n => BitVec.ofNat 64 (s.mailRoom n ((e.toNat + 2) % 4) % 8 * 2 ^ 8 + (s.mailbox s.cur.core e.toNat).length % 8)

theorem npeek_gives (s : State) (d : BitVec 5) (e : BitVec 2) : Completes (.npeek d e) s (Safety.Gives s · d (peeked s e)) :=
  completes_setG (peeked · e) rfl rfl

/-- NCFG has given the old setting, and the running core has this one. -/
def SetsNeighbours (s : State) (d : BitVec 5) (set : BitVec 8) (t : State) : Prop :=
  WritesG s t d (s.here.ncfg.setWidth 64) ∧ t.here.ncfg = set ∧ Advanced s t ∧ SameSlotButG s t ∧ OtherSlots s t ∧ SamePackage s t
    ∧ ∀ c, { t.core c with slots := [], ncfg := 0 } = { s.core c with slots := [], ncfg := 0 }

theorem ncfg_reads (ready : Ready s) : Completes (.ncfg d 0) s (SetsNeighbours s d s.here.ncfg) := by
  refine completes_mono (completes_result (v := s.here.ncfg.setWidth 64) ready rfl rfl rfl) fun t gives => ?_
  obtain ⟨writes, next, slot, package, -, cores, others⟩ := gives
  refine ⟨writes, ?_, next, slot, others, package, fun c => core_of_sameCore (cores c) (fun y : Core => { y with slots := [], ncfg := 0 })
    fun _ => rfl⟩
  rw [State.here, cur_of_samePackage package]
  exact core_of_sameCore (cores _) Core.ncfg fun _ => rfl

theorem ncfg_sets (ready : Ready s) (writes : a ≠ 0) (good : ncfgBad (s.g a) = false) :
    Completes (.ncfg d a) s (SetsNeighbours s d ((s.g a).setWidth 8)) := by
  let y : Core := { s.here with ncfg := (s.g a).setWidth 8 }
  have slots : y.slots = s.here.slots := rfl
  obtain ⟨writes', next, slot, rests⟩ := result_of_sameMe (sameMe_setHere slots) d (s.here.ncfg.setWidth 64)
  refine ⟨_, exec_of_next (i := .ncfg d a) rfl rfl ready (t := ((s.setHere y).setG d (s.here.ncfg.setWidth 64)).adv) ?_ ?_, writes',
    rests.here Core.ncfg fun _ => rfl, next, slot, otherSlots_setHere slots rests, rests.package, fun c => ?_⟩
  · simp only [Act.get_bind, writes, good, ne_eq, not_false_eq_true, decide_true, Bool.and_false, Bool.false_eq_true, if_false, if_true,
      Act.set_bind, Act.result_apply, y]
  · rw [wait_result, (sameMe_setHere slots).me]
    exact ready
  · have set := core_setHere_but (x := y) (fun y : Core => { y with slots := [], ncfg := 0 }) rfl c
    have gone := core_of_sameCore (rests.cores c) (fun y : Core => { y with slots := [], ncfg := 0 }) fun _ => rfl
    exact gone.trans set

theorem completes_ncfg (ready : Ready s) (may : a = 0 ∨ ncfgBad (s.g a) = false) :
    Completes (.ncfg d a) s (SetsNeighbours s d (if a = 0 then s.here.ncfg else (s.g a).setWidth 8)) := by
  split
  next zero => exact zero ▸ ncfg_reads ready
  next writes => exact ncfg_sets ready writes (may.resolve_left writes)

end Sys2Proof.Laws
end

section
/-! PROOFS: an entry that arrives at its mailbox, and who takes it (08 R208, 09 R239, R240). -/

namespace Sys2Proof.Laws

open Machine Safety

variable {s : State} {k j c at' : Nat} {dir : BitVec 2} {e : NEntry} {m : Cmd} {x : Slot} {v : Vec}

/-- The package without the k-th entry on its way. -/
def offTheNet (s : State) (k : Nat) : State := { s with nnet := s.nnet.eraseIdx k }

theorem exec_mailboxEntryArrival (there : s.nnet[k]? = some e)
    (first : ∀ x ∈ s.nnet.take k, ¬(x.src = e.src ∧ x.dst = e.dst ∧ x.dir = e.dir)) (fence : s.fenceHolds e.src e.slot e.fence = false) :
    exec (.mailboxEntryArrival k) s = .next ((offTheNet s k).deliver e.dst e.dir e.data) := by
  have before : (s.nnet.take k).any (fun x => x.src = e.src && x.dst = e.dst && x.dir == e.dir) = false :=
    List.any_eq_false.mpr fun x hx => by simpa [and_assoc] using first x hx
  change execMailboxEntryArrival k s = _
  rw [execMailboxEntryArrival, there]
  simp only [before, fence, Bool.or_self, Bool.false_eq_true, if_false]
  rfl

/-! ### Who takes it -/

/-- The mailbox with the entry at its end. -/
def withMail (s : State) (c : Nat) (dir : BitVec 2) (v : Vec) : State :=
  s.setCore c { s.core c with mail := Tab.set [] (s.core c).mail dir.toNat (s.mailbox c dir.toNat ++ [v]) }

/-- The core whose SCAN has taken the entry. -/
def scanned (y : Core) (m : Cmd) (v : Vec) (now : Nat) : Core := y.setHead false { m with carry := m.carry ++ [v], since := some now }

section

variable (s) (c) (dir) (v)

theorem deliver_nobody (slot : oldestParked dir (s.core c).slots = none) (scan : s.scanWaiter c dir.toNat = none) :
    s.deliver c dir v = withMail s c dir v := by
  unfold State.deliver
  simp only [slot, scan]
  rfl

theorem deliver_slot (slot : oldestParked dir (s.core c).slots = some (j, x))
    (first : ∀ m at', s.scanWaiter c dir.toNat = some (m, at') → x.parkedAt < at') :
    s.deliver c dir v = s.setSlotAt c j { x with wait := .entry v } := by
  unfold State.deliver
  simp only [slot]
  cases scan : s.scanWaiter c dir.toNat with
  | none => rfl
  | some w => exact if_pos (first w.1 w.2 scan)

theorem deliver_scan (scan : s.scanWaiter c dir.toNat = some (m, at'))
    (first : ∀ j x, oldestParked dir (s.core c).slots = some (j, x) → at' ≤ x.parkedAt) :
    s.deliver c dir v = stamped (s.setCore c (scanned (s.core c) m v s.stamp)) := by
  unfold State.deliver
  simp only [scan]
  cases slot : oldestParked dir (s.core c).slots with
  | none => rfl
  | some w => exact if_neg (Nat.not_lt.mpr (first w.1 w.2 slot))

/-- One of the three takes the entry. -/
theorem deliver_cases : s.deliver c dir v = withMail s c dir v ∨ (∃ j, ∃ x : Slot, s.deliver c dir v = s.setSlotAt c j { x with wait := .entry v })
    ∨ ∃ m : Cmd, s.deliver c dir v = stamped (s.setCore c (scanned (s.core c) m v s.stamp)) := by
  cases scan : s.scanWaiter c dir.toNat with
  | none =>
    cases slot : oldestParked dir (s.core c).slots with
    | none => exact .inl (deliver_nobody s c dir v slot scan)
    | some w => exact .inr (.inl ⟨w.1, w.2, deliver_slot s c dir v slot fun m at' h => by simp [scan] at h⟩)
  | some z =>
    by_cases first : ∀ j x, oldestParked dir (s.core c).slots = some (j, x) → z.2 ≤ x.parkedAt
    · exact .inr (.inr ⟨z.1, deliver_scan s c dir v scan first⟩)
    · push Not at first
      obtain ⟨j, x, slot, before⟩ := first
      refine .inr (.inl ⟨j, x, deliver_slot s c dir v slot fun m at' h => ?_⟩)
      obtain rfl := Option.some.inj (scan.symm.trans h)
      exact before

/-- Which entries are on their way, and what memory holds. -/
def onTheWay (s : State) : List NEntry × Memory := (s.nnet, s.mem)

theorem onTheWay_deliver : onTheWay (s.deliver c dir v) = onTheWay s := by
  rcases deliver_cases s c dir v with h | ⟨j, x, h⟩ | ⟨m, h⟩ <;> (rw [h]; rfl)

end

/-! ### What that changes -/

section

variable (s c dir v)

theorem mailbox_setCore (y : Core) (d : Nat) : (s.setCore c y).mailbox c d = Tab.get [] y.mail d := by
  rw [State.mailbox, core_setCore, if_pos rfl]

theorem withMail_adds : (withMail s c dir v).mailbox c dir.toNat = s.mailbox c dir.toNat ++ [v]
    ∧ ∀ c' j, (withMail s c dir v).slotAt c' j = s.slotAt c' j :=
  ⟨(mailbox_setCore ..).trans ((get_set ..).trans (if_pos rfl)), slotAt_setCore_of_slots rfl⟩

theorem setSlotAt_gives (j : Nat) (y : Slot) : (s.setSlotAt c j y).mailbox c dir.toNat = s.mailbox c dir.toNat
    ∧ (s.setSlotAt c j y).slotAt c j = y ∧ ∀ c' i, (c' ≠ c ∨ i ≠ j) → (s.setSlotAt c j y).slotAt c' i = s.slotAt c' i :=
  ⟨mailbox_setCore .., by rw [slotAt_setSlotAt, if_pos ⟨rfl, rfl⟩], fun c' i other => by
    rw [slotAt_setSlotAt, if_neg (fun same => other.elim (· same.1.symm) (· same.2.symm))]⟩

theorem scanned_takes (m : Cmd) (now : Nat) : let t := stamped (s.setCore c (scanned (s.core c) m v now))
    t.mailbox c dir.toNat = s.mailbox c dir.toNat ∧ (t.core c).mixq.head?.map (·.carry) = some (m.carry ++ [v])
      ∧ ∀ c' j, t.slotAt c' j = s.slotAt c' j := by
  refine ⟨mailbox_setCore .., ?_, slotAt_setCore_of_slots rfl⟩
  change ((s.setCore c (scanned (s.core c) m v now)).core c).mixq.head?.map (·.carry) = _
  rw [core_setCore, if_pos rfl]
  rfl

end

/-- Settles O31 (log 43): the instructions by the equation of each case, and the arrival by who takes the entry (`deliver_nobody`,
`deliver_slot`, `deliver_scan`). -/
theorem neighbours : Obligations.Neighbours := by
  unfold Obligations.Neighbours
  refine ⟨?_, fun s v e x => nget_given, ?_⟩
  · intro s d a v e ready c box
    exact ⟨fun n => exec_nput_sends ready, fun n => exec_nput_stays ready, nput_traps ready, fun x rest => nget_takes ready,
      nget_parks ready, npeek_gives s d e, completes_ncfg ready⟩
  · intro s k e there first fence box slot scan
    have rest := onTheWay_deliver (offTheNet s k) e.dst e.dir e.data
    refine ⟨_, exec_mailboxEntryArrival there first fence, congrArg Prod.fst rest, byte_of_mem (congrArg Prod.snd rest),
      fun noSlot noScan => ?_, fun j x parked before => ?_, fun m at' waits before => ?_⟩
    · rw [deliver_nobody (offTheNet s k) _ _ _ noSlot noScan]
      exact withMail_adds (offTheNet s k) e.dst e.dir e.data
    · rw [deliver_slot (offTheNet s k) _ _ _ parked before]
      exact setSlotAt_gives (offTheNet s k) e.dst e.dir j { x with wait := .entry e.data }
    · rw [deliver_scan (offTheNet s k) _ _ _ waits before]
      exact scanned_takes (offTheNet s k) e.dst e.dir e.data m _

end Sys2Proof.Laws
end

section
/-! PROOFS: convoys at the sender: CONV.OPEN, CONV.PUT and CONV.CLOSE (09 R242 to R244). -/

namespace Sys2Proof.Laws

open Machine Safety

variable {s t u : State} {d a b v : BitVec 5} {k dst port : Nat} {p : ConvPort} {f : Flit}

/-! ### Flits sent -/

/-- The flit that the running slot sends down a port. -/
def flitOf (s : State) (port : Nat) (p : ConvPort) (f : Flit) : ConvFlit :=
  { src := s.cur.core, slot := s.cur.slot, uid := s.uid, port := port, serial := p.serial, dst := p.dst, qh := p.qh
    ctr := p.ctr, flit := f, fence := s.fence, secure := s.secure }

theorem sendFlit_eq (s : State) (port : Nat) (p : ConvPort) (f : Flit) :
    s.sendFlit port p f = { s with cnet := s.cnet ++ [flitOf s port p f] } := rfl

/-- A core with other ports, and the running core with them. -/
def withPorts (y : Core) (ports : Tab ConvPort) : Core := { y with ports := ports }
def portsHere (s : State) (ports : Tab ConvPort) : State := s.setHere (withPorts s.here ports)

theorem slotAt_portsHere (s : State) (ports : Tab ConvPort) (c k : Nat) : (portsHere s ports).slotAt c k = s.slotAt c k := by
  have slots : (withPorts s.here ports).slots = s.here.slots := rfl
  exact slotAt_setCore_of_slots slots c k

theorem here_portsHere (s : State) (ports : Tab ConvPort) : (portsHere s ports).here = withPorts s.here ports := here_setHere ..

theorem sameMe_portsHere (s : State) (ports : Tab ConvPort) : SameMe s (portsHere s ports) :=
  sameMe_of_slots rfl (slotAt_portsHere s ports)

theorem region_portsHere (s : State) (ports : Tab ConvPort) : (portsHere s ports).region = s.region := by
  unfold State.region State.regionOf
  rw [slotAt_portsHere]
  rfl

/-- The ports say nothing about the slot that sends. -/
theorem flitOf_portsHere (s : State) (ports : Tab ConvPort) (port : Nat) (p : ConvPort) (f : Flit) :
    flitOf (portsHere s ports) port p f = flitOf s port p f := by
  have me := (sameMe_portsHere s ports).me
  have secure : (portsHere s ports).secure = s.secure := by
    change ((portsHere s ports).region.secure || (portsHere s ports).me.smc) = (s.region.secure || s.me.smc)
    rw [region_portsHere, me]
  have fence : (portsHere s ports).fence = s.fence := by
    change Tab.get 0 (portsHere s ports).here.fences s.cur.slot = Tab.get 0 s.here.fences s.cur.slot
    rw [here_portsHere]
    rfl
  have uid : (portsHere s ports).uid = s.uid := congrArg Slot.runId me
  have cur : (portsHere s ports).cur = s.cur := rfl
  unfold flitOf
  rw [fence, secure, uid, cur]

/-- The running core has these ports, a flit has been sent, and the slots are as they were. -/
structure PortsSent (s : State) (ports : Tab ConvPort) (flits : List ConvFlit) (u : State) : Prop where
  ports : u.here.ports = ports
  flits : u.cnet = s.cnet ++ flits
  me : SameMe s u
  slots : ∀ c k, u.slotAt c k = s.slotAt c k
  bytes : SameBytes s u

theorem portsSent_sendFlit (s : State) (ports : Tab ConvPort) (port : Nat) (p : ConvPort) (f : Flit) :
    PortsSent s ports [flitOf s port p f] ((portsHere s ports).sendFlit port p f) where
  ports := congrArg Core.ports (here_portsHere s ports)
  flits := by
    rw [sendFlit_eq, flitOf_portsHere]
    rfl
  me := (sameMe_portsHere s ports).trans ⟨rfl, rfl⟩
  slots := slotAt_portsHere s ports
  bytes _ := rfl

theorem portsSent_portsHere (s : State) (ports : Tab ConvPort) : PortsSent s ports [] (portsHere s ports) where
  ports := congrArg Core.ports (here_portsHere s ports)
  flits := (List.append_nil _).symm
  me := sameMe_portsHere s ports
  slots := slotAt_portsHere s ports
  bytes _ := rfl

/-- The slot goes on with a result. -/
theorem PortsSent.result {ports : Tab ConvPort} {flits : List ConvFlit} (h : PortsSent s ports flits u) (d : BitVec 5) (x : Reg) :
    let t := (u.setG d x).adv
    t.here.ports = ports ∧ t.cnet = s.cnet ++ flits ∧ WritesG s t d x ∧ Advanced s t ∧ SameSlotButG s t ∧ OtherSlots s t ∧ SameBytes s t := by
  obtain ⟨writes, next, slot, rest⟩ := result_of_sameMe h.me d x
  refine ⟨?_, (field_of_samePackage rest.package State.cnet fun _ => rfl).trans h.flits, writes, next, slot,
    fun c k other => (rest.slots c k other).trans (h.slots c k), fun q => (rest.bytes q).trans (h.bytes q)⟩
  rw [State.here, cur_of_samePackage rest.package]
  exact (core_of_sameCore (rest.cores _) Core.ports fun _ => rfl).trans h.ports

/-! ### CONV.OPEN (09 R242) -/

/-- The ports that are free. -/
def freePorts (s : State) : List Nat := (List.range 4).filter (fun k => (Tab.find s.here.ports k).isNone)

theorem mem_freePorts {j : Nat} : j ∈ freePorts s ↔ j < 4 ∧ Tab.find s.here.ports j = none := by
  rw [freePorts, List.mem_filter, List.mem_range, Option.isNone_iff_eq_none]

/-- A choice has been made and a serial number taken. -/
def chosenOnce (s : State) : State := { s with free := s.free + 1, stamp := s.stamp + 1 }

/-- The port as it is opened. -/
def newPort (s : State) (dst : Nat) (h : Reg) : ConvPort :=
  { slot := s.cur.slot, uid := s.uid, serial := s.stamp, dst := dst, qh := hdrQh h, ctr := hdrCtr h, closing := false, answer := none }

/-- The port that is picked. -/
def pickedPort (s : State) (j : Nat) (js : List Nat) : Nat := (j :: js).getD (Config.draw s.free % (js.length + 1)) j

theorem pickedPort_mem (s : State) (j : Nat) (js : List Nat) : pickedPort s j js ∈ j :: js := by
  have within : Config.draw s.free % (js.length + 1) < (j :: js).length := Nat.mod_lt _ (Nat.succ_pos _)
  rw [pickedPort, List.getD_eq_getElem _ _ within]
  exact List.getElem_mem within

/-- The package once the port is opened and its flit sent. -/
def openedPort (s : State) (dst port : Nat) (h : Reg) : State :=
  (portsHere (chosenOnce s) (Tab.put s.here.ports port (newPort s dst h))).sendFlit port (newPort s dst h) .opening

theorem portsSent_openedPort (s : State) (dst port : Nat) (h : Reg) : PortsSent s (Tab.put s.here.ports port (newPort s dst h))
    [flitOf s port (newPort s dst h) .opening] (openedPort s dst port h) := by
  obtain ⟨ports, flits, me, slots, bytes⟩ :=
    portsSent_sendFlit (chosenOnce s) (Tab.put s.here.ports port (newPort s dst h)) port (newPort s dst h) .opening
  exact ⟨ports, flits, ⟨me.cur, me.me⟩, slots, bytes⟩

section

variable (clean : hdrBad (s.g b) = false) (here : (s.g b).getLsbD 63 = false) (target : hdrTarget s.cur.core (s.g b) = some dst)

include clean here target

/-- The target that the work finds. -/
theorem convTarget : (if hdrBad (s.g b) || hdrRemote (s.g b) then none else hdrTarget s.cur.core (s.g b)) = some dst := by
  rw [clean, hdrRemote, here]
  exact target

theorem exec_convOpen (ready : Ready s) {j : Nat} {js : List Nat} (free : freePorts s = j :: js) : exec (.convOpen d b) s
    = .next (((openedPort s dst (pickedPort s j js) (s.g b)).setG d (BitVec.ofNat 64 (pickedPort s j js))).adv) := by
  unfold freePorts at free
  refine exec_of_next (i := .convOpen d b) rfl rfl ready ?_ ?_
  · simp only [Act.get_bind, convTarget clean here target, free]
    rfl
  · rw [wait_result, (portsSent_openedPort ..).me.me]
    exact ready

theorem convOpen_full (ready : Ready s) (full : freePorts s = []) :
    Completes (.convOpen d b) s (Safety.Gives s · d (BitVec.allOnes 64)) := by
  unfold freePorts at full
  refine completes_result ready rfl rfl ?_
  simp only [Act.get_bind, convTarget clean here target, full, Act.result_apply]

end

/-! ### CONV.PUT and CONV.CLOSE (09 R243, R244) -/

section

variable (there : Tab.find s.here.ports (s.g a).toNat = some p) (slot : p.slot = s.cur.slot) (run : p.uid = s.uid)

include there slot run

theorem Act.port_ok : Act.port (s.g a) s = (.ok p, s) := by
  have own : (p.slot = s.cur.slot && p.uid = s.uid) = true := by rw [Bool.and_eq_true, decide_eq_true_eq, decide_eq_true_eq]; exact ⟨slot, run⟩
  unfold Act.port
  simp only [Act.get_bind, there]
  exact congrArg (fun act : Act ConvPort => act s) (if_pos own)

theorem exec_convPut (ready : Ready s)
    (credit : (s.cnet.filter (fun f => f.src = s.cur.core && f.port = (s.g a).toNat && f.serial = p.serial)).length ≤ Config.convoyCredit) :
    exec (.convPut a v) s = .next (s.sendFlit (s.g a).toNat p (.data (s.v v))).adv := by
  refine exec_of_next (i := .convPut a v) rfl rfl ready ?_ ?_
  · rw [Act.get_bind, Act.bind_ok (Act.port_ok there slot run)]
    simp only [if_neg (Nat.not_lt.mpr credit), Act.set_bind, Act.done_apply]
  · rw [wait_adv]
    exact ready

/-- The marker is sent, and the slot stays. -/
theorem exec_convClose_sends (ready : Ready s) (unanswered : p.answer = none) (fresh : p.closing = false) : exec (.convClose d a) s
    = .next (((portsHere s (Tab.put s.here.ports (s.g a).toNat { p with closing := true })).sendFlit (s.g a).toNat p .closing).latch
      (.convClose d a)) := by
  refine (run_ready (i := .convClose d a) rfl ready).trans (congrArg _ (Act.next_stall ?_))
  rw [Act.get_bind, Act.bind_ok (Act.port_ok there slot run)]
  simp only [unanswered, fresh, Bool.false_eq_true, if_false, Act.set_bind, Act.stall_apply]
  rfl

/-- The answer is given, and the port is free. -/
theorem exec_convClose_answers (ready : Ready s) {aborted : Bool} (answer : p.answer = some aborted) : exec (.convClose d a) s
    = .next (((portsHere s (Tab.erase s.here.ports (s.g a).toNat)).setG d (flag aborted)).adv) := by
  refine exec_of_next (i := .convClose d a) rfl rfl ready ?_ ?_
  · rw [Act.get_bind, Act.bind_ok (Act.port_ok there slot run)]
    simp only [answer, Act.set_bind, Act.result_apply]
    rfl
  · rw [wait_result, (sameMe_portsHere ..).me]
    exact ready

end

theorem convClose_latched {ports : Tab ConvPort} {flits : List ConvFlit} (h : PortsSent s ports flits u) (i : Instr) : let t := u.latch i
    t.here.ports = ports ∧ t.cnet = s.cnet ++ flits ∧ t.base = s.base ∧ t.me.latched.isSome = true ∧ ∀ r, t.g r = s.g r := by
  have latched := (Becomes.self u).latch i
  refine ⟨(here_of_becomes latched Core.ports fun _ => rfl).trans h.ports,
    (field_of_samePackage latched.package State.cnet fun _ => rfl).trans h.flits, (base_of_becomes latched rfl).trans ?_, ?_, fun r =>
    (g_of_becomes latched rfl r).trans (h.me.g r)⟩
  · exact congrArg Slot.pc h.me.me
  · rw [latched.me]
    rfl

end Sys2Proof.Laws
end

section
/-! PROOFS: the flits of a convoy at its receiver: the stream that they open, fill and end (09 R243, R244; 15 R376). -/

namespace Sys2Proof.Laws

open Machine Safety

variable {s t u : State} {k c : Nat} {f : ConvFlit} {x y : ConvStream} {r : Ring} {v : Vec}

/-! ### Streams -/

/-- Whether a stream is that of a flit. -/
def sameStream (f : ConvFlit) (x : ConvStream) : Bool := x.src = f.src && x.port = f.port && x.serial = f.serial

/-- The stream of a flit at its receiver. -/
def streamOf (f : ConvFlit) (s : State) : Option ConvStream := (s.core f.dst).streams.find? (sameStream f)

theorem sameStream_iff : sameStream f x = true ↔ x.src = f.src ∧ x.port = f.port ∧ x.serial = f.serial := by
  simp [sameStream, and_assoc]

/-- The core with other streams. -/
def withStreams (y : Core) (xs : List ConvStream) : Core := { y with streams := xs }

theorem setStream_eq (own : sameStream f x = true) (s : State) (c : Nat) (y : Option ConvStream) : s.setStream c x y
    = s.setCore c (withStreams (s.core c) ((s.core c).streams.filter (fun z => !sameStream f z) ++ y.toList)) := by
  obtain ⟨src, port, serial⟩ := sameStream_iff.mp own
  rw [State.setStream, src, port, serial]
  rfl

theorem streamOf_setCore (f : ConvFlit) (s : State) (y : Core) : streamOf f (s.setCore f.dst y) = y.streams.find? (sameStream f) := by
  rw [streamOf, core_setCore, if_pos rfl]

theorem find_filter_not (p : ConvStream → Bool) (xs : List ConvStream) : (xs.filter fun z => !p z).find? p = none := by
  rw [List.find?_eq_none]
  intro z hz
  simpa using (List.mem_filter.mp hz).2

/-- The stream is the one that was put there, if one. -/
theorem streamOf_setStream (own : sameStream f x = true) (s : State) (y : Option ConvStream) (same : ∀ z ∈ y, sameStream f z = true) :
    streamOf f (s.setStream f.dst x y) = y := by
  rw [setStream_eq own, streamOf_setCore, withStreams, List.find?_append, find_filter_not]
  cases y with
  | none => rfl
  | some z => simp [same z rfl]

/-- The counters, the flits on their way and memory. -/
def besideCores (s : State) : Tab Counter × List ConvFlit × Memory := (s.counters, s.cnet, s.mem)

theorem ring_setStream (own : sameStream f x = true) (s : State) (c : Nat) (y : Option ConvStream) (c' q : Nat) :
    ((s.setStream c x y).core c').ring q = (s.core c').ring q := by
  rw [setStream_eq own, core_setCore]
  split
  next same => rw [← same]; rfl
  next => rfl

theorem ports_setStream (own : sameStream f x = true) (s : State) (c : Nat) (y : Option ConvStream) (c' : Nat) :
    ((s.setStream c x y).core c').ports = (s.core c').ports := by
  rw [setStream_eq own, core_setCore]
  split
  next same => rw [← same]; rfl
  next => rfl

/-! ### The answer to the sender (09 R244) -/

/-- The core with the answer in the port of a flit. -/
def answered (y : Core) (f : ConvFlit) (p : ConvPort) (aborted : Bool) : Core :=
  { y with ports := Tab.put y.ports f.port { p with answer := some aborted } }

theorem answerPort_cases (s : State) (f : ConvFlit) (aborted : Bool) : s.answerPort f aborted = s
    ∨ ∃ p, s.answerPort f aborted = s.setCore f.src (answered (s.core f.src) f p aborted) := by
  unfold State.answerPort
  cases Tab.find (s.core f.src).ports f.port with
  | none => exact .inl rfl
  | some p =>
    by_cases h : p.serial = f.serial
    · exact .inr ⟨p, if_pos h⟩
    · exact .inl (if_neg h)

theorem besideCores_answerPort (s : State) (f : ConvFlit) (aborted : Bool) : besideCores (s.answerPort f aborted) = besideCores s := by
  rcases answerPort_cases s f aborted with h | ⟨p, h⟩
  · rw [h]
  · rw [h]
    rfl

/-- Of a core the answer changes the ports alone. -/
theorem core_answerPort {α : Type} (g : Core → α) (hg : ∀ (y : Core) (ports : Tab ConvPort), g { y with ports := ports } = g y)
    (s : State) (f : ConvFlit) (aborted : Bool) (c : Nat) : g ((s.answerPort f aborted).core c) = g (s.core c) := by
  rcases answerPort_cases s f aborted with h | ⟨p, h⟩
  · rw [h]
  · rw [h, core_setCore]
    split
    next same => exact same ▸ hg ..
    next => rfl

theorem ports_answerPort {p : ConvPort} (there : Tab.find (s.core f.src).ports f.port = some p) (serial : p.serial = f.serial) (aborted : Bool) :
    Tab.find ((s.answerPort f aborted).core f.src).ports f.port = some { p with answer := some aborted } := by
  unfold State.answerPort
  rw [there]
  simp only [if_pos serial, core_setCore, if_true, find_put]

/-! ### What a flit does -/

/-- The stream of a flit that finds none. -/
def unopened (f : ConvFlit) : ConvStream :=
  { src := f.src, port := f.port, serial := f.serial, qh := f.qh, ctr := f.ctr, pos := 0, aborted := true }

/-- A flit of the other world (15 R376). -/
def Foreign (s : State) (f : ConvFlit) : Prop := s.clusterWorld (clusterOf f.dst) = some (!f.secure)

theorem sameStream_getD (s : State) (f : ConvFlit) : sameStream f ((streamOf f s).getD (unopened f)) = true := by
  cases there : streamOf f s with
  | none => exact sameStream_iff.mpr ⟨rfl, rfl, rfl⟩
  | some x => exact List.find?_some there

/-- What a flit of the other world does: its stream is set as aborted, or ends, and the sender is told so. -/
theorem flitAt_foreign (foreign : Foreign s f) : ∃ x, sameStream f x = true ∧ ∃ t, s.flitAt f = some t ∧
    (t = s ∨ ∃ y, t = s.setStream f.dst x y ∨ t = (s.setStream f.dst x y).answerPort f true) := by
  unfold Foreign at foreign
  refine ⟨{ (streamOf f s).getD (unopened f) with aborted := true, ctr := none }, sameStream_getD s f, ?_⟩
  unfold State.flitAt
  simp only [foreign, if_true]
  cases f.flit with
  | opening => exact ⟨_, rfl, .inr ⟨_, .inl rfl⟩⟩
  | data v => exact ⟨_, rfl, .inl rfl⟩
  | closing => exact ⟨_, rfl, .inr ⟨_, .inr rfl⟩⟩
  | abort => exact ⟨_, rfl, .inr ⟨_, .inl rfl⟩⟩

theorem convoyRing_of {y : Core} {q : Nat} (ring : y.ring q = some r) (near : r.desc.win.toNat ≤ 1) : y.convoyRing q = some r := by
  rw [Core.convoyRing, ring, Option.filter_some, if_pos (decide_eq_true near)]

section

variable (own : ¬ Foreign s f)

include own

/-- An opening flit opens the stream. -/
theorem flitAt_opening (kind : f.flit = .opening) (fresh : streamOf f s = none) (ring : (s.core f.dst).ring f.qh.toNat = some r)
    (near : r.desc.win.toNat ≤ 1) : s.flitAt f
      = some (s.setStream f.dst { unopened f with aborted := false } (some { unopened f with aborted := false })) := by
  unfold Foreign at own
  unfold streamOf sameStream at fresh
  have mine : sameStream f { unopened f with aborted := false } = true := sameStream_iff.mpr ⟨rfl, rfl, rfl⟩
  have has := convoyRing_of ((ring_setStream mine s f.dst (some { unopened f with aborted := false }) f.dst f.qh.toNat).trans ring) near
  unfold State.flitAt
  simp only [kind, fresh, if_neg own]
  refine congrArg some (if_neg (?_ : ¬ (Core.convoyRing _ _).isNone = true))
  exact has ▸ Bool.false_ne_true

variable (there : streamOf f s = some x) (alive : x.aborted = false) (ring : (s.core f.dst).ring x.qh.toNat = some r)
  (near : r.desc.win.toNat ≤ 1)

include there alive ring near

/-- Where the next 64 bytes of a stream go. -/
def nextPlace (f : ConvFlit) (r : Ring) (x : ConvStream) : Nat := r.desc.place f.dst r.tail + x.pos

/-- The package once they are there. -/
def filledWith (s : State) (f : ConvFlit) (r : Ring) (x : ConvStream) (v : Vec) : State :=
  let u := s.poke (nextPlace f r x) (vecBytes v)
  if r.desc.size ≤ x.pos + 64 then (u.setStream f.dst x (some { x with pos := 0 })).putRing f.dst x.qh.toNat (r.push 1)
  else u.setStream f.dst x (some { x with pos := x.pos + 64 })

theorem flitAt_data (kind : f.flit = .data v) (room : r.filled < r.desc.slots.toNat + 1)
    (free : s.coversCounter (nextPlace f r x) 64 = false) : s.flitAt f = some (filledWith s f r x v) := by
  unfold Foreign at own
  unfold streamOf sameStream at there
  unfold nextPlace at free
  have space : ¬ r.desc.count ≤ r.filled := Nat.not_le.mpr room
  unfold State.flitAt
  simp only [kind, there, if_neg own, Option.getD_some, alive, Bool.false_eq_true, if_false, convoyRing_of ring near, if_neg space, free]
  unfold filledWith nextPlace
  rw [alive]
  split <;> rfl

theorem flitAt_closing (kind : f.flit = .closing) (plain : x.ctr = none) (start : x.pos = 0) :
    s.flitAt f = some ((s.setStream f.dst x none).answerPort f false) := by
  unfold Foreign at own
  unfold streamOf sameStream at there
  unfold State.flitAt
  simp only [kind, there, if_neg own, Option.getD_some, alive, Bool.false_eq_true, if_false, convoyRing_of ring near, start, Nat.lt_irrefl,
    decide_false, Bool.false_and, plain, State.signalAt]

end

/-! ### The arrival -/

/-- The package without the k-th flit on its way. -/
def offTheConvoys (s : State) (k : Nat) : State := { s with cnet := s.cnet.eraseIdx k }

section

variable (there : s.cnet[k]? = some f) (first : ∀ x ∈ s.cnet.take k, ¬(x.src = f.src ∧ x.port = f.port ∧ x.serial = f.serial))
  (fence : s.fenceHolds f.src f.slot f.fence = false)

include there first fence

theorem exec_convoyFlitArrival (takes : (offTheConvoys s k).flitAt f = some t) : exec (.convoyFlitArrival k) s = .next t := by
  have before : (s.cnet.take k).any (fun x => x.src = f.src && x.port = f.port && x.serial = f.serial) = false :=
    List.any_eq_false.mpr fun x hx => by simpa [and_assoc] using first x hx
  change execConvoyFlitArrival k s = _
  unfold offTheConvoys at takes
  rw [execConvoyFlitArrival, there]
  simp only [before, fence, Bool.or_self, Bool.false_eq_true, if_false, takes]

end

theorem besideCores_setStream (s : State) (c : Nat) (x : ConvStream) (y : Option ConvStream) :
    besideCores (s.setStream c x y) = besideCores s := rfl

theorem getElem?_bytesOfNat (n w i : Nat) (h : i < n) : (bytesOfNat n w)[i]? = some (BitVec.ofNat 8 (w / 256 ^ i)) := by
  induction n generalizing w i with
  | zero => omega
  | succ n ih =>
    cases i with
    | zero => rw [bytesOfNat, List.getElem?_cons_zero, Nat.pow_zero, Nat.div_one]
    | succ i => rw [bytesOfNat, List.getElem?_cons_succ, ih _ i (by omega), Nat.div_div_eq_div_mul, Nat.pow_succ']

theorem byte_vecBytes (s : State) (p : Nat) (v : Vec) (q : Nat) : (s.poke p (vecBytes v)).byte q
    = if p ≤ q ∧ q < p + 64 then v.extractLsb' (8 * (q - p)) 8 else s.byte q := by
  rw [byte_poke, vecBytes, length_bytesOfNat]
  split
  next within =>
    rw [getElem?_bytesOfNat _ _ _ (by omega), Option.getD_some, BitVec.extractLsb', Nat.shiftRight_eq_div_pow, Nat.pow_mul]
  next => rfl

/-- The bytes are at their place, and the slot of the ring is pushed with its last ones. -/
theorem filledWith_fills (there : streamOf f s = some x) (ring : (s.core f.dst).ring x.qh.toNat = some r) (v : Vec) :
    let t := filledWith s f r x v
    t.cnet = s.cnet ∧ (∀ q, t.byte q = (s.poke (nextPlace f r x) (vecBytes v)).byte q)
      ∧ if r.desc.size ≤ x.pos + 64 then streamOf f t = some { x with pos := 0 } ∧ (t.core f.dst).ring x.qh.toNat = some (r.push 1)
        else streamOf f t = some { x with pos := x.pos + 64 } ∧ (t.core f.dst).ring x.qh.toNat = some r := by
  have mine : sameStream f x = true := List.find?_some there
  let u := s.poke (nextPlace f r x) (vecBytes v)
  unfold filledWith
  split
  next =>
    have moved := ringsMoved_putRing (u.setStream f.dst x (some { x with pos := 0 })) f.dst x.qh.toNat (r.push 1)
    refine ⟨field_of_samePackage moved.package State.cnet fun _ => rfl, moved.bytes, ?_, ?_⟩
    · have streams := moved.field Core.streams (fun _ => rfl) f.dst
      exact (congrArg (·.find? (sameStream f)) streams).trans (streamOf_setStream mine u _ (by rintro z ⟨⟩; exact mine))
    · exact (ring_putRing ..).trans (if_pos rfl)
  next =>
    exact ⟨rfl, fun _ => rfl, streamOf_setStream mine u _ (by rintro z ⟨⟩; exact mine), (ring_setStream mine u ..).trans ring⟩

/-- A flit of the other world changes no byte, no ring and no counter. -/
theorem foreign_changes_nothing (foreign : Foreign s f) : ∃ t, s.flitAt f = some t ∧ besideCores t = besideCores s
    ∧ ∀ c q, (t.core c).ring q = (s.core c).ring q := by
  obtain ⟨x, mine, t, takes, h⟩ := flitAt_foreign foreign
  refine ⟨t, takes, ?_⟩
  rcases h with rfl | ⟨y, rfl | rfl⟩
  · exact ⟨rfl, fun _ _ => rfl⟩
  · exact ⟨rfl, ring_setStream mine s f.dst y⟩
  · exact ⟨besideCores_answerPort .., fun c q => (core_answerPort (·.ring q) (fun _ _ => rfl) ..).trans (ring_setStream mine s f.dst y c q)⟩

/-- A closing flit has ended its stream, and its sender's port has the answer. -/
theorem closing_ends (there : streamOf f s = some x) : let t := (s.setStream f.dst x none).answerPort f false
    besideCores t = besideCores s ∧ streamOf f t = none
      ∧ ∀ p, Tab.find (s.core f.src).ports f.port = some p → p.serial = f.serial →
        Tab.find (t.core f.src).ports f.port = some { p with answer := some false } := by
  have mine : sameStream f x = true := List.find?_some there
  refine ⟨besideCores_answerPort .., ?_, fun p port serial => ports_answerPort ?_ serial false⟩
  · have streams := core_answerPort Core.streams (fun _ _ => rfl) (s.setStream f.dst x none) f false f.dst
    exact (congrArg (·.find? (sameStream f)) streams).trans (streamOf_setStream mine s none (by rintro z ⟨⟩))
  · rw [ports_setStream mine]
    exact port

theorem free_of_none {j : Nat} (h : j < 4) (free : Tab.find s.here.ports j = none) : ∃ i is, freePorts s = i :: is :=
  List.exists_cons_of_ne_nil (List.ne_nil_of_mem (mem_freePorts.mpr ⟨h, free⟩))

/-- Settles O32 (log 59, 98, 108): the sender by what each instruction leaves of the ports and sends (`PortsSent`), the receiver by what
each flit does to its stream (`flitAt_opening`, `flitAt_data`, `flitAt_closing`, `flitAt_foreign`). -/
theorem convoys : Obligations.Convoys := by
  unfold Obligations.Convoys
  refine ⟨?_, ?_⟩
  · intro s d a b v ready h k flit
    refine ⟨fun dst clean local' target => ⟨?_, fun taken => ?_⟩, fun p there slot run => ⟨exec_convPut there slot run ready, ?_, ?_⟩⟩
    · rintro ⟨j, low, free⟩
      obtain ⟨i, is, ports⟩ := free_of_none low free
      obtain ⟨low, free⟩ := mem_freePorts.mp (ports ▸ pickedPort_mem s i is)
      obtain ⟨after, flits, rest⟩ := (portsSent_openedPort s dst (pickedPort s i is) h).result d (BitVec.ofNat 64 (pickedPort s i is))
      refine ⟨_, exec_convOpen clean local' target ready ports, _, newPort s dst h, low, free, ?_, rfl, rfl, rfl, rfl, rfl, rfl, rfl, flits,
        rest⟩
      rw [after, find_put, if_pos rfl]
    · exact convOpen_full clean local' target ready (List.eq_nil_iff_forall_not_mem.mpr fun j hj =>
        taken j (mem_freePorts.mp hj).1 (mem_freePorts.mp hj).2)
    · intro unanswered fresh
      have sent := portsSent_sendFlit s (Tab.put s.here.ports k { p with closing := true }) k p .closing
      obtain ⟨ports, flits, rest⟩ := convClose_latched sent (.convClose d a)
      exact ⟨_, exec_convClose_sends there slot run ready unanswered fresh, flits, by rw [ports, find_put, if_pos rfl], rest⟩
    · intro aborted answer
      obtain ⟨ports, flits, writes, rest⟩ := (portsSent_portsHere s (Tab.erase s.here.ports k)).result d (flag aborted)
      exact ⟨_, exec_convClose_answers there slot run ready answer, writes, by rw [ports, find_erase, if_pos rfl],
        flits.trans (List.append_nil _), rest⟩
  · intro s k f r there first fence c same stream foreign
    have arrives {t : State} (takes : (offTheConvoys s k).flitAt f = some t) := exec_convoyFlitArrival there first fence takes
    refine ⟨fun other => ?_, fun own => ⟨fun kind fresh ring near => ?_, fun x open' alive ring near => ⟨?_, ?_⟩⟩⟩
    · obtain ⟨t, takes, rest, rings⟩ := foreign_changes_nothing (s := offTheConvoys s k) other
      exact ⟨t, arrives takes, congrArg (·.2.1) rest, byte_of_mem (congrArg (·.2.2) rest), rings, congrArg (·.1) rest⟩
    · refine ⟨_, arrives (flitAt_opening (s := offTheConvoys s k) own kind fresh ring near), rfl, fun _ => rfl, ?_⟩
      have mine : sameStream f { unopened f with aborted := false } = true := sameStream_iff.mpr ⟨rfl, rfl, rfl⟩
      exact streamOf_setStream mine (offTheConvoys s k) _ (by rintro z ⟨⟩; exact mine)
    · intro v kind room p free
      obtain ⟨flits, bytes, fills⟩ := filledWith_fills (s := offTheConvoys s k) open' ring v
      exact ⟨_, arrives (flitAt_data (s := offTheConvoys s k) own open' alive ring near kind room free), flits,
        fun q => (bytes q).trans (byte_vecBytes (offTheConvoys s k) p v q), fills⟩
    · intro kind plain start
      obtain ⟨rest, ends, answer⟩ := closing_ends (s := offTheConvoys s k) open'
      exact ⟨_, arrives (flitAt_closing (s := offTheConvoys s k) own open' alive ring near kind plain start), congrArg (·.2.1) rest, ends,
        byte_of_mem (congrArg (·.2.2) rest), answer⟩

end Sys2Proof.Laws
end

section
/-! PROOFS: reports and the bytes of the larders, the cellars and the attics: none of those changes with a report (15 R381). -/

namespace Sys2Proof.Laws

open Machine Safety

variable {s t u : State} {p n : Nat} {r : Report}

/-- Every byte of a larder, a cellar or an attic reads as before. -/
def SameSram (s t : State) : Prop := ∀ q, 2 ^ 56 ≤ q → t.byte q = s.byte q

theorem SameSram.trans (h : SameSram s t) (g : SameSram t u) : SameSram s u := fun q hq => (g q hq).trans (h q hq)

theorem sameSram_of_mem (h : t.mem = s.mem) : SameSram s t := fun q _ => byte_of_mem h q

theorem sameSram_ite {c : Prop} [Decidable c] {a b : State} (ha : SameSram s a) (hb : SameSram s b) : SameSram s (if c then a else b) := by
  split <;> assumption

/-! ### What the device writes -/

theorem sameSram_devPut (s : State) {p : Nat} (low : p < 2 ^ 56) (b : Byte) : SameSram s (s.devPut p b) := by
  intro q hq
  unfold State.devPut
  split
  next => rfl
  next => rw [byte_poke_one, if_neg (by omega)]

theorem mem_touchLine (s : State) (line : Nat) : (s.touchLine line).mem = s.mem := by
  unfold State.touchLine
  cases s.l2At line <;> rfl

theorem sameSram_devWrite (s : State) (p : Nat) (bs : List Byte) (low : p + bs.length ≤ 2 ^ 56) : SameSram s (s.devWrite p bs) := by
  induction bs generalizing s p with
  | nil => exact fun _ _ => rfl
  | cons b bs ih =>
    rw [List.length_cons] at low
    have before : SameSram s ((s.backInvalidate (p / 128)).touchLine (p / 128)) := sameSram_of_mem (mem_touchLine ..)
    exact (before.trans (sameSram_devPut _ (by omega) b)).trans (ih _ (p + 1) (by omega))

theorem mem_faqAdd (s : State) (k pa : Nat) : (s.faqAdd k pa).mem = s.mem := by
  unfold State.faqAdd
  extract_lets _ _ _ _
  split
  next => split <;> rfl
  next => rfl

theorem mem_raise (s : State) (fn : Nat) : (s.raise fn).mem = s.mem := by unfold State.raise; split <;> rfl

/-! ### Reports -/

theorem length_reportBytes (r : Report) : r.bytes.length = 64 := by simp [Report.bytes, length_bytesOfNat]

/-- The ring of a report is that of a virtual function, or the package's. -/
theorem sameSram_writeReport (s : State) (ring : r.ring ≤ 512) : SameSram s (s.writeReport r) := by
  have head : r.head + 64 ≤ 2 ^ 56 := by
    unfold Report.head
    split <;> omega
  have base (i : Nat) : r.base + 64 * (i % 256) + 64 ≤ 2 ^ 56 := by
    unfold Report.base
    split <;> omega
  unfold State.writeReport
  extract_lets prod cons u
  have record : SameSram s u := (sameSram_devWrite s _ _ (by rw [length_reportBytes]; exact base prod)).trans
    (sameSram_devWrite _ _ _ (by rw [length_bytesOfNat]; omega))
  have lost (n : Nat) : SameSram s (s.devPutNat (r.head + 16) 4 n) := sameSram_devWrite s _ _ (by rw [length_bytesOfNat]; omega)
  exact sameSram_ite (sameSram_of_mem (mem_faqAdd ..)) (sameSram_ite (sameSram_ite (record.trans (sameSram_of_mem (mem_raise ..))) record)
    (lost _))

theorem sameSram_report (s : State) (ring : r.ring ≤ 512) : SameSram s (s.report r) :=
  sameSram_ite (sameSram_of_mem rfl) (sameSram_writeReport s ring)

theorem ring_packageReport (s : State) (event cause : BitVec 8) (block : Nat) (addr data : Reg) :
    (packageReport s event cause block addr data).ring ≤ 512 := Nat.le_refl _

theorem ring_regionReport (s : State) (root : Nat) (rid : BitVec 16) (event cause : BitVec 8) (block : Nat) (addr data : Reg)
    (detail : BitVec 256) : (regionReport s root rid event cause block addr data detail).ring ≤ 512 := by
  unfold regionReport
  split
  next => exact ring_packageReport ..
  next => exact Nat.le_of_lt (s.regionBy root rid).vf.isLt

end Sys2Proof.Laws
end

section
/-! PROOFS: a message that reaches the head of an inbox: its payload, the counter that it names, its handler's context, or its discard
(09 R229, R231). -/

namespace Sys2Proof.Laws

open Machine Safety

variable {s t u : State} {core : BitVec 12} {c k off root p : Nat} {m : Message} {rest : List Message} {r : Region} {bs : List Byte}
  {code : List Byte}

/-! ### The payload, and what it leaves of a counter -/

theorem mem_of_find {α : Type} {t : Tab α} {n : Nat} {x : α} (h : Tab.find t n = some x) : (n, x) ∈ t := by
  induction t with
  | nil => simp [Tab.find] at h
  | cons e t ih =>
    simp only [Tab.find] at h
    split at h
    next same => exact List.mem_cons.mpr (.inl (Prod.ext same (Option.some.inj h).symm))
    next => exact List.mem_cons_of_mem _ (ih h)

/-- A run that covers no counter has no byte of one that is live. -/
theorem apart_of_live (free : s.coversCounter p bs.length = false) (live : s.live k = true) {q : Nat} (low : k ≤ q) (high : q < k + 16) :
    ¬ (p ≤ q ∧ q < p + bs.length) := by
  obtain ⟨who, counts⟩ := Option.isSome_iff_exists.mp live
  have apart := List.any_eq_false.mp free _ (mem_of_find counts)
  rw [Bool.and_eq_true, decide_eq_true_eq, decide_eq_true_eq] at apart
  omega

theorem bad_poke (good : s.bad k = false) (p : Nat) (bs : List Byte) : (s.poke p bs).bad k = false := by
  have kept {w : Nat} (h : w ∈ unpoison s.poisoned p bs.length) : w ∈ s.poisoned := (List.mem_filter.mp h).1
  have word (good : s.poisoned.contains (k / 8) = false) : (unpoison s.poisoned p bs.length).contains (k / 8) = false :=
    Bool.eq_false_iff.mpr fun h => Bool.eq_false_iff.mp good (List.contains_iff_mem.mpr (kept (List.contains_iff_mem.mp h)))
  unfold State.bad at good ⊢
  split at good
  · exact word good
  · exact word good
  · exact List.any_eq_false.mpr fun w hw => List.any_eq_false.mp good w (kept hw)

theorem cntBad_poke (good : s.cntBad k = false) (p : Nat) (bs : List Byte) : (s.poke p bs).cntBad k = false := by
  obtain ⟨first, second⟩ := Bool.or_eq_false_iff.mp good
  exact Bool.or_eq_false_iff.mpr ⟨bad_poke first p bs, bad_poke second p bs⟩

/-- A counter reads as before where no byte of it was written. -/
theorem counter_poke (apart : ∀ q, k ≤ q → q < k + 16 → ¬ (p ≤ q ∧ q < p + bs.length)) : (s.poke p bs).cntValue k = s.cntValue k
    ∧ (s.poke p bs).cntStatus k = s.cntStatus k ∧ (s.poke p bs).cntBind k = s.cntBind k := by
  have part {i n : Nat} (within : i + n ≤ 16) : (s.poke p bs).peek (k + i) n = s.peek (k + i) n :=
    peek_congr fun q low high => byte_poke_outside s p q bs (apart q (by omega) (by omega))
  exact ⟨congrArg (fun bs => BitVec.ofNat 32 (leNat bs)) (part (i := 0) (n := 4) (by omega)),
    congrArg (fun bs => BitVec.ofNat 32 (leNat bs)) (part (i := 4) (n := 4) (by omega)),
    congrArg (fun bs => BitVec.ofNat 64 (leNat bs)) (part (i := 8) (n := 8) (by omega))⟩

/-- The payload stands at its place. -/
def Landed (s : State) (p : Nat) (bs : List Byte) (t : State) : Prop :=
  ∀ q, t.byte q = if p ≤ q ∧ q < p + bs.length then bs.getD (q - p) 0 else s.byte q

theorem landed_poke (s : State) (p : Nat) (bs : List Byte) : Landed s p bs (s.poke p bs) := fun q => by
  rw [byte_poke, List.getD_eq_getElem?_getD]
  rfl

/-! ### The message leaves (06 R160, 09 R229) -/

/-- The inbox without its oldest message, and the core at rest. -/
def inboxNext (y : Core) : Core := { y with inbox := y.inbox.drop 1, delivery := .idle }
def messageGone (s : State) (c : Nat) : State := s.setCore c (inboxNext (s.core c))

theorem core_messageGone (s : State) (c : Nat) : (messageGone s c).core c = inboxNext (s.core c) := by
  rw [messageGone, core_setCore, if_pos rfl]

theorem slotAt_messageGone (s : State) (c c' k : Nat) : (messageGone s c).slotAt c' k = s.slotAt c' k := by
  have slots : (inboxNext (s.core c)).slots = (s.core c).slots := rfl
  exact slotAt_setCore_of_slots slots c' k

/-- What a core holds of messages is what an engine shows of it. -/
theorem messageGone_leaves (kept : engineCore (u.core c) = engineCore (s.core c)) (inbox : (s.core c).inbox = m :: rest) :
    ((messageGone u c).core c).inbox = rest ∧ ((messageGone u c).core c).delivery = .idle := by
  have same := congrArg Core.inbox kept
  change (u.core c).inbox = (s.core c).inbox at same
  rw [core_messageGone]
  refine ⟨?_, rfl⟩
  rw [inboxNext, same, inbox]
  rfl

/-- Whether the counter that a message names is gone. -/
def counterGone (s : State) (c : Nat) (m : Message) : Bool := match m.ctr with
  | some off => !s.live (cellarAt (clusterOf c) off)
  | none => false

theorem finishMessage_eq (s : State) (c : Nat) (m : Message) (or' : BitVec 32) : s.finishMessage c m or'
    = messageGone (if counterGone s c m then (s.signalAt c m.ctr or').tellSender m 2 else s.signalAt c m.ctr or') c := rfl

theorem seat_tellSender (s : State) (m : Message) (reason : Reg) : seat (s.tellSender m reason) = seat s :=
  seat_ite rfl (seat_report ..)

theorem engine_signalAt (s : State) (c : Nat) (ctr : Option Nat) (or' : BitVec 32) (c' : Nat) :
    engineCore ((s.signalAt c ctr or').core c') = engineCore (s.core c') := by
  unfold State.signalAt
  cases ctr with
  | none => rfl
  | some off =>
    simp only
    split
    next => exact engine_cntUpdate ..
    next => rfl

theorem finishMessage_leaves (inbox : (s.core c).inbox = m :: rest) (or' : BitVec 32) :
    ((s.finishMessage c m or').core c).inbox = rest ∧ ((s.finishMessage c m or').core c).delivery = .idle := by
  rw [finishMessage_eq]
  refine messageGone_leaves ?_ inbox
  split
  next => exact (engine_of_seat (seat_tellSender ..) c).trans (engine_signalAt ..)
  next => exact engine_signalAt ..

theorem finishMessage_plain (plain : m.ctr = none) (or' : BitVec 32) : s.finishMessage c m or' = messageGone s c := by
  rw [finishMessage_eq, counterGone, plain]
  rfl

section

variable (counts : m.ctr = some off) (place : cellarAt (clusterOf c) off = k) (live : s.live k = true)

include counts place live

theorem signalAt_live (or' : BitVec 32) : s.signalAt c m.ctr or' = s.cntUpdate k (-1) or' := by
  unfold State.signalAt
  rw [counts]
  simp only [place, live, if_true]

theorem counterGone_live : counterGone s c m = false := by
  unfold counterGone
  rw [counts]
  simp only [place, live, Bool.not_true]

theorem finishMessage_counts (or' : BitVec 32) : s.finishMessage c m or' = messageGone (s.cntUpdate k (-1) or') c := by
  rw [finishMessage_eq, counterGone_live counts place live, signalAt_live counts place live]
  exact congrArg (messageGone · c) (if_neg Bool.false_ne_true)

/-- The two words of the counter, and no other byte. -/
theorem finishMessage_counter (readable : s.cntBad k = false) (unbound : s.cntBind k = 0) (or' : BitVec 32) :
    let t := s.finishMessage c m or'
    t.cntValue k = BitVec.ofInt 32 (max (-2 ^ 31) ((s.cntValue k).toInt - 1)) ∧ t.cntStatus k = s.cntStatus k ||| or'
      ∧ ∀ q, ¬(k ≤ q ∧ q < k + 8) → t.byte q = s.byte q := by
  have mem : (s.finishMessage c m or').mem = (cntWrites s k (-1) or').mem :=
    (congrArg State.mem (finishMessage_counts counts place live or')).trans (mem_cntUpdate s readable unbound)
  refine ⟨?_, ?_, fun q outside => (byte_of_mem mem q).trans (byte_cntWrites _ _ _ _ outside)⟩
  · rw [State.cntValue, peek_of_mem mem, ← clamp32_pred]
    exact cntValue_cntWrites ..
  · rw [State.cntStatus, peek_of_mem mem]
    exact cntStatus_cntWrites ..

end

/-! ### Who is woken (06 R160) -/

/-- It fires where the value was 1. -/
theorem cntFires_pred : CntFires s k (-1) ↔ (s.cntValue k).toInt = 1 := by
  unfold CntFires cntNew
  have high : (s.cntValue k).toInt < 2 ^ 31 := (s.cntValue k).toInt_lt
  omega

theorem cntUpdate_wakes (live : s.live k = true) (readable : s.cntBad k = false) (unbound : s.cntBind k = 0) :
    ((s.cntValue k).toInt = 1 → AllWake s (s.cntUpdate k (-1) 0) (.counter k) ((s.cntStatus k).setWidth 64))
      ∧ ((s.cntValue k).toInt ≠ 1 → ∀ c j, (s.cntUpdate k (-1) 0).slotAt c j = s.slotAt c j) := by
  obtain ⟨first, second⟩ := Bool.or_eq_false_iff.mp readable
  obtain ⟨who, counts⟩ := Option.isSome_iff_exists.mp live
  refine ⟨fun one c j => ?_, fun other c j => ?_⟩
  · rw [cntUpdate_of_fires first second (cntFires_pred.mpr one), fire_cntWritten counts, if_pos unbound, cntRoused, slotAt_wake (by simp)]
    rfl
  · rw [cntUpdate_of_rests first second (fun fires => other (cntFires_pred.mp fires))]
    rfl

end Sys2Proof.Laws
end

section
/-! PROOFS: a move of the oldest message of an inbox: it lands, begins its handler, is discarded, or leaves (09 R229, R231). -/

namespace Sys2Proof.Laws

open Machine Safety

variable {s t u : State} {core : BitVec 12} {c k off root p : Nat} {m : Message} {rest : List Message} {r : Region} {code : List Byte}
  {fault : Bool}

/-! ### The message lands -/

/-- Where the payload of a message goes at its core. -/
def landingAt (c : Nat) (m : Message) : Nat := if m.dwin then cellarAt (clusterOf c) m.doff else larderAt c m.doff

/-- The package once the payload stands there. -/
def landed (s : State) (c : Nat) (m : Message) : State := s.poke (landingAt c m) m.payload

/-- The package once the handler's context has begun. -/
def handlerBegun (s : State) (c : Nat) (m : Message) (root : Nat) (r : Region) : State :=
  let t := (stamped s).setSlotAt c 8 (handlerSlot m root r s.stamp)
  t.setCore c { t.core c with delivery := .running }

section

variable (inbox : (s.core core.toNat).inbox = m :: rest) (idle : (s.core core.toNat).delivery = .idle)
  (placed : s.coreRegion core.toNat = some (root, r))

include inbox idle placed

theorem exec_delivery_foreign (other : r.tenant ≠ m.tenant ∨ r.secure ≠ m.secure) :
    exec (.messageDelivery core) s = .next (s.discardMessage core.toNat m 0) := by
  have other : (decide (r.tenant ≠ m.tenant) || r.secure != m.secure) = true := by simpa using other
  change execMessageDelivery core s = _
  unfold execMessageDelivery
  simp only [inbox, idle, placed, other, if_true]

variable (tenant : r.tenant = m.tenant) (world : r.secure = m.secure)
  (free : s.coversCounter (landingAt core.toNat m) m.payload.length = false)

include tenant world free

theorem exec_delivery_lands (plain : m.code = none) :
    exec (.messageDelivery core) s = .next ((landed s core.toNat m).finishMessage core.toNat m 0) := by
  unfold landingAt at free
  change execMessageDelivery core s = _
  unfold execMessageDelivery
  simp only [inbox, idle, placed, tenant, world, free, plain, ne_eq, not_true_eq_false, decide_false, bne_self_eq_false, Bool.or_self,
    Bool.and_false, Bool.false_eq_true, if_false]
  rfl

theorem exec_delivery_begins (handler : m.code = some code) :
    exec (.messageDelivery core) s = .next (handlerBegun (landed s core.toNat m) core.toNat m root r) := by
  unfold landingAt at free
  change execMessageDelivery core s = _
  unfold execMessageDelivery
  simp only [inbox, idle, placed, tenant, world, free, handler, ne_eq, not_true_eq_false, decide_false, bne_self_eq_false, Bool.or_self,
    Bool.and_false, Bool.false_eq_true, if_false]
  rfl

end

/-! ### The handler's context (09 R231) -/

/-- The core whose handler runs, or has ended. -/
def withDelivery (y : Core) (d : Delivery) : Core := { y with delivery := d }
def delivering (s : State) (c : Nat) (d : Delivery) : State := s.setCore c (withDelivery (s.core c) d)

theorem core_delivering (s : State) (c : Nat) (d : Delivery) : (delivering s c d).core c = withDelivery (s.core c) d := by
  rw [delivering, core_setCore, if_pos rfl]

theorem slotAt_delivering (s : State) (c : Nat) (d : Delivery) (c' k : Nat) : (delivering s c d).slotAt c' k = s.slotAt c' k := by
  have slots : (withDelivery (s.core c) d).slots = (s.core c).slots := rfl
  exact slotAt_setCore_of_slots slots c' k

theorem inbox_setSlotAt (s : State) (c k : Nat) (x : Slot) (c' : Nat) : ((s.setSlotAt c k x).core c').inbox = (s.core c').inbox := by
  have rest := congrArg Prod.snd (beside_setSlotAt s c k x)
  have inbox := congrArg Core.inbox (congrFun rest c')
  exact inbox

theorem handlerBegun_eq (s : State) (c : Nat) (m : Message) (root : Nat) (r : Region) : handlerBegun s c m root r
    = delivering ((stamped s).setSlotAt c 8 (handlerSlot m root r s.stamp)) c .running := rfl

theorem handlerBegun_leaves (inbox : (s.core c).inbox = m :: rest) (root : Nat) (r : Region) : let t := handlerBegun s c m root r
    (t.core c).inbox = m :: rest ∧ (t.core c).delivery = .running ∧ t.slotAt c 8 = handlerSlot m root r s.stamp
      ∧ (∀ c' k, (c' ≠ c ∨ k ≠ 8) → t.slotAt c' k = s.slotAt c' k) ∧ t.mem = s.mem := by
  have kept : ((stamped s).core c).inbox = m :: rest := inbox
  rw [handlerBegun_eq]
  refine ⟨?_, ?_, ?_, fun c' k other => ?_, rfl⟩
  · rw [core_delivering, withDelivery, inbox_setSlotAt, kept]
  · rw [core_delivering]
    rfl
  · rw [slotAt_delivering, slotAt_setSlotAt, if_pos ⟨rfl, rfl⟩]
  · rw [slotAt_delivering, slotAt_setSlotAt, if_neg (fun same => other.elim (· same.1.symm) (· same.2.symm))]
    rfl

/-- The registers at the start of a handler. -/
theorem handlerSlot_regs (m : Message) (root : Nat) (r : Region) (uid : Nat) : let x := handlerSlot m root r uid
    x.pc = 0 ∧ x.fstat = 0 ∧ x.wait = .none ∧ x.budget = r.cycles
      ∧ ∀ i, x.gReg i = if i = 4 then BitVec.ofNat 64 (windowBase + (if m.dwin then 2 ^ 32 else 0) + m.doff)
          else if i = 5 then BitVec.ofNat 64 m.payload.length
          else if i = 6 then BitVec.ofNat 64 ((htid m.src m.slot).toNat + (m.pkg.elim 0 (·.toNat)) * 2 ^ 16) else 0 := by
  have sender : (m.pkg.map (·.toNat)).getD 0 = m.pkg.elim 0 (·.toNat) := by cases m.pkg <;> rfl
  refine ⟨rfl, rfl, rfl, rfl, fun i => ?_⟩
  unfold handlerSlot
  simp only [Slot.gReg_setG, sender]
  by_cases four : i = 4
  · subst four; rfl
  by_cases five : i = 5
  · subst five; rfl
  by_cases six : i = 6
  · subst six; rfl
  simp only [four, five, six, false_and, if_false]
  exact ite_self 0

/-! ### A message of another tenant (09 R229) -/

theorem sameSram_discardMessage (s : State) (c : Nat) (m : Message) (reason : Reg) : SameSram s (s.discardMessage c m reason) :=
  sameSram_ite (sameSram_of_mem rfl) (sameSram_report s (ring_regionReport ..))

theorem discardMessage_leaves (inbox : (s.core c).inbox = m :: rest) (reason : Reg) :
    ((s.discardMessage c m reason).core c).inbox = rest := by
  have kept : (s.tellSender m reason).core c = s.core c := core_of_cores (congrArg Prod.snd (seat_tellSender ..)) c
  rw [State.discardMessage, core_setCore, if_pos rfl, kept, inbox]
  rfl

end Sys2Proof.Laws
end

section
/-! PROOFS: the moves of a running handler, and the message that leaves when it has ended (09 R232); the statement. -/

namespace Sys2Proof.Laws

open Machine Safety

variable {s t u : State} {core : BitVec 12} {c k off n : Nat} {m : Message} {rest : List Message} {code : List Byte} {fault : Bool}
  {i : Instr} {e : Reject}

/-! ### A move of the handler -/

/-- The context of the handler is at reset. -/
def handlerEnded (s : State) (c : Nat) (fault : Bool) : State := delivering ((s.dropEarly c 8).setSlotAt c 8 Slot.reset) c (.ended fault)

theorem handlerEnded_leaves (inbox : (s.core c).inbox = m :: rest) (fault : Bool) : let t := handlerEnded s c fault
    (t.core c).inbox = m :: rest ∧ (t.core c).delivery = .ended fault ∧ t.slotAt c 8 = Slot.reset := by
  have kept : ((s.dropEarly c 8).core c).inbox = m :: rest := inbox
  unfold handlerEnded
  refine ⟨?_, ?_, ?_⟩
  · rw [core_delivering, withDelivery, inbox_setSlotAt, kept]
  · rw [core_delivering]
    rfl
  · rw [slotAt_delivering, slotAt_setSlotAt, if_pos ⟨rfl, rfl⟩]

/-- The report of a handler fault. -/
def faultReport (s : State) (c : Nat) (cause : Cause) (off : Nat) : Report := match s.coreRegion c with
  | some (root, r) => regionReport s root r.rid 0x06 cause c (BitVec.ofNat 64 off) 0 0
  | none => packageReport s 0x06 cause c (BitVec.ofNat 64 off) 0

section

variable (inbox : (s.core core.toNat).inbox = m :: rest) (running : (s.core core.toNat).delivery = .running) (handler : m.code = some code)

include inbox running handler

theorem exec_delivery_running : exec (.messageDelivery core) s = .next (s.goOnHandler core.toNat code) := by
  change execMessageDelivery core s = _
  unfold execMessageDelivery
  simp only [inbox, running, handler, Option.getD_some]

theorem exec_delivery_goesOn (step : s.handlerStep core.toNat code = .goesOn t) : exec (.messageDelivery core) s = .next t := by
  rw [exec_delivery_running inbox running handler, State.goOnHandler, step]

theorem delivery_ends (step : s.handlerStep core.toNat code = .ended t) (kept : (t.core core.toNat).inbox = m :: rest) :
    Completes (.messageDelivery core) s (fun t => (t.core core.toNat).inbox = m :: rest ∧ (t.core core.toNat).delivery = .ended false
      ∧ t.slotAt core.toNat 8 = Slot.reset) := by
  refine ⟨handlerEnded t core.toNat false, ?_, handlerEnded_leaves kept false⟩
  rw [exec_delivery_running inbox running handler, State.goOnHandler, step]
  rfl

theorem delivery_faults {cause : Cause} (step : s.handlerStep core.toNat code = .fault s cause off) :
    Completes (.messageDelivery core) s (fun t => (t.core core.toNat).inbox = m :: rest ∧ (t.core core.toNat).delivery = .ended true
      ∧ t.slotAt core.toNat 8 = Slot.reset) := by
  have kept : ((s.report (faultReport s core.toNat cause off)).core core.toNat).inbox = m :: rest :=
    (congrArg Core.inbox (core_of_cores (congrArg Prod.snd (seat_report ..)) core.toNat)).trans inbox
  refine ⟨handlerEnded (s.report (faultReport s core.toNat cause off)) core.toNat true, ?_, handlerEnded_leaves kept true⟩
  rw [exec_delivery_running inbox running handler, State.goOnHandler, step]
  rfl

end

/-! ### What the next instruction does -/

/-- The package as the handler comes to an instruction. -/
def atHandler (s : State) (c : Nat) : State :=
  (({ s with cur := { core := c, slot := 8, len := 4, code := none } } : State).setSlotAt c 8 { s.slotAt c 8 with latched := none })

theorem handlerStep_budget (due : (s.slotAt c 8).budgetDue = true) :
    s.handlerStep c code = .fault s Cause.budget (s.slotAt c 8).pc.toNat := by
  unfold State.handlerStep
  simp only [due, if_true]

section

variable (due : (s.slotAt c 8).budgetDue = false)

include due

theorem handlerStep_end (past : 64 ≤ (s.slotAt c 8).pc.toNat) : s.handlerStep c code = .ended s := by
  unfold State.handlerStep
  simp only [due, past, Bool.false_eq_true, if_false, if_true]

variable (within : (s.slotAt c 8).pc.toNat + 4 ≤ 64)

include within

theorem handlerStep_word (word : (∃ e, decode ((code.drop (s.slotAt c 8).pc.toNat).take 4) = .error e)
      ∨ ∃ i n, decode ((code.drop (s.slotAt c 8).pc.toNat).take 4) = .ok (i, n) ∧ handlerMay i = false) :
    s.handlerStep c code = .fault s Cause.illegal (s.slotAt c 8).pc.toNat := by
  have low : ¬ 64 ≤ (s.slotAt c 8).pc.toNat := by omega
  have fits : ¬ 64 < (s.slotAt c 8).pc.toNat + 4 := by omega
  unfold State.handlerStep
  simp only [due, low, fits, Bool.false_eq_true, if_false]
  rcases word with ⟨e, word⟩ | ⟨i, n, word, may⟩
  · simp only [word]
  · simp only [word, may, Bool.not_false, if_true]

variable (word : decode ((code.drop (s.slotAt c 8).pc.toNat).take 4) = .ok (i, n)) (may : handlerMay i = true)
  (owes : (s.slotAt c 8).owes i = false) (runs : execWord i ((atHandler s c).past c 8 i (s.slotAt c 8).latched.isSome) = .next t)

include word may owes runs

theorem handlerStep_ends (gone : (t.slotAt c 8).task.isSome = false) : s.handlerStep c code = .ended t := by
  have low : ¬ 64 ≤ (s.slotAt c 8).pc.toNat := by omega
  have fits : ¬ 64 < (s.slotAt c 8).pc.toNat + 4 := by omega
  have gone : (t.slotAt c 8).task.isNone = true := by simpa using gone
  have due : ¬ (s.slotAt c 8).budgetDue = true := Bool.eq_false_iff.mp due
  unfold atHandler at runs
  unfold State.handlerStep
  simp only [if_neg due, if_neg low, if_neg fits, Bool.false_eq_true, if_false, word, may, Bool.not_true, owes, runs, gone, if_true]

theorem handlerStep_goesOn (straight : handlerBranch i = false) (stays : (t.slotAt c 8).task.isSome = true)
    (sound : (t.slotAt c 8).hnd = false) : s.handlerStep c code = .goesOn t := by
  have low : ¬ 64 ≤ (s.slotAt c 8).pc.toNat := by omega
  have fits : ¬ 64 < (s.slotAt c 8).pc.toNat + 4 := by omega
  have stays : (t.slotAt c 8).task.isNone = false := by rw [Option.isNone_eq_false_iff]; exact stays
  have due : ¬ (s.slotAt c 8).budgetDue = true := Bool.eq_false_iff.mp due
  unfold atHandler at runs
  unfold State.handlerStep
  simp only [if_neg due, if_neg low, if_neg fits, Bool.false_eq_true, if_false, word, may, Bool.not_true, owes, runs, stays, sound,
    straight, Bool.false_and]

end

theorem inbox_past (s : State) (c k : Nat) (i : Instr) (again : Bool) (c' : Nat) :
    ((s.past c k i again).core c').inbox = (s.core c').inbox := rfl

theorem inbox_endTask (s : State) (c k : Nat) (kept : Bool) (c' : Nat) : ((s.endTask c k kept).core c').inbox = (s.core c').inbox := by
  have rest := congrArg Prod.snd (beside_endTask s c k kept)
  have inbox := congrArg Core.inbox (congrFun rest c')
  exact inbox

theorem inbox_atHandler (s : State) (c c' : Nat) : ((atHandler s c).core c').inbox = (s.core c').inbox := by
  rw [atHandler, inbox_setSlotAt]
  rfl

theorem execWord_tend (u : State) : execWord .tend u = .next (u.endTask u.cur.core u.cur.slot false) := rfl

/-- A TEND leaves the inbox as it was and the context without a task. -/
theorem tend_handler (s : State) (c : Nat) (again : Bool) : ∃ t, execWord .tend ((atHandler s c).past c 8 .tend again) = .next t
    ∧ (t.slotAt c 8).task.isSome = false ∧ (t.core c).inbox = (s.core c).inbox := by
  have cur : ((atHandler s c).past c 8 .tend again).cur = { core := c, slot := 8, len := 4, code := none } := rfl
  generalize start : (atHandler s c).past c 8 .tend again = u at cur
  refine ⟨u.endTask c 8 false, ?_, ?_, ?_⟩
  · rw [execWord_tend, cur]
  · rw [slotAt_endTask_same]
    rfl
  · rw [inbox_endTask, ← start, inbox_past, inbox_atHandler]

/-! ### The message leaves -/

section

variable (inbox : (s.core core.toNat).inbox = m :: rest) (ended : (s.core core.toNat).delivery = .ended fault)

include inbox ended

/-- Whether a write of the handler is still to be performed. -/
theorem exec_delivery_ended : exec (.messageDelivery core) s
    = if ((s.core core.toNat).sb.any (fun e => e.slot = 8) || s.posted.any (fun p => p.src = core.toNat && p.slot = 8)) = true then .next s
      else .next (s.finishMessage core.toNat m (if fault then statusErr else 0)) := by
  change execMessageDelivery core s = _
  unfold execMessageDelivery
  simp only [inbox, ended]

end

theorem writes_iff (s : State) (c : Nat) : ((s.core c).sb.any (fun e => e.slot = 8) || s.posted.any (fun p => p.src = c && p.slot = 8)) = true
    ↔ (∃ e ∈ (s.core c).sb, e.slot = 8) ∨ ∃ q ∈ s.posted, q.src = c ∧ q.slot = 8 := by
  simp

end Sys2Proof.Laws
end

section
/-! PROOFS: the delivery of a message, assembled from its moves (09 R229, R231, R232). -/

namespace Sys2Proof.Laws

open Machine Safety

variable {s : State} {core : BitVec 12} {off root : Nat} {m : Message} {rest : List Message} {r : Region} {code : List Byte} {fault : Bool}

/-! ### The first move -/

section

variable (inbox : (s.core core.toNat).inbox = m :: rest) (idle : (s.core core.toNat).delivery = .idle)
  (placed : s.coreRegion core.toNat = some (root, r)) (tenant : r.tenant = m.tenant) (world : r.secure = m.secure)
  (free : s.coversCounter (landingAt core.toNat m) m.payload.length = false)

include inbox idle placed tenant world free

theorem delivery_plain (plain : m.code = none) (silent : m.ctr = none) : Completes (.messageDelivery core) s (fun t =>
    Landed s (landingAt core.toNat m) m.payload t ∧ (t.core core.toNat).inbox = rest ∧ (t.core core.toNat).delivery = .idle
      ∧ ∀ c' k, t.slotAt c' k = s.slotAt c' k) := by
  refine ⟨_, exec_delivery_lands inbox idle placed tenant world free plain, ?_⟩
  have leaves := finishMessage_leaves (s := landed s core.toNat m) inbox 0
  rw [finishMessage_plain silent] at leaves ⊢
  exact ⟨landed_poke s (landingAt core.toNat m) m.payload, leaves.1, leaves.2, slotAt_messageGone (landed s core.toNat m) core.toNat⟩

theorem delivery_counted {k : Nat} (plain : m.code = none) (counts : m.ctr = some off) (place : cellarAt (clusterOf core.toNat) off = k)
    (live : s.live k = true) (readable : s.cntBad k = false) (unbound : s.cntBind k = 0) :
    Completes (.messageDelivery core) s (fun t => (t.core core.toNat).inbox = rest ∧ (t.core core.toNat).delivery = .idle
      ∧ t.cntValue k = BitVec.ofInt 32 (max (-2 ^ 31) ((s.cntValue k).toInt - 1)) ∧ t.cntStatus k = s.cntStatus k
      ∧ (∀ q, ¬(k ≤ q ∧ q < k + 8) → t.byte q = if landingAt core.toNat m ≤ q ∧ q < landingAt core.toNat m + m.payload.length
          then m.payload.getD (q - landingAt core.toNat m) 0 else s.byte q)
      ∧ ((s.cntValue k).toInt = 1 → AllWake s t (.counter k) ((s.cntStatus k).setWidth 64))
      ∧ ((s.cntValue k).toInt ≠ 1 → ∀ c' j, t.slotAt c' j = s.slotAt c' j)) := by
  obtain ⟨value, status, bind⟩ := counter_poke (s := s) fun q low high => apart_of_live free live low high
  have readable : (landed s core.toNat m).cntBad k = false := cntBad_poke readable _ _
  have unbound : (landed s core.toNat m).cntBind k = 0 := bind.trans unbound
  have live : (landed s core.toNat m).live k = true := live
  obtain ⟨gone, done⟩ := finishMessage_leaves (s := landed s core.toNat m) inbox 0
  obtain ⟨newValue, newStatus, others⟩ := finishMessage_counter counts place live readable unbound 0
  obtain ⟨fires, rests⟩ := cntUpdate_wakes live readable unbound
  have slots (c' j : Nat) : ((landed s core.toNat m).finishMessage core.toNat m 0).slotAt c' j
      = ((landed s core.toNat m).cntUpdate k (-1) 0).slotAt c' j := by
    rw [finishMessage_counts counts place live]
    exact slotAt_messageGone ..
  have value : (landed s core.toNat m).cntValue k = s.cntValue k := value
  have status : (landed s core.toNat m).cntStatus k = s.cntStatus k := status
  rw [value] at newValue fires rests
  rw [status] at newStatus fires
  exact ⟨_, exec_delivery_lands inbox idle placed tenant world free plain, gone, done, newValue, newStatus.trans (BitVec.or_zero ..),
    fun q outside => (others q outside).trans (landed_poke s _ _ q), fun one c' j => (slots c' j).trans (fires one c' j),
    fun other c' j => (slots c' j).trans (rests other c' j)⟩

theorem delivery_begins (handler : m.code = some code) : Completes (.messageDelivery core) s (fun t =>
    Landed s (landingAt core.toNat m) m.payload t ∧ (t.core core.toNat).inbox = m :: rest ∧ (t.core core.toNat).delivery = .running
      ∧ t.slotAt core.toNat 8 = handlerSlot m root r s.stamp
      ∧ ∀ c' k, (c' ≠ core.toNat ∨ k ≠ 8) → t.slotAt c' k = s.slotAt c' k) := by
  obtain ⟨stays, runs, context, others, mem⟩ := handlerBegun_leaves (s := landed s core.toNat m) inbox root r
  exact ⟨_, exec_delivery_begins inbox idle placed tenant world free handler,
    fun q => (byte_of_mem mem q).trans (landed_poke s _ _ q), stays, runs, context, others⟩

end

theorem delivery_foreign (inbox : (s.core core.toNat).inbox = m :: rest) (idle : (s.core core.toNat).delivery = .idle)
    (placed : s.coreRegion core.toNat = some (root, r)) (other : r.tenant ≠ m.tenant ∨ r.secure ≠ m.secure) :
    Completes (.messageDelivery core) s (fun t => (t.core core.toNat).inbox = rest ∧ SameSram s t) :=
  ⟨_, exec_delivery_foreign inbox idle placed other, discardMessage_leaves inbox 0, sameSram_discardMessage s core.toNat m 0⟩

/-! ### The last move -/

section

variable (inbox : (s.core core.toNat).inbox = m :: rest) (ended : (s.core core.toNat).delivery = .ended fault)

include inbox ended

theorem delivery_waits (due : (∃ e ∈ (s.core core.toNat).sb, e.slot = 8) ∨ ∃ q ∈ s.posted, q.src = core.toNat ∧ q.slot = 8) :
    exec (.messageDelivery core) s = .next s := by
  rw [exec_delivery_ended inbox ended, if_pos ((writes_iff s core.toNat).mpr due)]

theorem delivery_finishes (due : ¬ ((∃ e ∈ (s.core core.toNat).sb, e.slot = 8) ∨ ∃ q ∈ s.posted, q.src = core.toNat ∧ q.slot = 8)) :
    exec (.messageDelivery core) s = .next (s.finishMessage core.toNat m (if fault then statusErr else 0)) := by
  rw [exec_delivery_ended inbox ended, if_neg (fun writes => due ((writes_iff s core.toNat).mp writes))]

end

/-- Settles O28 (log 73): the first move lands the payload and counts (`delivery_plain`, `delivery_counted`), begins the handler
(`delivery_begins`) or discards the message (`delivery_foreign`); a later one is an instruction of the handler (`handlerStep_goesOn`,
`handlerStep_ends`, `delivery_faults`); the last waits for its writes, and the message leaves (`delivery_finishes`). -/
theorem messageDelivered : Obligations.MessageDelivered := by
  unfold Obligations.MessageDelivered
  refine ⟨?begin, ?run, ?leave⟩
  case begin =>
    intro s core m rest root r c p landed inbox idle placed
    refine ⟨fun tenant world free => ⟨?_, ?_, ?_⟩, fun other => ?_⟩
    · exact delivery_plain inbox idle placed tenant world free
    · intro off plain counts k old live readable unbound aligned
      exact delivery_counted inbox idle placed tenant world free plain counts rfl live readable unbound
    · intro code handler
      obtain ⟨t, next, lands, stays, runs, context, others⟩ := delivery_begins inbox idle placed tenant world free handler
      refine ⟨t, next, lands, stays, runs, ?_, others⟩
      rw [context]
      exact handlerSlot_regs m root r s.stamp
    · obtain ⟨t, next, gone, kept⟩ := delivery_foreign inbox idle placed other
      exact ⟨t, next, gone, fun q low _ => kept q low⟩
  case run =>
    intro s core m rest code c x word u ends small inbox running handler
    refine ⟨fun due => delivery_faults inbox running handler (handlerStep_budget due), fun due => ⟨fun past => ?_, fun within =>
      ⟨fun bad => ?_, fun tend => ?_, ?_⟩⟩⟩
    · exact delivery_ends inbox running handler (handlerStep_end due past) inbox
    · exact delivery_faults inbox running handler (handlerStep_word due within bad)
    · obtain ⟨t, runs, gone, kept⟩ := tend_handler s core.toNat (s.slotAt core.toNat 8).latched.isSome
      exact delivery_ends inbox running handler (handlerStep_ends due within tend rfl rfl runs gone) (kept.trans inbox)
    · intro i n t word may straight owes runs stays sound
      exact exec_delivery_goesOn inbox running handler (handlerStep_goesOn due within word may owes runs straight stays sound)
  case leave =>
    intro s core m rest fault c due inbox ended
    refine ⟨delivery_waits inbox ended, fun done => ?_⟩
    obtain ⟨gone, idle⟩ := finishMessage_leaves inbox (if fault then statusErr else 0)
    refine ⟨_, delivery_finishes inbox ended done, gone, idle, fun silent => ?_, ?_⟩
    · rw [finishMessage_plain silent]
      exact ⟨fun q => rfl, slotAt_messageGone s core.toNat⟩
    · intro off counts k live readable unbound aligned
      obtain ⟨value, status, _⟩ := finishMessage_counter counts rfl live readable unbound (if fault then statusErr else 0)
      refine ⟨value, status.trans ?_⟩
      cases fault with
      | false => exact BitVec.or_zero ..
      | true => rfl

end Sys2Proof.Laws
end

section
/-! PROOFS: what a collective gives: the tree over the members' elements, and the runs of bytes that every member's slot receives
(02 R60, 09 R225). -/

namespace Sys2Proof.Laws

open Machine Safety

/-! ### The tree of an associative operation -/

section

variable {α : Type} {g : α → α → α} {e : α} (assoc : ∀ x y z, g (g x y) z = g x (g y z)) (unit : g e e = e)

include assoc

/-- A level of the tree, with flags that no node touches. -/
theorem pairUp_exact (unit : g e e = e) (fp : Fp) : ∀ xs : List α, (∀ x ∈ xs, g x e = x) →
    ∃ ys, pairUp (fun x y fp => (g x y, fp)) e xs fp = (ys, fp) ∧ ys.foldr g e = xs.foldr g e ∧ (∀ y ∈ ys, g y e = y)
      ∧ ys.length = (xs.length + 1) / 2
  | [], _ => ⟨[], rfl, rfl, fun _ h => absurd h List.not_mem_nil, by simp⟩
  | [x], own => by
    have kept := own x List.mem_cons_self
    refine ⟨[g x e], rfl, ?_, ?_, by simp⟩
    · simp only [List.foldr_cons, List.foldr_nil, kept]
    · simpa using by rw [assoc, unit]
  | x :: y :: xs, own => by
    obtain ⟨ys, level, total, kept, half⟩ := pairUp_exact unit fp xs fun z hz => own z (List.mem_cons_of_mem x (List.mem_cons_of_mem y hz))
    have last := own y (List.mem_cons_of_mem x List.mem_cons_self)
    refine ⟨g x y :: ys, ?_, ?_, fun z hz => ?_, ?_⟩
    · rw [pairUp, level]
    · rw [List.foldr_cons, total, assoc]
      rfl
    · rcases List.mem_cons.mp hz with rfl | hz
      · rw [assoc, last]
      · exact kept z hz
    · simp only [List.length_cons, half]
      omega

include unit

/-- The tree is the fold, where its levels are enough and the identity leaves every value as it is. -/
theorem treeOf_exact (n : Nat) (xs : List α) (fp : Fp) (own : ∀ x ∈ xs, g x e = x) (fits : xs.length ≤ 2 ^ n) :
    treeOf (fun x y fp => (g x y, fp)) e n xs fp = (xs.foldr g e, fp) := by
  induction n generalizing xs with
  | zero => match xs, own, fits with
    | [], _, _ => rfl
    | [x], own, _ => exact Prod.ext (own x List.mem_cons_self).symm rfl
    | x :: y :: xs, _, fits => simp at fits
  | succ n ih => match xs, own, fits with
    | [], _, _ => rfl
    | [x], own, _ => exact Prod.ext (own x List.mem_cons_self).symm rfl
    | x :: y :: xs, own, fits =>
      obtain ⟨ys, level, total, kept, half⟩ := pairUp_exact assoc unit fp (x :: y :: xs) own
      rw [treeOf, level, ih ys kept (by rw [half]; omega), total]
      · exact List.cons_ne_nil x (y :: xs)
      · exact fun z one => List.cons_ne_nil y xs (List.cons.inj one).2

end

/-- A fold from the left, from its own first value. -/
theorem foldr_eq_foldl_head {α : Type} {g : α → α → α} {e : α} [Std.Associative g] [Std.Commutative g] (same : ∀ x, g x x = x)
    (z : α) {xs : List α} (some : xs ≠ []) (own : ∀ x ∈ xs, g x e = x) : xs.foldr g e = xs.foldl g (xs.headD z) := by
  cases xs with
  | nil => exact absurd rfl some
  | cons x xs =>
    rw [← List.foldl_eq_foldr, List.headD_cons, List.foldl_cons, List.foldl_cons, same, Std.Commutative.comm (op := g) e,
      own x List.mem_cons_self]

/-! ### The combination of integers (09 R225) -/

theorem intOf_bounds (signed : Bool) {w : Nat} (pos : 0 < w) (x : Nat) :
    intMin signed w ≤ intOf signed w x ∧ intOf signed w x ≤ intMax signed w := by
  have low : x % 2 ^ w < 2 ^ w := Nat.mod_lt _ (Nat.two_pow_pos w)
  have double : 2 ^ w = 2 * 2 ^ (w - 1) := by rw [← Nat.pow_succ']; congr 1; omega
  cases signed with
  | false =>
    have lt : ((x % 2 ^ w : Nat) : Int) < ((2 ^ w : Nat) : Int) := Int.ofNat_lt.mpr low
    have value : intOf false w x = ((x % 2 ^ w : Nat) : Int) := rfl
    rw [value, intMin, intMax]
    push_cast at lt ⊢
    omega
  | true =>
    have value : intOf true w x = (BitVec.ofNat w x).toInt := intOf_true w x
    have lower : -2 ^ (w - 1) ≤ (BitVec.ofNat w x).toInt := BitVec.le_toInt _
    have upper : (BitVec.ofNat w x).toInt < 2 ^ (w - 1) := BitVec.toInt_lt
    refine ⟨?_, ?_⟩
    · rw [value]
      exact lower
    · rw [value]
      exact Int.le_sub_one_of_lt upper

/-- What the operation of a kind comes to, for integers. -/
def combined (kind : Nat) (xs : List Int) : Int :=
  if kind = 1 then xs.sum else if kind = 2 then xs.foldl max (xs.headD 0) else xs.foldl min (xs.headD 0)

theorem treeOf_combined {kind : Nat} (low : 1 ≤ kind) (high : kind ≤ 3) (ty : BitVec 5) {xs : List Int} (some : xs ≠ [])
    (fits : xs.length ≤ 2 ^ 9)
    (within : ∀ x ∈ xs, intMin (isSigned ty) (typeWidth ty) ≤ x ∧ x ≤ intMax (isSigned ty) (typeWidth ty)) (fp : Fp) :
    treeOf (redIntNode (BitVec.ofNat 4 (kind - 1))) (redIntUnit (BitVec.ofNat 4 (kind - 1)) ty) 9 xs fp = (combined kind xs, fp) := by
  obtain rfl | rfl | rfl : kind = 1 ∨ kind = 2 ∨ kind = 3 := by omega
  · refine (treeOf_exact (g := (· + ·)) (e := (0 : Int)) (fun x y z => add_assoc x y z) rfl 9 xs fp (fun x _ => add_zero x) fits).trans ?_
    rw [combined, if_pos rfl, List.sum_eq_foldr]
  · refine (treeOf_exact (g := max) (e := intMin (isSigned ty) (typeWidth ty)) max_assoc (max_self _) 9 xs fp
      (fun x hx => max_eq_left (within x hx).1) fits).trans ?_
    rw [foldr_eq_foldl_head max_self 0 some fun x hx => max_eq_left (within x hx).1]
    rfl
  · refine (treeOf_exact (g := min) (e := intMax (isSigned ty) (typeWidth ty)) min_assoc (min_self _) 9 xs fp
      (fun x hx => min_eq_left (within x hx).2) fits).trans ?_
    rw [foldr_eq_foldl_head min_self 0 some fun x hx => min_eq_left (within x hx).2]
    rfl

/-! ### What every member's slot receives (09 R225) -/

section

variable {m : Cmd} {shares : List (List Byte)} {ranks : List Nat} {share : Nat → List Byte}

theorem not_float_of_int : ∀ ty : BitVec 5, isInt ty = true → isFloat ty = false := by decide

/-- An element of a reduction of integers. -/
theorem collElem_int (low : 1 ≤ m.collKind) (high : m.collKind ≤ 3) (int : isInt m.td = true) (some' : shares ≠ [])
    (fits : shares.length ≤ 256) (j : Nat) (fp : Fp) : collElem m (shares.map some) j fp
      = (wrapInt (typeWidth m.td) (combined m.collKind (shares.map fun bs => laneInt m.td (natAt bs (m.collW * j) m.collW))), fp) := by
  unfold collElem
  simp only [not_float_of_int _ int, Bool.false_eq_true, if_false, List.map_map]
  have bound : m.td ≤ 13 := by
    unfold isInt at int
    have low : m.td ≤ 7 := of_decide_eq_true int
    bv_omega
  have within : ∀ x ∈ shares.map (fun bs => laneInt m.td (natAt bs (m.collW * j) m.collW)),
      intMin (isSigned m.td) (typeWidth m.td) ≤ x ∧ x ≤ intMax (isSigned m.td) (typeWidth m.td) := fun x hx => by
    obtain ⟨bs, -, rfl⟩ := List.mem_map.mp hx
    exact intOf_bounds _ (typeWidth_pos bound) _
  have tree := treeOf_combined low high m.td (by simpa using some') (by rw [List.length_map]; omega) within fp
  have value := congrArg (fun r => wrapInt (typeWidth m.td) r.1) tree
  have kept := congrArg Prod.snd tree
  exact Prod.ext value kept

theorem collOut_broadcast (kind : m.collKind = 0) (bs : List Byte) : collOut m ((bs :: shares).map some) = ([(0, bs)], 0) := by
  unfold collOut
  rw [kind]
  rfl

theorem collOut_gather (kind : m.collKind = 4) :
    collOut m (shares.map some) = (shares.zipIdx.map fun e => (e.2 * m.collN * m.collW, e.1), 0) := by
  unfold collOut
  rw [kind]
  simp only [List.zipIdx_map, List.filterMap_map]
  rw [← List.filterMap_eq_map]
  rfl

/-- The elements of a reduction. -/
def collElems (m : Cmd) (shares : List (List Byte)) : List Nat × Fp :=
  eachLane (collElem m (shares.map some)) (List.range m.collN) { flags := 0, lfsr := 1 }

theorem collOut_reduce (first : m.collKind ≠ 0) (fourth : m.collKind ≠ 4) :
    collOut m (shares.map some) = ([(0, (collElems m shares).1.flatMap (bytesOfNat m.collW))], (collElems m shares).2.flags) := by
  unfold collOut
  split
  next kind => exact absurd kind first
  next kind => exact absurd kind fourth
  next => rfl

theorem length_collElems : (collElems m shares).1.length = m.collN := by rw [collElems, length_eachLane, List.length_range]

theorem length_flatMap_bytesOfNat (w : Nat) (xs : List Nat) : (xs.flatMap (bytesOfNat w)).length = xs.length * w := by
  induction xs with
  | nil => simp
  | cons x xs ih => rw [List.flatMap_cons, List.length_append, ih, length_bytesOfNat, List.length_cons, Nat.succ_mul, Nat.add_comm]

theorem take_drop_flatMap (w : Nat) {xs : List Nat} {j : Nat} (h : j < xs.length) :
    ((xs.flatMap (bytesOfNat w)).drop (w * j)).take w = bytesOfNat w (xs.getD j 0) := by
  induction xs generalizing j with
  | nil => simp at h
  | cons x xs ih =>
    have size : (bytesOfNat w x).length = w := length_bytesOfNat w x
    rw [List.flatMap_cons]
    cases j with
    | zero => rw [Nat.mul_zero, List.drop_zero, List.take_left' size]; rfl
    | succ j =>
      rw [Nat.mul_succ, Nat.add_comm, ← List.drop_drop, List.drop_left' size, ih (by simpa using h)]
      rfl

/-- Every run lies in the destination that a command asks for. -/
theorem collOut_within (size : ∀ bs ∈ shares, bs.length = m.collN * m.collW) (members : shares.length = m.members) :
    ∀ e ∈ (collOut m (shares.map some)).1, e.1 + e.2.length ≤ m.collDst := by
  intro e he
  unfold Cmd.collDst
  by_cases first : m.collKind = 0
  · cases shares with
    | nil => unfold collOut at he; rw [first] at he; cases he
    | cons bs shares =>
      rw [collOut_broadcast first, List.mem_singleton] at he
      rw [he, first, size bs List.mem_cons_self]
      simp
  by_cases fourth : m.collKind = 4
  · rw [collOut_gather fourth] at he
    obtain ⟨⟨bs, k⟩, mem, rfl⟩ := List.mem_map.mp he
    have at' := List.mem_zipIdx_iff_getElem?.mp mem
    have below : k < m.members := members ▸ (List.getElem?_eq_some_iff.mp at').1
    have len := size bs (List.mem_of_getElem? at')
    rw [if_pos fourth, len, Nat.mul_assoc, Nat.mul_assoc, ← Nat.succ_mul]
    exact Nat.mul_le_mul_right _ below
  · rw [collOut_reduce first fourth, List.mem_singleton] at he
    rw [he, if_neg fourth, length_flatMap_bytesOfNat, length_collElems, Nat.one_mul, Nat.zero_add]

/-- The runs are in ascending order. -/
theorem collOut_ordered (size : ∀ bs ∈ shares, bs.length = m.collN * m.collW) :
    (collOut m (shares.map some)).1.Pairwise fun a b => a.1 + a.2.length ≤ b.1 := by
  by_cases first : m.collKind = 0
  · cases shares with
    | nil => unfold collOut; rw [first]; exact List.Pairwise.nil
    | cons bs shares => rw [collOut_broadcast first]; exact List.pairwise_singleton ..
  by_cases fourth : m.collKind = 4
  · rw [collOut_gather fourth]
    have ranks : (shares.zipIdx.map Prod.snd).Pairwise (· < ·) := by
      rw [List.zipIdx_map_snd]
      exact List.pairwise_lt_range'
    refine List.pairwise_map.mpr ((List.pairwise_map.mp ranks).imp_of_mem fun {a b} mem _ below => ?_)
    have len := size a.1 (List.mem_of_getElem? (List.mem_zipIdx_iff_getElem?.mp mem))
    dsimp only
    rw [len, Nat.mul_assoc, Nat.mul_assoc, ← Nat.succ_mul]
    exact Nat.mul_le_mul_right _ below
  · rw [collOut_reduce first fourth]
    exact List.pairwise_singleton ..

/-- Bytes of runs that stand at a place. -/
def Received (t : State) (p : Nat) (runs : List (Nat × List Byte)) : Prop :=
  ∀ e ∈ runs, ∀ k n, k + n ≤ e.2.length → t.peek (p + e.1 + k) n = (e.2.drop k).take n

variable {t : State} {p : Nat}

theorem element_within {n w j : Nat} (h : j < n) : w * j + w ≤ n * w := by
  rw [← Nat.mul_succ, Nat.mul_comm n]
  exact Nat.mul_le_mul_left w h

section

variable (got : Received t p (collOut m ((ranks.map share).map some)).1)

include got

theorem received_broadcast (size : ∀ d ∈ ranks, (share d).length = m.collN * m.collW) (some' : ranks ≠ []) (kind : m.collKind = 0) {j : Nat}
    (hj : j < m.collN) : leNat (t.peek (p + m.collW * j) m.collW)
      = leNat (((share (ranks.headD 0)).drop (m.collW * j)).take m.collW) := by
  cases ranks with
  | nil => exact absurd rfl some'
  | cons d ranks =>
    rw [List.map_cons, collOut_broadcast kind] at got
    have run := got _ List.mem_cons_self (m.collW * j) m.collW (by
      rw [size d List.mem_cons_self]
      exact element_within hj)
    exact congrArg leNat run

theorem received_gather (size : ∀ d ∈ ranks, (share d).length = m.collN * m.collW) (kind : m.collKind = 4) {k d j : Nat}
    (rank : ranks[k]? = some d) (hj : j < m.collN) : leNat (t.peek (p + m.collW * (k * m.collN + j)) m.collW)
      = leNat (((share d).drop (m.collW * j)).take m.collW) := by
  have mem : (share d, k) ∈ (ranks.map share).zipIdx := List.mem_zipIdx_iff_getElem?.mpr (by simp [rank])
  rw [collOut_gather kind] at got
  have run := got _ (List.mem_map_of_mem mem) (m.collW * j) m.collW (by
    rw [size d (List.mem_of_getElem? rank)]
    exact element_within hj)
  have place : p + k * m.collN * m.collW + m.collW * j = p + m.collW * (k * m.collN + j) := by ring
  rw [← place]
  exact congrArg leNat run

theorem received_reduce (low : 1 ≤ m.collKind) (high : m.collKind ≤ 3) {j : Nat} (hj : j < m.collN) :
    leNat (t.peek (p + m.collW * j) m.collW) = (collElems m (ranks.map share)).1.getD j 0 % 2 ^ (8 * m.collW) := by
  rw [collOut_reduce (by omega) (by omega)] at got
  have run := got _ List.mem_cons_self (m.collW * j) m.collW (by
    rw [length_flatMap_bytesOfNat, length_collElems]
    exact element_within hj)
  have value := take_drop_flatMap m.collW (xs := (collElems m (ranks.map share)).1) (j := j) (by rw [length_collElems]; exact hj)
  rw [Nat.add_zero] at run
  rw [run, value, leNat_bytesOfNat, Nat.pow_mul]

/-- An element of a reduction of integers wraps to the type. -/
theorem received_int (low : 1 ≤ m.collKind) (high : m.collKind ≤ 3) (int : isInt m.td = true) (some' : ranks ≠ [])
    (fits : ranks.length ≤ 256) {j : Nat} (hj : j < m.collN) : leNat (t.peek (p + m.collW * j) m.collW)
      = (combined m.collKind (ranks.map fun d => laneInt m.td (leNat (((share d).drop (m.collW * j)).take m.collW)))
          % 2 ^ (8 * m.collW)).toNat := by
  rw [received_reduce got low high hj]
  have elems : collElem m ((ranks.map share).map some) = fun j fp => (wrapInt (typeWidth m.td) (combined m.collKind
      ((ranks.map share).map fun bs => laneInt m.td (natAt bs (m.collW * j) m.collW))), fp) :=
    funext fun j => funext fun fp => collElem_int low high int (by simpa using some') (by rw [List.length_map]; exact fits) j fp
  have width : 8 * m.collW ≤ typeWidth m.td := Nat.mul_div_le ..
  have wraps (x : Int) : wrapInt (typeWidth m.td) x % 2 ^ (8 * m.collW) = (x % 2 ^ (8 * m.collW)).toNat := by
    have divides : (2 : Int) ^ (8 * m.collW) ∣ 2 ^ typeWidth m.td := pow_dvd_pow 2 width
    have pos : (0 : Int) ≤ x % 2 ^ typeWidth m.td := Int.emod_nonneg _ (by positivity)
    rw [← Int.emod_emod_of_dvd x divides, wrapInt, Int.toNat_emod pos (by positivity)]
    rfl
  rw [collElems, elems, eachLane_exact, List.getD_eq_getElem?_getD, List.getElem?_map, List.getElem?_range hj, Option.map_some,
    Option.getD_some, List.map_map]
  exact wraps _

end

end

end Sys2Proof.Laws
end

section
/-! PROOFS: what a member of a collective does to its core and its larder, and what the others keep of theirs (08 R193, R200, 09 R225). -/

namespace Sys2Proof.Laws

open Machine Safety

variable {s t u : State} {c d p q n k : Nat} {y : Cmd} {flags : BitVec 5} {reason : Nat} {runs : List (Nat × List Byte)} {r : Ring}

/-! ### What a core shows to a collective -/

/-- The queue of the data engine, the rings, and of each slot its task and its sticky status. -/
structure EngineKept (d : Nat) (s t : State) : Prop where
  queue : (t.core d).dataq = (s.core d).dataq
  rings : ∀ q, (t.core d).ring q = (s.core d).ring q
  tasks : ∀ k, (t.slotAt d k).runId = (s.slotAt d k).runId
  sticky : ∀ k, (t.slotAt d k).dsticky = (s.slotAt d k).dsticky

theorem EngineKept.refl (d : Nat) (s : State) : EngineKept d s s := ⟨rfl, fun _ => rfl, fun _ => rfl, fun _ => rfl⟩

theorem EngineKept.trans (h : EngineKept d s t) (g : EngineKept d t u) : EngineKept d s u :=
  ⟨g.queue.trans h.queue, fun q => (g.rings q).trans (h.rings q), fun k => (g.tasks k).trans (h.tasks k),
    fun k => (g.sticky k).trans (h.sticky k)⟩

/-- A core without its L1 copies. -/
def besideL1 (s : State) (d : Nat) : Core := { s.core d with l1 := [] }

theorem dataq_besideL1 (s : State) (d : Nat) : (besideL1 s d).dataq = (s.core d).dataq := rfl
theorem ring_besideL1 (s : State) (d q : Nat) : (besideL1 s d).ring q = (s.core d).ring q := rfl
theorem slot_besideL1 (s : State) (d k : Nat) : (besideL1 s d).slot k = s.slotAt d k := rfl

theorem engineKept_of_besideL1 (h : besideL1 t d = besideL1 s d) : EngineKept d s t where
  queue := by rw [← dataq_besideL1, h, dataq_besideL1]
  rings q := by rw [← ring_besideL1, h, ring_besideL1]
  tasks k := by rw [← slot_besideL1, h, slot_besideL1]
  sticky k := by rw [← slot_besideL1, h, slot_besideL1]

theorem besideL1_of_seat (h : seat t = seat s) (d : Nat) : besideL1 t d = besideL1 s d := by
  have core : t.core d = s.core d := core_of_cores (congrArg Prod.snd h) d
  rw [besideL1, core, besideL1]

/-! ### Bytes put into a destination slot (08 R193) -/

theorem besideL1_dropLine (s : State) (c line d : Nat) : besideL1 (s.dropLine c line) d = besideL1 s d := by
  rw [besideL1, State.dropLine, core_setCore]
  split
  next same => subst same; rfl
  next => rfl

theorem besideL1_dropRun (s : State) (c p n d : Nat) : besideL1 (s.dropRun c p n) d = besideL1 s d :=
  List.foldlRecOn (motive := fun t : State => besideL1 t d = besideL1 s d) _ _ rfl fun _ kept _ _ => (besideL1_dropLine ..).trans kept

theorem mem_dropRun (s : State) (c p n : Nat) : (s.dropRun c p n).mem = s.mem :=
  List.foldlRecOn (motive := fun t : State => t.mem = s.mem) _ _ rfl fun _ kept _ _ => kept

theorem seat_bankPut (s : State) (p : Nat) (bs : List Byte) : seat (s.bankPut p bs) = seat s := by
  refine seat_ite (seat_foldl _ (fun t b => ?_) _ s) rfl
  exact seat_ite rfl rfl

theorem besideL1_dstPut (s : State) (c q k off : Nat) (bs : List Byte) (d : Nat) :
    besideL1 (s.dstPut c q k off bs) d = besideL1 s d := by
  unfold State.dstPut
  split
  next => exact (besideL1_of_seat (seat_bankPut ..) d).trans (besideL1_dropRun ..)
  next => rfl

/-- Runs of bytes put one after another into the first free slot of a ring. -/
def putRuns (s : State) (c q : Nat) (runs : List (Nat × List Byte)) : State := runs.foldl (fun t e => t.dstPut c q 0 e.1 e.2) s

theorem engineKept_putRuns (s : State) (c q : Nat) (runs : List (Nat × List Byte)) (d : Nat) : EngineKept d s (putRuns s c q runs) :=
  engineKept_of_besideL1 (List.foldlRecOn (motive := fun t : State => besideL1 t d = besideL1 s d) _ _ rfl
    fun _ kept _ _ => (besideL1_dstPut ..).trans kept)

/-- A ring of a core whose slots lie in its larder, with room for so many bytes in each. -/
structure DstFits (s : State) (c q n : Nat) (r : Ring) : Prop where
  small : c < 4096
  opened : (s.core c).ring q = some r
  window : r.desc.win = 0
  inside : r.desc.offset.toNat + r.desc.count * r.desc.size ≤ 0xF000
  room : n ≤ r.desc.size

/-- The place of its first free slot. -/
def dstPlace (c : Nat) (r : Ring) : Nat := r.desc.place c (r.tail % r.desc.count)

theorem DstFits.kept (h : DstFits s c q n r) (kept : EngineKept c s t) : DstFits t c q n r :=
  { h with opened := (kept.rings q).trans h.opened }

theorem DstFits.place (h : DstFits s c q n r) : larderAt c 0 ≤ dstPlace c r ∧ dstPlace c r + n ≤ larderAt c 0 + 0xF000 := by
  have place : dstPlace c r = larderAt c (r.desc.offset.toNat + r.tail % r.desc.count * r.desc.size) := by
    rw [dstPlace, RingDesc.place, h.window]
    rfl
  have below : r.tail % r.desc.count < r.desc.count := Nat.mod_lt _ (Nat.succ_pos _)
  have slot : (r.tail % r.desc.count + 1) * r.desc.size ≤ r.desc.count * r.desc.size := Nat.mul_le_mul_right _ below
  have inside := h.inside
  have room := h.room
  rw [Nat.succ_mul] at slot
  rw [place]
  unfold larderAt
  omega

/-- Runs of bytes written one after another. -/
def runsPut (s : State) (p : Nat) (runs : List (Nat × List Byte)) : State := runs.foldl (fun s e => s.poke (p + e.1) e.2) s

theorem mem_dstPut (h : DstFits s c q n r) {off : Nat} {bs : List Byte} (within : off + bs.length ≤ n) :
    (s.dstPut c q 0 off bs).mem = pokeMem s.mem (dstPlace c r + off) bs := by
  obtain ⟨low, high⟩ := h.place
  have small := h.small
  unfold larderAt at low high
  have bank : storeOf (dstPlace c r + off) = .larder := storeOf_larder (by omega) (by omega)
  unfold State.dstPut
  rw [h.opened]
  change ((s.dropRun c (dstPlace c r + off) bs.length).bankPut (dstPlace c r + off) bs).mem = _
  rw [State.bankPut, if_neg (by rw [bank]; simp)]
  exact congrArg (pokeMem · (dstPlace c r + off) bs) (mem_dropRun ..)

theorem mem_putRuns (h : DstFits s c q n r) (within : ∀ e ∈ runs, e.1 + e.2.length ≤ n) {u : State} (same : s.mem = u.mem) :
    (putRuns s c q runs).mem = (runsPut u (dstPlace c r) runs).mem := by
  induction runs generalizing s u with
  | nil => exact same
  | cons e runs ih =>
    have first := mem_dstPut h (within e List.mem_cons_self)
    rw [same] at first
    exact ih (h.kept (engineKept_of_besideL1 (besideL1_dstPut s c q 0 e.1 e.2 c))) (fun e he => within e (List.mem_cons_of_mem _ he))
      (u := u.poke (dstPlace c r + e.1) e.2) first

theorem byte_runsPut_outside (apart : ∀ e ∈ runs, k < p + e.1 ∨ p + e.1 + e.2.length ≤ k) (s : State) :
    (runsPut s p runs).byte k = s.byte k :=
  List.foldlRecOn (motive := fun t : State => t.byte k = s.byte k) runs _ rfl fun t kept e he =>
    (byte_poke_outside t (p + e.1) k e.2 (by have := apart e he; omega)).trans kept

/-- Runs in ascending order stand where they were written. -/
theorem received_runsPut (ordered : runs.Pairwise fun a b => a.1 + a.2.length ≤ b.1) (s : State) : Received (runsPut s p runs) p runs := by
  induction runs generalizing s with
  | nil => exact fun e he => absurd he List.not_mem_nil
  | cons e runs ih =>
    obtain ⟨above, ordered⟩ := List.pairwise_cons.mp ordered
    intro f hf k n fits
    rcases List.mem_cons.mp hf with rfl | hf
    · have kept : (runsPut (s.poke (p + f.1) f.2) p runs).peek (p + f.1 + k) n = (s.poke (p + f.1) f.2).peek (p + f.1 + k) n :=
        peek_congr fun b low high => byte_runsPut_outside (fun e he => by have := above e he; omega) _
      exact kept.trans (peek_poke_within s (p + f.1) f.2 fits)
    · exact ih ordered (s.poke (p + e.1) e.2) f hf k n fits

theorem Received.of_bytes (h : Received s p runs) (within : ∀ e ∈ runs, e.1 + e.2.length ≤ n)
    (kept : ∀ b, p ≤ b → b < p + n → t.byte b = s.byte b) : Received t p runs := fun e he k len fits =>
  (peek_congr fun b low high => kept b (by omega) (by have := within e he; omega)).trans (h e he k len fits)

/-! ### The larder of a core -/

/-- Every byte of a core's larder reads as before. -/
def LarderKept (d : Nat) (s t : State) : Prop := ∀ p, larderAt d 0 ≤ p → p < larderAt (d + 1) 0 → t.byte p = s.byte p

theorem LarderKept.trans (h : LarderKept d s t) (g : LarderKept d t u) : LarderKept d s u :=
  fun p low high => (g p low high).trans (h p low high)

theorem larderKept_of_sram (h : SameSram s t) (d : Nat) : LarderKept d s t := fun p low _ => h p (by unfold larderAt at low; omega)

theorem larderKept_of_bytes (h : SameBytes s t) (d : Nat) : LarderKept d s t := fun p _ _ => h p

/-- Runs in the larder of another core. -/
theorem larderKept_putRuns (h : DstFits s c q n r) (within : ∀ e ∈ runs, e.1 + e.2.length ≤ n) (other : c ≠ d) :
    LarderKept d s (putRuns s c q runs) := by
  intro b low high
  obtain ⟨first, last⟩ := h.place
  rw [byte_of_mem (mem_putRuns h within rfl)]
  refine byte_runsPut_outside (fun e he => ?_) s
  have len := within e he
  unfold larderAt at low high first last
  omega

/-! ### The errors of a source slot -/

theorem storeOf_sram {p : Nat} (h : 2 ^ 56 ≤ p) : storeOf p ≠ .hbm := by
  unfold storeOf
  split
  · exact nofun
  split
  · exact nofun
  · exact nofun

theorem sameSram_noteError (s : State) {p : Nat} (sram : 2 ^ 56 ≤ p) : SameSram s (s.noteError (.plain p)) := by
  have stays : s.atBase (.plain p) = s := by simp [State.atBase, Loc.plain]
  unfold State.noteError
  simp only [stays]
  rw [if_neg (by simp [Loc.plain, storeOf_sram sram])]
  refine sameSram_report s ?_
  have ring (o : Option (Nat × Root)) (block off : Nat) (data : Reg) : (match o with
      | some e => regionReport s e.1 e.2.top.rid 0x0C 0 block (BitVec.ofNat 64 off) data 0
      | none => packageReport s 0x0C 0 block (BitVec.ofNat 64 off) data).ring ≤ 512 := by
    cases o with
    | none => exact ring_packageReport ..
    | some e => exact ring_regionReport ..
  split
  · exact ring ..
  · exact ring ..
  · exact ring_packageReport ..
  · exact ring_packageReport ..

theorem place_sram (d : RingDesc) (c i : Nat) : 2 ^ 56 ≤ d.place c i := by
  unfold RingDesc.place larderAt cellarAt atticAt
  dsimp only
  split <;> omega

theorem sameSram_noteSlot (s : State) (c q k n : Nat) : SameSram s (s.noteSlot c q k n) := by
  unfold State.noteSlot
  split
  next r opened =>
    refine List.foldlRecOn (motive := SameSram s) _ _ (fun _ _ => rfl) fun t kept w hw => kept.trans (sameSram_noteError t ?_)
    obtain ⟨v, hv, rfl⟩ := List.mem_map.mp (List.mem_eraseDups.mp hw)
    obtain ⟨i, -, rfl⟩ := List.mem_map.mp (List.mem_of_mem_filter hv)
    have low := place_sram r.desc c ((r.head + k) % r.desc.count)
    split <;> omega
  next => exact fun _ _ => rfl

theorem engineKept_noteSlot (s : State) (c q k n d : Nat) : EngineKept d s (s.noteSlot c q k n) :=
  engineKept_of_besideL1 (besideL1_of_seat (seat_noteSlot ..) d)

end Sys2Proof.Laws
end

section
/-! PROOFS: a member's command retires, alone among the members' (08 R193, R198, R200, 09 R225). -/

namespace Sys2Proof.Laws

open Machine Safety

variable {s t u : State} {c d p q n k : Nat} {y : Cmd} {flags : BitVec 5} {reason : Nat} {r : Ring} {out : List (Nat × List Byte) × BitVec 5}

/-! ### What a retired command leaves of another core -/

theorem ring_moveRings_other (f : Ring → Nat → Ring) (xs : List (Nat × Nat)) (s : State) (other : c ≠ d) (q : Nat) :
    ((moveRings f c xs s).core d).ring q = (s.core d).ring q := by
  induction xs generalizing s with
  | nil => rfl
  | cons x xs ih =>
    rw [moveRings_cons, ih]
    unfold moveRing
    split
    next => rw [putRing_eq, ring_mapSlots, core_setCore, if_neg other]
    next => rfl

theorem ring_ringsRetired_other (s : State) (y : Cmd) (ok : Bool) (other : c ≠ d) (q : Nat) :
    ((ringsRetired s c y ok).core d).ring q = (s.core d).ring q := by
  unfold ringsRetired
  split
  · rw [ring_moveRings_other _ _ _ other, ring_moveRings_other _ _ _ other]
  · rfl

theorem core_noted_other (s : State) (data : Bool) (y : Cmd) (flags : BitVec 5) (reason : Nat) (other : c ≠ d) :
    (noted s c data y flags reason).core d = s.core d := by
  unfold noted
  split
  · rw [State.setSlotAt, core_setCore, if_neg other]
  · rfl

theorem core_leftQueue_other (s : State) (data : Bool) (y : Cmd) (ok : Bool) (other : c ≠ d) :
    (leftQueue s c data y ok).core d = (ringsRetired s c y ok).core d := by
  change ((ringsRetired s c y ok).setCore c _).core d = _
  rw [core_setCore, if_neg other]

theorem queue_retire_elsewhere (s : State) (data : Bool) (y : Cmd) (flags : BitVec 5) (reason : Nat) (other : c ≠ d) :
    ((s.retire c data y flags reason).core d).dataq = (s.core d).dataq := by
  have engine := congrArg Core.dataq ((engine_retire s c data y flags reason d).trans (if_neg other))
  exact engine

theorem engineKept_retire (plain : y.ctr = none) (other : c ≠ d) : EngineKept d s (s.retire c true y flags reason) := by
  have slot {α : Type} (f : Slot → α) (hf : ∀ x : Slot, f { x with wait := .none } = f x) (k : Nat) :
      f ((s.retire c true y flags reason).slotAt d k) = f (s.slotAt d k) := by
    rw [retire_of_plain plain, (ringsMoved_wakeEngine ..).slot f hf, State.slotAt, core_noted_other _ _ _ _ _ other,
      core_leftQueue_other _ _ _ _ other]
    exact (ringsMoved_ringsRetired ..).slot f hf d k
  refine ⟨queue_retire_elsewhere s true y flags reason other, fun q => ?_, slot Slot.runId fun _ => rfl, slot Slot.dsticky fun _ => rfl⟩
  rw [retire_of_plain plain, State.wakeEngine, State.wakeEngine.wakeIf, ring_mapSlots, core_noted_other _ _ _ _ _ other,
    core_leftQueue_other _ _ _ _ other, ring_ringsRetired_other _ _ _ other]

theorem dataq_retire (s : State) (c : Nat) (y : Cmd) (flags : BitVec 5) (reason : Nat) :
    ((s.retire c true y flags reason).core c).dataq = (s.core c).dataq.drop 1 := queue_retire s c true y flags reason

theorem dsticky_retire (plain : y.ctr = none) (runs : (s.slotAt c y.slot).runId = y.uid) (task : y.uid ≠ 0) :
    ((s.retire c true y flags reason).slotAt c y.slot).dsticky = ((s.slotAt c y.slot).note true flags reason).dsticky := by
  have sticky := sticky_retire (data := true) (flags := flags) (reason := reason) plain runs task
  exact sticky

/-! ### A member's part of a collective (09 R225) -/

/-- Its destination slot is filled, the errors of its source slot are noted, and its command retires. -/
def memberRun (out : List (Nat × List Byte) × BitVec 5) (y : Cmd) (reason : Nat) (t : State) (d : Nat) : State :=
  ((putRuns t d y.qd out.1).noteSlot d y.qa 0 (y.collN * y.collW)).retire d true y out.2 reason

/-- What it has before its command retires. -/
theorem engineKept_filled (out : List (Nat × List Byte)) (y : Cmd) (t : State) (c d : Nat) :
    EngineKept d t ((putRuns t c y.qd out).noteSlot c y.qa 0 (y.collN * y.collW)) :=
  (engineKept_putRuns ..).trans (engineKept_noteSlot ..)

theorem queue_memberRun (out : List (Nat × List Byte) × BitVec 5) (y : Cmd) (reason : Nat) (t : State) (d : Nat) :
    ((memberRun out y reason t d).core d).dataq = (t.core d).dataq.drop 1 := by
  rw [memberRun, dataq_retire, (engineKept_filled ..).queue]

theorem queue_memberRun_other (out : List (Nat × List Byte) × BitVec 5) (y : Cmd) (reason : Nat) (t : State) (other : c ≠ d) :
    ((memberRun out y reason t c).core d).dataq = (t.core d).dataq := by
  rw [memberRun, queue_retire_elsewhere _ _ _ _ _ other, (engineKept_filled ..).queue]

section

variable (plain : y.ctr = none)

include plain

theorem sticky_memberRun (runs : (t.slotAt d y.slot).runId = y.uid) (task : y.uid ≠ 0) :
    ((memberRun out y reason t d).slotAt d y.slot).dsticky = ((t.slotAt d y.slot).note true out.2 reason).dsticky := by
  have filled := engineKept_filled out.1 y t d d
  rw [memberRun, dsticky_retire plain ((filled.tasks _).trans runs) task, Slot.note, Slot.note]
  simp only [if_true, filled.sticky]

theorem engineKept_memberRun (other : c ≠ d) : EngineKept d t (memberRun out y reason t c) :=
  (engineKept_filled ..).trans (engineKept_retire plain other)

variable (fits : DstFits t c y.qd n r) (within : ∀ e ∈ out.1, e.1 + e.2.length ≤ n)

include fits within

theorem larderKept_memberRun (other : c ≠ d) : LarderKept d t (memberRun out y reason t c) :=
  ((larderKept_putRuns fits within other).trans (larderKept_of_sram (sameSram_noteSlot _ _ _ _ _) d)).trans
    (larderKept_of_bytes (sameBytes_retire plain) d)

/-- The runs stand in the destination slot. -/
theorem received_memberRun (ordered : out.1.Pairwise fun a b => a.1 + a.2.length ≤ b.1) :
    Received (memberRun out y reason t c) (dstPlace c r) out.1 := by
  obtain ⟨low, high⟩ := fits.place
  refine (received_runsPut ordered t).of_bytes within fun b first last => ?_
  have sram : 2 ^ 56 ≤ b := by unfold larderAt at low; omega
  exact (sameBytes_retire plain b).trans ((sameSram_noteSlot _ _ _ _ _ b sram).trans (byte_of_mem (mem_putRuns fits within rfl) b))

end

/-! ### Members one after another -/

section

variable {I : Nat → State → Prop} {R : State → State → Prop} {f : State → Nat → State} (refl : ∀ s, R s s)
  (trans : ∀ s t u, R s t → R t u → R s u)

include refl trans

/-- Members among whom `d` is not, each of which finds what it needs: that `d` sees none of them. -/
theorem foldl_others {ds : List Nat} (once : ds.Nodup) (apart : d ∉ ds)
    (keeps : ∀ e ∈ ds, ∀ a ∈ ds, a ≠ e → ∀ t, I e t → I e (f t a)) (others : ∀ e ∈ ds, e ≠ d → ∀ t, I e t → R t (f t e)) (s : State)
    (start : ∀ e ∈ ds, I e s) : R s (ds.foldl f s) := by
  induction ds generalizing s with
  | nil => exact refl s
  | cons a ds ih =>
    obtain ⟨new, once⟩ := List.nodup_cons.mp once
    have other : a ≠ d := fun same => apart (same ▸ List.mem_cons_self)
    refine trans _ _ _ (others a List.mem_cons_self other s (start a List.mem_cons_self)) ?_
    exact ih once (fun h => apart (List.mem_cons_of_mem a h))
      (fun e he b hb => keeps e (List.mem_cons_of_mem a he) b (List.mem_cons_of_mem a hb))
      (fun e he => others e (List.mem_cons_of_mem a he)) (f s a) fun e he =>
        keeps e (List.mem_cons_of_mem a he) a List.mem_cons_self (fun same => new (same ▸ he)) s (start e (List.mem_cons_of_mem a he))

/-- A member among them: it finds what it needs, and sees none of those after it. -/
theorem foldl_around {ds : List Nat} (once : ds.Nodup) (mem : d ∈ ds)
    (keeps : ∀ e ∈ ds, ∀ a ∈ ds, a ≠ e → ∀ t, I e t → I e (f t a)) (others : ∀ e ∈ ds, e ≠ d → ∀ t, I e t → R t (f t e)) (s : State)
    (start : ∀ e ∈ ds, I e s) : ∃ t, I d t ∧ R (f t d) (ds.foldl f s) := by
  induction ds generalizing s with
  | nil => cases mem
  | cons a ds ih =>
    obtain ⟨new, once⟩ := List.nodup_cons.mp once
    have keeps' : ∀ e ∈ ds, ∀ b ∈ ds, b ≠ e → ∀ t, I e t → I e (f t b) := fun e he b hb =>
      keeps e (List.mem_cons_of_mem a he) b (List.mem_cons_of_mem a hb)
    have others' : ∀ e ∈ ds, e ≠ d → ∀ t, I e t → R t (f t e) := fun e he => others e (List.mem_cons_of_mem a he)
    have next : ∀ e ∈ ds, I e (f s a) := fun e he =>
      keeps e (List.mem_cons_of_mem a he) a List.mem_cons_self (fun same => new (same ▸ he)) s (start e (List.mem_cons_of_mem a he))
    by_cases same : a = d
    · subst same
      exact ⟨s, start a List.mem_cons_self, foldl_others refl trans once new keeps' others' (f s a) next⟩
    · exact ih once ((List.mem_cons.mp mem).resolve_left (Ne.symm same)) keeps' others' (f s a) next

end

end Sys2Proof.Laws
end

section
/-! PROOFS: the members of a collective that has gathered: who they are, and what is then carried out at them, or fails (09 R224, R225). -/

namespace Sys2Proof.Laws

open Machine Safety

variable {s t u : State} {core : BitVec 12} {c d : Nat} {m y : Cmd} {rest : List Cmd} {ranks : List Nat} {ls us : List Loc}
  {share : Nat → List Byte}

/-! ### Members of this package alone -/

theorem localMembers_local (ranks : List Nat) : localMembers (ranks.map Member.local') = ranks := by
  rw [localMembers, List.filterMap_map]
  exact List.filterMap_some ..

theorem eraseDups_of_nodup {α : Type} [BEq α] [LawfulBEq α] {l : List α} (once : l.Nodup) : l.eraseDups = l := by
  induction l with
  | nil => rfl
  | cons a l ih =>
    obtain ⟨apart, once⟩ := List.nodup_cons.mp once
    have all : l.filter (fun b => !b == a) = l := List.filter_eq_self.mpr fun b hb => by
      have other : b ≠ a := fun same => apart (same ▸ hb)
      simpa using other
    rw [List.eraseDups_cons, all, ih once]

theorem length_of_mapM {α β : Type} {f : α → Option β} {xs : List α} {ys : List β} (h : xs.mapM f = some ys) : ys.length = xs.length := by
  induction xs generalizing ys with
  | nil => cases h; rfl
  | cons x xs ih =>
    rw [List.mapM_cons] at h
    obtain ⟨y, -, h⟩ := Option.bind_eq_some_iff.mp h
    obtain ⟨zs, more, h⟩ := Option.bind_eq_some_iff.mp h
    cases h
    rw [List.length_cons, ih more, List.length_cons]

/-- The command of a member. -/
def headOf (u : State) (m : Cmd) (d : Nat) : Cmd := (u.collHead d m.tag).getD m

theorem op_of_collHead {tag : Nat} (head : u.collHead d tag = some y) : y.op = 14 := by
  unfold State.collHead at head
  split at head
  next z _ _ =>
    split at head
    next h =>
      cases head
      rw [Bool.and_eq_true, decide_eq_true_eq] at h
      exact h.1
    next => cases head
  next => cases head

theorem collHead_of_queue (queue : (u.core c).dataq = m :: rest) (kind : m.op = 14) : u.collHead c m.tag = some m := by
  unfold State.collHead
  rw [queue]
  simp only [kind, decide_true, Bool.and_true, if_true]

/-- The members of a collective stand ready, each with the same table, and without an error of its own. -/
structure Gathered (u : State) (c : Nat) (m : Cmd) (ranks : List Nat) : Prop where
  once : ranks.Nodup
  small : ∀ d ∈ ranks, d < 4096
  here : c ∈ ranks
  own : headOf u m c = m
  head : ∀ d ∈ ranks, u.collHead d m.tag = some (headOf u m d)
  begins : ∀ d ∈ ranks, u.collFails d (headOf u m d) = none
  ready : ∀ d ∈ ranks, u.ringsReady d (headOf u m d) = true
  table : ∀ d ∈ ranks, u.collRanks d (headOf u m d) = some (ranks.map Member.local')
  clean : ∀ d ∈ ranks, (u.collTable d (headOf u m d)).2 = []
  alone : ∀ x ∈ u.collIn, x.tag ≠ m.tag

/-- The member whose turn it is, and the others. -/
def membersFrom (c : Nat) (ranks : List Nat) : List Nat := c :: ranks.filter (· ≠ c)

/-- Each with its command. -/
def headsOf (u : State) (m : Cmd) (ds : List Nat) : List (Nat × Cmd) := ds.map fun d => (d, headOf u m d)

section

variable (g : Gathered u c m ranks)

include g

theorem Gathered.mem_membersFrom : d ∈ membersFrom c ranks ↔ d ∈ ranks := by
  rw [membersFrom, List.mem_cons, List.mem_filter, decide_eq_true_eq]
  constructor
  · rintro (rfl | ⟨mem, -⟩)
    · exact g.here
    · exact mem
  · exact fun mem => (em (d = c)).imp_right fun other => ⟨mem, other⟩

theorem Gathered.nodup_membersFrom : (membersFrom c ranks).Nodup :=
  List.nodup_cons.mpr ⟨fun mem => by simp at mem, g.once.filter _⟩

theorem Gathered.collPeers : (c, m) :: u.collPeers c m.tag (ranks.map Member.local') = headsOf u m (membersFrom c ranks) := by
  rw [headsOf, membersFrom, List.map_cons, g.own, State.collPeers, localMembers_local, eraseDups_of_nodup (g.once.filter _),
    ← List.filterMap_eq_map]
  refine congrArg ((c, m) :: ·) (List.filterMap_congr fun d hd => ?_)
  rw [g.head d (List.mem_of_mem_filter hd)]
  rfl

/-- No contribution from another package is dropped. -/
theorem Gathered.filter_collIn (f : CollShare → Bool) : { u with collIn := u.collIn.filter fun x => !(x.tag = m.tag && f x) } = u := by
  have all : u.collIn.filter (fun x => !(x.tag = m.tag && f x)) = u.collIn := List.filter_eq_self.mpr fun x hx => by
    simp [g.alone x hx]
  rw [all]

end

/-! ### The collective breaks, waits or is carried out (09 R224) -/

/-- Whether the members differ. -/
def collBad (u : State) (c : Nat) (m : Cmd) (ranks : List Member) : Bool :=
  !(localMembers ranks).contains c || ranks.eraseDups.length < ranks.length
    || ((c, m) :: u.collPeers c m.tag ranks).any (fun e => !collSame m e.2 || (u.collRanks e.1 e.2).any (· ≠ ranks))
    || u.collIn.any (fun x => x.tag = m.tag && ranks.contains (.remote x.pkg x.x x.y) && !x.fits m)

/-- Whether one is to come. -/
def collWaits (u : State) (m : Cmd) (ranks : List Member) : Bool := ranks.any (fun x => match x with
  | .remote p x y => u.linkUp p && (u.collFrom p x y m.tag).isNone
  | .local' d => match u.collHead d m.tag with
    | some y => (u.collFails d y).isNone && !u.ringsReady d y
    | none => true)

/-- A COLL that nothing holds back. -/
theorem exec_coll {members : List Member} (queue : (s.core core.toNat).dataq = m :: rest) (kind : m.op = 14)
    (whole : (s.core core.toNat).collFailed.contains m.tag = false) (walk : s.walkGate (s.whoCmd core.toNat m) m.runs = .go [])
    (begins : s.collBegins core.toNat m = none) (ready : s.ringsReady core.toNat m = true)
    (gate : s.engGate core.toNat true m (collNext s core.toNat m) = .go ls)
    (table : (ls.foldl State.useHome s).collRanks core.toNat m = some members)
    (peers : (ls.foldl State.useHome s).collGate core.toNat m.tag members = .go us)
    (after : us.foldl State.useHome (ls.foldl State.useHome s) = u) : exec (.coll core) s
      = .next (if collBad u core.toNat m members then u.collBreak m.tag ((core.toNat, m) :: u.collPeers core.toNat m.tag members)
        else if collWaits u m members then u else u.collRun members m) := by
  change execColl core s = _
  unfold execColl
  simp only [queue, kind, ne_eq, not_true_eq_false, if_false, walk, whole, Bool.false_eq_true, begins, ready, Bool.not_true, gate, table,
    peers, after]
  change (if collBad u core.toNat m members = true then _ else if collWaits u m members = true then _ else _) = _
  split
  · rfl
  split <;> rfl

section

variable (g : Gathered u c m ranks)

include g

theorem Gathered.waits : collWaits u m (ranks.map Member.local') = false := by
  refine List.any_eq_false.mpr fun x hx => ?_
  obtain ⟨d, hd, rfl⟩ := List.mem_map.mp hx
  simp only [g.head d hd, g.ready d hd, Bool.not_true, Bool.and_false, Bool.false_eq_true, not_false_eq_true]

theorem Gathered.bad_iff : collBad u c m (ranks.map Member.local') = true ↔ ∃ d ∈ ranks, collSame m (headOf u m d) = false := by
  have here : (localMembers (ranks.map Member.local')).contains c = true := by
    rw [localMembers_local]
    exact List.contains_iff_mem.mpr g.here
  have once : (ranks.map Member.local').Nodup := g.once.map fun a b same => Member.local'.inj same
  have none : u.collIn.any (fun x => x.tag = m.tag && (ranks.map Member.local').contains (.remote x.pkg x.x x.y) && !x.fits m) = false :=
    List.any_eq_false.mpr fun x hx => by simp [g.alone x hx]
  rw [collBad, here, eraseDups_of_nodup once, none, g.collPeers, headsOf, List.any_map]
  simp only [Bool.not_true, Nat.lt_irrefl, decide_false, Bool.or_false, Bool.false_or, List.any_eq_true, Function.comp_apply,
    g.mem_membersFrom]
  refine exists_congr fun d => and_congr_right fun hd => ?_
  rw [g.table d hd]
  simp

/-- Every member's command fails. -/
theorem Gathered.collBreak : u.collBreak m.tag (headsOf u m (membersFrom c ranks))
    = (membersFrom c ranks).foldl (fun t d => t.retire d true (headOf u m d) 0 11) u := by
  have none : ((headsOf u m (membersFrom c ranks)).flatMap (fun e => localMembers ((u.collRanks e.1 e.2).getD []))).eraseDups.filter
      (fun d => !((headsOf u m (membersFrom c ranks)).any (fun e => e.1 = d))) = [] := by
    refine List.filter_eq_nil_iff.mpr fun d hd => ?_
    obtain ⟨e, he, mem⟩ := List.mem_flatMap.mp (List.mem_eraseDups.mp hd)
    obtain ⟨f, hf, rfl⟩ := List.mem_map.mp he
    rw [g.table f (g.mem_membersFrom.mp hf), Option.getD_some, localMembers_local] at mem
    have named : (headsOf u m (membersFrom c ranks)).any (fun e => e.1 = d) = true :=
      List.any_eq_true.mpr ⟨_, List.mem_map_of_mem (g.mem_membersFrom.mpr mem), decide_eq_true rfl⟩
    simp [named]
  unfold State.collBreak
  simp only [none, List.foldl_nil]
  rw [g.filter_collIn]
  rw [headsOf, List.foldl_map]
  refine List.foldl_ext _ _ _ fun t d hd => ?_
  rw [g.clean d (g.mem_membersFrom.mp hd)]
  rfl

end

/-! ### A collective carried out -/

section

variable (g : Gathered u c m ranks) (alike : ∀ d ∈ ranks, collSame m (headOf u m d) = true) (whole : ∀ d ∈ ranks, (headOf u m d).lost = false)
  (shares : ∀ d ∈ ranks, share d = u.srcSlot d true (headOf u m d).qa 0 (m.collN * m.collW))

theorem collSame_fields {a b : Cmd} (h : collSame a b = true) :
    b.collKind = a.collKind ∧ b.collN = a.collN ∧ b.collW = a.collW ∧ b.members = a.members := by
  unfold collSame at h
  simp only [Bool.and_eq_true, decide_eq_true_eq] at h
  obtain ⟨⟨⟨kind, n⟩, ty⟩, members⟩ := h
  exact ⟨kind.symm, n.symm, by rw [Cmd.collW, Cmd.collW, ty], members.symm⟩

theorem collDst_of_same {a b : Cmd} (h : collSame a b = true) : b.collDst = a.collDst := by
  obtain ⟨kind, n, w, members⟩ := collSame_fields h
  rw [Cmd.collDst, Cmd.collDst, kind, n, w, members]

/-- The reason of a member's command: its own source slot. -/
def sourceError (u : State) (m : Cmd) (d : Nat) : Nat := if u.srcBad d (headOf u m d).qa 0 (m.collN * m.collW) then 4 else 0

include g alike whole shares

theorem Gathered.collShare (hd : d ∈ ranks) : u.collShare (.local' d) m.tag = some (share d) := by
  obtain ⟨-, n, w, -⟩ := collSame_fields (alike d hd)
  unfold State.collShare
  simp only [g.head d hd, g.begins d hd, whole d hd, Option.isSome_none, Bool.or_self, Bool.false_eq_true, if_false, n, w]
  rw [shares d hd]

theorem Gathered.collRun : u.collRun (ranks.map Member.local') m = ranks.foldl
    (fun t d => memberRun (collOut m ((ranks.map share).map some)) (headOf u m d) (sourceError u m d) t d) u := by
  have given : (ranks.map Member.local').map (fun x => u.collShare x m.tag) = (ranks.map share).map some := by
    rw [List.map_map, List.map_map]
    exact List.map_congr_left fun d hd => g.collShare alike whole shares hd
  have kept : ((ranks.map share).map some).any Option.isNone = false := by
    refine List.any_eq_false.mpr fun x hx => ?_
    obtain ⟨bs, -, rfl⟩ := List.mem_map.mp hx
    exact Bool.false_ne_true
  unfold State.collRun
  simp only [given, kept, Bool.false_eq_true, if_false]
  rw [g.filter_collIn, List.foldl_map]
  refine List.foldl_ext _ _ _ fun t d hd => ?_
  obtain ⟨-, n, w, -⟩ := collSame_fields (alike d hd)
  have reason : firstReason (firstReason 0 (u.headReason d [((headOf u m d).qa, (headOf u m d).collN * (headOf u m d).collW)])) 0
      = sourceError u m d := by
    rw [n, w, State.headReason, List.any_cons, List.any_nil, Bool.or_false, sourceError]
    split <;> rfl
  simp only [g.head d hd, g.begins d hd, g.clean d hd]
  rw [← reason]
  rfl

end

end Sys2Proof.Laws
end

section
/-! PROOFS: what each member of a collective has once it is carried out at all of them, or has failed at all; the statement (09 R224,
R225). -/

namespace Sys2Proof.Laws

open Machine Safety

variable {s t u : State} {c d n : Nat} {m y : Cmd} {ranks : List Nat} {share : Nat → List Byte} {r : Ring}

/-! ### The slots of a member -/

/-- The rings of a member that has begun: slots enough for what is sent, and for what comes. -/
theorem rings_of_begun (kind : y.op = 14) (ready : u.ringsReady d y = true) (begins : u.collFails d y = none) :
    (∃ r, (u.core d).ring y.qa = some r) ∧ ∃ r, (u.core d).ring y.qd = some r ∧ y.collDst ≤ r.desc.size := by
  have sources : y.sources = [(y.qa, 1, 0)] := by unfold Cmd.sources; rw [kind]; rfl
  have dests : y.dests = [(y.qd, 1, 0)] := by unfold Cmd.dests; rw [kind]; rfl
  have fine : collReason u d y = none := by
    unfold State.collFails State.collBegins at begins
    rw [Option.or_eq_none_iff] at begins
    obtain ⟨own, -⟩ := begins
    rw [ready] at own
    split at own
    next => cases own
    next => exact (Option.or_eq_none_iff.mp own).2
  have sized : ¬ (u.slotSize d y.qa < y.collN * y.collW || u.slotSize d y.qd < y.collDst) = true := fun small => by
    rw [collReason, if_pos small] at fine
    cases fine
  unfold State.ringsReady at ready
  simp only [sources, dests, List.all_cons, List.all_nil, Bool.and_true, Bool.and_eq_true] at ready
  obtain ⟨source, dest⟩ := ready
  cases from' : (u.core d).ring y.qa with
  | none => rw [from'] at source; cases source
  | some a =>
    cases to' : (u.core d).ring y.qd with
    | none => rw [to'] at dest; cases dest
    | some b =>
      refine ⟨⟨a, rfl⟩, b, rfl, ?_⟩
      rw [Bool.or_eq_true, decide_eq_true_eq, decide_eq_true_eq, not_or] at sized
      have room := sized.2
      rw [State.slotSize, to'] at room
      exact Nat.not_lt.mp room

theorem length_srcSlot (opened : (u.core d).ring n = some r) (data : Bool) (k len : Nat) : (u.srcSlot d data n k len).length = len := by
  rw [State.srcSlot, opened]
  exact (List.length_map ..).trans List.length_range

/-- The destination slots of members all lie in their larders. -/
def InLarders (u : State) (m : Cmd) (ranks : List Nat) : Prop := ∀ d ∈ ranks, ∀ q, (u.core d).ring (headOf u m d).qd = some q →
  q.desc.win = 0 ∧ q.desc.offset.toNat + q.desc.count * q.desc.size ≤ 0xF000

/-- No member names a counter. -/
def Plain (u : State) (m : Cmd) (ranks : List Nat) : Prop := ∀ d ∈ ranks, (headOf u m d).ctr = none

section

variable (g : Gathered u c m ranks) (alike : ∀ d ∈ ranks, collSame m (headOf u m d) = true)

include g alike

theorem Gathered.dstFits (larders : InLarders u m ranks) (hd : d ∈ ranks) :
    ∃ r, (u.core d).ring (headOf u m d).qd = some r ∧ DstFits u d (headOf u m d).qd m.collDst r := by
  obtain ⟨-, r, opened, room⟩ := rings_of_begun (op_of_collHead (g.head d hd)) (g.ready d hd) (g.begins d hd)
  obtain ⟨window, inside⟩ := larders d hd r opened
  rw [collDst_of_same (alike d hd)] at room
  exact ⟨r, opened, { small := g.small d hd, opened := opened, window := window, inside := inside, room := room }⟩

theorem Gathered.members : ranks.length = m.members := by
  have table := g.table c g.here
  obtain ⟨-, -, -, members⟩ := collSame_fields (alike c g.here)
  have length := length_of_mapM table
  rw [List.length_map, List.length_range, members] at length
  exact length

variable (shares : ∀ d ∈ ranks, share d = u.srcSlot d true (headOf u m d).qa 0 (m.collN * m.collW))

include shares

omit alike in
theorem Gathered.length_share (hd : d ∈ ranks) : (share d).length = m.collN * m.collW := by
  obtain ⟨⟨r, opened⟩, -⟩ := rings_of_begun (op_of_collHead (g.head d hd)) (g.ready d hd) (g.begins d hd)
  rw [shares d hd, length_srcSlot opened]

omit alike in
theorem Gathered.length_shares : ∀ bs ∈ ranks.map share, bs.length = m.collN * m.collW := fun bs hbs => by
  obtain ⟨d, hd, rfl⟩ := List.mem_map.mp hbs
  exact g.length_share shares hd

/-! ### Carried out at all of them -/

/-- The package once every member has had its part. -/
def collDone (u : State) (m : Cmd) (ranks : List Nat) (share : Nat → List Byte) : State :=
  ranks.foldl (fun t d => memberRun (collOut m ((ranks.map share).map some)) (headOf u m d) (sourceError u m d) t d) u

omit alike shares in
theorem Gathered.queue_collDone (hd : d ∈ ranks) : ((collDone u m ranks share).core d).dataq = (u.core d).dataq.drop 1 := by
  obtain ⟨t, before, after⟩ := foldl_around (I := fun e t => (t.core e).dataq = (u.core e).dataq)
    (R := fun s t => (t.core d).dataq = (s.core d).dataq) (fun _ => rfl) (fun _ _ _ h g => g.trans h) g.once hd
    (fun e _ a _ other t kept => (queue_memberRun_other (collOut m ((ranks.map share).map some)) (headOf u m a) (sourceError u m a) t
      other).trans kept)
    (fun e _ other t _ => queue_memberRun_other _ _ _ t other) u fun _ _ => rfl
  exact after.trans ((queue_memberRun ..).trans (congrArg (List.drop 1) before))

section

variable (plain : Plain u m ranks)

include plain

omit g alike shares in
theorem keeps_memberRun {e a : Nat} (ha : a ∈ ranks) (other : a ≠ e) (out : List (Nat × List Byte) × BitVec 5) (reason : Nat) {t : State}
    (kept : EngineKept e u t) : EngineKept e u (memberRun out (headOf u m a) reason t a) :=
  kept.trans (engineKept_memberRun (plain a ha) other)

omit alike shares in
theorem Gathered.sticky_collDone (hd : d ∈ ranks) (runs : (u.slotAt d (headOf u m d).slot).runId = (headOf u m d).uid)
    (task : (headOf u m d).uid ≠ 0) : ((collDone u m ranks share).slotAt d (headOf u m d).slot).dsticky
      = ((u.slotAt d (headOf u m d).slot).note true (collOut m ((ranks.map share).map some)).2 (sourceError u m d)).dsticky := by
  obtain ⟨t, before, after⟩ := foldl_around (I := fun e t => EngineKept e u t) (EngineKept.refl d) (fun _ _ _ h g => h.trans g) g.once hd
    (fun e _ a ha other t => keeps_memberRun plain ha other (collOut m ((ranks.map share).map some)) (sourceError u m a))
    (fun e he other t _ => engineKept_memberRun (plain e he) other) u fun e _ => EngineKept.refl e u
  refine (after.sticky _).trans ((sticky_memberRun (plain d hd) ((before.tasks _).trans runs) task).trans ?_)
  rw [Slot.note, Slot.note]
  simp only [if_true, before.sticky]

theorem Gathered.received_collDone (larders : InLarders u m ranks) (hd : d ∈ ranks) (opened : (u.core d).ring (headOf u m d).qd = some r) :
    Received (collDone u m ranks share) (dstPlace d r) (collOut m ((ranks.map share).map some)).1 := by
  have within := collOut_within (g.length_shares shares) ((List.length_map ..).trans (g.members alike))
  have ordered := collOut_ordered (g.length_shares shares)
  obtain ⟨r', opened', fits⟩ := g.dstFits alike larders hd
  obtain rfl : r' = r := Option.some.inj (opened'.symm.trans opened)
  obtain ⟨t, before, after⟩ := foldl_around (I := fun e t => EngineKept e u t) (R := LarderKept d) (fun _ _ _ _ => rfl)
    (fun _ _ _ h g => h.trans g) g.once hd
    (fun e _ a ha other t => keeps_memberRun plain ha other (collOut m ((ranks.map share).map some)) (sourceError u m a))
    (fun e he other t kept => by
      obtain ⟨q, -, room⟩ := g.dstFits alike larders he
      exact larderKept_memberRun (plain e he) (room.kept kept) within other) u fun e _ => EngineKept.refl e u
  obtain ⟨low, high⟩ := fits.place
  refine (received_memberRun (plain d hd) (fits.kept before) within ordered).of_bytes within fun b first last => after b (by omega) ?_
  unfold larderAt at high ⊢
  omega

end

end

/-! ### Failed at all of them -/

section

variable (g : Gathered u c m ranks)

/-- The package once every member's command has failed. -/
def collFailed (u : State) (m : Cmd) (ds : List Nat) : State := ds.foldl (fun t d => t.retire d true (headOf u m d) 0 11) u

include g

theorem Gathered.queue_collFailed (hd : d ∈ ranks) : ((collFailed u m (membersFrom c ranks)).core d).dataq = (u.core d).dataq.drop 1 := by
  obtain ⟨t, before, after⟩ := foldl_around (I := fun e t => (t.core e).dataq = (u.core e).dataq)
    (R := fun s t => (t.core d).dataq = (s.core d).dataq) (fun _ => rfl) (fun _ _ _ h g => g.trans h) g.nodup_membersFrom
    (g.mem_membersFrom.mpr hd)
    (fun e _ a _ other t kept => (queue_retire_elsewhere t true (headOf u m a) 0 11 other).trans kept)
    (fun e _ other t _ => queue_retire_elsewhere t true (headOf u m e) 0 11 other) u fun _ _ => rfl
  exact after.trans ((dataq_retire ..).trans (congrArg (List.drop 1) before))

variable (plain : Plain u m ranks)

include plain

theorem Gathered.bytes_collFailed : SameBytes u (collFailed u m (membersFrom c ranks)) :=
  List.foldlRecOn (motive := SameBytes u) _ _ (fun _ => rfl) fun _ kept e he p =>
    (sameBytes_retire (plain e (g.mem_membersFrom.mp he)) p).trans (kept p)

/-- What a member shows: its rings as they were, and the error in the sticky status of its slot. -/
theorem Gathered.member_collFailed (hd : d ∈ ranks) : ∃ t, EngineKept d u t
    ∧ EngineKept d (t.retire d true (headOf u m d) 0 11) (collFailed u m (membersFrom c ranks)) :=
  foldl_around (I := fun e t => EngineKept e u t) (EngineKept.refl d) (fun _ _ _ h g => h.trans g) g.nodup_membersFrom
    (g.mem_membersFrom.mpr hd)
    (fun _ _ a ha other _ kept => kept.trans (engineKept_retire (plain a (g.mem_membersFrom.mp ha)) other))
    (fun e he other _ _ => engineKept_retire (plain e (g.mem_membersFrom.mp he)) other) u fun e _ => EngineKept.refl e u

theorem Gathered.rings_collFailed (hd : d ∈ ranks) (q : Nat) :
    ((collFailed u m (membersFrom c ranks)).core d).ring q = (u.core d).ring q := by
  obtain ⟨t, before, after⟩ := g.member_collFailed plain hd
  exact (after.rings q).trans ((rings_failed (plain d hd) (not_completes true (by simp)) q).trans (before.rings q))

theorem Gathered.sticky_collFailed (hd : d ∈ ranks) (runs : (u.slotAt d (headOf u m d).slot).runId = (headOf u m d).uid)
    (task : (headOf u m d).uid ≠ 0) : ((collFailed u m (membersFrom c ranks)).slotAt d (headOf u m d).slot).dsticky
      = ((u.slotAt d (headOf u m d).slot).note true 0 11).dsticky := by
  obtain ⟨t, before, after⟩ := g.member_collFailed plain hd
  refine (after.sticky _).trans ((dsticky_retire (plain d hd) ((before.tasks _).trans runs) task).trans ?_)
  rw [Slot.note, Slot.note]
  simp only [if_true, before.sticky]

end

/-! ### The statement -/

/-- What the sticky status of a slot takes of a command whose source slot is in error, or is not. -/
theorem note_sourceError (x : Slot) (flags : BitVec 5) (bad : Bool) : (x.note true flags (if bad then 4 else 0)).dsticky
    = { flags := x.dsticky.flags ||| flags, err := x.dsticky.err || decide ((if bad then 4 else 0 : BitVec 4) ≠ 0)
        reason := if x.dsticky.err then x.dsticky.reason else if bad then 4 else 0 } := by
  cases bad <;> rfl

/-- Settles O26 (log 9, 42, 96): with its members gathered a COLL comes to one fold over them (`Gathered.collRun`,
`Gathered.collBreak`), in which each sees its own part alone (`foldl_around`): its queue, its sticky status, and in its larder the
runs of `collOut`; of integers the tree is a fold (`treeOf_combined`). -/
theorem collectives : Obligations.Collectives := by
  unfold Obligations.Collectives
  intro s core m rest ranks ls us c u1 u queue kind whole walk begins ready gate table peers table' here once small alone members n w share
    elem noted
  have cores : seat u = seat s := (seat_useHomes us u1).trans (seat_useHomes ls s)
  have atHead : (u.core c).dataq = m :: rest := (congrArg Core.dataq (core_of_cores (congrArg Prod.snd cores) c)).trans queue
  have own : headOf u m c = m := by rw [headOf, collHead_of_queue atHead kind, Option.getD_some]
  have head (d : Nat) (hd : d ∈ ranks) : u.collHead d m.tag = some (headOf u m d) := by
    obtain ⟨y, hy, -⟩ := members d hd
    rw [headOf, hy, Option.getD_some]
  have named {d : Nat} {y : Cmd} (hy : u.collHead d m.tag = some y) : headOf u m d = y := by rw [headOf, hy, Option.getD_some]
  have each (d : Nat) (hd : d ∈ ranks) : u.collFails d (headOf u m d) = none ∧ u.ringsReady d (headOf u m d) = true
      ∧ u.collRanks d (headOf u m d) = some (ranks.map Member.local') ∧ (u.collTable d (headOf u m d)).2 = [] := by
    obtain ⟨y, hy, own⟩ := members d hd
    rw [named hy]
    exact own
  have g : Gathered u c m ranks :=
    { once := once, small := small, here := here, own := own, head := head, alone := alone
      begins := fun d hd => (each d hd).1, ready := fun d hd => (each d hd).2.1
      table := fun d hd => (each d hd).2.2.1, clean := fun d hd => (each d hd).2.2.2 }
  have runs := exec_coll queue kind whole walk begins ready gate table peers (u := u) rfl
  have plain (counts : ∀ e ∈ ranks, ∀ z, u.collHead e m.tag = some z → z.ctr = none) : Plain u m ranks :=
    fun d hd => counts d hd _ (head d hd)
  refine ⟨fun fine => ?_, fun ⟨d, hd, y, hy, differs⟩ => ?_⟩
  · have alike : ∀ d ∈ ranks, collSame m (headOf u m d) = true := fun d hd => (fine d hd _ (head d hd)).1
    have lost : ∀ d ∈ ranks, (headOf u m d).lost = false := fun d hd => (fine d hd _ (head d hd)).2.2
    have shares : ∀ d ∈ ranks, share d = u.srcSlot d true (headOf u m d).qa 0 (m.collN * m.collW) := fun d hd => by
      simp only [share, head d hd]
      rfl
    have good : ¬ collBad u c m (ranks.map Member.local') = true := fun bad => by
      obtain ⟨d, hd, differs⟩ := g.bad_iff.mp bad
      rw [alike d hd] at differs
      cases differs
    rw [if_neg good, g.waits, if_neg Bool.false_ne_true] at runs
    have outs : ranks.map (fun e => some (share e)) = (ranks.map share).map some := (List.map_map ..).symm
    refine ⟨_, runs, rfl, fun d hd y hy => ?_⟩
    obtain rfl := named hy
    rw [g.collRun alike lost shares, outs]
    refine ⟨g.queue_collDone hd, fun counts => ⟨fun runs task => ?_, fun r opened larders => ?_⟩⟩
    · exact (g.sticky_collDone (share := share) (plain counts) hd runs task).trans (note_sourceError ..)
    · intro got
      have fits : InLarders u m ranks := fun e he q ring => larders e he _ q (head e he) ring
      have stands := g.received_collDone alike shares (plain counts) fits hd opened
      have some' : ranks ≠ [] := List.ne_nil_of_mem here
      have size : ∀ d ∈ ranks, (share d).length = m.collN * m.collW := fun d hd => g.length_share shares hd
      have few : ranks.length ≤ 256 := by rw [g.members alike]; exact Nat.mod_lt _ (by decide)
      exact ⟨fun kind j hj => received_broadcast stands size some' kind hj,
        fun kind k e j rank hj => received_gather stands size kind rank hj,
        fun low high int j hj => received_int stands low high int some' few hj,
        fun low high float j hj => received_reduce stands low high hj⟩
  · obtain rfl := named hy
    rw [if_pos (g.bad_iff.mpr ⟨d, hd, differs⟩), g.collPeers, g.collBreak] at runs
    refine ⟨_, runs, fun d hd y hy => ?_⟩
    obtain rfl := named hy
    refine ⟨g.queue_collFailed hd, fun counts => ⟨fun runs task => ?_, g.bytes_collFailed (plain counts),
      g.rings_collFailed (plain counts) hd⟩⟩
    have sticky := g.sticky_collFailed (plain counts) hd runs task
    exact sticky

end Sys2Proof.Laws
end
